-- ==== Sys2Proof/Word.lean ====
section
/-! DEFINITION. The plainest types: a byte, and a byte string held as one little-endian number (R15).
Everything computed on them stands in `Machine/Bits.lean`. -/

namespace Sys2Proof

/-- One byte of a memory or of a message. -/
abbrev Byte := BitVec 8

/-- One 32-bit lane of a vector register (R122). -/
abbrev Lane := BitVec 32

/-- A byte string of `len` bytes. Byte `n` is `(val / 256 ^ n) % 256`, so a multi-byte field at byte offset `n`
holds its least significant byte at `n` (R15), and bit `b` of a structure is bit `b` of `val` (R11). -/
structure Buf where
  len : Nat
  val : Nat
  deriving DecidableEq, Repr, Inhabited

/-- The buffer with no bytes. -/
def Buf.empty : Buf := ⟨0, 0⟩

end Sys2Proof
end

