-- ==== Sys2Proof/Syntax.lean ====
section
/-! DEFINITION. The commands of the block: one constructor for each row of spec/opcode_table.json.

The table gives no row an operand field, so the operands are the model's: what the rule a row cites lets the row's
sender choose or the outside world supply (log entry 2). The first operand `at_` of every command is the instant of
reference time, in ns since power-on, at which it happens: the HALL clock is taken forward to it before the command acts
(log entry 3). -/

namespace Sys2Proof

/-- The user of an Erg slot (R155), or open class (R159). -/
inductive ErgUser where
  | dma | update | spill | cistW | cistR | acxRx | exportRd | maint
  | openDma | openAcrix | openRilseti
  deriving DecidableEq, Repr, Inhabited

/-- A disturbance of stored symbols that the array shows at a read: symbol `symbol` (0 to 9) of codeword `codeword` of
the word or line is XORed with `err` before it is decoded (R164, R165). -/
structure Upset where
  codeword : Nat
  symbol   : Nat
  err      : Byte
  deriving DecidableEq, Repr, Inhabited

/-- A 64-bit word of an SRAM under the symbol code (R144): of a core's scratch, of an entry of a Basin tile, or of Oasis. -/
inductive SramWord where
  | scratch (core word : Nat)
  | basin (core tile acc word : Nat)
  | oasis (word : Nat)
  deriving DecidableEq, Repr, Inhabited

/-- A disturbance of a stored SRAM symbol, there from now on: symbol `symbol` (0 to 9) of the word is XORed with `err`
(R144, R164; log entry 136). -/
structure Strike where
  place  : SramWord
  symbol : Nat
  err    : Byte
  deriving DecidableEq, Repr, Inhabited

/-- A core of a row, with the SRAM symbols disturbed as the row comes (log entry 136). -/
structure CoreRow where
  core    : Nat
  strikes : List Strike
  deriving DecidableEq, Repr, Inhabited

/-- A port that sends a timing symbol, with the fraction of its departure in units of 2^-16 ns (R36). -/
structure DepartPort where
  port : Nat
  frac : Nat
  deriving DecidableEq, Repr, Inhabited

/-- A port whose link frame starts, with the FEC codewords corrected on it since the frame before (R293, log entry 155). -/
structure FramePort where
  port  : Nat
  fixed : Nat
  deriving DecidableEq, Repr, Inhabited

/-- The serial presence data of one channel's DIMM (R148, R149). -/
structure Dimm where
  present  : Bool
  mrdimm   : Bool          -- 1 MRDIMM, 0 RDIMM
  capacity : Nat           -- GB
  density  : Nat           -- Gb of one DRAM device
  width    : Nat           -- device width, 4 for x4
  ranks    : Nat
  checks   : Bool          -- the two check devices are there
  rates    : List Nat      -- MT/s listed
  deriving DecidableEq, Repr, Inhabited

/-- What a timing symbol carries (R36), with the instant of its arrival to 2^-16 ns. -/
structure TimingSymbol where
  depart     : Nat   -- 64 + 16 bits: sender's HT at departure, in units of 2^-16 ns
  echo       : Nat   -- 64 + 16 bits: departure stamp of the last symbol the sender had from this device
  turnaround : Nat   -- 32 bits, units of 2^-16 ns
  state      : Nat   -- 3 bits, coded as HT_STATE.STATE
  hops       : Nat   -- 8 bits
  epochTag   : Nat   -- 16 bits
  arriveFrac : Nat   -- own fraction of a ns at arrival, units of 2^-16 ns
  ready      : Bool  -- READY bit of the QUIET ordered set that carried it (R437)
  deriving DecidableEq, Repr, Inhabited

/-- The operand fields of a vector instruction word (R127). -/
structure VFields where
  vd  : Nat   -- bits 12:8
  va  : Nat   -- bits 17:13
  vb  : Nat   -- bits 22:18
  ty  : Nat   -- bits 25:23
  msk : Nat   -- bits 28:26, MK
  imm : Nat   -- bits 63:32
  deriving DecidableEq, Repr, Inhabited

/-- What a background command's work found: bytes worked through and errors counted (LOOPBACK), failing rows and their
8-byte entries (MBIST), or the lines an ERG_READ returned with an uncorrectable mark. -/
structure BgResult where
  bytes   : Nat
  errors  : Nat
  rows    : Nat
  data    : Buf
  deriving DecidableEq, Repr, Inhabited

/-- The doze sources as the samplers find them (R447). -/
structure DozeInputs where
  farSignal : Nat        -- bit k: signal on a route of far port k
  htPulses  : List (Nat × Nat)   -- rising edge and high time in ns of each HT_IN pulse of the window
  dieTemps  : List Int   -- the ten die sensors, degrees C
  deriving DecidableEq, Repr, Inhabited

/-- The boundary-scan instructions (R497). -/
inductive BscanIns where
  | bypass | idcode | samplePreload | extest | clamp | highz | extestPulse | extestTrain
  deriving DecidableEq, Repr, Inhabited

/-- Messages of a replica repair on VC 2 (R495). -/
inductive RepairMsg where
  | askShards (cw : Nat)
  | shards (cw : Nat) (digests : List (Nat × Nat))                    -- tensor id, SD
  | askNodes (cw tensor copy level node : Nat)
  | nodes (cw tensor copy level node : Nat) (values : List Nat)
  | askLeaf (cw tensor copy leaf : Nat)
  | leaf (cw tensor copy leaf : Nat) (data : Buf)
  deriving DecidableEq, Repr, Inhabited

/-- The commands: one constructor for each row of the table. -/
inductive Instr where
  /-- DEV_INFO (R403). Command that returns the device identity, firmware digest, lifecycle, debug mode, chain address and sampled straps. -/
  | devInfo (at_ : Nat) (mb : Nat) (b0 : Option Buf) (b1 : Option Buf)
  /-- ROLE_CHALLENGE (R403). Command that returns a nonce from the security island, valid for the next ROLE_BIND on this mailbox. -/
  | roleChallenge (at_ : Nat) (mb : Nat) (b0 : Option Buf) (b1 : Option Buf)
  /-- ROLE_BIND (R466). Command that verifies a role proof against the nonce and binds the mailbox to a role, and to a JOB_ID for the Job role. -/
  | roleBind (at_ : Nat) (mb : Nat) (b0 : Option Buf) (b1 : Option Buf)
  /-- BG_QUERY (R403). Command that lists the running background commands and their progress. -/
  | bgQuery (at_ : Nat) (mb : Nat) (b0 : Option Buf) (b1 : Option Buf)
  /-- HT_QUERY (R67). Command that returns the HT_STATE record and the HT_IN qualifier counters. -/
  | htQuery (at_ : Nat) (mb : Nat) (b0 : Option Buf) (b1 : Option Buf)
  /-- HT_SET (R34). Command that gives a root the HT value of the coming second marker; accepted only in UNSET or ACQUIRING. -/
  | htSet (at_ : Nat) (mb : Nat) (b0 : Option Buf) (b1 : Option Buf)
  /-- HT_CONFIG (R403). Command that writes the HT_IN delay, the asymmetry constants or the holdover limit, or clears the HT_IN counters, with a ledger entry. -/
  | htConfig (at_ : Nat) (mb : Nat) (b0 : Option Buf) (b1 : Option Buf)
  /-- SLOT_MISS (R68). Command that returns the per-target slot-miss counter records and optionally clears them. -/
  | slotMiss (at_ : Nat) (mb : Nat) (b0 : Option Buf) (b1 : Option Buf)
  /-- MEM_STATUS (R177). Command that returns the Erg channel records and the per-die memory records. -/
  | memStatus (at_ : Nat) (mb : Nat) (b0 : Option Buf) (b1 : Option Buf)
  /-- ERG_READ (R404). Background command that reads Erg lines in open class into a host buffer, returning poisoned lines as read. -/
  | ergRead (at_ : Nat) (mb : Nat) (b0 : Option Buf) (b1 : Option Buf)
  /-- ERG_WRITE (R405). Background command that writes Erg lines in open class; rejected over job regions while a job is armed. -/
  | ergWrite (at_ : Nat) (mb : Nat) (b0 : Option Buf) (b1 : Option Buf)
  /-- ERG_RETIRE_CLEAR (R176). Command that clears the redirect entries and device marks of a channel, with a ledger entry. -/
  | ergRetireClear (at_ : Nat) (mb : Nat) (b0 : Option Buf) (b1 : Option Buf)
  /-- JOB_ARM (R362). Command that checks a main job image in order and, if every check passes, arms the job. -/
  | jobArm (at_ : Nat) (mb : Nat) (b0 : Option Buf) (b1 : Option Buf)
  /-- JOB_STOP (R406). Command that stops the main job at the end of the current step, after its passes. -/
  | jobStop (at_ : Nat) (mb : Nat) (b0 : Option Buf) (b1 : Option Buf)
  /-- JOB_RESTORE (R408). Command that restores an armed job from a local checkpoint, a buffer or a bulk session, optionally replaying manifest logs. -/
  | jobRestore (at_ : Nat) (mb : Nat) (b0 : Option Buf) (b1 : Option Buf)
  /-- JOB_CHECKPOINT (R409). Command that takes a local or exported checkpoint at the commit point of a named step. -/
  | jobCheckpoint (at_ : Nat) (mb : Nat) (b0 : Option Buf) (b1 : Option Buf)
  /-- RELAYOUT (R289). Command that installs a descriptor set of the next layout epoch from a named boundary step. -/
  | relayout (at_ : Nat) (mb : Nat) (b0 : Option Buf) (b1 : Option Buf)
  /-- COMMIT_STATUS (R258). Command that returns the commit status record. -/
  | commitStatus (at_ : Nat) (mb : Nat) (b0 : Option Buf) (b1 : Option Buf)
  /-- COUNTERS (R406). Command that returns the core, training-state or update-engine counter records. -/
  | counters (at_ : Nat) (mb : Nat) (b0 : Option Buf) (b1 : Option Buf)
  /-- GUEST_ATTACH (R372). Command that checks and attaches a guest image with its seed and key set, zeroing its partitions. -/
  | guestAttach (at_ : Nat) (mb : Nat) (b0 : Option Buf) (b1 : Option Buf)
  /-- GUEST_DETACH (R376). Command that suspends the guest at its next tile boundary, releases and clears its partitions. -/
  | guestDetach (at_ : Nat) (mb : Nat) (b0 : Option Buf) (b1 : Option Buf)
  /-- GUEST_STATUS (R410). Command that returns whether a guest is attached, its ORed flags and its completed kernels. -/
  | guestStatus (at_ : Nat) (mb : Nat) (b0 : Option Buf) (b1 : Option Buf)
  /-- FAR_CONFIG (R330). Command that configures a far-port route's addresses, VLAN, traffic class, hop limit and UDP port. -/
  | farConfig (at_ : Nat) (mb : Nat) (b0 : Option Buf) (b1 : Option Buf)
  /-- ACX_PARTNER (R412). Command that configures a partner site or storage endpoint, its Cistern quota, initial Weir and timeouts. -/
  | acxPartner (at_ : Nat) (mb : Nat) (b0 : Option Buf) (b1 : Option Buf)
  /-- WEIR_BUDGET (R352). Command that queues Weir budget changes to take effect at named HT values. -/
  | weirBudget (at_ : Nat) (mb : Nat) (b0 : Option Buf) (b1 : Option Buf)
  /-- BULK_OPEN (R355). Command that opens a bulk session to a storage endpoint and completes when it is OPEN. -/
  | bulkOpen (at_ : Nat) (mb : Nat) (b0 : Option Buf) (b1 : Option Buf)
  /-- SESSION_CLOSE (R411). Command that sends CLOSE and makes a session CLOSED. -/
  | sessionClose (at_ : Nat) (mb : Nat) (b0 : Option Buf) (b1 : Option Buf)
  /-- ROUND_STATUS (R324). Command that returns the round status record of each fragment. -/
  | roundStatus (at_ : Nat) (mb : Nat) (b0 : Option Buf) (b1 : Option Buf)
  /-- SESSION_STATUS (R358). Command that returns the Acrix session status records. -/
  | sessionStatus (at_ : Nat) (mb : Nat) (b0 : Option Buf) (b1 : Option Buf)
  /-- FAR_STATUS (R357). Command that returns the far-port status records. -/
  | farStatus (at_ : Nat) (mb : Nat) (b0 : Option Buf) (b1 : Option Buf)
  /-- NEAR_STATUS (R293). Command that returns the near-port status records and optionally clears their counters. -/
  | nearStatus (at_ : Nat) (mb : Nat) (b0 : Option Buf) (b1 : Option Buf)
  /-- WATCH_QUERY (R259). Command that returns the numerics watch record of each slot. -/
  | watchQuery (at_ : Nat) (mb : Nat) (b0 : Option Buf) (b1 : Option Buf)
  /-- SCALE_READ (R413). Command that returns a committed tensor scale-history record or the job record. -/
  | scaleRead (at_ : Nat) (mb : Nat) (b0 : Option Buf) (b1 : Option Buf)
  /-- POWER_STATE (R443). Command that checks the refusers and enters RUN, HOLD or DOZE. -/
  | powerState (at_ : Nat) (mb : Nat) (b0 : Option Buf) (b1 : Option Buf)
  /-- DOZE_CONFIG (R415). Command that sets the doze timer, wake sources, far-port mask and temperature windows. -/
  | dozeConfig (at_ : Nat) (mb : Nat) (b0 : Option Buf) (b1 : Option Buf)
  /-- POWER_CAP (R457). Command that sets a power cap in force from the next step boundary. -/
  | powerCap (at_ : Nat) (mb : Nat) (b0 : Option Buf) (b1 : Option Buf)
  /-- POWER_READ (R415). Command that returns package power, the cap, die temperatures and the capped-step count. -/
  | powerRead (at_ : Nat) (mb : Nat) (b0 : Option Buf) (b1 : Option Buf)
  /-- LEDGER_READ (R416). Command that returns ledger entries from a given index. -/
  | ledgerRead (at_ : Nat) (mb : Nat) (b0 : Option Buf) (b1 : Option Buf)
  /-- ATTEST_QUOTE (R478). Command that writes a signed quote over the measurement log, with the identity chain and kept log entries. -/
  | attestQuote (at_ : Nat) (mb : Nat) (b0 : Option Buf) (b1 : Option Buf)
  /-- FW_UPDATE (R469). Background command that verifies a signed firmware image and stores it in the idle slot as pending. -/
  | fwUpdate (at_ : Nat) (mb : Nat) (b0 : Option Buf) (b1 : Option Buf)
  /-- OWNER_TRANSFER (R472). Command that installs a new Owner key or regulator map from a signed transfer record. -/
  | ownerTransfer (at_ : Nat) (mb : Nat) (b0 : Option Buf) (b1 : Option Buf)
  /-- LIFECYCLE_ADVANCE (R467). Command that advances the lifecycle to owned or decommissioned. -/
  | lifecycleAdvance (at_ : Nat) (mb : Nat) (b0 : Option Buf) (b1 : Option Buf)
  /-- DEBUG_ENTER (R473). Command that enters debug mode with a single-use signed grant. -/
  | debugEnter (at_ : Nat) (mb : Nat) (b0 : Option Buf) (b1 : Option Buf)
  /-- ACC_READ (R417). Debug command that holds the core's kernel and reads raw Basin accumulators and the tile state record. -/
  | accRead (at_ : Nat) (mb : Nat) (b0 : Option Buf) (b1 : Option Buf)
  /-- DEBUG_EXIT (R416). Command that leaves debug mode. -/
  | debugExit (at_ : Nat) (mb : Nat) (b0 : Option Buf) (b1 : Option Buf)
  /-- LOOPBACK (R496). Background command that runs a loopback pattern on an interface at a chosen depth and counts errors. -/
  | loopback (at_ : Nat) (mb : Nat) (b0 : Option Buf) (b1 : Option Buf)
  /-- MBIST (R498). Background command that runs March C- over the SRAMs of the selected dies and lists failing rows. -/
  | mbist (at_ : Nat) (mb : Nat) (b0 : Option Buf) (b1 : Option Buf)
  /-- EVENT_MASK (R418). Command that masks or unmasks a list of event codes, all or none. -/
  | eventMask (at_ : Nat) (mb : Nat) (b0 : Option Buf) (b1 : Option Buf)
  /-- EVENT_MASK_READ (R418). Command that returns the masked event codes. -/
  | eventMaskRead (at_ : Nat) (mb : Nat) (b0 : Option Buf) (b1 : Option Buf)
  /-- BG_COMMAND_COMPLETE (R399). A background command finishes its work and its completion is queued. -/
  | bgCommandComplete (at_ : Nat) (opcode : Nat) (res : BgResult)
  /-- MB_DOORBELL (R387). Host write of CMD_TAIL; the latest value is kept, and a count more than 64 ahead stops the mailbox. -/
  | mbDoorbell (at_ : Nat) (mb : Nat) (tail : Nat)
  /-- MB_CPL_HEAD (R388). Host write of CPL_HEAD that frees completion slots. -/
  | mbCplHead (at_ : Nat) (mb : Nat) (head : Nat)
  /-- MB_ENABLE_SET (R385). Host sets MB_CTRL.ENABLE to open a mailbox. -/
  | mbEnableSet (at_ : Nat) (mb : Nat)
  /-- MB_ENABLE_CLEAR (R385). Host clears MB_CTRL.ENABLE, closing the mailbox and aborting fetched commands not yet started. -/
  | mbEnableClear (at_ : Nat) (mb : Nat)
  /-- EV_RING_ENABLE (R394). Host sets the event ring ENABLE bit, zeroing its counts. -/
  | evRingEnable (at_ : Nat) (value : Nat)
  /-- HT_SNAP_TRIGGER (R384). Host write of HT_SNAP_CTRL.TRIGGER that captures HT and the time state. -/
  | htSnapTrigger (at_ : Nat)
  /-- REGISTER_WRITE (R12). Host write to any other BAR0 register, following its access code. -/
  | registerWrite (at_ : Nat) (off : Nat) (width : Nat) (value : Nat)
  /-- MB_FETCH (R388). An open mailbox fetches its next command entry once a command is posted and a completion slot is free. -/
  | mbFetch (at_ : Nat) (mb : Nat) (entry : Option Buf)
  /-- COMPLETION_WRITE (R392). A finished command's completion entry is written once a completion slot is free, followed by its MSI-X message. -/
  | completionWrite (at_ : Nat) (mb : Nat)
  /-- DOORBELL_STUCK (R440). Doorbell writes at the over-fast rate for 10 ms raise DOORBELL_STUCK. -/
  | doorbellStuck (at_ : Nat) (mb : Nat)
  /-- FUNCTION_LEVEL_RESET (R380). A Function Level Reset closes every mailbox, disables the event ring and resets BAR0 and MSI-X. -/
  | functionLevelReset (at_ : Nat)
  /-- D3HOT_ENTRY (R380). Entry to D3hot closes every mailbox and disables the event ring. -/
  | d3hotEntry (at_ : Nat)
  /-- BUS_MASTER_CLEAR (R380). A clear of Bus Master Enable closes every mailbox and disables the event ring. -/
  | busMasterClear (at_ : Nat)
  /-- PCIE_LINK_LOSS (R380). Loss of the PCIe link closes every mailbox and disables the event ring. -/
  | pcieLinkLoss (at_ : Nat)
  /-- EVENT_IRQ_HOLDOFF (R394). The holdoff interval ends and the event interrupt for entries written meanwhile is sent. -/
  | eventIrqHoldoff (at_ : Nat)
  /-- POWER_ON_RESET (R506). VAON and REFCLK_25M become valid, or one falls invalid, and power-on reset is entered. -/
  | powerOnReset (at_ : Nat) (valid : Bool)
  /-- RST_N (R425). RST_N held low for at least 1 us starts a cold reset; shorter pulses are counted as glitches. -/
  | rstN (at_ : Nat) (lowNs : Nat) (high : Bool)
  /-- PERST_N (R422). PERST_N held low for at least 1 us starts a host reset. -/
  | perstN (at_ : Nat) (lowNs : Nat)
  /-- WATCHDOG (R422). Rilseti fails to service its watchdog for 2 s and a warm reset follows. -/
  | watchdog (at_ : Nat)
  /-- THERMAL_TRIP (R422). A die sensor reaches the trip temperature and a cold reset is held until it cools. -/
  | thermalTrip (at_ : Nat) (die : Nat) (temp : Int)
  /-- RESET_RELEASE (R427). The reset stretch ends with RST_N high, and the option-loading phase samples the straps, loads the secure store and starts boot. -/
  | resetRelease (at_ : Nat) (rstHigh : Bool) (boot : Bool) (timeRoot : Bool) (chainHead : Bool) (pufOk : Bool)
  /-- RILSETI_READY (R436). Rilseti finishes booting, RILSETI_READY sets and mailboxes may be opened. -/
  | rilsetiReady (at_ : Nat)
  /-- ERG_BRINGUP (R149). Erg training completes and the population is checked before ERG_READY is set. -/
  | ergBringup (at_ : Nat) (dimms : List Dimm)
  /-- RAIL_POWER_GOOD (R450). The rails of one sequencing order report power good and the next order is enabled. -/
  | railPowerGood (at_ : Nat) (order : Nat)
  /-- ENUM_FRAME (R434). A chain ENUM frame arrives; the device takes NEXT as its address and forwards it incremented. -/
  | enumFrame (at_ : Nat) (frame : Buf)
  /-- ENUM_WALK_TIMER (R428). A device strapped as its own chain head restarts the address walk every 25 ms until a walk is complete. -/
  | enumWalkTimer (at_ : Nat)
  /-- CHAIN_FORWARD (R433). A chain frame not consumed by this device is forwarded with HOPS incremented. -/
  | chainForward (at_ : Nat) (frame : Buf)
  /-- COLD (R431). A chain COLD frame for this device or broadcast starts a cold reset. -/
  | cold (at_ : Nat) (frame : Buf)
  /-- WARM (R431). A chain WARM frame starts a warm reset, restarting HALL if FULL_CLOCK is set. -/
  | warm (at_ : Nat) (frame : Buf)
  /-- ATTN (R431). A chain ATTN frame asks Rilseti to fetch waiting CMD frames. -/
  | attn (at_ : Nat) (frame : Buf)
  /-- CHAIN_ATTN_STUCK (R440). ATTN at the over-fast rate for 100 ms is set aside. -/
  | chainAttnStuck (at_ : Nat)
  /-- CMD (R431). A chain CMD frame delivers a command to the chain mailbox, whose completion returns in a CPL frame. -/
  | cmd (at_ : Nat) (frame : Buf)
  /-- TELEM_REQ (R435). A chain TELEM_REQ frame is answered with a TELEM frame. -/
  | telemReq (at_ : Nat) (frame : Buf)
  /-- DOZE_CFG (R431). A chain DOZE_CFG frame replaces the doze configuration. -/
  | dozeCfg (at_ : Nat) (frame : Buf)
  /-- FWDATA (R432). A chain FWDATA frame copies firmware bytes into the chain staging area. -/
  | fwdata (at_ : Nat) (frame : Buf)
  /-- HT_IN_PULSE (R48). A pulse on HT_IN is qualified and, if valid, used as a time source edge or second marker. -/
  | htInPulse (at_ : Nat) (highNs : Nat) (skewPs : Int)
  /-- HT_IN_STUCK (R48). HT_IN held high for more than 2 ms is dropped as a time source. -/
  | htInStuck (at_ : Nat)
  /-- HT_SET_TIMEOUT (R34). No second marker arrives within 1.5 s of HT_SET and the value is discarded. -/
  | htSetTimeout (at_ : Nat)
  /-- TIMING_SYMBOL_SEND (R36). Every 4,096 ns each near port sends a timing symbol in each direction. -/
  | timingSymbolSend (at_ : Nat) (row : DepartPort)
  /-- TIMING_SYMBOL_RX (R37). A received timing symbol yields an offset and delay sample that disciplines HT and upstream selection. -/
  | timingSymbolRx (at_ : Nat) (port : Nat) (sym : TimingSymbol)
  /-- HT_SOURCE_LOSS_TIMEOUT (R45). In ACQUIRING the source has been lost for 10 ms and the device returns to UNSET. -/
  | htSourceLossTimeout (at_ : Nat)
  /-- HT_LOST (R47). The holdover limit is reached, the device enters LOST and any armed job is stopped. -/
  | htLost (at_ : Nat)
  /-- STEP_START (R50). JT reaches S(n) and step n begins, with the cap, epoch and promotions in force. -/
  | stepStart (at_ : Nat)
  /-- KERNEL_START (R60). Timetable action 0x01 starts a kernel on a core when its precondition is met. -/
  | kernelStart (at_ : Nat) (entry : Nat)
  /-- OPEN_GUEST_BUBBLE (R374). Timetable action 0x02 resumes or starts the guest on a core. -/
  | openGuestBubble (at_ : Nat) (entry : Nat)
  /-- CLOSE_GUEST_BUBBLE (R92). Timetable action 0x03 stops guest issue so the guest suspends at its next tile boundary. -/
  | closeGuestBubble (at_ : Nat) (entry : Nat)
  /-- UPDATE_PASS_START (R213). Timetable action 0x10 starts an update pass that reads the step's decision and applies it. -/
  | updatePassStart (at_ : Nat) (entry : Nat)
  /-- PASS_COMPLETE (R229). An update pass writes its last state and signals SIG_SO. -/
  | passComplete (at_ : Nat) (die : Nat)
  /-- RUN_TRANSFER_LIST (R369). Timetable action 0x20 starts a die DMA transfer list. -/
  | runTransferList (at_ : Nat) (entry : Nat)
  /-- TRANSFER_LIST_COMPLETE (R369). The last write of a transfer list is accepted and the list signals. -/
  | transferListComplete (at_ : Nat) (die : Nat)
  /-- OPEN_SCHEDULED_WINDOW (R153). Timetable action 0x30 opens an Erg window with its mode and shares. -/
  | openScheduledWindow (at_ : Nat) (entry : Nat)
  /-- ERG_WINDOW_END (R153). An Erg window reaches its end, frees its channel and signals. -/
  | ergWindowEnd (at_ : Nat) (ch : Nat)
  /-- REFRESH_NORMAL_RATE (R160). Timetable action 0x31 refreshes every bank of the channel. -/
  | refreshNormalRate (at_ : Nat) (entry : Nat)
  /-- REFRESH_HIGH_RATE (R160). Timetable action 0x32 refreshes the channel only while the high rate is in force. -/
  | refreshHighRate (at_ : Nat) (entry : Nat)
  /-- ERG_REFRESH_AON (R163). Without valid HT the controller refreshes every 97 or 48 AON cycles. -/
  | ergRefreshAon (at_ : Nat) (ch : Nat)
  /-- ERG_LINE_READ (R158). A waiting read takes its share, open or scrub slot and the decoded line is delivered 512 ns later. -/
  | ergLineRead (at_ : Nat) (ch : Nat) (user : ErgUser) (upset : List Upset)
  /-- ERG_LINE_WRITE (R158). A waiting write takes its slot and is accepted with fresh check symbols. -/
  | ergLineWrite (at_ : Nat) (ch : Nat) (user : ErgUser)
  /-- PAGE_RETIRE_COPY_DONE (R174). The copy of a retiring page completes and its redirect waits for the next commit point. -/
  | pageRetireCopyDone (at_ : Nat) (ch : Nat)
  /-- ERG_THERMAL_SAMPLE (R162). Every 1 ms the DIMM sensors are read to select the refresh rate or raise overtemperature. -/
  | ergThermalSample (at_ : Nat) (ch : Nat) (tenths : List Int)
  /-- ERG_SCRUB_LATE (R171). A patrol scrub pass exceeds 24 h. -/
  | ergScrubLate (at_ : Nat) (ch : Nat)
  /-- OASIS_SCRUB (R146). Oasis scrub reads and corrects words in its reserved port share, covering the die once per second. -/
  | oasisScrub (at_ : Nat) (die : Nat) (addr : Nat) (upset : List Upset)
  /-- SRAM_WRITEBACK (R144). A corrected scratch or Basin word is written back in the next idle cycle of its bank. -/
  | sramWriteback (at_ : Nat) (core : Nat) (addr : Nat)
  /-- SEND_PLANNED_BLOCK (R271). Timetable action 0x40 sends a block as consecutive SCHED flits. `gather`: the tensor
  whose shard the block gathers, where it is a gather (R287). -/
  | sendPlannedBlock (at_ : Nat) (entry : Nat) (gather : Option Nat)
  /-- RECEIVE_PLANNED_BLOCK (R273). Timetable action 0x48 binds a block id to its receive buffer. -/
  | receivePlannedBlock (at_ : Nat) (entry : Nat)
  /-- OPEN_TX_WINDOW (R281). Timetable action 0x41 opens an open window on a transmit direction with a credit profile. -/
  | openTxWindow (at_ : Nat) (entry : Nat)
  /-- OPEN_RX_WINDOW (R281). Timetable action 0x49 puts a credit profile in force on a receive direction. -/
  | openRxWindow (at_ : Nat) (entry : Nat)
  /-- RUN_SLICE (R354). Timetable action 0x50 runs a far port's Acrix slice of sealing, opening, encode, sum, shift and bulk work. -/
  | runSlice (at_ : Nat) (entry : Nat)
  /-- ACRIX_IDLE_SLICE (R354). With no job armed, the engine runs a 10 us slice for each far port in turn. -/
  | acrixIdleSlice (at_ : Nat) (port : Nat)
  /-- ACRIX_ENCODE_COMPLETE (R299). The encode of a round completes, writing residuals and the Caravan. -/
  | acrixEncodeComplete (at_ : Nat) (frag : Nat)
  /-- SNAPSHOT_SHIFT_COMPLETE (R315). The snapshot shift after a FULL application completes. -/
  | snapshotShiftComplete (at_ : Nat) (frag : Nat)
  /-- START_VERDICT_FLOOD (R239). Timetable action 0x60 freezes the local flood contribution and starts the flood. -/
  | startVerdictFlood (at_ : Nat) (entry : Nat)
  /-- FLOOD_RESULT (R239). The broadcast flood result reaches the device and FLOOD_SO is signalled. -/
  | floodResult (at_ : Nat) (record : Buf)
  /-- COMMIT_POINT (R242). Timetable action 0x61 decides FINITE, SKIP or PROBE from the flood result and updates the controller. -/
  | commitPoint (at_ : Nat) (entry : Nat)
  /-- ROUND_UNOBTAINABLE (R312). A listed Caravan is still incomplete 4 x TAU_MAX steps after the snapshot and the fragment returns to BOOTSTRAP. -/
  | roundUnobtainable (at_ : Nat) (frag : Nat)
  /-- CATCHUP_SLOT (R63). Timetable action 0xF0 runs its deferred actions and resends in order. `gathers`: the deferred
  sends that are gathers, with the tensor each gathers (R287). -/
  | catchupSlot (at_ : Nat) (entry : Nat) (gathers : List (Nat × Nat))
  /-- GUARD_BAND_EXPIRY (R62). An entry's guard band ends with its precondition unmet and its policy resolves the miss. -/
  | guardBandExpiry (at_ : Nat) (entry : Nat)
  /-- SO_SIGNAL (R58). A signal carrying a step number and skip mark updates a sync object. -/
  | soSignal (at_ : Nat) (so : Nat) (step : Int) (skip : Bool)
  /-- MB_CUTOFF (R249). At S(n) + CUTOFF a micro-batch that is not complete overruns and OVERRUN is applied. -/
  | mbCutoff (at_ : Nat) (mbatch : Nat)
  /-- CARRY_COMPLETE (R250). A deferred micro-batch completes and CARRY_SO is signalled for step n+1. -/
  | carryComplete (at_ : Nat) (mbatch : Nat)
  /-- MIRROR_COPY_COMPLETE (R205). The copy of changed scale history to the Erg mirror completes. -/
  | mirrorCopyComplete (at_ : Nat)
  /-- CKPT_LOCAL_DONE (R409). The end record of a local checkpoint is written. -/
  | ckptLocalDone (at_ : Nat)
  /-- ITEM_ISSUE (R74). The sequencer issues its next kernel item once queue room, interlocks and waits allow. -/
  | itemIssue (at_ : Nat) (core : Nat)
  /-- MATRIX_DESCRIPTOR (R86). A matrix-operation descriptor enters the matrix engine and accumulates into its Basin tile. -/
  | matrixDescriptor (at_ : Nat) (row : CoreRow)
  /-- ACCUMULATION_COMPLETE (R91). A descriptor's accumulation completes, 16 CORE cycles after its last block. -/
  | accumulationComplete (at_ : Nat) (core : Nat) (tile : Nat)
  /-- DRAIN_START (R89). A tile drain starts when its accumulation is complete and the output stage is free. -/
  | drainStart (at_ : Nat) (row : CoreRow) (tile : Nat)
  /-- DRAIN_COMPLETE (R90). A drain writes its last element, ORs tile flags into the step flag record and the descriptor finishes. -/
  | drainComplete (at_ : Nat) (core : Nat)
  /-- CORE_DMA_DESCRIPTOR (R95). A core DMA descriptor starts moving data between scratch, Oasis and peer scratch. -/
  | coreDmaDescriptor (at_ : Nat) (row : CoreRow)
  /-- CORE_DMA_FINISH (R95). A core DMA item finishes and signals. -/
  | coreDmaFinish (at_ : Nat) (core : Nat)
  /-- VECTOR_BLOCK (R126). A vector block enters the vector engine queue and runs its body REPEAT+1 times. -/
  | vectorBlock (at_ : Nat) (core : Nat)
  /-- VECTOR_BLOCK_FINISH (R124). A vector block finishes and ORs VFLAGS into the step flag record. -/
  | vectorBlockFinish (at_ : Nat) (core : Nat)
  /-- KERNEL_END (R73). The END item of a kernel is reached. -/
  | kernelEnd (at_ : Nat) (core : Nat)
  /-- KERNEL_COMPLETE (R74). A kernel completes 4 CORE cycles after its last item finishes and the core becomes idle. -/
  | kernelComplete (at_ : Nat) (core : Nat)
  /-- KERNEL_WAIT_FAULT (R76). A kernel wait is unmet at the end of its footprint, or its sync object is skipped, and the kernel stops. -/
  | kernelWaitFault (at_ : Nat) (core : Nat)
  /-- GUEST_TILE_BOUNDARY (R92). A closing guest reaches a tile boundary and its vector state is saved. -/
  | guestTileBoundary (at_ : Nat) (core : Nat)
  /-- VADD (R128). Vector add. -/
  | vadd (at_ : Nat) (core : Nat) (f : VFields)
  /-- VSUB (R128). Vector subtract. -/
  | vsub (at_ : Nat) (core : Nat) (f : VFields)
  /-- VMUL (R128). Vector multiply. -/
  | vmul (at_ : Nat) (core : Nat) (f : VFields)
  /-- VFMA (R128). Vector fused multiply-add with one rounding. -/
  | vfma (at_ : Nat) (core : Nat) (f : VFields)
  /-- VMAX (R124). Vector elementwise maximum. -/
  | vmax (at_ : Nat) (core : Nat) (f : VFields)
  /-- VMIN (R124). Vector elementwise minimum. -/
  | vmin (at_ : Nat) (core : Nat) (f : VFields)
  /-- VABS (R128). Vector absolute value. -/
  | vabs (at_ : Nat) (core : Nat) (f : VFields)
  /-- VNEG (R128). Vector negation. -/
  | vneg (at_ : Nat) (core : Nat) (f : VFields)
  /-- VCMPLT (R128). Vector compare less-than into a mask. -/
  | vcmplt (at_ : Nat) (core : Nat) (f : VFields)
  /-- VCMPLE (R128). Vector compare less-or-equal into a mask. -/
  | vcmple (at_ : Nat) (core : Nat) (f : VFields)
  /-- VCMPEQ (R128). Vector compare equal into a mask. -/
  | vcmpeq (at_ : Nat) (core : Nat) (f : VFields)
  /-- VSEL (R125). Vector select by mask. -/
  | vsel (at_ : Nat) (core : Nat) (f : VFields)
  /-- VRCP (R131). Table reciprocal. -/
  | vrcp (at_ : Nat) (core : Nat) (f : VFields)
  /-- VRSQ (R131). Table reciprocal square root. -/
  | vrsq (at_ : Nat) (core : Nat) (f : VFields)
  /-- VEXP2 (R131). Table base-2 exponential. -/
  | vexp2 (at_ : Nat) (core : Nat) (f : VFields)
  /-- VLOG2 (R131). Table base-2 logarithm. -/
  | vlog2 (at_ : Nat) (core : Nat) (f : VFields)
  /-- VCVT (R130). Vector type conversion. -/
  | vcvt (at_ : Nat) (core : Nat) (f : VFields)
  /-- VQMX (R130). MX quantisation of 64 FP32 lanes into two blocks. -/
  | vqmx (at_ : Nat) (core : Nat) (f : VFields)
  /-- VIADD (R128). Wrapping integer add. -/
  | viadd (at_ : Nat) (core : Nat) (f : VFields)
  /-- VISUB (R128). Wrapping integer subtract. -/
  | visub (at_ : Nat) (core : Nat) (f : VFields)
  /-- VIMUL (R128). Wrapping integer multiply keeping the low half. -/
  | vimul (at_ : Nat) (core : Nat) (f : VFields)
  /-- VAND (R128). Bitwise AND. -/
  | vand (at_ : Nat) (core : Nat) (f : VFields)
  /-- VOR (R128). Bitwise OR. -/
  | vor (at_ : Nat) (core : Nat) (f : VFields)
  /-- VXOR (R128). Bitwise XOR. -/
  | vxor (at_ : Nat) (core : Nat) (f : VFields)
  /-- VSHL (R128). Shift left. -/
  | vshl (at_ : Nat) (core : Nat) (f : VFields)
  /-- VSHR (R128). Logical shift right. -/
  | vshr (at_ : Nat) (core : Nat) (f : VFields)
  /-- VSRA (R128). Arithmetic shift right. -/
  | vsra (at_ : Nat) (core : Nat) (f : VFields)
  /-- VMOVI (R128). Move immediate into every lane. -/
  | vmovi (at_ : Nat) (core : Nat) (f : VFields)
  /-- VPERM (R128). Lane permutation by index vector. -/
  | vperm (at_ : Nat) (core : Nat) (f : VFields)
  /-- VROT (R128). Lane rotation by immediate. -/
  | vrot (at_ : Nat) (core : Nat) (f : VFields)
  /-- VBCAST (R128). Broadcast of one lane. -/
  | vbcast (at_ : Nat) (core : Nat) (f : VFields)
  /-- VLD (R128). Load 256 bytes from scratch into a register. -/
  | vld (at_ : Nat) (core : Nat) (f : VFields)
  /-- VST (R128). Store a register's 256 bytes to scratch. -/
  | vst (at_ : Nat) (core : Nat) (f : VFields)
  /-- VLDT (R129). Transposed load of 64 rows of 16 bytes. -/
  | vldt (at_ : Nat) (core : Nat) (f : VFields)
  /-- VSTT (R129). Transposed store, the inverse of VLDT. -/
  | vstt (at_ : Nat) (core : Nat) (f : VFields)
  /-- RCLR (R128). Clear a reduction channel. -/
  | rclr (at_ : Nat) (core : Nat) (f : VFields)
  /-- RADD (R135). Add the enabled lanes exactly into a reduction channel. -/
  | radd (at_ : Nat) (core : Nat) (f : VFields)
  /-- RSQ (R135). Add the rounded squares of the enabled lanes exactly into a reduction channel. -/
  | rsq (at_ : Nat) (core : Nat) (f : VFields)
  /-- RGET (R136). Round a channel's value to FP32 into every enabled lane. -/
  | rget (at_ : Nat) (core : Nat) (f : VFields)
  /-- RSTX (R137). Store a channel record to scratch. -/
  | rstx (at_ : Nat) (core : Nat) (f : VFields)
  /-- RLDX (R137). Add a channel record from scratch into a channel exactly. -/
  | rldx (at_ : Nat) (core : Nat) (f : VFields)
  /-- VRNG (R141). Return one word of the lane's Philox draw at its planned counter. -/
  | vrng (at_ : Nat) (core : Nat) (f : VFields)
  /-- VWAIT (R128). Wait until a sync object reaches a count. -/
  | vwait (at_ : Nat) (core : Nat) (f : VFields)
  /-- VSIG (R128). Signal a sync object once earlier instructions complete. -/
  | vsig (at_ : Nat) (core : Nat) (f : VFields)
  /-- VNOP (R128). No operation. -/
  | vnop (at_ : Nat) (core : Nat) (f : VFields)
  /-- POOL_BLOCK_ARRIVAL (R199). A final AFX sum arrives and is added to a pool block, placed in a free slot or appended to the Spillway. -/
  | poolBlockArrival (at_ : Nat) (die : Nat) (block : Buf)
  /-- SPILLWAY_APPEND_COMPLETE (R202). The last SPILL write of a Spillway append is accepted and the record is present. -/
  | spillwayAppendComplete (at_ : Nat) (die : Nat)
  /-- LINK_FRAME_START (R266). Every 4,096 ns a transmit direction in UP starts a link frame of 3,200 flit slots. -/
  | linkFrameStart (at_ : Nat) (row : FramePort)
  /-- CONTROL_SLOT (R276). A link slot sends a control flit with credits, acknowledgements and NAKs. -/
  | controlSlot (at_ : Nat) (port : Nat)
  /-- SCHED_FLIT_RX (R273). A SCHED flit arrives and is accepted into its bound block or discarded as stray. -/
  | schedFlitRx (at_ : Nat) (port : Nat) (flit : Buf)
  /-- SKIP_FLIT_RX (R274). A SKIP flit completes its block without data and signals with the skip mark. -/
  | skipFlitRx (at_ : Nat) (port : Nat) (flit : Buf)
  /-- CTRL_FLIT_RX (R268). A control flit returns credits, acknowledges flits and NAKs missing flits. -/
  | ctrlFlitRx (at_ : Nat) (port : Nat) (flit : Buf)
  /-- OPEN_FLIT_RX (R283). An OPEN flit arrives and is delivered or forwarded in dimension order. -/
  | openFlitRx (at_ : Nat) (port : Nat) (flit : Buf)
  /-- FLIT_LOST (R269). A flit with an uncorrectable codeword, bad CRC or reserved encoding is discarded. -/
  | flitLost (at_ : Nat) (port : Nat) (lanes : List Nat) (flit : Buf)
  /-- OPEN_FLIT_SEND (R281). A queued OPEN flit is sent once it holds a credit within an open window. -/
  | openFlitSend (at_ : Nat) (port : Nat) (vc : Nat) (lane : Nat)
  /-- RECEIVE_BLOCK_COMPLETE (R273). Every byte of a bound block has arrived, its receive operation is applied and SIG_SO is signalled. -/
  | receiveBlockComplete (at_ : Nat) (port : Nat) (block : Nat)
  /-- RECEIVE_HOLD_END (R273). The receive hold ends with a block incomplete, a fault-class miss of its receive entry. -/
  | receiveHoldEnd (at_ : Nat) (port : Nat) (block : Nat)
  /-- LINK_SIGNAL_DETECT (R264). A signal appears on a DOWN port, which enters QUIET. -/
  | linkSignalDetect (at_ : Nat) (port : Nat)
  /-- LINK_TRAIN_SLOT (R438). At its stagger slot a port with both sides READY initiates training. -/
  | linkTrainSlot (at_ : Nat) (port : Nat)
  /-- LINK_TRAIN_REQUEST (R438). A peer's training request is answered at once by a ready port. -/
  | linkTrainRequest (at_ : Nat) (port : Nat)
  /-- LINK_TRAINING_DONE (R263). Training completes at the widest healthy width and the port enters UP. -/
  | linkTrainingDone (at_ : Nat) (port : Nat) (lanes : Nat)
  /-- LINK_DOWN (R264). Loss of lock or 64 uncorrectable codewords take a port from UP to retraining. -/
  | linkDown (at_ : Nat) (port : Nat)
  /-- LINK_RETRAIN_TIMEOUT (R264). Retraining has not completed within 100 ms and the port falls to DOWN. -/
  | linkRetrainTimeout (at_ : Nat) (port : Nat)
  /-- LINKS_LATE (R439). A port still not UP 800 ms after reset release. -/
  | linksLate (at_ : Nat) (port : Nat)
  /-- NEIGHBOUR_NOTICE (R364). A neighbour notice with JOB_ID, CW and epoch arrives on a used port. -/
  | neighbourNotice (at_ : Nat) (port : Nat) (jobId : Nat) (cw : Nat) (epoch : Int)
  /-- RESTART (R487). A RESTART notice, or the device's own fault, stops the job and guest and starts a site job restart. -/
  | restart (at_ : Nat) (port : Nat) (notice : Buf)
  /-- RESTART_WARM_RESET (R487). 100 us after the restart starts, the device performs a mailbox warm reset. -/
  | restartWarmReset (at_ : Nat)
  /-- RESTART_REARM (R487). Once RILSETI_READY and LOCKED, Rilseti re-arms from the stored copy and sends CKPT. -/
  | restartRearm (at_ : Nat)
  /-- CKPT (R487). A CKPT notice arrives; when all have arrived the common step is chosen and loaded. -/
  | ckpt (at_ : Nat) (port : Nat) (notice : Buf)
  /-- RESTART_LOAD_DONE (R487). The restore of the common checkpoint completes and READY is sent. -/
  | restartLoadDone (at_ : Nat)
  /-- READY (R487). A READY notice arrives; when all have arrived the device sets H and E and resumes. -/
  | ready (at_ : Nat) (port : Nat) (notice : Buf)
  /-- RESTART_FAILED (R488). A restart wait expires or no common step exists and the job stays stopped. -/
  | restartFailed (at_ : Nat)
  /-- DIGEST (R493). A replica DIGEST notice arrives and, when the group is complete, commit digests are compared. -/
  | digest (at_ : Nat) (port : Nat) (notice : Buf)
  /-- REPLICA_REPAIR_MESSAGE (R495). A repair request or reply for digest-tree nodes or leaf blocks arrives on VC 2. -/
  | replicaRepairMessage (at_ : Nat) (port : Nat) (msg : RepairMsg)
  /-- DATA_DATAGRAM_RX (R302). A DATA datagram is authenticated and its Caravan chunk stored. -/
  | dataDatagramRx (at_ : Nat) (port : Nat) (route : Nat) (dg : Buf)
  /-- MANIFEST_RX (R306). A MANIFEST datagram arrives and the manifest is adopted, echoed or ignored. -/
  | manifestRx (at_ : Nat) (port : Nat) (route : Nat) (dg : Buf)
  /-- ROUND_SUM (R310). Once the manifest is adopted and every listed Caravan is held, the round is summed into the sum region. -/
  | roundSum (at_ : Nat) (frag : Nat)
  /-- DIGEST_RX (R322). An anchor digest message arrives and is compared with the device's own for the round. -/
  | digestRx (at_ : Nat) (port : Nat) (route : Nat) (dg : Buf)
  /-- NOTICE_RX (R320). A join notice naming the joiner's last closed round arrives. -/
  | noticeRx (at_ : Nat) (port : Nat) (route : Nat) (dg : Buf)
  /-- REQUEST_RX (R312). A chunk REQUEST arrives and is served from the Cistern or receive area. -/
  | requestRx (at_ : Nat) (port : Nat) (route : Nat) (dg : Buf)
  /-- ACK_RX (R333). An ACK datagram settles SEQs and may mark earlier datagrams lost by REORDER. -/
  | ackRx (at_ : Nat) (port : Nat) (route : Nat) (dg : Buf)
  /-- HEARTBEAT_RX (R348). A HEARTBEAT advances the peer's SEND_FLOOR, reports route health and yields an RTT sample. -/
  | heartbeatRx (at_ : Nat) (port : Nat) (route : Nat) (dg : Buf)
  /-- BULK_RX (R355). A BULK datagram delivers bytes of a record stream. -/
  | bulkRx (at_ : Nat) (port : Nat) (route : Nat) (dg : Buf)
  /-- CLOSE_RX (R350). A CLOSE datagram makes the session CLOSED. -/
  | closeRx (at_ : Nat) (port : Nat) (route : Nat) (dg : Buf)
  /-- INIT_RX (R335). An INIT is verified and answered with ACCEPT carrying the encrypted secret. -/
  | initRx (at_ : Nat) (port : Nat) (route : Nat) (payload : Buf)
  /-- ACCEPT_RX (R335). An ACCEPT is verified, keys are derived and heartbeats sent to open the session. -/
  | acceptRx (at_ : Nat) (port : Nat) (route : Nat) (payload : Buf)
  /-- FOREIGN_FRAME (R328). A received frame that fails the address, port, checksum, version or type rules is discarded. -/
  | foreignFrame (at_ : Nat) (port : Nat) (route : Nat) (frame : Buf)
  /-- NEIGHBOR_SOLICITATION (R328). An ICMPv6 Neighbor Solicitation for the route's address is answered with an advertisement. -/
  | neighborSolicitation (at_ : Nat) (port : Nat) (route : Nat) (frame : Buf)
  /-- INIT_RETRY (R335). No ACCEPT within the retry interval and INIT is sent again with a doubled interval. -/
  | initRetry (at_ : Nat) (sess : Nat)
  /-- ACK_TIMER (R333). Every 100 us or 64 arrivals an ACK datagram reports unreported arrivals. -/
  | ackTimer (at_ : Nat) (sess : Nat)
  /-- HEARTBEAT_TIMER (R348). Every 500 us a HEARTBEAT is sent on each route. -/
  | heartbeatTimer (at_ : Nat) (sess : Nat)
  /-- RTO_EXPIRY (R345). A reliable datagram reaches its RTO unacknowledged and is deemed lost. -/
  | rtoExpiry (at_ : Nat) (sess : Nat) (seq : Nat)
  /-- DATAGRAM_TRANSMIT (R351). A waiting datagram leaves once the Weir holds its cost, in priority order. -/
  | datagramTransmit (at_ : Nat) (sess : Nat)
  /-- ROUTE_FAIL (R349). No datagram for 1,500 us or loss of signal marks a route failed and moves its traffic. -/
  | routeFail (at_ : Nat) (sess : Nat) (route : Nat) (signalLost : Bool)
  /-- SESSION_TIMEOUT (R350). A HELD session's timeout passes and it becomes CLOSED. -/
  | sessionTimeout (at_ : Nat) (sess : Nat)
  /-- ACX_KEY_RATCHET (R338). After 2^32 datagrams or 600 s a direction moves to the next key epoch. -/
  | acxKeyRatchet (at_ : Nat) (sess : Nat)
  /-- KEY_HOLD_EXPIRY (R339). The hold of the previous receive epoch's key ends and the key is erased. -/
  | keyHoldExpiry (at_ : Nat) (sess : Nat)
  /-- WEIR_BUDGET_EFFECTIVE (R352). A pending budget change takes effect at its EFFECTIVE_HT. -/
  | weirBudgetEffective (at_ : Nat) (target : Nat)
  /-- BOOTSTRAP_DONE (R319). Every block of the bootstrap pull is in place and the fragment enters JOINING. -/
  | bootstrapDone (at_ : Nat) (frag : Nat)
  /-- DOZE_SAMPLE (R447). The doze timer expires and the enabled wake sources are sampled. -/
  | dozeSample (at_ : Nat) (inp : DozeInputs)
  /-- POWER_ENTRY_COMPLETE (R444). Entry to HOLD or DOZE completes. -/
  | powerEntryComplete (at_ : Nat)
  /-- PM_ALERT (R453). PM_ALERT_N asserts and the regulators' STATUS_WORD is read. -/
  | pmAlert (at_ : Nat) (statuses : (List (Nat × Nat)))
  /-- RAIL_ALERT_STUCK (R453). PM_ALERT_N held beyond 100 ms is set aside. -/
  | railAlertStuck (at_ : Nat)
  /-- POWER_SAMPLE (R454). Every 100 us rail voltage and current are polled for package power. -/
  | powerSample (at_ : Nat) (milliwatts : Nat)
  /-- AVS_UPDATE (R452). At most every 10 ms a new VCORE target is written over AVSBus. -/
  | avsUpdate (at_ : Nat) (die : Nat) (millivolts : Nat)
  /-- DROOP_DETECT (R455). The droop detector reads below 95 % of target and the die gates CORE and OASIS clocks. -/
  | droopDetect (at_ : Nat) (die : Nat)
  /-- DROOP_RECOVER (R455). The rail recovers to 97 %, or 8 gated cycles pass, and gating ends. -/
  | droopRecover (at_ : Nat) (die : Nat)
  /-- DIE_TEMPERATURE_CHANGE (R510). A die sensor crosses 105 C or falls below 100 C and HOT_N is driven or released. -/
  | dieTemperatureChange (at_ : Nat) (die : Nat) (temp : Int)
  /-- BSCAN_INSTRUCTION (R497). A boundary-scan instruction is loaded; pin-taking instructions stop the job. -/
  | bscanInstruction (at_ : Nat) (ins : BscanIns)
  /-- OPTION_LOADING_COMPLETE (R436). The option-loading phase completes; near ports with signal enter QUIET, Erg training starts and ENUM is accepted. -/
  | optionLoadingComplete (at_ : Nat)
  /-- LINK_TRAINING_FAILED (R438). A training attempt fails and the port returns to QUIET until its next stagger slot. -/
  | linkTrainingFailed (at_ : Nat) (port : Nat)
  /-- LINK_SIGNAL_LOSS (R264). Signal disappears on a port in QUIET or TRAINING and the port falls to DOWN. -/
  | linkSignalLoss (at_ : Nat) (port : Nat)
  /-- FOOTPRINT_END (R64). The footprint of an entry ends while its port transfer or Erg window still runs, so the transfer is cut as a fault-class miss; a receive footprint ending names missing flits for NAK. -/
  | footprintEnd (at_ : Nat) (entry : Nat)
  /-- FAR_ROUTE_LINK_UP (R349). The Ethernet link of a far-port route comes up, so heartbeats can flow on it and it can return to use. -/
  | farRouteLinkUp (at_ : Nat) (port : Nat) (route : Nat)
  deriving DecidableEq, Repr

end Sys2Proof
end

