-- ==== Sys2Proof/Machine/State.lean ====
section
/-! DEFINITION. The state of the block as plain data, and `State.reset`.

A comment at a field gives its width, the rule that names it and its reset value, in that order; the same list stands in
INVENTORY.md. `Tab` is the one shape of an indexed set of registers: a list of (index, value) pairs with strictly rising
indices that lists no entry at its reset value, so that equal register files are equal data. -/

namespace Sys2Proof.Machine

/-- An indexed set of values: strictly rising indices, and no entry that equals the default. -/
abbrev Tab (α : Type) := List (Nat × α)

/-- A byte memory in canonical form (log entry 5). -/
abbrev Mem := List Host.Cell

/-- A memory under the S8 symbol code (R164): the data symbols as they are stored, and in `chk`, at byte 2w and 2w + 1
for 64-bit word w, what is XORed into check symbols 8 and 9 beyond the valid ones. A word with both at 0 is a valid
codeword; both at 0x01 is the poison marker (R168). -/
structure Ram where
  data : Mem
  chk  : Mem
  deriving DecidableEq, Repr, Inhabited

/-! ### Hall time -/

/-- HT_STATE.STATE (R44, R67). -/
inductive HtState where
  | unset | acquiring | locked | holdover | lost
  deriving DecidableEq, Repr, Inhabited

/-- The hall-time unit and the settings it works from. -/
structure HtUnit where
  state       : HtState          -- 3 bits; R44, R67; UNSET
  off         : Int              -- HT minus reference time in ns, so HT is 64 bits; R33, R43; 0 (HT not valid in UNSET)
  root        : Bool             -- 1 bit; R67 ROOT, STRAP_TIMEROOT as sampled; false before the first sample (DESIGN CHOICE false, log entry 6)
  far         : Bool             -- 1 bit; R42, R67 FAR; 0
  source      : Nat              -- 4 bits; R67 SOURCE; 0xF
  hops        : Nat              -- 8 bits; R39, R67 HOPS; 0xFF
  offsetPs    : Int              -- signed 32 bits; R67 OFFSET_PS; 0
  lastChange  : Nat              -- 64 bits; R67 HT_LAST_CHANGE; 0
  holdSince   : Nat              -- ns of reference time of the entry to HOLDOVER; R46, R67 HOLDOVER_US; 0
  lockRun     : Nat              -- consecutive exchanges or pulses within 100 ps; R45; 0
  srcLostAt   : Option Nat       -- when the source was lost in ACQUIRING; R45; none
  pendingSet  : Option (Nat × Nat) -- HT_SET value and the instant it was taken; R34; none
  edgeLast    : Option Nat       -- last accepted HT_IN rising edge; R48; none
  inDropped   : Bool             -- HT_IN dropped as a source; R48; false
  inGood      : Nat              -- consecutive valid pulses while dropped; R48; 0
  inOverruns  : Nat              -- 32 bits, saturating; R48; 0
  inInvalid   : Nat              -- 32 bits, saturating; R48; 0
  overrunEvAt : Option Nat       -- last HT_IN_OVERRUN event; R48; none
  cands       : Tab Nat          -- consecutive exchanges or pulses of each candidate (8 HT_IN) that count for it; R39, R45; 0
  setAt       : Nat              -- own HT, units of 2^-16 ns, when HT was last set or stepped (the model's own); R37; 0
  leftOut     : Option Nat       -- the port that showed an excess offset; R43; none
  snapHt      : Nat              -- 64 bits; R384 HT_SNAP; 0
  snapState   : Nat              -- 3 bits; R384 HT_SNAP_STATE.STATE; 0
  snapValid   : Bool             -- 1 bit; R384 HT_SNAP_STATE.VALID; 0
  deriving DecidableEq, Repr, Inhabited

/-! ### Timetable, sync objects, job -/

/-- A sync object (R58). -/
structure SyncObj where
  step  : Int    -- signed 64 bits; R58; State.soStart
  count : Nat    -- 32 bits, saturating; R58; 0
  skip  : Bool   -- 1 bit; R58; 0
  deriving DecidableEq, Repr, Inhabited

/-- A slot-miss record of one target (R68). -/
structure MissRec where
  late        : Nat   -- 32 bits, saturating; R68; 0
  deferred    : Nat   -- 32 bits, saturating; R68; 0
  skipped     : Nat   -- 32 bits, saturating; R68; 0
  faulted     : Nat   -- 32 bits, saturating; R68; 0
  maxLateNs   : Nat   -- 32 bits; R68; 0
  catchupFull : Nat   -- 32 bits, saturating; R68; 0
  lastStep    : Nat   -- 64 bits; R68 LAST_MISS_STEP; 0
  deriving DecidableEq, Repr, Inhabited

/-- What became of a timetable entry in the running step (R59 to R64). -/
inductive EntryState where
  | idle                    -- its instant has not been resolved yet
  | waiting                 -- due, precondition unmet, within its guard band
  | deferred                -- moved to its catch-up entry
  | running (since : Nat)   -- its action runs since this JT
  | done                    -- completed, and signalled if SIG_EN is 1
  | skipped                 -- skipped, with the skip mark signalled if SIG_EN is 1
  | faulted                 -- a fault-class miss
  deriving DecidableEq, Repr, Inhabited

/-- Where the main job stands (R362 to R365, R487). -/
inductive JobPhase where
  | armed | running | stopping | stopped | restarting
  deriving DecidableEq, Repr, Inhabited

/-- The armed main job. -/
structure Job where
  image     : Buf              -- the job image as armed; R360
  epoch     : Int              -- signed 64 bits; R49 E; as the arm names it
  hasEpoch  : Bool             -- E is set; false only between steps 3 and 5 of R487
  seed      : Nat              -- 128 bits; R362, R407
  sfLimit   : Nat              -- 1 to 64; R65, R407
  phase     : JobPhase         -- R365
  fresh     : Bool             -- no step has started since the arm or restore; R285, R364, R408
  step      : Nat              -- running or next step n; R50
  sn        : Nat              -- S of that step in ns of JT; R50
  xNext     : Nat              -- X of that step, fixed by the flood result; R50
  xPrev     : Nat              -- X of the step before; R458
  sfRun     : Nat              -- consecutive steps with a fault-class miss; R65
  missThis  : Bool             -- the step has a fault-class miss; R65
  relayout  : Option (Nat × Buf) -- boundary step B and the image of epoch E + 1; R289
  oldImage  : Option Buf       -- the image of the older epoch while two are held; R185, R291
  drainStep : Nat              -- step B of the last re-layout; R291
  stopMb    : Option Nat       -- mailbox whose JOB_STOP waits for the stop; R406
  deriving DecidableEq, Repr, Inhabited

/-! ### Cores -/

/-- One accumulator: the 640-bit integer J, the pending carries PC2 to PC9 and SPEC (R104, R105). -/
structure Acc where
  limbs : Nat     -- 640 bits: LIMB0 to LIMB9; R104; 0
  pc    : Nat     -- 16 bits: PC2 to PC9, two bits each; R105; 0
  spec  : Nat     -- 2 bits; R105; 0b00
  chk   : Nat     -- 160 bits: what is XORed into check symbols 8 and 9 of its ten 64-bit words beyond the valid ones; R105, R144; 0
  deriving DecidableEq, Repr, Inhabited

/-- A Basin tile: its accumulators, its state record (R109) and the descriptor that used it last. -/
structure Tile where
  acc      : Tab Acc      -- 9,216 accumulators of 640 + 24 bits; R70, R104, R105; all zero
  open_    : Bool         -- contents are unpredictable since an ORTHO or PRECOND pass; R93; false
  pcount   : Nat          -- 33 bits; R109 PCOUNT; 0
  texp     : Int          -- signed 9 bits; R109 TEXP; 0
  fInvalid : Bool         -- R109, R112; 0
  fOver    : Bool         -- R109, R112; 0
  fUnder   : Bool         -- R109, R112; 0
  fClip    : Bool         -- R109, R112; 0
  lastTag  : Nat          -- 16 bits; R109 LAST_TAG; 0
  desc     : Buf          -- the 64-byte descriptor that used it last; R84; zero
  drainedCc : Nat         -- CORE cycle at which its last drain ended; R89, R91; 0
  guestUse : Bool         -- the descriptor that used it last was a guest's; R92; false
  deriving DecidableEq, Repr, Inhabited

/-- A reduction channel (R135, R137). -/
structure Channel where
  q     : Int   -- 320 bits, two's complement; R135; 0
  spec  : Nat   -- 2 bits; R137; 0b00
  count : Nat   -- 41 bits; R137; 0
  deriving DecidableEq, Repr, Inhabited

/-- The vector state of a core: what every kernel start clears and a guest suspension saves (R122, R139). -/
structure VState where
  regs  : Tab Lane          -- V0 to V31, register r lane l at 64 r + l, 32 bits; R122; 0
  masks : Tab (BitVec 64)   -- MK1 to MK7, 64 bits (MK0 reads all ones); R122; 0
  chans : Tab Channel       -- channels 0 to 3; R122, R137; cleared
  fInvalid : Bool           -- VFLAGS; R122; 0
  fOver    : Bool           -- VFLAGS; R122; 0
  fUnder   : Bool           -- VFLAGS; R122; 0
  fClip    : Bool           -- VFLAGS; R122; 0
  deriving DecidableEq, Repr, Inhabited

/-- A vector block in the engine (R126). -/
structure VBlock where
  base   : Nat   -- kernel-store offset of its header; R126
  done   : Nat   -- instructions executed, over every repetition; R126
  issued : Nat   -- CORE cycles of issue used; R133, R141
  deriving DecidableEq, Repr, Inhabited

/-- An item a core's engine queue holds. -/
structure Item where
  off     : Nat      -- offset of the item in the kernel's code; R73
  index   : Nat      -- item index in the kernel; R254
  body    : Buf      -- its bytes; R84, R94, R126
  issueCc : Nat      -- CORE cycle of issue; R91
  startCc : Option Nat -- CORE cycle its engine took it up; R91
  deriving DecidableEq, Repr, Inhabited

/-- The element writes and flags of a drain between its start and its completion (R89, R90). -/
structure Drain where
  tile    : Nat
  item    : Item
  writes  : List (Nat × Nat × Nat)  -- scratch byte address, value, bits
  fInvalid : Bool
  fOver    : Bool
  fUnder   : Bool
  fClip    : Bool
  underflows : Nat                  -- elements written as zero with underflow; R256
  doneCc  : Nat                     -- R91
  deriving DecidableEq, Repr, Inhabited

/-- A kernel that runs on a core (R74, R75). -/
structure Kernel where
  index     : Nat      -- kernel index on the core; R368
  entry     : Nat      -- timetable entry that started it; R60
  guest     : Bool     -- a guest kernel; R374
  base      : Nat      -- kernel-store offset of its first byte; R368
  nprof     : Nat      -- NPROF; R368
  codeLen   : Nat      -- bytes; R368
  step      : Nat      -- step number its signals carry; R75
  startCc   : Nat      -- CORE cycle of its start; R60
  plannedJt : Nat      -- planned JT its draws use; R51, R141, R368
  limitJt   : Nat      -- end of the footprint within which it may wait; R76
  pos       : Nat      -- offset of the next item; R73
  nextIndex : Nat      -- index of the next item; R254
  lastIssue : Nat      -- CORE cycle of the last issue; R91
  issuedAny : Bool     -- an item has been issued; R91
  stopped   : Bool     -- stopped under R76, R87, R107 or R138
  ended     : Bool     -- END reached; R74
  lastDone  : Nat      -- CORE cycle at which the last item finished; R74
  qCount    : Nat      -- q of R141: CORE cycles since its action started in which the vector engine issued
  passed    : Nat      -- items passed over by the watch; R255
  waitFrom  : Option Nat -- CORE cycle since which the next item waits on a sync object; R96
  lockFrom  : Option Nat -- CORE cycle since which the next item is held under R71 or R74; R96
  vwaitFrom : Option Nat -- CORE cycle since which a VWAIT of its block waits; R96, R128
  deriving DecidableEq, Repr, Inhabited

/-- The step flag record of a core (R234); the guest flag record has the same shape (R374). -/
structure FlagRec where
  invalid   : Bool   -- R234 bit 0; 0
  overflow  : Bool   -- R234 bit 1; 0
  underflow : Bool   -- R234 bit 2; 0
  clipped   : Bool   -- R234 bit 3; 0
  deferred  : Bool   -- R234 bit 4; 0
  faultMiss : Bool   -- R234 bit 5; 0
  step      : Nat    -- 32 bits; R234 STEP; 0
  deriving DecidableEq, Repr, Inhabited

/-- A guest suspended on a core, or waiting for its next bubble (R92, R374). Its saved vector state lies in its scratch
partition (R139). -/
structure GuestCore where
  kernel : Option Kernel   -- suspended kernel; R374; none
  next   : Nat             -- next kernel of the table; R374; 0
  deriving DecidableEq, Repr, Inhabited

/-- One core (R70). -/
structure Core where
  kernel  : Option Kernel   -- R74; none
  mq      : List Item       -- matrix engine queue, depth 4; R70, R74; empty
  dq      : List Item       -- core DMA queue, depth 4; R74; empty
  vq      : List Item       -- vector queue, depth 2; R133; empty
  vact    : Option (Item × VBlock) -- block in the vector engine; R126; none
  tile0   : Tile            -- Basin TILE 0; R70; zero
  tile1   : Tile            -- Basin TILE 1; R70; zero
  drainq  : List (Nat × Item) -- descriptors whose drain waits for the output stage, with the CORE cycle it became due; R89; empty
  drain   : Option Drain    -- the one output stage; R89; none
  arrayFree : Nat           -- CORE cycle at which the array is free; R89, R91; 0
  v       : VState          -- R122; zero
  flags   : FlagRec         -- R88, R234; 0
  gflags  : FlagRec         -- guest flag record; R374; 0
  busy    : Nat             -- 64 bits, saturating; R96 BUSY_CYCLES; 0
  interlock : Nat           -- 32 bits, saturating; R96; 0
  fetchSlow : Nat           -- 32 bits, saturating; R96; 0
  conflicts : Nat           -- 32 bits, saturating; R96; 0
  waitCycles : Nat          -- 32 bits, saturating; R96; 0
  samples : List Nat        -- TAGs in the sample list, at most 16; R254; empty
  bubble  : Option Nat      -- bubble open on the core; R374; none
  closing : Bool            -- 0x03 seen, the guest runs to its tile boundary; R92; false
  closeCc : Nat             -- CORE cycle at which 0x03 was seen; R92, R139; 0
  bubbleEntry : Nat         -- timetable entry that opened the bubble; R141, R374; 0
  bubbleQ : Nat             -- q of R141 of that action: CORE cycles in which the vector engine issued; 0
  accHold : Option Nat      -- mailbox whose ACC_READ holds the kernel at its next item boundary; R110, R417; none
  overran : Bool            -- a main entry missed its slot because of the guest; R92, R376; false
  guest   : GuestCore       -- R139, R374; nothing suspended
  writeback : List Nat      -- scratch and Basin words corrected on a read and not yet written back; R144; empty
  deriving DecidableEq, Repr, Inhabited

/-! ### Memory -/

/-- Where the line of an Erg read goes, or where a write's line came from. -/
inductive ErgDest where
  | host (mb off : Nat)               -- an ERG_READ buffer
  | oasis (die addr : Nat)            -- a transfer list item, to Oasis; `die` runs the list
  | scratch (die core addr : Nat)     -- a transfer list item, to scratch
  | erg (die addr : Nat)              -- a transfer list item, to Erg
  | scrub                             -- patrol scrub
  | copy (spare : Nat)                -- a retirement copy to this spare index
  | engine                            -- an engine that takes the line itself
  deriving DecidableEq, Repr, Inhabited

/-- A request that waits at an Erg channel (R156 to R159). -/
structure ErgReq where
  user   : ErgUser
  write  : Bool
  line   : Nat        -- ELA of the line; for scrub and copies the channel-local line number
  data   : Nat        -- the 64 bytes of a write
  poison : Bool       -- the write stores the line poisoned (R168, R174)
  reread : Bool       -- the one more read of R158
  dest   : ErgDest
  deriving DecidableEq, Repr, Inhabited

/-- A retirement copy in progress (R174). -/
structure Retire where
  frame  : Nat    -- frame being retired
  spare  : Nat    -- spare index taken
  line   : Nat    -- lines copied so far, of 32,768
  ready  : Bool   -- the copy is complete and waits for the commit point
  deriving DecidableEq, Repr, Inhabited

/-- An Erg channel (R148 to R177). -/
structure ErgChannel where
  corrected     : Nat   -- 32 bits, saturating; R177; 0
  uncorrectable : Nat   -- 32 bits, saturating; R177; 0
  rereads       : Nat   -- 32 bits, saturating; R177; 0
  scrubLine     : Nat   -- 32 bits; R171, R177; 0
  scrubPassS    : Nat   -- 32 bits; R177; 0
  scrubStart    : Nat   -- start of the running scrub pass, ns; R171; 0
  scrubLate     : Bool  -- ERG_SCRUB_LATE raised for the running pass; R171; false
  tempC         : Int   -- signed 8 bits; R177 TEMP_C; 0
  highRate      : Bool  -- R162, R177; 0
  coolRun       : Nat   -- consecutive readings below 83.0 C; R162; 0
  shareWaits    : Nat   -- 32 bits, saturating; R156, R177; 0
  sharesAt      : Nat   -- ns up to which groups have been judged for SHARE_WAITS (the model's own); R156; 0
  idleFrom      : Nat   -- ns at which the last refresh footprint or window ended; R159; 0
  groupAt       : Nat   -- ns at which the group of the last slot served began; R153; 0
  groupUsed     : List Nat -- slots of that group already taken; R153; empty
  rotor         : ErgUser  -- open-class user served last; R159; openRilseti (DESIGN CHOICE, log entry 24)
  lastRefresh   : Nat   -- last refresh, ns of reference time; R163; 0
  refreshes     : Nat   -- refreshes issued (the model's own count); R160; 0
  window        : Option (Nat × Nat × Nat × Nat) -- open window: entry, descriptor, start and end JT; R153; none
  queue         : List ErgReq  -- requests waiting, oldest first; R156, R159; empty
  fixes         : List (Nat × Nat × Nat × Nat) -- corrections of the last 24 h: line, rank and subchannel, position, ns; R167, R173; empty
  retire        : Option Retire -- R174; none
  retireNext    : List Nat     -- frames whose trigger fired while another frame of the channel is being retired; R173; empty
  correctedEvAt : Option Nat   -- last MEM_CORRECTED event; R178; none
  deriving DecidableEq, Repr, Inhabited

/-- Erg as a whole. -/
structure Erg where
  ready    : Bool            -- ERG_READY; R149, R384; 0
  training : Bool            -- Erg training is in progress; R149, R436; 0
  capacity : Nat             -- GB per channel; R148; 0 before bring-up
  density  : Nat             -- Gb of a DRAM device; R148, R161; 0
  ranks    : Nat             -- 2 or 4; R148, R151; 0
  mrdimm   : Bool            -- kind of the population; R148; false
  rate     : Nat             -- running data rate in MT/s, 0 when Erg is unavailable; R149, R177; 0
  ram      : Ram             -- the DRAM lines by physical place; R151, R164; nothing listed (log entry 5)
  chans    : Tab ErgChannel  -- E00 to E31; R177; as ErgChannel
  deriving DecidableEq, Repr, Inhabited

/-- What a compute die keeps: memory counters (R177), training-state counters (R211), update counters (R230), its DMA
engine, its update engine and its reduction-buffer pool. -/
structure Die where
  oasisCorrected     : Nat   -- 32 bits, saturating; R177; 0
  oasisUncorrectable : Nat   -- 32 bits, saturating; R177; 0
  coreCorrected      : Nat   -- 32 bits, saturating; R177; 0
  coreUncorrectable  : Nat   -- 32 bits, saturating; R177; 0
  correctedEvAt      : Option Nat -- last MEM_CORRECTED event; R178; none
  oasisWriteback     : List Nat -- Oasis words corrected on a read and not yet written back; R144; empty
  pool       : List Buf      -- AFX blocks in the reduction-buffer pool; R198, R199; empty
  poolAt     : List Nat      -- the slot that each of them lies in; R198, R199; empty
  rbPeak     : Nat           -- 32 bits, saturating; R211; 0
  spillBlocks : Nat          -- 32 bits, saturating; R211; 0
  spillPeak  : Nat           -- 32 bits, saturating; R211; 0
  nfBlocks   : Nat           -- 32 bits, saturating; R211; 0
  ovfBlocks  : Nat           -- 32 bits, saturating; R211; 0
  anchorClamps : Nat         -- 32 bits, saturating; R211; 0
  passesRun  : Nat           -- 32 bits, saturating; R230; 0
  passesIdle : Nat           -- 32 bits, saturating; R230; 0
  elements   : Nat           -- 64 bits, saturating; R230; 0
  srSat      : Nat           -- 32 bits, saturating; R230; 0
  outerFull  : Nat           -- 32 bits, saturating; R230; 0
  outerOnly  : Nat           -- 32 bits, saturating; R230; 0
  stallUs    : Nat           -- 32 bits, saturating; R230; 0
  dma        : Option (Nat × Nat)       -- running transfer list: entry and step; R369; none
  dmaLeft    : Nat           -- Erg lines the running item still waits for; R369; 0
  dmaItem    : Nat           -- next item of the running list; R369; 0
  dmaItems   : Nat           -- items of the running list not yet started; R369; 0
  pass       : Option (Nat × Nat × Nat) -- running pass: entry, step and end JT; R229; none
  temp       : Int           -- die sensor, signed degrees C; R415; 0 (DESIGN CHOICE 0, log entry 6)
  gateOn     : Bool          -- CORE and OASIS clocks gated; R455; 0
  gateStart  : Nat           -- ns at which gating began; R455; 0
  gateEnd    : Nat           -- ns at which the last gated run ended; R455; 0
  gated      : Nat           -- gated CORE cycles in all; R456; 0
  gatedRep   : Nat           -- gated CORE cycles at the last POWER_DROOP; R456; 0
  droopEvAt  : Option Nat    -- last POWER_DROOP event; R456; none
  coreMv     : Nat           -- AVS target in mV; R452; 0 (DESIGN CHOICE 0, log entry 6)
  avsAt      : Option Nat    -- last AVS target write; R452; none
  deriving DecidableEq, Repr, Inhabited

/-- A Spillway record (R201, R202). -/
structure Spill where
  off     : Nat    -- offset in the Spillway region
  die     : Nat    -- die that owns the block's tensor
  block   : Buf    -- the AFX block
  step    : Nat    -- step in which it was written
  entry   : Option Nat -- receive entry it came through, where the model knows it
  present : Bool   -- its last line has been accepted
  valid   : Bool   -- unconsumed
  deriving DecidableEq, Repr, Inhabited

/-! ### Step commit -/

/-- Controller fields of the job scale-history record (R245). -/
structure ScaleHist where
  lexp      : Int          -- signed 8 bits; R245; L_INIT at arm (0 with no job)
  bias      : Nat          -- 8 bits, 0 to 64; R245; 0
  nexp      : Int          -- signed 16 bits; R245; NEXP_INIT at arm (0 with no job)
  skipRun   : Nat          -- 16 bits; R245; 0
  probeLeft : Nat          -- 8 bits; R245; 0
  shAbsent  : Bool         -- R245; 0
  goodRun   : Nat          -- 32 bits; R245; 0
  commits   : Nat          -- 64 bits; R245; 0
  skips     : Nat          -- 64 bits; R245; 0
  lastStep  : Nat          -- 64 bits; R245; 0
  promoted  : Nat          -- 256 bits; R245; 0
  ufRun     : Tab Nat      -- 256 fields of 16 bits; R245; 0
  nwRun     : Tab Nat      -- 256 fields of 16 bits; R245; 0
  deriving DecidableEq, Repr, Inhabited

/-- The three decisions of a commit point (R242). -/
inductive Decision where
  | finite | skip | probe
  deriving DecidableEq, Repr, Inhabited

/-- The decision record (R242). -/
structure DecisionRec where
  step     : Nat        -- 64 bits
  decision : Decision   -- 2 bits
  cause    : Nat        -- 16 bits
  kappa    : Nat        -- FP32 clip factor
  deriving DecidableEq, Repr, Inhabited

/-- The step controller. -/
structure Commit where
  hist        : ScaleHist          -- R245
  cause       : Nat                -- 16 bits: local causes of the running step; R235; 0
  causeNext   : Nat                -- causes held for the next step; R236; 0
  frozen      : Bool               -- the local contribution is frozen; R236; 0
  sqnorm      : Nat                -- 128 bits: local squared norm; R238; 0
  nfBlocks    : Nat                -- 32 bits: local NF blocks; R237; 0
  ovfBlocks   : Nat                -- 32 bits: local OVF blocks; R237; 0
  nonzero     : Nat                -- 256 bits; R256; 0
  ufCount     : Tab Nat            -- 256 counts of 32 bits; R256; 0
  promoted    : Nat                -- watch slots whose promotion is in force in the running step; R255; 0
  stretch     : Nat                -- overrun request; R249; 0
  capReq      : Nat                -- own capping request; R458; 0
  flood       : Option Buf         -- the step controller's flood record; R237; none
  floodSent   : Bool               -- a hop has taken the flood record on; R239; false
  result      : Option Buf         -- the flood result of the step; R239; none
  decision    : Option DecisionRec -- R242; none
  shPending   : Tab Nat            -- pending amax by tensor, FP32; R204; empty
  probeFails  : Nat                -- probes that failed in a row; R252; 0
  probeNext   : Bool               -- the next decision is PROBE; R251; 0
  ufPending   : Option (Tab Nat)   -- pending UF_RUN; R257; none
  nwPending   : Option (Tab Nat)   -- pending NW_RUN; R255; none
  gexpPending : List Nat           -- slots whose GEXP rises at a finite commit; R257; empty
  mirrorDue   : Option Nat         -- step whose mirror copy runs; R205; none
  dataPos     : Nat                -- 64 bits; R208 DATA_POS; 0
  lastFinite  : Nat                -- 64 bits: step of the last finite commit; R287 COMMIT_STEP; 0
  mbDeferred  : List Nat           -- micro-batches deferred in this step; R249; empty
  mbDropped   : List Nat           -- micro-batches dropped in this step; R249; empty
  stepL       : Int                -- signed 8 bits: L of the running step; R186; 0
  stepG       : Tab Int            -- signed 8 bits each: Gₜ of the running step by tensor; R186; 0
  gradShut    : List (Nat × Nat)   -- tensors whose gradient buffer a kernel converts or has converted in the running step, each with the kernel's entry; R188; empty
  formed      : List Nat           -- tensors whose outgoing AFX blocks the running step has formed; R193; empty
  folded      : Bool               -- the carry buffer has been added into the running step's blocks; R250; false
  mbStarted   : Nat                -- micro-batches started in the running step; R233; 0
  carryG      : Tab Int            -- signed 8 bits each: Gₜ recorded with the carry buffer; R250; 0
  carry       : Option (Nat × List (Nat × Nat × Bool) × Int) -- carry buffer: step, its micro-batches with CARRY_SO and whether complete, and L recorded; R250; none
  afxEvent    : Bool               -- AFX_OVERFLOW raised in this step; R212; 0
  srEvent     : Bool               -- SR_SATURATE raised in this step; R231; 0
  cSkips      : Nat   -- 32 bits, saturating; R258 SKIPS; 0
  cCommits    : Nat   -- 64 bits, saturating; R258 COMMITS; 0
  cNonfinite  : Nat   -- 32 bits, saturating; R258; 0
  cRange      : Nat   -- 32 bits, saturating; R258; 0
  cFault      : Nat   -- 32 bits, saturating; R258; 0
  cFloor      : Nat   -- 32 bits, saturating; R258 LS_FLOOR; 0
  cDeferred   : Nat   -- 32 bits, saturating; R258; 0
  cDropped    : Nat   -- 32 bits, saturating; R258; 0
  cStretched  : Nat   -- 32 bits, saturating; R258; 0
  cCarryLost  : Nat   -- 32 bits, saturating; R258; 0
  cStretchSteps : Nat -- 32 bits, saturating; R258; 0
  cListFull   : Nat   -- 32 bits, saturating; R258 NW_LIST_FULL; 0
  cProbes     : Nat   -- 32 bits, saturating; R258 PROBE_STEPS; 0
  wUfLast     : Tab Nat   -- 32 bits a slot; R259; 0
  wSilent     : Tab Nat   -- 16 bits a slot, saturating; R259; 0
  wErr        : Tab Nat   -- FP32 a slot; R259 NW_ERR; 0
  wNonzero    : Nat       -- 256 bits; R259 NONZERO_LAST; 0
  ckptLocal   : Option (Nat × Option Nat)  -- pending local checkpoint: step (0 next) and waiting mailbox; R409; none
  ckptExport  : Option (Nat × Nat × Nat × Option Nat) -- pending export: step, session, id, waiting mailbox; R409; none
  ckptTail    : Option (Bool × Option (Nat × Nat)) -- checkpoint of this commit point still to be read: local, and session and id of an export; R209; none
  ckptResid   : List (Nat × Nat × Nat) -- residuals in force at this commit point, copied for its checkpoint: tensor, residual, its last round + 1; R209; empty
  ckptWait    : Option (Nat × List Buf) -- local checkpoint that waits for the mirror copy: step, and its records; R205; none
  mirrored    : Option Nat -- step whose commit the mirror region holds; R205; none
  ckptWriting : Option (Nat × Nat × Nat × Buf) -- local checkpoint being written: step, half, ELA of its end record, end record; R409; none
  ckptBad     : List Nat -- halves of the CHECKPOINT region that a bad line has made invalid; R170; none
  exports     : List (Nat × Nat) -- export ids being sent and their sessions; R355; empty
  deriving DecidableEq, Repr, Inhabited

/-! ### Near ports -/

/-- R264. -/
inductive LinkState where
  | down | quiet | training | up
  deriving DecidableEq, Repr, Inhabited

/-- A block bound on a receive direction (R273). -/
structure Bind where
  entry    : Nat          -- receive entry
  desc     : Buf          -- its block descriptor; R270
  step     : Nat
  got      : List Nat     -- FIDX received
  resent   : List Nat     -- FIDX received or lost with RESEND
  total    : Nat          -- flits of the block
  missing  : List Nat     -- FIDX named missing; R276
  afxDone  : List Nat     -- AFX blocks already added; R270
  data     : Nat          -- payload bytes received so far, little-endian
  holdOver : Bool         -- the receive entry's footprint has ended; R273
  done     : Bool         -- every byte has arrived; the block stays bound until its receive hold ends; R273
  fin      : Nat          -- JT at which the footprint of the receive hold ends; R273
  deriving DecidableEq, Repr, Inhabited

/-- A block sent and not yet acknowledged in full (R277, R278). -/
structure Sent where
  entry  : Nat
  block  : Nat
  step   : Nat
  start  : Nat          -- HT at which its first flit left
  flits  : List Buf     -- unacknowledged flits in the replay buffer
  held   : List Buf     -- flits NAKed, in the held store
  late   : Bool         -- its resend slot has passed
  deriving DecidableEq, Repr, Inhabited

/-- A near port: link, timing, planned blocks and open traffic. -/
structure NearPort where
  state     : LinkState   -- 2 bits; R264, R293; DOWN
  width     : Nat         -- 4 bits; R263, R293; 0
  lanesOk   : Nat         -- 8 bits; R293; 0
  lanes     : Nat         -- 8 bits: the lane group in use; R263; 0
  fecRun    : Tab Nat     -- consecutive uncorrectable FEC codewords of each lane; R264; 0
  retrains  : Nat         -- 16 bits, saturating; R293; 0
  delayPs   : Option Nat  -- 32 bits; R37, R293 DELAY_PS; not measured
  fecCorr   : Nat         -- 32 bits, saturating; R293; 0
  fecUncorr : Nat         -- 32 bits, saturating; R293; 0
  resends   : Nat         -- 32 bits, saturating; R293; 0
  strays    : Nat         -- 32 bits, saturating; R293; 0
  pauseUs   : Nat         -- 32 bits, saturating; R284, R293; 0
  lost      : Nat         -- 32 bits, saturating; R269, R293; 0
  signal    : Bool        -- a signal is present; R264; 0
  trainAt   : Nat         -- ns at which retraining began; R264; 0
  wasUp     : Bool        -- the training is a retraining out of UP; R264; 0
  lateRaised : Bool       -- LINKS_LATE raised; R439; 0
  peerState : Nat         -- 3 bits; R36; 0
  peerHops  : Nat         -- 8 bits; R36; 255
  peerTag   : Nat         -- 16 bits; R36 epoch tag; 0
  peerReady : Bool        -- READY of the peer; R437; 0
  peerStamp : Nat         -- 80 bits: peer's last departure stamp; R36; 0
  peerAt    : Nat         -- own HT at its arrival, units of 2^-16 ns; R36; 0
  peerSeen  : Bool        -- a symbol has been received; R36; 0
  ownStamp  : Nat         -- 80 bits: own last departure stamp; R36; 0
  frames    : Nat         -- link frames started (the model's own count); R266; 0
  frameHt   : Nat         -- HT of the running link frame; R266; 0
  binds     : List Bind   -- R273; empty
  sent      : List Sent   -- replay buffer and held store; R277; empty
  ackBlock  : Nat         -- 24 bits: block acknowledged last; R268; 0xFFFFFF
  ackFidx   : Nat         -- 16 bits; R268; 0
  acks      : List (Nat × Nat) -- blocks with arrivals not yet acknowledged, oldest first, and their highest FIDX received; R268, R276; empty
  ctlHt     : Nat         -- HT + 1 of the last control slot (the model's own); R266; 0
  strayStep : Option Nat  -- step of the last LINK_STRAY event; R294; none
  notice    : Option (Nat × Nat × Int) -- neighbour notice: JOB_ID, CW, E; R364; none
  txWindow  : Option (Nat × Nat × Nat) -- open transmit window: entry, profile, end JT; R281; none
  txBusy    : Nat         -- HT at which the last flit of the block or resend being sent has left (the model's own); R271, R278; 0
  txGuest   : Nat         -- VC 1 flits sent in the window; R281; 0
  rxProfile : Option Nat  -- credit profile in force on receive; R281; none
  credits   : Tab Nat     -- credits held, VC-lane 2v + w; R281; 0
  rxHeld    : Tab Nat     -- flits in the open buffer, VC-lane 2v + w; R281; 0
  lent      : Tab Nat     -- credits granted to the peer and not yet used, VC-lane 2v + w; R268, R281; 0
  openSlot  : Nat         -- data slot of the last OPEN flit sent, counted over link frames, + 1 (the model's own); R266; 0
  msgNext   : Tab Nat     -- 6 bits: message id of the next message sent on a VC; R267, R282; 0
  txHeld    : List (Nat × Buf) -- flits of producers that a full transmit queue holds: VC and flit; R284; empty
  txq       : Tab (List (Nat × Buf)) -- flits waiting on VC-lane 2v + w, each with the open buffer it lies in, 8 * port + VC-lane, or 64 for a producer's; R283, R284; empty
  paused    : Tab Nat     -- ns since which a VC-lane has a flit queued and no credit, + 1; R284; none
  rxMsgs    : Tab Nat     -- messages in progress: VC and id to the next FIDX + 1; R282; 0
  inbox     : List (Nat × Buf) -- flits of messages for the management processor and the step controller, in the open buffer until they are taken: VC and flit; R280; empty
  deriving DecidableEq, Repr, Inhabited

/-! ### Acrix -/

/-- A round outstanding at this device (R296, R313, R316). -/
structure Round where
  round    : Nat
  snapStep : Nat
  encoded  : Bool               -- R299
  deriving DecidableEq, Repr, Inhabited

/-- A fragment of the outer rounds. -/
structure Fragment where
  jstate    : Nat            -- 2 bits: 0 DETACHED, 1 BOOTSTRAP, 2 JOINING, 3 ACTIVE; R318; 0
  closed    : Nat            -- last round closed + 1, so 0 means none; R324 ROUND_CLOSED; 0
  applied   : Nat            -- last round applied + 1, so 0 means none; R206, R287; 0
  snapSteps : Tab Nat        -- steps + 1 at which this device's own rounds were snapshotted, while their Caravans are kept; R302; 0
  snapLater : List Nat       -- logged steps of deferred snapshots to replay; R317; empty
  active    : Nat            -- 5 bits: A(r) of the next round to adopt; R303, R323; 0
  nextAdopt : Nat            -- next round to adopt; R306; 0
  nextSnap  : Nat            -- next round to snapshot; R323; 0
  activeFrom : Nat           -- first round of ACTIVE; R318; 0
  out       : List Round     -- outstanding rounds, oldest first; R316; empty
  encoding  : Option Nat     -- round whose encode runs; R299; none
  encHeld   : Bool           -- encode held by a full Cistern; R343; 0
  shifting  : Bool           -- a snapshot shift runs; R315; 0
  repairing : Bool           -- an anchor repair runs; R322; 0
  residRound : Nat           -- last encoded round + 1; R206; 0
  held      : List Buf       -- manifests held, little-endian records; R306; empty
  adopted   : List Buf       -- adopted manifests, newest first; R306; empty
  caravans  : Tab (Tab Buf)  -- received chunks: key 64 round + site, then chunk index; R302; empty
  chunksOf  : Tab Nat        -- number of chunks known complete for the same key; R304; 0
  listed    : Tab Nat        -- last round + 1 in which a site was listed; R307; 0
  notices   : Tab Nat        -- last closed round + 1 a joiner named, by site; R320; 0
  attempts  : Tab Nat        -- attempts treated as lost for the round to adopt; R308; 0
  published : List (Nat × Nat) -- rounds and attempts this device has published; R308; empty
  sumReady  : Bool           -- READY of the apply record; R311; 0
  sumRound  : Nat            -- ROUND of the apply record; R311; 0
  sumMode   : Nat            -- MODE of the apply record; R311; 0
  sumStep   : Nat            -- STEP of the apply record; R311; 0
  applyLater : List (Nat × Nat × Nat) -- logged applications to replay: round, step, mode; R317; empty
  digests   : Tab (Nat × Nat × Nat) -- own anchor and outer digests by round, with the step applied; R321; empty
  others    : List (Nat × Nat × Nat × Nat × Nat) -- received digests: site, round, anchor, outer, step of arrival; R321; empty
  donor     : Option Nat     -- bootstrap donor; R319; none
  bootRound : Nat            -- r_b of the records placed; R319; 0
  bootData  : List Buf       -- bootstrap records held until the commit; R319; empty
  bootReady : Bool           -- the pull is complete and waits for a finite commit; R319; 0
  log       : List Buf       -- manifest log entries since the last export; R323; empty
  snapDeferred : Nat         -- 32 bits, saturating; R324; 0
  carriedN  : Nat            -- 32 bits, saturating; R324 CARRIED; 0
  staleDropped : Nat         -- 32 bits, saturating; R324; 0
  takeovers : Nat            -- 16 bits, saturating; R324; 0
  conflicts : Nat            -- 16 bits, saturating; R324; 0
  anchorOnly : Nat           -- 16 bits, saturating; R324; 0
  mismatches : Nat           -- 16 bits, saturating; R324; 0
  lagSteps  : Nat            -- 32 bits; R324; 0
  deriving DecidableEq, Repr, Inhabited

/-- A route of a far port: its link, its settings (R328, R330) and its state (R349). -/
structure FarRoute where
  linkUp  : Bool   -- the Ethernet link is up; R349; 0
  mac     : Nat    -- 48 bits; R330, R411; 0
  nextHop : Nat    -- 48 bits; R330, R411; 0
  vid     : Nat    -- 12 bits; R411; 0
  prio    : Nat    -- 3 bits; R411; 0
  vlanEn  : Bool   -- R411; 0
  tclass  : Nat    -- 8 bits; R328; 0x00
  hopLim  : Nat    -- 8 bits; R328; 64
  udpPort : Nat    -- 16 bits; R328; 46721
  ip6     : Nat    -- 128 bits; R411; 0
  deriving DecidableEq, Repr, Inhabited

/-- A far port (R357). -/
structure FarPort where
  routeA    : FarRoute
  routeB    : FarRoute
  partner   : Nat    -- 3 bits; R357; 0x7
  failovers : Nat    -- 16 bits, saturating; R357; 0
  foreign   : Nat    -- 32 bits, saturating; R357; 0
  stageDrops : Nat   -- 32 bits, saturating; R354, R357; 0
  fcsErrors : Nat    -- 32 bits, saturating; R357; 0
  txCount   : Nat    -- 64 bits, saturating; R357; 0
  rxCount   : Nat    -- 64 bits, saturating; R357; 0
  slice     : Option (Nat × Nat × Nat) -- running slice: entry + 1 (0 idle slice), enables, end ns; R354; none
  staged    : Nat    -- bytes in the receive staging buffer; R354; 0
  deriving DecidableEq, Repr, Inhabited

/-- A partner site or storage endpoint (R330, R412). -/
structure Partner where
  used      : Bool   -- configured; R330; 0
  port      : Nat    -- 2 bits; R412; 0
  quota     : Nat    -- 32 bits; R342, R412; 0
  rate      : Nat    -- 32 bits, Mb/s; R352, R412; 0
  burst     : Nat    -- 16 bits, KiB; R352, R412; 0
  retryMax  : Nat    -- 6 bits; R347, R412; 16
  timeoutS  : Nat    -- 16 bits, s; R350, R412; 30
  keyDigest : Nat    -- 256 bits; R330, R412; 0
  addrA     : Nat    -- 128 bits; R412; 0
  addrB     : Nat    -- 128 bits; R412; 0
  budgets   : List (Nat × Nat × Nat) -- pending changes of its Weir: EFFECTIVE_HT, RATE, BURST, at most 8; R352; empty
  deriving DecidableEq, Repr, Inhabited

/-- R334. -/
inductive SessState where
  | closed | opening | open_ | held
  deriving DecidableEq, Repr, Inhabited

/-- A datagram of a session: a reliable one holds a Cistern descriptor (R341). -/
structure Datagram where
  type    : Nat      -- R332
  seq     : Nat      -- 48 bits
  round   : Nat
  frag    : Nat
  chunk   : Nat
  last    : Bool
  payload : Buf
  txCount : Nat      -- transmissions made; R331, R347
  route   : Nat      -- route last sent on
  sentAt  : Nat      -- ns of the last transmission
  rtoNs   : Nat      -- RTO fixed for that transmission; R345
  timeouts : Nat     -- RTO expiries of this SEQ; R345
  lost    : Bool     -- deemed lost, waits for its resend; R345
  deriving DecidableEq, Repr, Inhabited

/-- One route of a session: RTT estimates and health (R344 to R349). -/
structure SessRoute where
  inUse   : Bool     -- R348; 0
  failed  : Bool     -- R349; 0
  rxOk    : Bool     -- ROUTE_RX of this side; R348; 0
  peerOk  : Bool     -- ROUTE_RX of the peer; R348; 0
  lastRx  : Nat      -- ns of the last authenticated datagram; R349; 0
  hbRun   : Nat      -- consecutive heartbeats on a failed route; R349; 0
  hasRtt  : Bool     -- SRTT is initialised; R344; 0
  srtt    : Nat      -- ns; R344; 0
  rttvar  : Nat      -- ns; R344; 0
  cands   : List Nat -- candidate samples, ns; R346; empty
  widen   : Nat      -- REORDER widening, ns; R346; 0
  widenTo : Nat      -- ns at which the widening ends; R346; 0
  tsNew   : Option (Nat × Nat) -- newest TSVAL and its arrival, ns; R344; none
  ackedTo : Nat      -- ns at which the newest acknowledged datagram was sent; R345; 0
  used    : Bool     -- it has been in use in this session; R349; 0
  deriving DecidableEq, Repr, Inhabited

/-- An Acrix session (R334, R358). -/
structure Session where
  used      : Bool        -- a session holds this place; R334; 0
  localId   : Nat         -- 16 bits; R334, R358; 0
  peerId    : Nat         -- 16 bits; R334; 0
  state     : SessState   -- R334; CLOSED
  bulk      : Bool        -- R358; 0
  peer      : Nat         -- partner site, or 8 + storage endpoint; R334; 0
  port      : Nat         -- R358; 0
  initiator : Bool        -- R334; 0
  nonceI    : Nat         -- 256 bits; R335; 0
  nonceR    : Nat         -- 256 bits; R335; 0
  initPay   : Buf         -- the INIT payload; R335; empty
  initAt    : Nat         -- ns of the last INIT; R335; 0
  initGap   : Nat         -- ns to the next INIT; R335; 0
  openSince : Nat         -- ns at which OPENING began; R402 NO_SESSION; 0
  waitMb    : Option Nat  -- mailbox whose BULK_OPEN waits; R411; none
  csTx      : Nat         -- 256 bits: chain secret of the sending direction; R336; 0
  csRx      : Nat         -- 256 bits: chain secret of the receiving direction; R336; 0
  keyTx     : Nat         -- 288 bits: KEY and SALT of the sending epoch; R336; 0
  keyRx     : Nat         -- 288 bits: KEY and SALT of the newest receiving epoch; R336; 0
  keyRxNext : Nat         -- 288 bits: KEY and SALT of epoch e + 1; R339; 0
  keyRxOld  : Option (Nat × Nat) -- key of the epoch before and when its hold ends, ns; R339; none
  txEpoch   : Nat         -- 16 bits; R338, R358; 0
  rxEpoch   : Nat         -- 16 bits; R339, R358; 0
  epochAt   : Nat         -- HT at which the sending epoch began; R338; 0
  epochSent : Nat         -- datagrams sent under it; R338; 0
  nextSeq   : Nat         -- 48 bits; R332; 0
  ackBase   : Nat         -- 48 bits: lowest SEQ not received; R331; 0
  gotAbove  : List Nat    -- SEQs received above ACK_BASE; R331; empty
  peerAck   : Nat         -- 48 bits: the peer's ACK_BASE; R342; 0
  unrep     : Nat         -- arrivals not reported; R333; 0
  ackAt     : Nat         -- ns of the last ACK; R333; 0
  ackFrom   : Nat         -- SEQ from which the next ACK continues; R333; 0
  flight    : List Datagram -- Cistern descriptors, oldest first; R341; empty
  queue     : List Datagram -- on-chip transmit queue, 64 places; R353; empty
  loose     : List (Nat × Nat × Nat) -- unreliable datagrams not yet acknowledged: route, sent ns, SEQ; R345; empty
  ra        : SessRoute
  rb        : SessRoute
  lastRoute : Nat         -- route of the last reliable datagram; R348; 1
  maxRtt    : Nat         -- largest RTT sample, ns; R339; 0
  heldAt    : Nat         -- ns at which HELD began; R350; 0
  hbAt      : Nat         -- ns of the last heartbeat; R348; 0
  tokens    : Nat         -- Weir tokens, in units of 1/8,000 byte; R351; 0
  tokensAt  : Nat         -- ns of the last token update; R351; 0
  rate      : Nat         -- Mb/s; R352; 0
  burst     : Nat         -- KiB; R352; 0
  quota     : Nat         -- descriptors; R342; 0
  budgets   : List (Nat × Nat × Nat) -- pending changes of a bulk session's Weir: EFFECTIVE_HT, RATE, BURST, at most 8; R352; empty
  authEvAt  : Option Nat  -- last ACX_AUTH_FAIL; R340; none
  fullEvAt  : Option Nat  -- last ACX_CISTERN_FULL; R343; none
  exportId  : Option Nat  -- export or pull a bulk session carries; R355; none
  outStream : List Datagram -- datagrams whose producer is held, not yet queued; R353, R355; empty
  holdFrom  : Option Nat  -- ns since which a producer is held; R353; none
  fullFrom  : Option Nat  -- ns since which the Cistern holds it; R343; none
  inStream  : Tab Buf     -- bulk datagrams received, by index; R355; empty
  inLast    : Option Nat  -- index of the last; R355; none
  resends   : Nat         -- 32 bits, saturating; R358; 0
  abandoned : Nat         -- 32 bits, saturating; R358; 0
  reroutes  : Nat         -- 16 bits, saturating; R358; 0
  authFails : Nat         -- 16 bits, saturating; R358; 0
  dups      : Nat         -- 32 bits, saturating; R358; 0
  staleEp   : Nat         -- 32 bits, saturating; R358; 0
  winDrops  : Nat         -- 32 bits, saturating; R358; 0
  holdUs    : Nat         -- 32 bits, saturating; R353, R358; 0
  fullUs    : Nat         -- 32 bits, saturating; R343, R358; 0
  replacing : Option Nat  -- place of the OPEN session this one replaces; R335, R356; none
  deriving DecidableEq, Repr, Inhabited

/-- The Acrix engine and the outer rounds. -/
structure Acrix where
  frags    : Tab Fragment  -- R295; DETACHED
  ports    : Tab FarPort   -- F0 to F3; R357
  partners : Tab Partner   -- site 0 to 4, then 8 + storage endpoint 0 to 7; R330
  sess     : Tab Session   -- places 0 to 15; R334
  cistEla  : Nat           -- 43 bits: Cistern base; R341; 0
  cistLen  : Nat           -- bytes; R341; 0
  rejected : Nat           -- session messages discarded; R335; 0
  idlePort : Nat           -- next port of the idle rotation; R354; 0
  rxSlots  : List (Nat × Nat × Nat × Nat) -- places of the receive area in use: place, fragment, 64 round + site, chunk; R302; empty
  deriving DecidableEq, Repr, Inhabited

/-! ### Guest -/

/-- The attached guest job (R372 to R376, R410). -/
structure Guest where
  image    : Buf          -- R372
  seed     : Nat          -- 128 bits; R140, R372
  keys     : List Nat     -- key set digests; R479
  pending  : Bool         -- attach waits for the bubble's next 0x02; R376
  leaving  : Bool         -- detach waits for tile boundaries; R376
  leaveMb  : Option Nat   -- mailbox whose GUEST_DETACH waits; R410
  stopped  : Bool         -- stopped under R376
  done     : Nat          -- guest kernels completed; R410
  deriving DecidableEq, Repr, Inhabited

/-! ### Control path -/

/-- R385. -/
inductive MbState where
  | closed | open_ | closing | stopped
  deriving DecidableEq, Repr, Inhabited

/-- How far a fetched command has come. -/
inductive CmdPhase where
  | waiting      -- fetched, not started
  | running      -- started, not background
  | background   -- started as a background command
  | finished     -- its completion waits to be written
  deriving DecidableEq, Repr, Inhabited

/-- A fetched command (R388, R390). -/
structure Cmd where
  entry  : Buf        -- the 256-byte command entry
  phase  : CmdPhase
  status : Nat        -- R393, R402
  resp   : Buf        -- RESPONSE
  xfer   : Nat        -- XFER; R392
  ht     : Nat        -- HT at completion; R392
  in0    : Buf        -- what was read from BUF0 of a command that goes on; R399; empty
  in1    : Buf        -- the same of BUF1; R399; empty
  deriving DecidableEq, Repr, Inhabited

/-- A mailbox (R385, R386). -/
structure Mailbox where
  state    : MbState     -- 2 bits; R386; CLOSED
  cmdBase  : Nat         -- 64 bits; R386; 0
  cplBase  : Nat         -- 64 bits; R386; 0
  cmdTail  : Nat         -- 16 bits; R386; 0
  cplHead  : Nat         -- 16 bits; R386; 0
  cmdHead  : Nat         -- 16 bits; R386; 0
  cplTail  : Nat         -- 16 bits; R386; 0
  role     : Nat         -- 3 bits; R386, R389; 0
  roleJob  : Nat         -- 64 bits: JOB_ID of the Job role; R389; 0
  actor    : Nat         -- 256 bits: digest of the modulus that bound it; R475; 0
  actorKey : Nat         -- 3,072 bits: that modulus; R472, R473; 0
  vectorX  : Nat         -- 4 bits: VECTOR XOR the mailbox's number, since VECTOR resets to k; R386; 0
  irqEn    : Bool        -- R386; 0
  enable   : Bool        -- R386; 0
  errs     : Nat         -- 4 bits: DB_CLOSED, DB_RANGE, RING_FAULT, CPL_STALL; R386; 0
  errsAt   : Tab Nat     -- NOC cycle + 1 in which each of those bits was last set (the model's own); R13; 0
  nonce    : Option Nat  -- 256 bits: challenge outstanding; R403, R466; none
  cmds     : List Cmd    -- commands fetched and not yet completed, oldest first; R388; empty
  busy     : List Cmd    -- BUSY completions to be written ahead of the others; R388; empty
  dbAt     : Option Nat  -- ns of the last doorbell; R440; none
  dbFast   : Option Nat  -- ns since which doorbells come over-fast; R440; none
  dbStuck  : Bool        -- DOORBELL_STUCK raised in this episode; R440; 0
  deriving DecidableEq, Repr, Inhabited

/-- The PCIe side: event ring, MSI-X and mailboxes. -/
structure Pcie where
  linkUp   : Bool          -- the PCIe link answers; R380, R436; 0
  mboxes   : Tab Mailbox   -- MB0 to MB15, and the chain mailbox at 16; R386, R431
  evBase   : Nat           -- 64 bits; R394; 0
  evEnable : Bool          -- R394; 0
  evSize   : Nat           -- 4 bits; R394; 0
  evVector : Nat           -- 4 bits; R394; 0
  evIrqEn  : Bool          -- R394; 0
  evHold   : Nat           -- 16 bits: HOLDOFF_US; R394; 0
  evHead   : Nat           -- 32 bits; R394; 0
  evTail   : Nat           -- 32 bits; R394; 0
  evLost   : Nat           -- 32 bits, saturating; R394; 0
  evSeq    : Nat           -- 32 bits: device-wide sequence number; R395; 0
  evLoss   : Bool          -- the next entry has LOSS set; R396; 0
  evIrqAt  : Option Nat    -- ns of the last event interrupt; R394; none
  evIrqDue : Bool          -- entries written during the holdoff; R394; 0
  masks    : List Nat      -- masked event codes, rising; R418; none
  heldReset : Bool         -- DEVICE_RESET is held for the ring; R441; 0
  heldStop : Bool          -- JOB_STOPPED is held until RILSETI_READY after a warm reset; R423; 0
  msix     : Tab Nat       -- MSI-X table entries 0 to 15, 128 bits: address, data, control; R383; 0 (DESIGN CHOICE 0: R378 names no reset values, log entry 6)
  pba      : Nat           -- 64 bits: MSI-X PBA; R383; 0
  running  : Option Nat    -- mailbox whose command runs; R399; none
  rotor    : Nat           -- mailbox after which the rotation goes on; R388; 0
  bg       : List (Nat × Nat × Nat) -- background commands running: opcode, mailbox, bytes processed; R399, R403; empty
  deriving DecidableEq, Repr, Inhabited

/-! ### Reset, chain, power -/

/-- R442. -/
inductive PowerState where
  | run | hold | doze | off
  deriving DecidableEq, Repr, Inhabited

/-- The classes of reset (R422), weakest first. -/
inductive ResetClass where
  | host | warm | cold
  deriving DecidableEq, Repr, Inhabited

/-- How far the device is from reset to operation (R425, R427, R436). -/
inductive BootPhase where
  | powerOff                           -- VAON or REFCLK_25M not valid; R506
  | inReset (cls : ResetClass) (endNs : Nat) (fullClock : Bool) -- in a stretch that ends no sooner than endNs
  | loading (since : Nat) (cls : ResetClass) -- option-loading phase
  | booting (cls : ResetClass)         -- Rilseti boots
  | recovery                           -- recovery loader; R428, R463, R470
  | up                                 -- RILSETI_READY
  | taken                              -- pins taken by boundary scan; R497
  deriving DecidableEq, Repr, Inhabited

/-- Reset logic, management chain, AON state. -/
structure Aon where
  phase      : BootPhase   -- R425 to R427; powerOff (before power-on reset)
  resetCause : Nat         -- 9 bits; R384; 0 before the first reset
  wakeCause  : Nat         -- 5 bits; R384; 0
  causeAt    : Tab Nat     -- NOC cycle + 1 in which each bit of RESET_CAUSE, and of WAKE_CAUSE from 16 on, was last set (the model's own); R13; 0
  glitches   : Nat         -- short RST_N or PERST_N pulses; R425; 0
  releasedAt : Nat         -- ns of the last reset release; R436, R439; 0
  tripHeld   : Bool        -- held in reset by the thermal trip; R424; 0
  rstLow     : Bool        -- RST_N is held low from outside; R425; 0
  rstDrive   : Bool        -- RST_N is driven low by this device; R425; 0
  resetAt    : Nat         -- ns of the last reset source; R424; 0
  straps     : Nat         -- 3 bits: BOOT, TIMEROOT, CHAIN_HEAD as sampled; R428; 0 before sampling
  optsDone   : Bool        -- the option-loading phase is complete; R427; 0
  chainAddr  : Nat         -- 12 bits; R384, R429; 0
  chainErrs  : Nat         -- 32 bits, saturating; R435; 0
  chainEvAt  : Option Nat  -- last CHAIN_FRAME_ERROR; R433; none
  attnOver   : Nat         -- 32 bits, saturating; R435; 0
  attnStuck  : Nat         -- 16 bits, saturating; R435; 0
  dbStuck    : Nat         -- 16 bits, saturating; R435; 0
  dbOver     : Nat         -- 32 bits, saturating; R435; 0
  attnAt     : Option Nat  -- ns of the last ATTN; R440; none
  attnFast   : Option Nat  -- ns since which ATTN comes over-fast; R440; none
  attnAside  : Bool        -- ATTN set aside; R440; 0
  chainLoop  : Bool        -- chain loopback runs; R496; 0
  headWalk   : Bool        -- own-head walk not yet complete; R428; 0
  walkAt     : Option Nat  -- ns of the last walk start; R428; none
  walkSeq    : Nat         -- 32 bits: SEQ of the next own ENUM; R428, R430; 0 (DESIGN CHOICE 0, log entry 6)
  cmdsHeld   : List Buf    -- CMD frames waiting for Rilseti to fetch; R431; empty
  cmdSeqs    : List Nat    -- SEQ of the chain commands pending, oldest first; R430, R431; empty
  stageLen   : Nat         -- TOTAL of the image being staged; R432; 0
  stage      : Mem         -- chain staging area, 16 MiB; R432; empty
  stageGot   : List (Nat × Nat) -- byte ranges written; R432; empty
  power      : PowerState  -- R442; RUN
  entering   : Option (Nat × Nat × Nat) -- entry under way: target, mailbox, start ns; R444; none
  railsOrder : Nat         -- highest up order whose rails are good + 1; R450; 0
  refused    : Tab Nat     -- seven refused counts of 16 bits; R444; 0
  aborted    : Tab Nat     -- seven aborted counts of 16 bits; R444; 0
  railRec    : Option (Nat × Nat) -- AON event record: rail and STATUS_WORD; R453; none
  alertAt    : Option Nat  -- ns of the last PM_ALERT_N; R453; none
  alertSince : Option Nat  -- ns since which PM_ALERT_N is held; R453; none
  alertAside : Bool        -- PM_ALERT_N set aside; R453; 0
  dozePeriod : Nat         -- 16 bits, ms; R415; 1 (DESIGN CHOICE 1, log entry 6)
  dozeEnable : Nat         -- 5 bits; R415; 0 (DESIGN CHOICE 0, log entry 6)
  dozeMask   : Nat         -- 4 bits; R415; 0 (DESIGN CHOICE 0, log entry 6)
  dozeHi     : Int         -- signed 8 bits; R415; 0 (DESIGN CHOICE 0, log entry 6)
  dozeLo     : Int         -- signed 8 bits; R415; 0 (DESIGN CHOICE 0, log entry 6)
  dozeAt     : Nat         -- ns of the last sample or of the entry; R447; 0
  dozeFirst  : Bool        -- no sample since the entry; R447; 0
  dozeChain  : Bool        -- a chain frame is latched; R447; 0
  dozeFar    : Bool        -- far signal present at the last sample; R447; 0
  dozeTemp   : Bool        -- a die was outside the window at the last sample; R447; 0
  cap        : Nat         -- 16 bits, W: cap in force; R457; 0 (none)
  capNext    : Option Nat  -- cap from the next step boundary; R457; none
  cappedSteps : Nat        -- 32 bits: steps lengthened by capping; R415, R459; 0
  capEvStep  : Option Nat  -- step of the last CAP_LIMIT; R461; none
  samples    : List Nat    -- package power of the last ten polls, mW; R454; empty
  stepEnergy : Nat         -- energy measured over the compiled period of the last step, pJ; R458; 0
  extEnergy  : Nat         -- energy measured over the last extension, pJ; R458; 0
  curEnergy  : Nat         -- energy measured so far over the compiled period of the running step, pJ; R458; 0
  curExt     : Nat         -- energy measured so far over the extension of the running step, pJ; R458; 0
  hotN       : Bool        -- HOT_N driven low; R510; false
  bscan      : Bool        -- a pin-taking instruction has been loaded; R497; 0
  temps9     : Tab Int     -- link-die sensors L0 (8) and L1 (9), degrees C; R415; 0 (DESIGN CHOICE 0, log entry 6)
  deriving DecidableEq, Repr, Inhabited

/-! ### Security island -/

/-- A firmware slot (R462, R469). -/
structure FwSlot where
  image   : Buf
  present : Bool
  deriving DecidableEq, Repr, Inhabited

/-- The secure store (R462), which every reset keeps, and the measurement log. -/
structure Island where
  hasId     : Bool        -- the store holds an identity key; R463; 0 (first power-up)
  idOk      : Bool        -- identity has been reconstructed since the cold reset; R463; 0
  idModulus : Nat         -- 3,072 bits: identity public key; R463; 0
  idCert    : Buf         -- ROLE 0 certificate; R464; empty
  authCert  : Buf         -- ROLE 5 certificate; R464; empty
  ownerKey  : Nat         -- 3,072 bits: Owner key modulus, 0 for none; R467; 0
  lifecycle : Nat         -- 0 manufactured, 1 owned, 2 decommissioned; R467; 0
  transfers : Nat         -- transfers used, at most 16; R471; 0
  grants    : Nat         -- grants used, at most 32; R471; 0
  arb       : Nat         -- 12 bits: anti-rollback counter; R471; 0
  ledger    : List Buf    -- 512-byte entries, from entry 0; R475; empty
  nearFull  : Bool        -- LEDGER_NEAR_FULL raised; R476; 0
  slotA     : FwSlot      -- R462; empty
  slotB     : FwSlot      -- R462; empty
  lastB     : Bool        -- the slot last run is B; R470; 0
  pendingFw : Bool        -- the other slot is pending; R469; 0
  fwRunning : Buf         -- running firmware image; R470; empty
  debug     : Bool        -- debug mode; R473; 0
  logDigest : Nat         -- 256 bits: LOG_DIGEST; R477; 0
  logKept   : List Buf    -- 64-byte entries kept, at most 1,024; R477; empty
  logCount  : Nat         -- entries appended since the cold reset; R478; 0
  regmap    : Nat         -- 512 bits: regulator map; R451, R472; 0 (DESIGN CHOICE 0, log entry 6)
  redirect  : List (Nat × Nat × Nat) -- redirect table: channel, frame, spare index; R151, R176; empty
  badSpares : List (Nat × Nat) -- spare frames themselves retired: channel, spare; R173; empty
  marks     : List (Nat × Nat × Nat) -- device marks: channel, 2 rank + subchannel, position; R167, R176; empty
  asym      : Tab Int     -- eight signed 16-bit constants, ps; R38; 0 (DESIGN CHOICE 0, log entry 6)
  delayPs   : Nat         -- HT_IN delay, ps; R34, R403; 0 (DESIGN CHOICE 0, log entry 6)
  holdMs    : Nat         -- holdover limit, ms; R46; 100
  deriving DecidableEq, Repr, Inhabited

/-! ### Site restart and replicas -/

/-- How far a site job restart has come (R487). -/
inductive RestartPhase where
  | idle | fault (since : Nat) | warm (since : Nat) | ckpt (since : Nat) | loading (since : Nat) | ready (since : Nat)
  deriving DecidableEq, Repr, Inhabited

/-- Site job restart and replica comparison (R484 to R495). -/
structure Site where
  phase    : RestartPhase            -- R487; idle
  htx      : Nat                     -- 64 bits: HT_X of the restart; R486; 0
  seen     : List (Nat × Nat)        -- notices already forwarded: KIND and CW; R486; empty
  ckpts    : List (Nat × Nat × Nat)  -- CKPT notices: CW, STEP, STEP_OLD; R487; empty
  readies  : List (Nat × Nat)        -- READY notices: CW, HT_X; R487; empty
  ownReady : Nat                     -- HT of the own READY; R487; 0
  step     : Nat                     -- restore step chosen; R487; 0
  lastStep : Option Nat              -- step of the last restart; R488; none
  repeats  : Nat                     -- restarts to it without a later finite commit; R488; 0
  copy     : Option (Buf × Nat × Nat) -- stored copy: image with its trailer, seed, slot-fault limit; R485; none
  stopReq  : Bool                    -- JOB_STOP came during the restart; R420; 0
  digests  : List (Nat × Nat × Nat × Nat × Nat) -- DIGEST notices: CW, STEP, EPOCH, CD, DESC; R493; empty
  ownCd    : List (Nat × Nat × Nat × Nat) -- own commit digests not yet compared: STEP, EPOCH, CD, DESC; R492, R493; empty
  minority : Bool                    -- DEFERRED_ERR is set until the repair is installed; R494; 0
  source   : Option Nat              -- CW of the repair source; R495; none
  asks     : Nat                     -- replies of a repair still awaited (the model's own count); R495; 0
  pulled   : List (Nat × Nat × Nat × Buf) -- leaves pulled: tensor, copy, leaf, 4 KiB; R495; empty
  deriving DecidableEq, Repr, Inhabited

/-! ### What the block drives -/

/-- What the device has put out on its interfaces, oldest first: the model's own trace of its pins. -/
inductive Out where
  | hostWrite (addr : Nat) (data : Buf)                 -- R381
  | msix (vector : Nat)                                 -- R381
  | chain (frame : Buf)                                 -- R430
  | flit (port : Nat) (data : Buf)                      -- R267
  | timing (port depart echo turnaround state hops tag : Nat) -- R36
  | control (port : Nat) (data : Buf)                   -- R268
  | repair (port : Nat) (msg : RepairMsg)               -- R495
  | frame (port route : Nat) (data : Buf)               -- R328
  | drive (pin : Nat) (level : Bool)                    -- 0 RST_N, 1 HOT_N (HT_OUT is State.htOut)
  | rails (order : Nat) (up : Bool)                     -- R450
  | avs (die mv : Nat)                                  -- R452
  deriving DecidableEq, Repr, Inhabited

/-- Why the machine stops with a fault. No meaning of this model raises one: every row of the table has an effect. -/
inductive Fault where
  | none_   -- Raised by nothing; the type is closed and its constructor unused. Safe.
  deriving DecidableEq, Repr

/-- Why a command is refused. -/
inductive Refusal where
  | notModelled (mnemonic : String) -- Raised only by an arm of `exec` that has no meaning yet. Safe: the run stops.
  deriving DecidableEq, Repr

/-- The whole state. -/
structure State where
  pending : List Instr     -- commands waiting, first in first out (the model's own queue); empty
  now     : Nat            -- reference time in ns (the model's own clock); R9, R43; 0
  freeCtr : Nat            -- which free value comes next (the model's own counter); DESIGN CHOICE 0, log entry 4
  ht      : HtUnit
  sos     : Tab SyncObj    -- SO 0 to SO 65535 that have moved since the arm or restore; R58; empty
  soStart : Int            -- STEP of every other sync object, signed 64 bits, with COUNT 0 and SKIP 0; R58; 0 (DESIGN CHOICE 0: the spec sets it at arm or restore, log entry 6)
  soStale : Nat            -- stale signals counted; R58; 0
  miss    : Tab MissRec    -- by TARGET; R68
  job     : Option Job     -- R362; none
  ents    : Tab EntryState -- by entry index; R59; idle
  catchup : Tab (List Nat) -- deferred entries held, by catch-up entry; R63; empty
  rxHold  : Tab Nat        -- blocks or resends held, by catch-up entry; R63, R273, R278; 0
  cores   : Tab Core       -- C0.0 to C7.15 as 16 d + i; R70
  kstore  : Mem            -- kernel stores, 256 KiB a core; R70; nothing listed
  gstore  : Mem            -- guest kernel stores, 64 KiB a core; R70; nothing listed
  scratch : Ram            -- core scratch, core * 0x600000 + address; R70, R144; nothing listed (log entry 5)
  oasis   : Ram            -- Oasis by device Oasis address; R145; nothing listed (log entry 5)
  erg     : Erg
  dies    : Tab Die        -- C0 to C7
  spills  : List Spill     -- Spillway records; R201; empty
  spillOff : Nat           -- next offset in the Spillway; R202; 0
  com     : Commit
  near    : Tab NearPort   -- T+ to S-; R261
  acx     : Acrix
  guest   : Option Guest   -- R372; none
  pcie    : Pcie
  aon     : Aon
  isl     : Island
  site    : Site
  out     : List Out       -- what the device drove, oldest first (the model's own trace); empty
  deriving DecidableEq, Repr

/-! ### Reset values -/

/-- The hall-time unit after a cold reset (R67). -/
def HtUnit.reset : HtUnit :=
  { state := .unset, off := 0, root := false, far := false, source := 0xF, hops := 0xFF, offsetPs := 0,
    lastChange := 0, holdSince := 0, lockRun := 0, srcLostAt := none, pendingSet := none,
    edgeLast := none, inDropped := false, inGood := 0, inOverruns := 0, inInvalid := 0, overrunEvAt := none,
    cands := [], setAt := 0, leftOut := none, snapHt := 0, snapState := 0, snapValid := false }

/-- A sync object that nothing has signalled since the arm or restore (R58). -/
def SyncObj.start (step : Int) : SyncObj := ⟨step, 0, false⟩

/-- A cleared slot-miss record (R68). -/
def MissRec.reset : MissRec := ⟨0, 0, 0, 0, 0, 0, 0⟩

/-- A cleared accumulator (R104, R105). -/
def Acc.reset : Acc := ⟨0, 0, 0, 0⟩

/-- A cleared tile (R109). -/
def Tile.reset : Tile := ⟨[], false, 0, 0, false, false, false, false, 0, ⟨64, 0⟩, 0, false⟩

/-- A cleared channel (R137). -/
def Channel.reset : Channel := ⟨0, 0, 0⟩

/-- Cleared vector state (R122). -/
def VState.reset : VState := ⟨[], [], [], false, false, false, false⟩

/-- A cleared flag record (R234). -/
def FlagRec.reset : FlagRec := ⟨false, false, false, false, false, false, 0⟩

/-- An idle core. -/
def Core.reset : Core :=
  { kernel := none, mq := [], dq := [], vq := [], vact := none, tile0 := .reset, tile1 := .reset, drainq := [], drain := none,
    arrayFree := 0, v := .reset, flags := .reset, gflags := .reset, busy := 0, interlock := 0, fetchSlow := 0,
    conflicts := 0, waitCycles := 0, samples := [], bubble := none, closing := false, closeCc := 0,
    bubbleEntry := 0, bubbleQ := 0, accHold := none, overran := false, guest := ⟨none, 0⟩, writeback := [] }

/-- An Erg channel after a cold reset (R177). -/
def ErgChannel.reset : ErgChannel :=
  { corrected := 0, uncorrectable := 0, rereads := 0, scrubLine := 0, scrubPassS := 0, scrubStart := 0, scrubLate := false, tempC := 0,
    highRate := false, coolRun := 0, shareWaits := 0, sharesAt := 0, idleFrom := 0, groupAt := 0, groupUsed := [],
    rotor := .openRilseti, lastRefresh := 0, refreshes := 0, window := none, queue := [],
    fixes := [], retire := none, retireNext := [], correctedEvAt := none }

/-- Erg before bring-up. -/
def Erg.reset : Erg := ⟨false, false, 0, 0, 0, false, 0, ⟨[], []⟩, []⟩

/-- A die after a cold reset. -/
def Die.reset : Die :=
  { oasisCorrected := 0, oasisUncorrectable := 0, coreCorrected := 0, coreUncorrectable := 0, correctedEvAt := none,
    oasisWriteback := [], pool := [], poolAt := [], rbPeak := 0, spillBlocks := 0, spillPeak := 0, nfBlocks := 0, ovfBlocks := 0,
    anchorClamps := 0, passesRun := 0, passesIdle := 0, elements := 0, srSat := 0, outerFull := 0, outerOnly := 0,
    stallUs := 0, dma := none, dmaLeft := 0, dmaItem := 0, dmaItems := 0, pass := none, temp := 0, gateOn := false, gateStart := 0, gateEnd := 0,
    gated := 0, gatedRep := 0, droopEvAt := none, coreMv := 0, avsAt := none }

/-- The controller fields with no job armed (R245). -/
def ScaleHist.reset : ScaleHist := ⟨0, 0, 0, 0, 0, false, 0, 0, 0, 0, 0, [], []⟩

/-- The step controller with no job armed. -/
def Commit.reset : Commit :=
  { hist := .reset, cause := 0, causeNext := 0, frozen := false, sqnorm := 0, nfBlocks := 0, ovfBlocks := 0,
    nonzero := 0, ufCount := [], promoted := 0, stretch := 0, capReq := 0, flood := none, floodSent := false, result := none, decision := none,
    shPending := [], probeFails := 0, probeNext := false, ufPending := none, nwPending := none, gexpPending := [],
    mirrorDue := none, dataPos := 0, lastFinite := 0, mbDeferred := [], mbDropped := [],
    stepL := 0, stepG := [], gradShut := [], formed := [], folded := false, mbStarted := 0, carryG := [], carry := none,
    afxEvent := false, srEvent := false, cSkips := 0, cCommits := 0, cNonfinite := 0, cRange := 0,
    cFault := 0, cFloor := 0, cDeferred := 0, cDropped := 0, cStretched := 0, cCarryLost := 0, cStretchSteps := 0,
    cListFull := 0, cProbes := 0, wUfLast := [], wSilent := [], wErr := [], wNonzero := 0, ckptLocal := none,
    ckptExport := none, ckptTail := none, ckptResid := [], ckptWait := none, mirrored := none, ckptWriting := none, ckptBad := [], exports := [] }

/-- A near port after a cold reset (R293). -/
def NearPort.reset : NearPort :=
  { state := .down, width := 0, lanesOk := 0, lanes := 0, fecRun := [], retrains := 0, delayPs := none, fecCorr := 0, fecUncorr := 0,
    resends := 0, strays := 0, pauseUs := 0, lost := 0, signal := false, trainAt := 0, wasUp := false,
    lateRaised := false, peerState := 0, peerHops := 255, peerTag := 0, peerReady := false, peerStamp := 0, peerAt := 0,
    peerSeen := false, ownStamp := 0, frames := 0, frameHt := 0, binds := [], sent := [], ackBlock := 0xFFFFFF,
    ackFidx := 0, acks := [], ctlHt := 0, openSlot := 0, msgNext := [], txHeld := [], strayStep := none, notice := none, txWindow := none, txBusy := 0, txGuest := 0, rxProfile := none,
    credits := [], rxHeld := [], lent := [], txq := [], paused := [], rxMsgs := [], inbox := [] }

/-- A fragment with no job armed (R318). -/
def Fragment.reset : Fragment :=
  { jstate := 0, closed := 0, applied := 0, snapSteps := [], snapLater := [], active := 0, nextAdopt := 0, nextSnap := 0, activeFrom := 0, out := [], encoding := none,
    encHeld := false, shifting := false, repairing := false, residRound := 0, held := [], adopted := [],
    caravans := [], chunksOf := [], listed := [], notices := [], attempts := [], published := [],
    sumReady := false, sumRound := 0, sumMode := 0, sumStep := 0, applyLater := [], digests := [], others := [],
    donor := none, bootRound := 0, bootData := [], bootReady := false, log := [], snapDeferred := 0,
    carriedN := 0, staleDropped := 0, takeovers := 0, conflicts := 0, anchorOnly := 0, mismatches := 0, lagSteps := 0 }

/-- A route that nothing has configured (R328 gives the defaults). -/
def FarRoute.reset : FarRoute := ⟨false, 0, 0, 0, 0, false, 0x00, 64, 46721, 0⟩

/-- A far port after a cold reset (R357). -/
def FarPort.reset : FarPort := ⟨.reset, .reset, 7, 0, 0, 0, 0, 0, 0, none, 0⟩

/-- A partner that nothing has configured (R347, R350 give the defaults). -/
def Partner.reset : Partner := ⟨false, 0, 0, 0, 0, 16, 30, 0, 0, 0, []⟩

/-- A route of a new session. -/
def SessRoute.reset : SessRoute := ⟨false, false, false, false, 0, 0, false, 0, 0, [], 0, 0, none, 0, false⟩

/-- A session place that is free (R334, R358). -/
def Session.reset : Session :=
  { used := false, localId := 0, peerId := 0, state := .closed, bulk := false, peer := 0, port := 0, initiator := false,
    nonceI := 0, nonceR := 0, initPay := .empty, initAt := 0, initGap := 0, openSince := 0, waitMb := none, csTx := 0,
    csRx := 0, keyTx := 0, keyRx := 0, keyRxNext := 0, keyRxOld := none, txEpoch := 0, rxEpoch := 0, epochAt := 0,
    epochSent := 0, nextSeq := 0, ackBase := 0, gotAbove := [], peerAck := 0, unrep := 0, ackAt := 0, ackFrom := 0,
    flight := [], queue := [], loose := [], ra := .reset, rb := .reset, lastRoute := 1, maxRtt := 0, heldAt := 0,
    hbAt := 0, tokens := 0, tokensAt := 0, rate := 0, burst := 0, quota := 0, budgets := [], authEvAt := none,
    fullEvAt := none, exportId := none, outStream := [], holdFrom := none, fullFrom := none, inStream := [], inLast := none, resends := 0, abandoned := 0,
    reroutes := 0, authFails := 0, dups := 0, staleEp := 0, winDrops := 0, holdUs := 0, fullUs := 0, replacing := none }

/-- Acrix after a cold reset. -/
def Acrix.reset : Acrix := ⟨[], [], [], [], 0, 0, 0, 0, []⟩

/-- A mailbox after a cold reset (R386). -/
def Mailbox.reset : Mailbox :=
  { state := .closed, cmdBase := 0, cplBase := 0, cmdTail := 0, cplHead := 0, cmdHead := 0, cplTail := 0, role := 0,
    roleJob := 0, actor := 0, actorKey := 0, vectorX := 0, irqEn := false, enable := false, errs := 0, errsAt := [], nonce := none,
    cmds := [], busy := [], dbAt := none, dbFast := none, dbStuck := false }

/-- The PCIe side after a cold reset (R384, R386, R394). -/
def Pcie.reset : Pcie :=
  { linkUp := false, mboxes := [], evBase := 0, evEnable := false, evSize := 0, evVector := 0, evIrqEn := false,
    evHold := 0, evHead := 0, evTail := 0, evLost := 0, evSeq := 0, evLoss := false, evIrqAt := none, evIrqDue := false,
    masks := [], heldReset := false, heldStop := false, msix := [], pba := 0, running := none, rotor := 0, bg := [] }

/-- Reset logic and AON state before VAON and REFCLK_25M are valid (R506). -/
def Aon.reset : Aon :=
  { phase := .powerOff, resetCause := 0, wakeCause := 0, causeAt := [], glitches := 0, releasedAt := 0, tripHeld := false,
    rstLow := false, rstDrive := false, resetAt := 0, straps := 0, optsDone := false, chainAddr := 0, chainErrs := 0, chainEvAt := none, attnOver := 0,
    attnStuck := 0, dbStuck := 0, dbOver := 0, attnAt := none, attnFast := none, attnAside := false, chainLoop := false,
    headWalk := false, walkAt := none, walkSeq := 0, cmdsHeld := [], cmdSeqs := [], stageLen := 0, stage := [], stageGot := [],
    power := .run, entering := none, railsOrder := 0, refused := [], aborted := [], railRec := none, alertAt := none,
    alertSince := none, alertAside := false, dozePeriod := 1, dozeEnable := 0, dozeMask := 0, dozeHi := 0, dozeLo := 0,
    dozeAt := 0, dozeFirst := false, dozeChain := false, dozeFar := false, dozeTemp := false, cap := 0, capNext := none,
    cappedSteps := 0, capEvStep := none, samples := [], stepEnergy := 0, extEnergy := 0, curEnergy := 0, curExt := 0, hotN := false, bscan := false,
    temps9 := [] }

/-- The secure store as manufacture leaves it before the first power-up (R463, R467). -/
def Island.reset : Island :=
  { hasId := false, idOk := false, idModulus := 0, idCert := .empty, authCert := .empty, ownerKey := 0, lifecycle := 0,
    transfers := 0, grants := 0, arb := 0, ledger := [], nearFull := false, slotA := ⟨.empty, false⟩,
    slotB := ⟨.empty, false⟩, lastB := false, pendingFw := false, fwRunning := .empty, debug := false, logDigest := 0,
    logKept := [], logCount := 0, regmap := 0, redirect := [], badSpares := [], marks := [], asym := [], delayPs := 0,
    holdMs := 100 }

/-- No restart and no comparison under way. -/
def Site.reset : Site :=
  { phase := .idle, htx := 0, seen := [], ckpts := [], readies := [], ownReady := 0, step := 0, lastStep := none,
    repeats := 0, copy := none, stopReq := false, digests := [], ownCd := [], minority := false, source := none, asks := 0,
    pulled := [] }

/-- The device as it first meets power: the state in which power-on reset finds it, every register at its reset value
(log entry 1 says why this and not a later instant). -/
def State.reset : State :=
  { pending := [], now := 0, freeCtr := 0, ht := .reset, sos := [], soStart := 0, soStale := 0, miss := [], job := none, ents := [],
    catchup := [], rxHold := [], cores := [], kstore := [], gstore := [], scratch := ⟨[], []⟩, oasis := ⟨[], []⟩,
    erg := .reset, dies := [], spills := [], spillOff := 0, com := .reset, near := [], acx := .reset, guest := none,
    pcie := .reset, aon := .reset, isl := .reset, site := .reset, out := [] }

end Sys2Proof.Machine
end

