-- ==== Sys2Proof/Machine/Bits.lean ====
section
/-! DEFINITION. Bit fields, byte strings, saturating counters, indexed sets and byte memories: the plain operations the
rest of the machine is written with. -/

namespace Sys2Proof.Machine

/-! ### Numbers -/

/-- Two's complement reading of the low `w` bits. -/
def sext (w v : Nat) : Int :=
  if v % 2 ^ w < 2 ^ (w - 1) then (v % 2 ^ w : Nat) else ((v % 2 ^ w : Nat) : Int) - (2 ^ w : Nat)

/-- The low `w` bits of an integer. -/
def wrap (w : Nat) (v : Int) : Nat := (v % ((2 ^ w : Nat) : Int)).toNat

/-- A counter of `w` bits that saturates (R9). -/
def satAdd (w x y : Nat) : Nat := Nat.min (x + y) (2 ^ w - 1)

/-- Bits `lsb` to `lsb + w - 1`. -/
def bits (v lsb w : Nat) : Nat := (v >>> lsb) % 2 ^ w

/-- One bit. -/
def bit (v i : Nat) : Bool := v.testBit i

/-- 1 for true. -/
def b2n (b : Bool) : Nat := if b then 1 else 0

/-- `v` with `n` bits at `lsb` replaced by `x`. -/
def setBits (v lsb n x : Nat) : Nat :=
  v - (bits v lsb n) <<< lsb + (x % 2 ^ n) <<< lsb

/-- The `n` bytes of `v` in the opposite order. -/
def revBytes : Nat → Nat → Nat
  | 0, _ => 0
  | n + 1, v => (v % 256) * 256 ^ n + revBytes n (v / 256)

/-- Ceiling of a quotient. -/
def ceilDiv (a b : Nat) : Nat := (a + b - 1) / b

/-- Number of ones in the low `n` bits. -/
def popCount : Nat → Nat → Nat
  | 0, _ => 0
  | n + 1, v => v % 2 + popCount n (v / 2)

/-- The bits of the low `n` that are 1, rising. -/
def onesOf (n v : Nat) : List Nat := (List.range n).filter fun i => v.testBit i

/-- Signed saturation to the range from `lo` to `hi`. -/
def clampI (lo hi v : Int) : Int := if v < lo then lo else if hi < v then hi else v

/-! ### Byte strings -/

end Sys2Proof.Machine

namespace Sys2Proof

open Sys2Proof.Machine (bits sext wrap revBytes setBits)

/-- Bits of a structure (R11). -/
def Buf.fld (b : Buf) (lsb w : Nat) : Nat := bits b.val lsb w

/-- A signed field. -/
def Buf.sfld (b : Buf) (lsb w : Nat) : Int := sext w (bits b.val lsb w)

/-- One bit of a structure. -/
def Buf.flag (b : Buf) (i : Nat) : Bool := b.val.testBit i

/-- Bytes `off` to `off + n - 1` as a little-endian number (R15). -/
def Buf.le (b : Buf) (off n : Nat) : Nat := bits b.val (8 * off) (8 * n)

/-- The same as a two's complement number. -/
def Buf.les (b : Buf) (off n : Nat) : Int := sext (8 * n) (b.le off n)

/-- The same bytes as a big-endian number (R16). -/
def Buf.be (b : Buf) (off n : Nat) : Nat := revBytes n (b.le off n)

/-- One byte. -/
def Buf.byte (b : Buf) (off : Nat) : Nat := b.le off 1

/-- A part of a byte string. -/
def Buf.slice (b : Buf) (off n : Nat) : Buf := ⟨n, b.le off n⟩

/-- Everything from `off` on. -/
def Buf.drop (b : Buf) (off : Nat) : Buf := ⟨b.len - off, b.le off (b.len - off)⟩

/-- One byte string after the other. -/
def Buf.app (a b : Buf) : Buf := ⟨a.len + b.len, a.val % 256 ^ a.len + b.val <<< (8 * a.len)⟩

/-- `n` bytes of a number, least significant first. -/
def Buf.ofLe (n v : Nat) : Buf := ⟨n, v % 256 ^ n⟩

/-- `n` bytes of a number, most significant first (R16). -/
def Buf.ofBe (n v : Nat) : Buf := ⟨n, revBytes n v⟩

/-- `n` bytes of a signed number. -/
def Buf.ofInt (n : Nat) (v : Int) : Buf := ⟨n, wrap (8 * n) v⟩

/-- `n` zero bytes. -/
def Buf.zeros (n : Nat) : Buf := ⟨n, 0⟩

/-- The concatenation of a list. -/
def Buf.cat : List Buf → Buf
  | [] => ⟨0, 0⟩
  | b :: l => b.app (Buf.cat l)

/-- Bytes `off` to `off + n - 1` replaced by a number. -/
def Buf.put (b : Buf) (off n v : Nat) : Buf := ⟨b.len, setBits b.val (8 * off) (8 * n) v⟩

/-- The bytes as a list. -/
def Buf.bytes (b : Buf) : List Nat := (List.range b.len).map fun i => b.byte i

/-- A byte string from a list of bytes. -/
def Buf.ofBytes (l : List Nat) : Buf := ⟨l.length, l.foldr (fun x a => x % 256 + 256 * a) 0⟩

/-- Records of `n` bytes, `k` of them. -/
def Buf.recs (b : Buf) (n k : Nat) : List Buf := (List.range k).map fun i => b.slice (n * i) n

end Sys2Proof

namespace Sys2Proof.Machine

/-- A structure laid out from (bits, value) fields, least significant first. -/
def packBits : List (Nat × Nat) → Nat
  | [] => 0
  | (w, v) :: l => v % 2 ^ w + (packBits l) <<< w

/-- A byte string of `n` bytes from fields. -/
def packBuf (n : Nat) (l : List (Nat × Nat)) : Buf := ⟨n, packBits l % 256 ^ n⟩

/-- A signed value as a field of `w` bits. -/
def sf (w : Nat) (v : Int) : Nat × Nat := (w, wrap w v)

/-! ### Indexed sets -/

/-- The value at an index, the default where none is listed. -/
def tget (d : α) : Tab α → Nat → α
  | [], _ => d
  | (i, v) :: t, k => if k = i then v else if k < i then d else tget d t k

/-- The set with the value at one index replaced; a default is not listed. -/
def tset [DecidableEq α] (d : α) : Tab α → Nat → α → Tab α
  | [], k, x => if x = d then [] else [(k, x)]
  | (i, v) :: t, k, x =>
    if k < i then (if x = d then (i, v) :: t else (k, x) :: (i, v) :: t)
    else if k = i then (if x = d then t else (k, x) :: t)
    else (i, v) :: tset d t k x

/-- Strictly rising indices from a bound on, and no entry at the default. -/
def tabFrom [DecidableEq α] (d : α) : Nat → Tab α → Bool
  | _, [] => true
  | lo, (i, v) :: t => decide (lo ≤ i) && decide (v ≠ d) && tabFrom d (i + 1) t

/-- The canonical form of an indexed set. -/
def tabWf [DecidableEq α] (d : α) (t : Tab α) : Bool := tabFrom d 0 t

/-! ### Byte memories -/

/-- What an address that is not listed reads as (log entry 5). -/
def memDefault : Byte := 0

/-- One byte. -/
def Mem.read (m : Mem) (a : Nat) : Byte := tget memDefault m a

/-- One byte written. -/
def Mem.write (m : Mem) (a : Nat) (v : Byte) : Mem := tset memDefault m a v

/-- The canonical form: addresses strictly rising, no entry equal to what an unlisted address reads as. -/
def Memory.wf (m : Mem) : Bool := tabWf memDefault m

/-- `n` bytes from `a` on, little-endian (R15). -/
def Mem.load (m : Mem) (a n : Nat) : Nat :=
  (m.filter fun c => a ≤ c.1 && c.1 < a + n).foldl (fun x c => x + c.2.toNat <<< (8 * (c.1 - a))) 0

/-- The listed cells of `n` bytes of value `v` at `a`. -/
def cellsOf : Nat → Nat → Nat → Mem
  | 0, _, _ => []
  | n + 1, a, v =>
    if v = 0 then []
    else if v % 256 = 0 then cellsOf n (a + 1) (v / 256)
    else (a, BitVec.ofNat 8 v) :: cellsOf n (a + 1) (v / 256)

/-- `n` bytes stored from `a` on, little-endian. -/
def Mem.store (m : Mem) (a n v : Nat) : Mem :=
  (m.filter fun c => c.1 < a) ++ cellsOf n a v ++ (m.filter fun c => a + n ≤ c.1)

/-- `n` bytes set to zero. -/
def Mem.clear (m : Mem) (a n : Nat) : Mem := m.filter fun c => c.1 < a || a + n ≤ c.1

/-! ### Lists in order -/

/-- `x` put before the first element that it does not come after. -/
def insertBy {α : Type} (le : α → α → Bool) (x : α) : List α → List α
  | [] => [x]
  | y :: l => if le x y then x :: y :: l else y :: insertBy le x l

/-- A list in rising order; elements that compare alike keep their places. -/
def sortBy {α : Type} (le : α → α → Bool) (l : List α) : List α := l.foldr (insertBy le) []

end Sys2Proof.Machine
end

