-- ==== Sys2Proof/Machine/Crypto.lean ====
section
/-! DEFINITION. The published algorithms the spec names: Philox 4x32-10 (R140), SHA-256, HMAC and HKDF (R336), CRC-32C
(R429), AES-256-GCM (R337), RSASSA-PSS and RSAES-OAEP (R336, R465), and the digest field of R490. -/

namespace Sys2Proof.Machine

/-! ### Philox 4x32-10 (R140) -/

/-- One round. -/
def philoxRound (k : Nat × Nat) (c : Nat × Nat × Nat × Nat) : Nat × Nat × Nat × Nat :=
  let p0 := 0xD2511F53 * c.1
  let p1 := 0xCD9E8D57 * c.2.2.1
  ((p1 >>> 32) ^^^ c.2.1 ^^^ k.1, p1 % 2 ^ 32, (p0 >>> 32) ^^^ c.2.2.2 ^^^ k.2, p0 % 2 ^ 32)

/-- `n` rounds with the key schedule. -/
def philoxRounds : Nat → Nat × Nat → Nat × Nat × Nat × Nat → Nat × Nat × Nat × Nat
  | 0, _, c => c
  | n + 1, k, c => philoxRounds n ((k.1 + 0x9E3779B9) % 2 ^ 32, (k.2 + 0xBB67AE85) % 2 ^ 32) (philoxRound k c)

/-- philox4x32_10. -/
def philox (k0 k1 c0 c1 c2 c3 : Nat) : Nat × Nat × Nat × Nat := philoxRounds 10 (k0, k1) (c0, c1, c2, c3)

/-- The key of a lane (R140): `unit` 16 d + i for a core, `job` 0 main and 1 guest. -/
def laneKey (seed lane unit job cw : Nat) : Nat × Nat :=
  let lid := lane ||| (unit <<< 16) ||| (job <<< 24)
  let w := philox (bits seed 0 32) (bits seed 32 32) (bits seed 64 32) (bits seed 96 32) lid cw
  (w.1, w.2.1)

/-- A draw at counter `c` with third and fourth counter words (R141, R226, R254). -/
def drawAt (key : Nat × Nat) (c w2 w3 : Nat) : Nat × Nat × Nat × Nat :=
  philox key.1 key.2 (bits c 0 32) (bits c 32 32) w2 w3

/-! ### SHA-256 -/

/-- A 32-bit word of a packed number, from bit `i` on. -/
def word32 (w i : Nat) : Nat := (w >>> i) % 0x100000000

/-- Three rotations of a 32-bit word to the right, XORed. -/
def rotr3 (x a b c : Nat) : Nat :=
  let d := x * 0x100000001
  word32 ((d >>> a) ^^^ (d >>> b) ^^^ (d >>> c)) 0

/-- Two rotations and a shift to the right, XORed. -/
def rotr2 (x a b c : Nat) : Nat :=
  let d := x * 0x100000001
  word32 ((d >>> a) ^^^ (d >>> b)) 0 ^^^ (x >>> c)

/-- The round constants. -/
def shaK : List Nat :=
  [
   0x428A2F98, 0x71374491, 0xB5C0FBCF, 0xE9B5DBA5, 0x3956C25B, 0x59F111F1, 0x923F82A4, 0xAB1C5ED5,
   0xD807AA98, 0x12835B01, 0x243185BE, 0x550C7DC3, 0x72BE5D74, 0x80DEB1FE, 0x9BDC06A7, 0xC19BF174,
   0xE49B69C1, 0xEFBE4786, 0x0FC19DC6, 0x240CA1CC, 0x2DE92C6F, 0x4A7484AA, 0x5CB0A9DC, 0x76F988DA,
   0x983E5152, 0xA831C66D, 0xB00327C8, 0xBF597FC7, 0xC6E00BF3, 0xD5A79147, 0x06CA6351, 0x14292967,
   0x27B70A85, 0x2E1B2138, 0x4D2C6DFC, 0x53380D13, 0x650A7354, 0x766A0ABB, 0x81C2C92E, 0x92722C85,
   0xA2BFE8A1, 0xA81A664B, 0xC24B8B70, 0xC76C51A3, 0xD192E819, 0xD6990624, 0xF40E3585, 0x106AA070,
   0x19A4C116, 0x1E376C08, 0x2748774C, 0x34B0BCB5, 0x391C0CB3, 0x4ED8AA4A, 0x5B9CCA4F, 0x682E6FF3,
   0x748F82EE, 0x78A5636F, 0x84C87814, 0x8CC70208, 0x90BEFFFA, 0xA4506CEB, 0xBEF9A3F7, 0xC67178F2]

/-- The initial hash value. -/
def shaInit : List Nat :=
  [0x6A09E667, 0xBB67AE85, 0x3C6EF372, 0xA54FF53A, 0x510E527F, 0x9B05688C, 0x1F83D9AB, 0x5BE0CD19]

/-- The rounds over one block: `w` holds the next sixteen words of the message schedule, the first lowest. -/
def shaRounds : List Nat → Nat → Nat → Nat → Nat → Nat → Nat → Nat → Nat → Nat → List Nat
  | [], _, a, b, c, d, e, f, g, h => [a, b, c, d, e, f, g, h]
  | k :: l, w, a, b, c, d, e, f, g, h =>
    let t1 := h + rotr3 e 6 11 25 + (g ^^^ (e &&& (f ^^^ g))) + k + word32 w 0
    let t2 := rotr3 a 2 13 22 + ((a &&& b) ^^^ (c &&& (a ^^^ b)))
    let x := word32 (word32 w 0 + rotr2 (word32 w 32) 7 18 3 + word32 w 288 + rotr2 (word32 w 448) 17 19 10) 0
    shaRounds l ((w >>> 32) + (x <<< 480)) (word32 (t1 + t2) 0) a b c (word32 (d + t1) 0) e f g

/-- One block, its words packed with the first lowest. -/
def shaBlock (h : List Nat) (w : Nat) : List Nat :=
  match h with
  | [a, b, c, d, e, f, g, i] => (h.zip (shaRounds shaK w a b c d e f g i)).map fun p => word32 (p.1 + p.2) 0
  | _ => h

/-- The sixteen big-endian words of a block of 64 bytes, packed with the first lowest. -/
def shaWords (v : Nat) : Nat := (List.range 16).foldr (fun i a => revBytes 4 (bits v (32 * i) 32) + a <<< 32) 0

/-- The blocks of a little-endian byte string. -/
def shaBlocks : Nat → Nat → List Nat → List Nat
  | 0, _, h => h
  | n + 1, v, h => shaBlocks n (v >>> 512) (shaBlock h (shaWords v))

/-- SHA-256 as a big-endian number. -/
def sha256 (b : Buf) : Nat :=
  let n := (b.len + 72) / 64
  let v := b.val % 256 ^ b.len + 0x80 <<< (8 * b.len) + revBytes 8 (8 * b.len) <<< (512 * n - 64)
  (shaBlocks n v shaInit).foldl (fun a x => a * 2 ^ 32 + x) 0

/-- SHA-256 as the 32 bytes in their order. -/
def sha256Buf (b : Buf) : Buf := Buf.ofBe 32 (sha256 b)

/-- An ASCII string as bytes. -/
def ascii (s : String) : Buf := Buf.ofBytes (s.toList.map Char.toNat)

/-- HMAC-SHA-256; a key longer than a block is digested first. -/
def hmac (key msg : Buf) : Buf :=
  let k := if 64 < key.len then (sha256Buf key).val else key.val % 256 ^ key.len
  let pad (x : Nat) : Buf := ⟨64, k ^^^ ((256 ^ 64 - 1) / 255 * x)⟩
  sha256Buf ((pad 0x5C).app (sha256Buf ((pad 0x36).app msg)))

/-- HKDF-Extract. -/
def hkdfExtract (salt ikm : Buf) : Buf := hmac salt ikm

/-- The blocks of HKDF-Expand. -/
def hkdfBlocks : Nat → Nat → Buf → Buf → Buf → Buf
  | 0, _, _, _, _ => Buf.empty
  | n + 1, i, prk, info, t =>
    let t' := hmac prk ((t.app info).app (Buf.ofLe 1 i))
    t'.app (hkdfBlocks n (i + 1) prk info t')

/-- HKDF-Expand to `n` bytes. -/
def hkdfExpand (prk info : Buf) (n : Nat) : Buf := (hkdfBlocks (ceilDiv n 32) 1 prk info Buf.empty).slice 0 n

/-! ### CRC-32C -/

/-- Eight steps of the reflected register. -/
def crcByte : Nat → Nat → Nat
  | 0, c => c
  | n + 1, c => crcByte n (if c.testBit 0 then (c >>> 1) ^^^ 0x82F63B78 else c >>> 1)

/-- CRC-32C of the first `n` bytes: initial and final values all ones. -/
def crc32c (b : Buf) (n : Nat) : Nat :=
  ((List.range n).foldl (fun c i => crcByte 8 (c ^^^ b.byte i)) 0xFFFFFFFF) ^^^ 0xFFFFFFFF

/-! ### AES-256 and GCM -/

/-- The S-box, entry 0 least significant. -/
def aesSbox : Nat := 0x16BB54B00F2D99416842E6BF0D89A18CDF2855CEE9871E9B948ED9691198F8E19E1DC186B95735610EF6034866B53E708A8BBD4B1F74DDE8C6B4A61C2E2578BA08AE7A65EAF4566CA94ED58D6D37C8E779E4959162ACD3C25C2406490A3A32E0DB0B5EDE14B8EE4688902A22DC4F816073195D643D7EA7C41744975FEC130CCDD2F3FF1021DAB6BCF5389D928F40A351A89F3C507F02F94585334D43FBAAEFD0CF584C4A39BECB6A5BB1FC20ED00D153842FE329B3D63B52A05A6E1B1A2C830975B227EBE28012079A059618C323C7041531D871F1E5A534CCF73F362693FDB7C072A49CAFA2D4ADF04759FA7DC982CA76ABD7FE2B670130C56F6BF27B777C63

/-- Substitution of one byte. -/
def sub8 (x : Nat) : Nat := bits aesSbox (8 * x) 8

/-- Doubling in the AES field of each of the sixteen bytes of a block. -/
def aesX2 (s : Nat) : Nat :=
  ((s &&& 0x7F7F7F7F7F7F7F7F7F7F7F7F7F7F7F7F) <<< 1) ^^^ (((s >>> 7) &&& 0x01010101010101010101010101010101) * 0x1B)

/-- The bytes of these places of a number, substituted; the first is the lowest of the result. -/
def subBytes (places : List Nat) (s : Nat) : Nat := places.foldr (fun i a => sub8 (bits s (8 * i) 8) + a <<< 8) 0

/-- The rest of the key schedule of AES-256 in 32-bit words, first byte lowest: `prev` holds the last eight words, newest
first. -/
def aesSchedule : Nat → Nat → Nat → List Nat → List Nat
  | 0, _, _, _ => []
  | n + 1, i, rcon, prev =>
    let last := prev.getD 0 0
    let t := if i % 8 = 0 then subBytes [1, 2, 3, 0] last ^^^ rcon
      else if i % 8 = 4 then subBytes [0, 1, 2, 3] last else last
    let w := prev.getD 7 0 ^^^ t
    w :: aesSchedule n (i + 1) (if i % 8 = 0 then aesX2 rcon else rcon) (w :: prev.take 7)

/-- The round keys, sixteen bytes each, taken from four words each. -/
def aesPack : List Nat → List Nat
  | a :: b :: c :: d :: l => (a + b <<< 32 + c <<< 64 + d <<< 96) :: aesPack l
  | _ => []

/-- The fifteen round keys of sixteen bytes, first byte lowest. -/
def aesKeys (key : Buf) : List Nat :=
  let ws := (List.range 8).map fun i => key.fld (32 * i) 32
  aesPack (ws ++ aesSchedule 52 8 1 ws.reverse)

/-- SubBytes and ShiftRows: where each byte, in column order, comes from. -/
def aesSubShift (s : Nat) : Nat := subBytes [0, 5, 10, 15, 4, 9, 14, 3, 8, 13, 2, 7, 12, 1, 6, 11] s

/-- Each column turned by one byte: its byte `i` is byte `i + 1`. -/
def aesTurn (s : Nat) : Nat :=
  ((s >>> 8) &&& 0x00FFFFFF00FFFFFF00FFFFFF00FFFFFF) + ((s <<< 24) &&& 0xFF000000FF000000FF000000FF000000)

/-- MixColumns. -/
def aesMix (s : Nat) : Nat :=
  let r := aesTurn s
  aesX2 (s ^^^ r) ^^^ r ^^^ aesTurn r ^^^ aesTurn (aesTurn r)

/-- The rounds after the first key addition; the last round has no MixColumns. -/
def aesRounds : List Nat → Nat → Nat
  | [], s => s
  | [k], s => aesSubShift s ^^^ k
  | k :: l, s => aesRounds l (aesMix (aesSubShift s) ^^^ k)

/-- One block of AES-256 under its round keys, first byte lowest. -/
def aesBlock (keys : List Nat) (block : Nat) : Nat :=
  match keys with
  | [] => block
  | k :: l => aesRounds l (block ^^^ k)

/-- The block of a nonce and a counter, enciphered. -/
def gcmBlock (keys : List Nat) (iv count : Nat) : Nat := aesBlock keys (revBytes 16 (iv * 2 ^ 32 + count))

/-- Product in the GHASH field; bit 127 of a big-endian block is the coefficient of x^0. -/
def ghashMul : Nat → Nat → Nat → Nat → Nat
  | 0, _, _, z => z
  | n + 1, x, v, z =>
    let z := if x.testBit n then z ^^^ v else z
    ghashMul n x (if v.testBit 0 then (v >>> 1) ^^^ (0xE1 <<< 120) else v >>> 1) z

/-- GHASH over blocks. -/
def ghash (h : Nat) (blocks : List Nat) : Nat := blocks.foldl (fun y b => ghashMul 128 (y ^^^ b) h 0) 0

/-- The big-endian 16-byte blocks of a byte string, the last padded with zeros. -/
def gcmBlocks (b : Buf) : List Nat :=
  (List.range (ceilDiv b.len 16)).map fun i => revBytes 16 (bits (b.val % 256 ^ b.len) (128 * i) 128)

/-- The key stream applied to a byte string, with counters from 2 on. -/
def gcmCtr (keys : List Nat) (iv : Nat) (b : Buf) : Buf :=
  let stream := (List.range (ceilDiv b.len 16)).foldr (fun i a => gcmBlock keys iv (i + 2) + a <<< 128) 0
  ⟨b.len, (b.val ^^^ stream) % 256 ^ b.len⟩

/-- The tag over associated data and ciphertext, big-endian; `iv` is the 96-bit nonce. -/
def gcmTag (keys : List Nat) (iv : Nat) (aad ct : Buf) : Nat :=
  let h := revBytes 16 (aesBlock keys 0)
  let s := ghash h (gcmBlocks aad ++ gcmBlocks ct ++ [(8 * aad.len) * 2 ^ 64 + 8 * ct.len])
  s ^^^ revBytes 16 (gcmBlock keys iv 1)

/-- AES-256-GCM seal: ciphertext, then the 16-byte tag. -/
def gcmSeal (key : Buf) (iv : Nat) (aad pt : Buf) : Buf :=
  let keys := aesKeys key
  let ct := gcmCtr keys iv pt
  ct.app (Buf.ofBe 16 (gcmTag keys iv aad ct))

/-- AES-256-GCM open: the plaintext, or none where the tag fails. -/
def gcmOpen (key : Buf) (iv : Nat) (aad msg : Buf) : Option Buf :=
  if msg.len < 16 then none
  else
    let keys := aesKeys key
    let ct := msg.slice 0 (msg.len - 16)
    if gcmTag keys iv aad ct = msg.be (msg.len - 16) 16 then some (gcmCtr keys iv ct) else none

/-! ### RSA -/

/-- b^e mod m, over the low `n` bits of e from the highest down. -/
def powMod : Nat → Nat → Nat → Nat → Nat → Nat
  | 0, _, _, _, acc => acc
  | n + 1, b, e, m, acc =>
    let sq := acc * acc % m
    powMod n b e m (if e.testBit n then sq * b % m else sq)

/-- The public operation with exponent 65,537. -/
def rsaPublic (modulus x : Nat) : Nat := if modulus = 0 then 0 else powMod 17 (x % modulus) 65537 modulus (1 % modulus)

/-- MGF1 with SHA-256, as a big-endian number of `n` bytes. -/
def mgf1 (seed : Buf) (n : Nat) : Nat :=
  let bs := (List.range (ceilDiv n 32)).map fun i => sha256 (seed.app (Buf.ofBe 4 i))
  (bs.foldl (fun a x => a * 2 ^ 256 + x) 0) >>> (8 * (ceilDiv n 32 * 32 - n))

/-- RSASSA-PSS verification with SHA-256 and a 32-byte salt, for a 3,072-bit modulus: EMSA-PSS on 384 bytes of which the
top bit is unused. `digest` is the message digest as a big-endian number. -/
def pssVerify (modulus digest sig : Nat) : Bool :=
  if modulus.log2 ≠ 3071 || modulus ≤ sig then false
  else
    let em := rsaPublic modulus sig
    let maskedDb := em >>> (8 * 33)            -- 351 bytes
    let h := (em >>> 8) % 2 ^ 256
    let db := (maskedDb ^^^ mgf1 (Buf.ofBe 32 h) 351) % 2 ^ (8 * 351 - 1)
    let salt := db % 2 ^ 256
    let m' := ((Buf.zeros 8).app (Buf.ofBe 32 digest)).app (Buf.ofBe 32 salt)
    em % 256 = 0xBC && maskedDb < 2 ^ (8 * 351 - 1) && db >>> 256 = 1 && sha256 m' = h

/-- The EME-OAEP encoding with SHA-256 and an empty label of a 32-byte message under a 32-byte seed, for 384 bytes. -/
def oaepEncode (msg seed : Nat) : Nat :=
  let lHash := sha256 Buf.empty
  let dbLen := 351
  let db := (lHash <<< (8 * (dbLen - 32))) + (1 <<< 256) + msg % 2 ^ 256
  let mdb := db ^^^ mgf1 (Buf.ofBe 32 seed) dbLen
  let ms := (seed % 2 ^ 256) ^^^ mgf1 (Buf.ofBe dbLen mdb) 32
  (ms <<< (8 * dbLen)) + mdb

/-! ### The digest field of R490 -/

/-- Multiplication by x modulo x^128 + x^7 + x^2 + x + 1, bit i the coefficient of x^i. -/
def gf128X (a : Nat) : Nat := if a.testBit 127 then ((a <<< 1) ^^^ 0x87) % 2 ^ 128 else a <<< 1

/-- Product over the low `n` bits of `b`, highest first. -/
def gf128MulAux : Nat → Nat → Nat → Nat → Nat
  | 0, _, _, acc => acc
  | n + 1, a, b, acc =>
    let acc := gf128X acc
    gf128MulAux n a b (if b.testBit n then acc ^^^ a else acc)

/-- Product in the field of R490. -/
def gf128Mul (a b : Nat) : Nat := gf128MulAux 128 a b 0

/-- a1 k + a2 k^2 + ... for a list a1, a2, ... -/
def gf128Poly (k : Nat) (l : List Nat) : Nat := l.foldr (fun x acc => gf128Mul (acc ^^^ x) k) 0

end Sys2Proof.Machine
end

