-- ==== Sys2Proof/Config.lean ====
section
/-! DEFINITION. What an implementation fixes, and the free values: constants with no body, so that no proof can lean on
what they are (log entry 4). -/

namespace Sys2Proof.Config

/-- A value the spec leaves open, drawn for the given use of the counter `State.freeCtr`. -/
opaque freeValue : Nat → Nat

/-- The amax of a tensor in a step, FP32: the spec does not say what it is the maximum of. Matching runs share it (R25). -/
opaque amaxOf : Nat → Nat → Nat

/-- E of a watch slot in a step where a channel holds no finite sum. Matching runs share it (R25). -/
opaque watchOf : Nat → Nat → Nat

/-- x of an encode whose exact sum leaves the FP32 range, from anchor, snapshot and residual. Matching runs share it (R25). -/
opaque encodeOf : Nat → Nat → Nat → Nat

/-- 256 random bits of the security island, for the given use of the counter: nonces (R335, R466, R478) and
X25519 or ML-KEM secrets where the spec names them. -/
opaque islandRandom : Nat → Nat

/-- The 3,072-bit modulus of the identity key that the island generates at first power-up (R463). -/
opaque identityModulus : Nat

/-- The 3,072-bit signature that the identity key gives on a SHA-256 digest (R464, R478). -/
opaque identitySign : Nat → Nat

/-- What the identity key decrypts an RSA-OAEP ciphertext to, `none` where it does not decrypt (R335). -/
opaque identityDecrypt : Nat → Option Nat

/-- The modulus of the Mardima root key, whose digest the boot ROM holds (R465). -/
opaque rootModulus : Nat

end Sys2Proof.Config
end

