-- ==== Sys2Proof/Machine/Flags.lean ====
section
/-! DEFINITION. Event codes with their severities (R69, R97, R121, R142, R178, R212, R231, R260, R294, R325, R359, R377,
R421, R441, R461, R481, R500), and the numeric flags that arithmetic raises (R88, R112, R234). -/

namespace Sys2Proof.Machine

/-- An event: its code and its severity, 0 information, 1 warning, 2 fault (R395). -/
structure Ev where
  code : Nat
  sev  : Nat
  deriving DecidableEq, Repr

/-- The same event raised as a fault, where a rule makes it one. -/
def Ev.asFault (e : Ev) : Ev := ⟨e.code, 2⟩

/-- The codes that an arm masks (R363; "masked at arm" in the event tables). -/
def maskedAtArm : List Nat := [0x2001, 0x4004, 0x5001, 0x5024, 0x6005, 0x7006, 0x8020]

/-- HT_LOCKED (R69): Entry to LOCKED. -/
def Ev.htLocked : Ev := ⟨0x1001, 0⟩

/-- HT_HOLDOVER (R69): Entry to HOLDOVER. -/
def Ev.htHoldover : Ev := ⟨0x1002, 1⟩

/-- HT_LOST (R69): Holdover limit reached. -/
def Ev.htLost : Ev := ⟨0x1003, 2⟩

/-- HT_UPSTREAM_CHANGED (R69): Upstream port or source changed. -/
def Ev.htUpstreamChanged : Ev := ⟨0x1004, 0⟩

/-- HT_IN_OVERRUN (R69): R48, at most once per second. -/
def Ev.htInOverrun : Ev := ⟨0x1005, 1⟩

/-- HT_IN_STUCK (R69): HT_IN held high more than 2 ms. -/
def Ev.htInStuck : Ev := ⟨0x1006, 1⟩

/-- HT_IN_RESTORED (R69): HT_IN accepted again. -/
def Ev.htInRestored : Ev := ⟨0x1007, 0⟩

/-- HT_OFFSET_EXCESS (R69): Offset beyond ±2.0 ns (R43). -/
def Ev.htOffsetExcess : Ev := ⟨0x1008, 1⟩

/-- HT_FAR (R69): Hop count above 64. -/
def Ev.htFar : Ev := ⟨0x1009, 1⟩

/-- HT_EPOCH_MISMATCH (R69): R49. -/
def Ev.htEpochMismatch : Ev := ⟨0x100A, 2⟩

/-- SLOT_DEFERRED (R69): Action deferred. -/
def Ev.slotDeferred : Ev := ⟨0x8020, 0⟩

/-- SLOT_SKIPPED (R69): Action skipped; carries step and entry index. -/
def Ev.slotSkipped : Ev := ⟨0x8021, 1⟩

/-- SLOT_FAULT (R69): Fault-class miss; carries step and entry index. -/
def Ev.slotFault : Ev := ⟨0x8022, 1⟩

/-- CATCHUP_FULL (R69): R63. -/
def Ev.catchupFull : Ev := ⟨0x8023, 1⟩

/-- SO_STALE_SIGNAL (R69): R58. -/
def Ev.soStaleSignal : Ev := ⟨0x8024, 1⟩

/-- SLOT_FAULT_LIMIT (R69): R65. -/
def Ev.slotFaultLimit : Ev := ⟨0x8025, 2⟩

/-- ACC_LIMIT (R97): R87. -/
def Ev.accLimit : Ev := ⟨0x3020, 1⟩

/-- KERNEL_WAIT_FAULT (R97): R76. -/
def Ev.kernelWaitFault : Ev := ⟨0x8030, 1⟩

/-- SCRATCH_CONFLICT (R97): R72. -/
def Ev.scratchConflict : Ev := ⟨0x8031, 1⟩

/-- TSCALE_MISMATCH (R121): R107. -/
def Ev.tscaleMismatch : Ev := ⟨0x3021, 1⟩

/-- RED_LIMIT (R142): R138. -/
def Ev.redLimit : Ev := ⟨0x3022, 1⟩

/-- MEM_CORRECTED (R178): A correction; at most once per second per channel or die. -/
def Ev.memCorrected : Ev := ⟨0x2001, 0⟩

/-- MEM_UNCORRECTABLE (R178): R170. -/
def Ev.memUncorrectable : Ev := ⟨0x2002, 1⟩

/-- ERG_DEVICE_MARKED (R178): R167. -/
def Ev.ergDeviceMarked : Ev := ⟨0x2003, 1⟩

/-- ERG_PAGE_RETIRED (R178): R174. -/
def Ev.ergPageRetired : Ev := ⟨0x2004, 0⟩

/-- ERG_RETIRE_FULL (R178): R175. -/
def Ev.ergRetireFull : Ev := ⟨0x2005, 1⟩

/-- ERG_REFRESH_HIGH (R178): R162. -/
def Ev.ergRefreshHigh : Ev := ⟨0x2006, 0⟩

/-- ERG_REFRESH_NORMAL (R178): R162. -/
def Ev.ergRefreshNormal : Ev := ⟨0x2007, 0⟩

/-- ERG_OVERTEMP (R178): R162. -/
def Ev.ergOvertemp : Ev := ⟨0x2008, 2⟩

/-- ERG_POPULATION (R178): R149; one event per channel concerned, carrying the reason. -/
def Ev.ergPopulation : Ev := ⟨0x2009, 1⟩

/-- ERG_SCRUB_LATE (R178): R171. -/
def Ev.ergScrubLate : Ev := ⟨0x200A, 1⟩

/-- AFX_OVERFLOW (R212): A final sum with OVF set, once per step; carries the step and the tensor. -/
def Ev.afxOverflow : Ev := ⟨0x3030, 1⟩

/-- AFX_MISMATCH (R212): R194. -/
def Ev.afxMismatch : Ev := ⟨0x3031, 2⟩

/-- SPILLWAY_FULL (R212): R202. -/
def Ev.spillwayFull : Ev := ⟨0x200B, 1⟩

/-- UPDATE_NONFINITE (R231): R217. -/
def Ev.updateNonfinite : Ev := ⟨0x3040, 2⟩

/-- SR_SATURATE (R231): R224, at most once per step. -/
def Ev.srSaturate : Ev := ⟨0x3041, 1⟩

/-- UPDATE_MISSING (R231): R218. -/
def Ev.updateMissing : Ev := ⟨0x8040, 2⟩

/-- UPDATE_FAULT (R231): A fault-class miss of a pass entry (R214). -/
def Ev.updateFault : Ev := ⟨0x8041, 2⟩

/-- SILENT_LAYER (R260): R257; carries the slot. -/
def Ev.silentLayer : Ev := ⟨0x3050, 1⟩

/-- NW_PROMOTED (R260): R255; carries the slot. -/
def Ev.nwPromoted : Ev := ⟨0x3051, 0⟩

/-- SCALE_HISTORY_ABSENT (R260): R251. -/
def Ev.scaleHistoryAbsent : Ev := ⟨0x3052, 1⟩

/-- STEP_SKIPPED (R260): R246; carries CAUSE. -/
def Ev.stepSkipped : Ev := ⟨0x8050, 1⟩

/-- STEP_SKIP_LIMIT (R260): R247. -/
def Ev.stepSkipLimit : Ev := ⟨0x8051, 1⟩

/-- MB_OVERRUN (R260): R249; carries the micro-batch and OVERRUN. -/
def Ev.mbOverrun : Ev := ⟨0x8052, 1⟩

/-- CARRY_DROPPED (R260): R250. -/
def Ev.carryDropped : Ev := ⟨0x8053, 1⟩

/-- FLOOD_FAULT (R260): R237, R241. -/
def Ev.floodFault : Ev := ⟨0x8054, 2⟩

/-- LATE_CAUSE (R260): R236. -/
def Ev.lateCause : Ev := ⟨0x8055, 2⟩

/-- SCALE_PROBE_FAIL (R260): R252. -/
def Ev.scaleProbeFail : Ev := ⟨0x8056, 1⟩

/-- LINK_UP (R294): Entry to UP. -/
def Ev.linkUp : Ev := ⟨0x4001, 0⟩

/-- LINK_DOWN (R294): Exit from UP. -/
def Ev.linkDown : Ev := ⟨0x4002, 2⟩

/-- LINK_DEGRADED (R294): R263. -/
def Ev.linkDegraded : Ev := ⟨0x4003, 1⟩

/-- LINK_RESENT (R294): R278. -/
def Ev.linkResent : Ev := ⟨0x4004, 0⟩

/-- LINK_RESEND_FAULT (R294): R279. -/
def Ev.linkResendFault : Ev := ⟨0x4005, 1⟩

/-- LINK_STRAY (R294): R273, at most once per step. -/
def Ev.linkStray : Ev := ⟨0x4006, 1⟩

/-- LINK_BLOCK_INCOMPLETE (R294): R273. -/
def Ev.linkBlockIncomplete : Ev := ⟨0x4007, 1⟩

/-- LINK_HELD_FULL (R294): R277. -/
def Ev.linkHeldFull : Ev := ⟨0x4008, 1⟩

/-- GATHER_VERSION (R294): R287. -/
def Ev.gatherVersion : Ev := ⟨0x4009, 2⟩

/-- EPOCH_STRAY (R294): R291. -/
def Ev.epochStray : Ev := ⟨0x400A, 2⟩

/-- ROUND_MANIFEST (R325): A manifest is adopted. -/
def Ev.roundManifest : Ev := ⟨0x5001, 0⟩

/-- ROUND_STALE_DROPPED (R325): R304. -/
def Ev.roundStaleDropped : Ev := ⟨0x5002, 1⟩

/-- SNAPSHOT_DEFERRED (R325): R316. -/
def Ev.snapshotDeferred : Ev := ⟨0x5003, 1⟩

/-- LEADER_TAKEOVER (R325): R308. -/
def Ev.leaderTakeover : Ev := ⟨0x5004, 1⟩

/-- SITE_REMOVED (R325): R307. -/
def Ev.siteRemoved : Ev := ⟨0x5005, 1⟩

/-- SITE_ACTIVE (R325): R318. -/
def Ev.siteActive : Ev := ⟨0x5006, 0⟩

/-- BOOTSTRAP_DONE (R325): R319. -/
def Ev.bootstrapDone : Ev := ⟨0x5007, 0⟩

/-- OUTER_APPLY_DROPPED (R325): R313. -/
def Ev.outerApplyDropped : Ev := ⟨0x5008, 1⟩

/-- ROUND_UNOBTAINABLE (R325): R312. -/
def Ev.roundUnobtainable : Ev := ⟨0x5009, 1⟩

/-- ANCHOR_DIGEST_MISMATCH (R325): R322. -/
def Ev.anchorDigestMismatch : Ev := ⟨0x500A, 1⟩

/-- ANCHOR_REPAIRED (R325): R322. -/
def Ev.anchorRepaired : Ev := ⟨0x500B, 0⟩

/-- ACX_SESSION_OPEN (R359): Entry to OPEN. -/
def Ev.acxSessionOpen : Ev := ⟨0x5020, 0⟩

/-- ACX_SESSION_REJECTED (R359): R335. -/
def Ev.acxSessionRejected : Ev := ⟨0x5021, 1⟩

/-- ACX_SESSION_FAIL (R359): R350. -/
def Ev.acxSessionFail : Ev := ⟨0x5022, 1⟩

/-- ACX_AUTH_FAIL (R359): R340. -/
def Ev.acxAuthFail : Ev := ⟨0x5023, 1⟩

/-- ACX_KEY_RATCHET (R359): R338. -/
def Ev.acxKeyRatchet : Ev := ⟨0x5024, 0⟩

/-- ACX_RETRY_EXHAUSTED (R359): R347. -/
def Ev.acxRetryExhausted : Ev := ⟨0x5025, 1⟩

/-- ACX_REROUTE (R359): R346. -/
def Ev.acxReroute : Ev := ⟨0x5026, 0⟩

/-- ACX_ROUTE_DOWN (R359): R349. -/
def Ev.acxRouteDown : Ev := ⟨0x5027, 1⟩

/-- ACX_ROUTE_UP (R359): R349. -/
def Ev.acxRouteUp : Ev := ⟨0x5028, 0⟩

/-- ACX_PORT_DOWN (R359): R350. -/
def Ev.acxPortDown : Ev := ⟨0x5029, 1⟩

/-- ACX_CISTERN_FULL (R359): R343. -/
def Ev.acxCisternFull : Ev := ⟨0x502A, 1⟩

/-- ACX_BUDGET_CHANGED (R359): R352. -/
def Ev.acxBudgetChanged : Ev := ⟨0x502B, 0⟩

/-- ACX_EXPORT_DONE (R359): R355. -/
def Ev.acxExportDone : Ev := ⟨0x502C, 0⟩

/-- ACX_EXPORT_FAILED (R359): R355. -/
def Ev.acxExportFailed : Ev := ⟨0x502D, 1⟩

/-- JOB_ARMED (R377): R363. -/
def Ev.jobArmed : Ev := ⟨0x8001, 0⟩

/-- JOB_NEIGHBOUR (R377): R364; carries the port. -/
def Ev.jobNeighbour : Ev := ⟨0x8002, 2⟩

/-- JOB_STOPPED (R377): R365. -/
def Ev.jobStopped : Ev := ⟨0x8003, 0⟩

/-- GUEST_ATTACHED (R377): R372. -/
def Ev.guestAttached : Ev := ⟨0x8004, 0⟩

/-- GUEST_STOPPED (R377): R376; carries the cause and the core. -/
def Ev.guestStopped : Ev := ⟨0x8005, 1⟩

/-- GUEST_DETACHED (R377): R376. -/
def Ev.guestDetached : Ev := ⟨0x8006, 0⟩

/-- JOB_RESTORED (R421): JOB_RESTORE completes; carries the restored step. -/
def Ev.jobRestored : Ev := ⟨0x8007, 0⟩

/-- CKPT_TAKEN (R421): R409; carries the step and DEST. -/
def Ev.ckptTaken : Ev := ⟨0x8008, 0⟩

/-- CKPT_LOCAL_DONE (R421): R409; carries the step. -/
def Ev.ckptLocalDone : Ev := ⟨0x8009, 0⟩

/-- LAYOUT_EPOCH (R421): Step B of a RELAYOUT starts; carries the new epoch. -/
def Ev.layoutEpoch : Ev := ⟨0x800A, 0⟩

/-- CHAIN_ADDRESSED (R441): R434; carries the address. -/
def Ev.chainAddressed : Ev := ⟨0x4010, 0⟩

/-- CHAIN_ADDR_CHANGED (R441): R434; carries the old and new addresses. -/
def Ev.chainAddrChanged : Ev := ⟨0x4011, 1⟩

/-- CHAIN_FRAME_ERROR (R441): R433, at most once per second. -/
def Ev.chainFrameError : Ev := ⟨0x4012, 1⟩

/-- CHAIN_ATTN_STUCK (R441): R440. -/
def Ev.chainAttnStuck : Ev := ⟨0x4013, 1⟩

/-- LINKS_LATE (R441): R439; carries the ports not UP. -/
def Ev.linksLate : Ev := ⟨0x4014, 1⟩

/-- DEVICE_RESET (R441): Reset completed; see above. -/
def Ev.deviceReset : Ev := ⟨0x8060, 0⟩

/-- DOORBELL_STUCK (R441): R440; carries the mailbox. -/
def Ev.doorbellStuck : Ev := ⟨0x8061, 1⟩

/-- POWER_HOLD (R461): R445. -/
def Ev.powerHold : Ev := ⟨0x6001, 0⟩

/-- POWER_RUN (R461): R445. -/
def Ev.powerRun : Ev := ⟨0x6002, 0⟩

/-- POWER_REFUSED (R461): R444; carries the refuser, target and counts. -/
def Ev.powerRefused : Ev := ⟨0x6003, 1⟩

/-- POWER_ABORTED (R461): R444; as POWER_REFUSED. -/
def Ev.powerAborted : Ev := ⟨0x6004, 1⟩

/-- POWER_DROOP (R461): R456. -/
def Ev.powerDroop : Ev := ⟨0x6005, 0⟩

/-- CAP_CHANGED (R461): R459. -/
def Ev.capChanged : Ev := ⟨0x6006, 0⟩

/-- CAP_LIMIT (R461): R458; at most once per step. -/
def Ev.capLimit : Ev := ⟨0x6007, 1⟩

/-- RAIL_WARNING (R461): R453; carries the rail and STATUS_WORD. -/
def Ev.railWarning : Ev := ⟨0x6008, 1⟩

/-- RAIL_FAULT (R461): R453; posted after the next reset, like DEVICE_RESET (R441). -/
def Ev.railFault : Ev := ⟨0x6009, 2⟩

/-- RAIL_ALERT_STUCK (R461): R453. -/
def Ev.railAlertStuck : Ev := ⟨0x600A, 1⟩

/-- IDENTITY_CREATED (R481): R463. -/
def Ev.identityCreated : Ev := ⟨0x7001, 0⟩

/-- IDENTITY_FAIL (R481): R463. -/
def Ev.identityFail : Ev := ⟨0x7002, 2⟩

/-- FW_FALLBACK (R481): R470. -/
def Ev.fwFallback : Ev := ⟨0x7003, 1⟩

/-- FW_RECOVERY (R481): R470. -/
def Ev.fwRecovery : Ev := ⟨0x7004, 1⟩

/-- IMAGE_REJECTED (R481): R468; carries the command. -/
def Ev.imageRejected : Ev := ⟨0x7005, 1⟩

/-- LEDGER_APPENDED (R481): R475; carries INDEX and SETTING. -/
def Ev.ledgerAppended : Ev := ⟨0x7006, 0⟩

/-- LEDGER_NEAR_FULL (R481): R476. -/
def Ev.ledgerNearFull : Ev := ⟨0x7007, 1⟩

/-- COUNTER_LOW (R481): R471; carries the setting and uses left. -/
def Ev.counterLow : Ev := ⟨0x7008, 1⟩

/-- DEBUG_ENTERED (R481): R473. -/
def Ev.debugEntered : Ev := ⟨0x7009, 1⟩

/-- DEBUG_EXITED (R481): R473. -/
def Ev.debugExited : Ev := ⟨0x700A, 0⟩

/-- LIFECYCLE_CHANGED (R481): R467. -/
def Ev.lifecycleChanged : Ev := ⟨0x700B, 0⟩

/-- SITE_RESTART (R500): R487; carries HT_X[31:0]. -/
def Ev.siteRestart : Ev := ⟨0x8070, 0⟩

/-- RESTART_FAILED (R500): R488. -/
def Ev.restartFailed : Ev := ⟨0x8071, 1⟩

/-- RESTART_LIMIT (R500): R488. -/
def Ev.restartLimit : Ev := ⟨0x8072, 1⟩

/-- REPLICA_MISMATCH (R500): R494; carries the group size. -/
def Ev.replicaMismatch : Ev := ⟨0x8073, 1⟩

/-- REPLICA_REPAIRED (R500): R495; carries the blocks installed. -/
def Ev.replicaRepaired : Ev := ⟨0x8074, 0⟩

/-- REPLICA_TIMEOUT (R500): R493. -/
def Ev.replicaTimeout : Ev := ⟨0x8075, 2⟩

/-- LOOPBACK_DONE (R500): R496. -/
def Ev.loopbackDone : Ev := ⟨0x9001, 0⟩

/-- LOOPBACK_ERRORS (R500): R496; carries the error count, saturating. -/
def Ev.loopbackErrors : Ev := ⟨0x9002, 1⟩

/-- MBIST_DONE (R500): R498. -/
def Ev.mbistDone : Ev := ⟨0x9003, 0⟩

/-- MBIST_FAIL (R500): R498; carries the failing rows. -/
def Ev.mbistFail : Ev := ⟨0x9004, 1⟩

/-- BSCAN_TAKEOVER (R500): R497. -/
def Ev.bscanTakeover : Ev := ⟨0x9005, 1⟩

/-! ### Numeric flags -/

/-- The flags that one operation raises (R112): INVALID, OVERFLOW, UNDERFLOW, CLIPPED. -/
structure NumFlags where
  invalid : Bool := false
  ovf     : Bool := false
  unf     : Bool := false
  clip    : Bool := false
  deriving DecidableEq, Repr

/-- No flag. -/
def NumFlags.none_ : NumFlags := ⟨false, false, false, false⟩

/-- Flags of two operations together. -/
def NumFlags.or (a b : NumFlags) : NumFlags :=
  ⟨a.invalid || b.invalid, a.ovf || b.ovf, a.unf || b.unf, a.clip || b.clip⟩

/-- The flags of a list of operations together. -/
def NumFlags.orAll (l : List NumFlags) : NumFlags := l.foldl NumFlags.or NumFlags.none_

/-- Numeric flags ORed into a step or guest flag record (R88, R234). -/
def FlagRec.raise (r : FlagRec) (f : NumFlags) : FlagRec :=
  { r with invalid := r.invalid || f.invalid, overflow := r.overflow || f.ovf,
           underflow := r.underflow || f.unf, clipped := r.clipped || f.clip }

/-- Bits 3:0 of a flag record as they lie in it (R234). -/
def FlagRec.numBits (r : FlagRec) : Nat :=
  b2n r.invalid + 2 * b2n r.overflow + 4 * b2n r.underflow + 8 * b2n r.clipped

/-- Bits 5:0 of a flag record (R234). -/
def FlagRec.bits (r : FlagRec) : Nat := r.numBits + 16 * b2n r.deferred + 32 * b2n r.faultMiss

end Sys2Proof.Machine
end

