-- ==== Sys2Proof/Machine/Ops.lean ====
section
/-! DEFINITION. The named operations on the state that every family shares: access to each indexed unit, the clock, free
values, interrupts and events. -/

namespace Sys2Proof.Machine

/-! ### Access to the units -/

/-- The state of core `k` (16 d + i). -/
def State.core (s : State) (k : Nat) : Core := tget Core.reset s.cores k

/-- The same replaced. -/
def State.putCore (s : State) (k : Nat) (v : Core) : State :=
  { s with cores := tset Core.reset s.cores k v }

/-- The same changed. -/
def State.onCore (s : State) (k : Nat) (f : Core → Core) : State := s.putCore k (f (s.core k))

/-- The state of compute die `k`. -/
def State.die (s : State) (k : Nat) : Die := tget Die.reset s.dies k

/-- The same replaced. -/
def State.putDie (s : State) (k : Nat) (v : Die) : State :=
  { s with dies := tset Die.reset s.dies k v }

/-- The same changed. -/
def State.onDie (s : State) (k : Nat) (f : Die → Die) : State := s.putDie k (f (s.die k))

/-- The state of near port `k`. -/
def State.port (s : State) (k : Nat) : NearPort := tget NearPort.reset s.near k

/-- The same replaced. -/
def State.putPort (s : State) (k : Nat) (v : NearPort) : State :=
  { s with near := tset NearPort.reset s.near k v }

/-- The same changed. -/
def State.onPort (s : State) (k : Nat) (f : NearPort → NearPort) : State := s.putPort k (f (s.port k))

/-- The state of sync object `k` (R58). -/
def State.so (s : State) (k : Nat) : SyncObj := tget (SyncObj.start s.soStart) s.sos k

/-- The same replaced. -/
def State.putSo (s : State) (k : Nat) (v : SyncObj) : State :=
  { s with sos := tset (SyncObj.start s.soStart) s.sos k v }

/-- The same changed. -/
def State.onSo (s : State) (k : Nat) (f : SyncObj → SyncObj) : State := s.putSo k (f (s.so k))

/-- The state of the slot-miss record of target `k` (R68). -/
def State.missRec (s : State) (k : Nat) : MissRec := tget MissRec.reset s.miss k

/-- The same replaced. -/
def State.putMissRec (s : State) (k : Nat) (v : MissRec) : State :=
  { s with miss := tset MissRec.reset s.miss k v }

/-- The same changed. -/
def State.onMissRec (s : State) (k : Nat) (f : MissRec → MissRec) : State := s.putMissRec k (f (s.missRec k))

/-- The state of timetable entry `k`. -/
def State.ent (s : State) (k : Nat) : EntryState := tget EntryState.idle s.ents k

/-- The same replaced. -/
def State.putEnt (s : State) (k : Nat) (v : EntryState) : State :=
  { s with ents := tset EntryState.idle s.ents k v }

/-- The same changed. -/
def State.onEnt (s : State) (k : Nat) (f : EntryState → EntryState) : State := s.putEnt k (f (s.ent k))

/-- The state of fragment `k`. -/
def State.frag (s : State) (k : Nat) : Fragment := tget Fragment.reset s.acx.frags k

/-- The same replaced. -/
def State.putFrag (s : State) (k : Nat) (v : Fragment) : State :=
  { s with acx := { s.acx with frags := tset Fragment.reset s.acx.frags k v } }

/-- The same changed. -/
def State.onFrag (s : State) (k : Nat) (f : Fragment → Fragment) : State := s.putFrag k (f (s.frag k))

/-- The state of far port `k`. -/
def State.farPort (s : State) (k : Nat) : FarPort := tget FarPort.reset s.acx.ports k

/-- The same replaced. -/
def State.putFarPort (s : State) (k : Nat) (v : FarPort) : State :=
  { s with acx := { s.acx with ports := tset FarPort.reset s.acx.ports k v } }

/-- The same changed. -/
def State.onFarPort (s : State) (k : Nat) (f : FarPort → FarPort) : State := s.putFarPort k (f (s.farPort k))

/-- The state of site `k`, or storage endpoint `k - 8`. -/
def State.partner (s : State) (k : Nat) : Partner := tget Partner.reset s.acx.partners k

/-- The same replaced. -/
def State.putPartner (s : State) (k : Nat) (v : Partner) : State :=
  { s with acx := { s.acx with partners := tset Partner.reset s.acx.partners k v } }

/-- The same changed. -/
def State.onPartner (s : State) (k : Nat) (f : Partner → Partner) : State := s.putPartner k (f (s.partner k))

/-- The state of session place `k`. -/
def State.sess (s : State) (k : Nat) : Session := tget Session.reset s.acx.sess k

/-- The same replaced. -/
def State.putSess (s : State) (k : Nat) (v : Session) : State :=
  { s with acx := { s.acx with sess := tset Session.reset s.acx.sess k v } }

/-- The same changed. -/
def State.onSess (s : State) (k : Nat) (f : Session → Session) : State := s.putSess k (f (s.sess k))

/-- The state of mailbox `k`, the chain mailbox at 16. -/
def State.mbox (s : State) (k : Nat) : Mailbox := tget Mailbox.reset s.pcie.mboxes k

/-- The same replaced. -/
def State.putMbox (s : State) (k : Nat) (v : Mailbox) : State :=
  { s with pcie := { s.pcie with mboxes := tset Mailbox.reset s.pcie.mboxes k v } }

/-- The same changed. -/
def State.onMbox (s : State) (k : Nat) (f : Mailbox → Mailbox) : State := s.putMbox k (f (s.mbox k))

/-- The state of Erg channel `k`. -/
def State.chan (s : State) (k : Nat) : ErgChannel := tget ErgChannel.reset s.erg.chans k

/-- The same replaced. -/
def State.putChan (s : State) (k : Nat) (v : ErgChannel) : State :=
  { s with erg := { s.erg with chans := tset ErgChannel.reset s.erg.chans k v } }

/-- The same changed. -/
def State.onChan (s : State) (k : Nat) (f : ErgChannel → ErgChannel) : State := s.putChan k (f (s.chan k))

/-- `s` with its HtUnit changed. -/
def State.onHt (s : State) (f : HtUnit → HtUnit) : State := { s with ht := f s.ht }

/-- `s` with its Commit changed. -/
def State.onCom (s : State) (f : Commit → Commit) : State := { s with com := f s.com }

/-- `s` with its Pcie changed. -/
def State.onPcie (s : State) (f : Pcie → Pcie) : State := { s with pcie := f s.pcie }

/-- `s` with its Aon changed. -/
def State.onAon (s : State) (f : Aon → Aon) : State := { s with aon := f s.aon }

/-- `s` with its Island changed. -/
def State.onIsl (s : State) (f : Island → Island) : State := { s with isl := f s.isl }

/-- `s` with its Site changed. -/
def State.onSite (s : State) (f : Site → Site) : State := { s with site := f s.site }

/-- `s` with its Acrix changed. -/
def State.onAcx (s : State) (f : Acrix → Acrix) : State := { s with acx := f s.acx }

/-- `s` with its Erg changed. -/
def State.onErg (s : State) (f : Erg → Erg) : State := { s with erg := f s.erg }

/-- `s` with its armed job changed, where there is one. -/
def State.onJob (s : State) (f : Job → Job) : State := { s with job := s.job.map f }

/-- The answer of a command that goes on. -/
abbrev Res := Host.Outcome State Fault Refusal

/-! ### Time -/

/-- The clock taken forward to the instant of a command; it never goes back (log entry 3). -/
def State.tick (s : State) (t : Nat) : State := { s with now := Nat.max s.now t }

/-- HT is valid in every time state but UNSET (R44). -/
def State.htValid (s : State) : Bool := s.ht.state ≠ .unset

/-- HT, a 64-bit count of ns (R9, R33). -/
def State.htNow (s : State) : Nat := wrap 64 ((s.now : Int) + s.ht.off)

/-- HT as records report it: 0 in UNSET (R392, R395). -/
def State.htStamp (s : State) : Nat := if s.htValid then s.htNow else 0

/-- HT_STATE.STATE (R67). -/
def HtState.code : HtState → Nat
  | .unset => 0 | .acquiring => 1 | .locked => 2 | .holdover => 3 | .lost => 4

/-- The CORE cycle of a time in ns: floor(17 t / 10) (R10, R20). -/
def coreCycle (t : Nat) : Nat := 17 * t / 10

/-- The NOC cycle of a time in ns: floor(17 t / 8) (R10). -/
def nocCycle (t : Nat) : Nat := 17 * t / 8

/-- The CORE cycle that now runs, counted from HT 0 (R10). -/
def State.cc (s : State) : Nat := coreCycle s.htNow

/-- CORE cycles that a die's clock has really given: the count less its gated cycles (R455). -/
def State.dieCc (s : State) (die : Nat) : Nat := s.cc - (s.die die).gated

/-- JT of the armed job: HT - E (R49); 0 with no job. -/
def State.jtInt (s : State) : Int :=
  match s.job with
  | none => 0
  | some j => (s.htNow : Int) - j.epoch

/-- JT as a count of ns; a time before the epoch reads 0. -/
def State.jt (s : State) : Nat := s.jtInt.toNat

/-- 1 s, 1 ms and 1 µs in ns. -/
def oneS : Nat := 1000000000
@[inherit_doc oneS] def oneMs : Nat := 1000000
@[inherit_doc oneS] def oneUs : Nat := 1000

/-- Whether something that may happen at most once in `gap` ns may happen now, having last happened at `last`. -/
def State.due (s : State) (last : Option Nat) (gap : Nat) : Bool :=
  match last with
  | none => true
  | some t => t + gap ≤ s.now

/-- The NOC cycle that now runs. NOC is phase-locked to HALL (R10), so a count from power-on tells the same cycles apart. -/
def State.nocNow (s : State) : Nat := nocCycle s.now

/-- The bits of a set that the hardware sets in NOC cycle `noc` noted, from index `base` on (R13). -/
def noteSet (at_ : Tab Nat) (base set noc : Nat) : Tab Nat :=
  (onesOf 16 set).foldl (fun t k => tset 0 t (base + k) (noc + 1)) at_

/-- A write `v` to `w` W1C bits that hold `old`, in NOC cycle `noc`: a 1 clears its bit, but a bit that the hardware sets in
the same cycle remains set (R12, R13). -/
def w1c (w old v base noc : Nat) (at_ : Tab Nat) : Nat :=
  packBits ((List.range w).map fun k => (1, b2n (old.testBit k && !(v.testBit k && tget 0 at_ (base + k) ≠ noc + 1))))

/-! ### Pins and the host's reach -/

/-- The pins have their function: not before option loading after a cold reset has ended, in DOZE or OFF, nor while boundary
scan holds them (R426, R497). -/
def State.pinsLive (s : State) : Bool :=
  match s.aon.phase with
  | .powerOff | .inReset .cold _ _ | .loading _ .cold | .taken => false
  | _ => true

/-- BAR0 answers: the device is out of reset and its power is on (R436, R442). -/
def State.barUp (s : State) : Bool :=
  match s.aon.phase with
  | .powerOff | .inReset _ _ _ | .taken => false
  | _ => true

/-! ### Free values -/

/-- The next free value of at most `w` bits, and the state with the counter advanced (log entry 4). -/
def State.free (s : State) (w : Nat) : Nat × State :=
  (Config.freeValue s.freeCtr % 2 ^ w, { s with freeCtr := s.freeCtr + 1 })

/-- 256 random bits of the island, and the state with the counter advanced (log entry 4). -/
def State.random (s : State) : Nat × State :=
  (Config.islandRandom s.freeCtr % 2 ^ 256, { s with freeCtr := s.freeCtr + 1 })

/-! ### What the device drives -/

/-- Something put out on an interface. -/
def State.emit (s : State) (o : Out) : State := { s with out := s.out ++ [o] }

/-- MSI-X vector `v`: sent, or, where its entry is masked, marked pending in the PBA (R378, R383). -/
def State.sendMsix (s : State) (v : Nat) : State :=
  if (tget 0 s.pcie.msix v).testBit 96 then s.onPcie fun p => { p with pba := p.pba ||| (1 <<< v) }
  else s.emit (.msix v)

/-! ### Events -/

/-- Number of entries of the event ring (R394). -/
def Pcie.evCount (p : Pcie) : Nat := 2 ^ (p.evSize + 8)

/-- The interrupt after an entry: at once, or held until HOLDOFF_US has passed since the last one (R394). -/
def State.evInterrupt (s : State) : State :=
  if !s.pcie.evIrqEn then s
  else if s.due s.pcie.evIrqAt (s.pcie.evHold * oneUs) then
    (s.sendMsix s.pcie.evVector).onPcie fun p => { p with evIrqAt := some s.now, evIrqDue := false }
  else s.onPcie fun p => { p with evIrqDue := true }

/-- The DETAIL field: unit in bits 15:0, then the items packed from bit 16 upward, each at its width (R499). -/
def detail (unit : Nat) (items : List (Nat × Nat)) : Nat := packBits ((16, unit) :: items) % 2 ^ 64

/-- Raises an event (R394 to R396): a masked one uses no SEQ; with the ring disabled or full it is counted as lost, and
otherwise its entry is written to host memory and reported. No event carries IMAGE_ID, which R53 says the device echoes in
events without naming one (DESIGN CHOICE, log entry 130). -/
def State.raise (s : State) (e : Ev) (unit : Nat := 0) (items : List (Nat × Nat) := []) (step : Nat := 0)
    (guest : Bool := false) : State :=
  let p := s.pcie
  if p.masks.contains e.code then s
  else
    let seq := p.evSeq
    let p := { p with evSeq := (seq + 1) % 2 ^ 32 }
    if !p.evEnable || (p.evTail + 2 ^ 32 - p.evHead) % 2 ^ 32 = p.evCount then
      { s with pcie := { p with evLost := satAdd 32 p.evLost 1, evLoss := true } }
    else
      let phase := 1 - p.evTail / p.evCount % 2
      let entry := packBuf 32
        [(16, e.code), (2, e.sev), (1, b2n p.evLoss), (1, b2n guest), (11, 0), (1, phase), (32, seq),
         (64, s.htStamp), (64, step), (64, detail unit items)]
      let a := p.evBase + 32 * (p.evTail % p.evCount)
      State.evInterrupt
        { s with pcie := { p with evTail := (p.evTail + 1) % 2 ^ 32, evLoss := false },
                 out := s.out ++ [.hostWrite a entry] }

/-- Raises an event at most once per second: `last` is the instant of the one before, and the new instant comes back. -/
def State.raiseOnce (s : State) (last : Option Nat) (e : Ev) (unit : Nat := 0) (items : List (Nat × Nat) := []) :
    State × Option Nat :=
  if s.due last oneS then (s.raise e unit items, some s.now) else (s, last)

end Sys2Proof.Machine
end

