-- ==== Sys2Proof/Machine/Cert.lean ====
section
/-! DEFINITION. Oliun certificates and the identity chain (R463 to R465), and the signature trailer of R468. -/

namespace Sys2Proof.Machine

/-- The SHA-256 of a public key: of its 384-byte modulus (R464). -/
def keyDigest (modulus : Nat) : Nat := sha256 (Buf.ofBe 384 modulus)

/-- Certificate fields (R464). -/
def certRole (c : Buf) : Nat := c.fld 32 3
@[inherit_doc certRole] def certSigns (c : Buf) : Bool := c.flag 35
@[inherit_doc certRole] def certJob (c : Buf) : Nat := c.fld 64 64
@[inherit_doc certRole] def certDevice (c : Buf) : Nat := c.be 32 32
@[inherit_doc certRole] def certModulus (c : Buf) : Nat := c.be 64 384
@[inherit_doc certRole] def certSig (c : Buf) : Nat := c.be 448 384

/-- The digest of the device's own identity key. -/
def State.ownKeyDigest (s : State) : Nat := keyDigest s.isl.idModulus

/-- HT is trusted for the validity of certificates (R465). -/
def State.htTrusted (s : State) : Bool :=
  match s.ht.state with
  | .locked | .holdover => true
  | _ => false

/-- The validity of a certificate at the device's HT (R465). -/
def State.certInTime (s : State) (c : Buf) : Bool :=
  if s.htTrusted then c.fld 128 64 ≤ s.htNow && s.htNow ≤ c.fld 192 64
  else c.fld 128 64 = 0 && c.fld 192 64 = 2 ^ 64 - 1

/-- Reserved encodings and RSVD bits of a certificate are zero, and its MAGIC stands (R464, R465). -/
def certFormOk (c : Buf) : Bool :=
  c.len = 832 && c.fld 0 32 = 0x43524C4F && certRole c ≤ 5 && c.fld 36 28 = 0 && (certRole c = 4 || certJob c = 0)

/-- A certificate verifies against an issuer's modulus (R465). -/
def State.certVerifies (s : State) (c : Buf) (issuer : Nat) : Bool :=
  certFormOk c && pssVerify issuer (sha256 (c.slice 0 448)) (certSig c) && s.certInTime c &&
    (if certRole c = 0 then certDevice c = keyDigest (certModulus c)
     else certDevice c = 0 || certDevice c = s.ownKeyDigest)

/-- The issuer of a certificate of a ROLE that the root or the Owner key issues (R465). -/
def State.issuerOf (s : State) (c : Buf) : Nat :=
  match certRole c with
  | 1 | 5 => Config.rootModulus
  | 2 => certModulus c
  | _ => s.isl.ownerKey

/-- A certificate of ROLE 1 to 5 verifies against the issuer that R465 fixes; an Owner certificate is the Owner key's. -/
def State.certGood (s : State) (c : Buf) : Bool :=
  certRole c ≠ 0 && s.certVerifies c (s.issuerOf c) &&
    (certRole c ≠ 2 || (s.isl.ownerKey ≠ 0 && certModulus c = s.isl.ownerKey)) &&
    (certRole c ≠ 3 && certRole c ≠ 4 || s.isl.ownerKey ≠ 0)

/-- The device's identity chain: its ROLE 0 certificate and the ROLE 5 certificate that issued it (R465). -/
def State.identityChain (s : State) : Buf := (s.isl.idCert.slice 0 832).app (s.isl.authCert.slice 0 832)

/-- A 1,664-byte identity chain reaches Mardima's manufacturing authority (R335, R465). -/
def State.chainGood (s : State) (b : Buf) : Bool :=
  let c0 := b.slice 0 832
  let c5 := b.slice 832 832
  certRole c0 = 0 && certRole c5 = 5 && s.certVerifies c5 Config.rootModulus && s.certVerifies c0 (certModulus c5)

/-- The device has an identity that it may use: present, reconstructed and not erased (R463, R467). -/
def State.hasIdentity (s : State) : Bool := s.isl.hasId && s.isl.idOk && s.isl.lifecycle ≠ 2

end Sys2Proof.Machine
end

