-- ==== Sys2Proof/Machine/Ledger.lean ====
section
/-! DEFINITION. The ledger (R474 to R476), the measurement log (R477) and the quote (R478). -/

namespace Sys2Proof.Machine

/-! ### The ledger -/

/-- Places of the ledger, and those that ledgered commands may use (R476). -/
def ledgerPlaces : Nat := 65536
@[inherit_doc ledgerPlaces] def ledgerOpen : Nat := ledgerPlaces - 8192

/-- The digest of the last entry; zero before entry 0 (R475). -/
def State.ledgerHead (s : State) : Nat :=
  match s.isl.ledger.getLast? with
  | none => 0
  | some e => (sha256Buf e).val

/-- HT as the ledger and quotes carry it: 0 unless LOCKED or HOLDOVER (R475, R478). -/
def State.ledgerHt (s : State) : Nat := if s.htTrusted then s.htNow else 0

/-- An entry of 512 bytes (R475). `actor` and `value` are SHA-256 octet strings. -/
def State.ledgerEntry (s : State) (setting role : Nat) (actor value : Buf) (counter : Nat) : Buf :=
  let head := packBuf 128
    [(32, s.isl.ledger.length), (16, setting), (3, role), (13, 0), (64, s.ledgerHt), (256, s.ledgerHead),
     (256, actor.val), (256, value.val), (32, counter), (96, 0)]
  head.app (Buf.ofBe 384 (Config.identitySign (sha256 head)))

/-- A change recorded (R474 to R476): the entry is appended and LEDGER_APPENDED raised, and LEDGER_NEAR_FULL once 90 % of
the places are used. A ledger with no place left takes no entry. -/
def State.appendLedger (s : State) (setting role : Nat) (actor value : Buf) (counter opcode : Nat) : State :=
  let n := s.isl.ledger.length
  if ledgerPlaces ≤ n then s
  else
    let e := s.ledgerEntry setting role actor value counter
    let s := (s.onIsl fun x => { x with ledger := x.ledger ++ [e] }).raise Ev.ledgerAppended opcode [(32, n), (16, setting)]
    if !s.isl.nearFull && 9 * ledgerPlaces ≤ 10 * (n + 1) then
      (s.onIsl fun x => { x with nearFull := true }).raise Ev.ledgerNearFull opcode
    else s

/-- A change that the device makes itself: ROLE and ACTOR zero; the spec states no VALUE for it, which is free
(log entry 94). -/
def State.deviceLedger (s : State) (setting : Nat) (counter : Nat := 0) : State :=
  let (v, s) := s.free 256
  s.appendLedger setting 0 (Buf.zeros 32) (Buf.ofLe 32 v) counter 0

/-- A change that a command of mailbox `mb` makes: VALUE over its parameters and buffer as given. -/
def State.commandLedger (s : State) (mb setting opcode : Nat) (params buffer : Buf) (counter : Nat := 0) : State :=
  s.appendLedger setting (if mb = 16 then 3 else (s.mbox mb).role) (Buf.ofLe 32 (s.mbox mb).actor) (sha256Buf (params.app buffer)) counter opcode

/-- COUNTER_LOW after a use that leaves two or fewer (R471). -/
def State.counterLow (s : State) (setting used limit opcode : Nat) : State :=
  if limit ≤ used + 2 then s.raise Ev.counterLow opcode [(16, setting), (32, limit - used)] else s

/-! ### The measurement log -/

/-- An entry appended to the measurement log (R477). `detail` is the IMAGE_ID, epoch or ARB, `digest` an octet string. -/
def State.measure (s : State) (kind detail : Nat) (digest : Buf) : State :=
  let e := packBuf 64 [(8, kind), (56, 0), (64, s.ledgerHt), (128, detail), (256, digest.val)]
  s.onIsl fun x =>
    { x with logDigest := (sha256Buf ((Buf.ofLe 32 x.logDigest).app e)).val
             logKept := if x.logKept.length < 1024 then x.logKept ++ [e] else x.logKept
             logCount := x.logCount + 1 }

/-- The digest of the signed bytes of an image of `len` bytes (R468). -/
def imageDigest (b : Buf) (len : Nat) : Buf := sha256Buf (b.slice 0 len)

/-! ### The quote -/

/-- The bytes that ATTEST_QUOTE writes (R478). -/
def State.quote (s : State) (nonce : Nat) : Buf :=
  let x := s.isl
  let body := packBuf 192
    [(32, 0x54514C4F), (256, nonce), (256, (Buf.ofBe 32 s.ownKeyDigest).val), (256, x.logDigest), (256, s.ledgerHead),
     (32, x.logCount), (32, x.ledger.length), (64, s.ledgerHt), (2, x.lifecycle), (1, b2n x.debug),
     (1, b2n (decide (1024 < x.logCount))), (12, x.arb), (336, 0)]
  Buf.cat ([body, Buf.ofBe 384 (Config.identitySign (sha256 body)), s.identityChain] ++ x.logKept)

/-! ### Signature trailers (R468) -/

/-- Where the trailer of an image of `len` bytes begins, and the bytes that its buffer must hold. -/
def trailerOff (len : Nat) : Nat := ceilDiv len 64 * 64
@[inherit_doc trailerOff] def signedLen (len : Nat) : Nat := trailerOff len + 1216

/-- The certificate of a trailer. -/
def trailerCert (b : Buf) (len : Nat) : Buf := b.slice (trailerOff len) 832

/-- An image verifies: its certificate does, may sign images and passes `want`, and its signature is that key's over the
image's digest. A decommissioned device verifies none (R467). -/
def State.imageGood (s : State) (b : Buf) (len : Nat) (want : Buf → Bool) : Bool :=
  let c := trailerCert b len
  s.isl.lifecycle ≠ 2 && s.certGood c && certSigns c && want c &&
    pssVerify (certModulus c) (sha256 (b.slice 0 len)) (b.be (trailerOff len + 832) 384)

end Sys2Proof.Machine
end

