-- ==== Sys2Proof/Machine/Operands.lean ====
section
/-! DEFINITION. The operand forms: the records of a job image, read where they lie in it (R53, R54, R360, R361, R513), and
the fields of each record. -/

namespace Sys2Proof.Machine

/-- `n` rounded up to a multiple of `m`. -/
def alignUp (n m : Nat) : Nat := ceilDiv n m * m

/-! ### The image -/

/-- A section: its offset, length and record count (R360). -/
structure Sect where
  off   : Nat
  len   : Nat
  count : Nat
  deriving DecidableEq, Repr, Inhabited

/-- Image header fields (R360). -/
def imgSections (b : Buf) : Nat := b.fld 48 8
@[inherit_doc imgSections] def imgJobId (b : Buf) : Nat := b.fld 64 64
@[inherit_doc imgSections] def imgId (b : Buf) : Nat := b.fld 128 64
@[inherit_doc imgSections] def imgSizeT (b : Buf) : Nat := b.fld 192 8
@[inherit_doc imgSections] def imgSizeP (b : Buf) : Nat := b.fld 200 8
@[inherit_doc imgSections] def imgSizeD (b : Buf) : Nat := b.fld 208 8
@[inherit_doc imgSections] def imgSizeS (b : Buf) : Nat := b.fld 216 8
@[inherit_doc imgSections] def imgCw (b : Buf) : Nat := b.fld 224 32
@[inherit_doc imgSections] def imgLen (b : Buf) : Nat := b.fld 256 32

/-- The directory entries (R360). -/
def imgDir (b : Buf) : List Buf := (b.drop 64).recs 16 (imgSections b)

/-- The section of a type, where the image has one (R361). -/
def imgSect (b : Buf) (ty : Nat) : Option Sect :=
  ((imgDir b).find? fun d => d.fld 0 16 = ty).map fun d => ⟨d.fld 32 32, d.fld 64 32, d.fld 96 32⟩

/-- The bytes of a section, empty where it is absent. -/
def imgBytes (b : Buf) (ty : Nat) : Buf :=
  match imgSect b ty with
  | none => Buf.empty
  | some x => b.slice x.off x.len

/-- The record count of a section, 0 where it is absent (R513). -/
def imgCount (b : Buf) (ty : Nat) : Nat :=
  match imgSect b ty with
  | none => 0
  | some x => x.count

/-- Record `i` of a section of `n`-byte records that start `skip` bytes into it (R513). -/
def imgRec (b : Buf) (ty skip n i : Nat) : Buf :=
  match imgSect b ty with
  | none => Buf.zeros n
  | some x => b.slice (x.off + skip + n * i) n

/-- All records of a section. -/
def imgRecs (b : Buf) (ty skip n : Nat) : List Buf := (List.range (imgCount b ty)).map fun i => imgRec b ty skip n i

/-! ### Timetable (R53, R54) -/

/-- PERIOD (R53). -/
def imgPeriod (b : Buf) : Nat := (imgBytes b 0x01).fld 64 40
/-- ENTRY_COUNT (R53). -/
def imgEntries (b : Buf) : Nat := (imgBytes b 0x01).fld 128 21
/-- GUEST_SO_BASE (R53). -/
def imgGuestSoBase (b : Buf) : Nat := (imgBytes b 0x01).fld 160 16
/-- GUEST_SO_COUNT (R53). -/
def imgGuestSoCount (b : Buf) : Nat := (imgBytes b 0x01).fld 176 16

/-- A timetable entry as its fields (R54). -/
structure Entry where
  offset   : Nat
  guard    : Nat   -- in ns: 8 times the field
  preSo    : Nat
  duration : Nat
  policy   : Nat
  target   : Nat
  action   : Nat
  preEn    : Bool
  sigEn    : Bool
  preCount : Nat
  sigSo    : Nat
  catchup  : Nat
  arg      : Nat
  deriving DecidableEq, Repr, Inhabited

/-- The fields of a 32-byte entry (R54). -/
def Entry.ofBuf (b : Buf) : Entry :=
  { offset := b.fld 0 40, guard := 8 * b.fld 40 8, preSo := b.fld 48 16, duration := b.fld 64 28,
    policy := b.fld 92 4, target := b.fld 96 12, action := b.fld 108 8, preEn := b.flag 116, sigEn := b.flag 117,
    preCount := b.fld 128 32, sigSo := b.fld 160 16, catchup := b.fld 192 20, arg := b.fld 224 32 }

/-- End of the footprint, from step start (R54). -/
def Entry.finish (e : Entry) : Nat := e.offset + e.duration + e.guard

/-- Entry `i` of the timetable. -/
def imgEntry (b : Buf) (i : Nat) : Entry := Entry.ofBuf (imgRec b 0x01 64 32 i)

/-- Every entry with its index. -/
def imgEntryList (b : Buf) : List (Nat × Entry) := (List.range (imgEntries b)).map fun i => (i, imgEntry b i)

/-! ### Kernels (R368) -/

/-- A kernel record. -/
structure KernelRec where
  codeOff   : Nat
  len       : Nat   -- in 64-byte units
  nprof     : Nat
  drawEntry : Nat
  drawEn    : Bool
  core      : Nat
  deriving DecidableEq, Repr, Inhabited

/-- The fields of a kernel record (R368). -/
def KernelRec.ofBuf (b : Buf) : KernelRec :=
  ⟨b.fld 0 32, b.fld 32 16, b.fld 48 5, b.fld 64 20, b.flag 84, b.fld 96 7⟩

/-- The kernels of one core in table order; a kernel's index is its place here (R368). -/
def imgKernels (b : Buf) (core : Nat) : List KernelRec :=
  ((imgRecs b 0x02 0 16).map KernelRec.ofBuf).filter fun k => k.core = core

/-- Offset in the core's kernel store at which kernel `idx` starts: the kernels of a core lie one after the other in
table order (R70, R368). -/
def kernelBase : List KernelRec → Nat → Nat
  | [], _ => 0
  | _ :: _, 0 => 0
  | k :: l, i + 1 => 64 * k.len + kernelBase l i

/-! ### Memory plan (R370) -/

/-- A region record. -/
structure Region where
  space   : Nat
  cls     : Nat
  role    : Nat
  core    : Nat
  initEn  : Bool
  base    : Nat
  length  : Nat
  initOff : Nat
  deriving DecidableEq, Repr, Inhabited

/-- The fields of a region record (R370). -/
def Region.ofBuf (b : Buf) : Region :=
  ⟨b.fld 0 4, b.fld 4 4, b.fld 8 8, b.fld 16 7, b.flag 23, b.fld 32 64, b.fld 96 64, b.fld 160 32⟩

/-- The memory plan. -/
def imgRegions (b : Buf) : List Region := (imgRecs b 0x0D 0 32).map Region.ofBuf

/-- The first region of a role, if any. -/
def imgRole (b : Buf) (role : Nat) : Option Region := (imgRegions b).find? fun r => r.role = role

/-- Whether an address of a space lies in a region (of a core, for scratch). -/
def Region.holds (r : Region) (space core addr : Nat) : Bool :=
  r.space = space && (space ≠ 2 || r.core = core) && decide (r.base ≤ addr) && decide (addr < r.base + r.length)

/-- The class of an address: that of its region, PERSISTENT where no region of Erg or Oasis holds it (R170, R370). -/
def imgClass (b : Buf) (space core addr : Nat) : Nat :=
  match (imgRegions b).find? fun r => r.holds space core addr with
  | none => if space = 2 then 1 else 0
  | some r => r.cls

/-- Bytes of the stored copy of the image and of the parameters of R407, padded to 2 MiB (R485). -/
def ckptCopyLen (b : Buf) : Nat := alignUp (imgLen b + 192) (2 ^ 21)

/-- Bytes of each half of the local checkpoint (R409, R485). -/
def ckptHalfLen (b : Buf) : Nat :=
  match imgRole b 5 with
  | none => 0
  | some r => (r.length - ckptCopyLen b) / 2 / 2 ^ 21 * 2 ^ 21

/-! ### Port declarations (R367) -/

/-- WIDTH of a port. -/
def imgWidth (b : Buf) (port : Nat) : Nat := (imgRec b 0x0E 0 8 port).fld 0 4
/-- MAX_DELAY_NS of a port. -/
def imgMaxDelay (b : Buf) (port : Nat) : Nat := (imgRec b 0x0E 0 8 port).fld 8 24
/-- Ports that the image uses. -/
def imgPorts (b : Buf) : List Nat := (List.range 8).filter fun p => imgWidth b p ≠ 0

/-! ### Planned blocks (R270) -/

/-- A block descriptor (R270). -/
structure Blk where
  block : Nat
  rxOp  : Nat
  space : Nat
  dir   : Nat
  core  : Nat
  epoch : Nat
  addr  : Nat
  len   : Nat
  check : Nat
  deriving DecidableEq, Repr

/-- The fields of a block descriptor (R270). -/
def Blk.ofBuf (b : Buf) : Blk :=
  ⟨b.fld 0 24, b.fld 24 4, b.fld 28 2, b.fld 30 1, b.fld 32 7, b.fld 48 16, b.fld 64 32, b.fld 96 24, b.fld 128 32⟩

/-- A block descriptor of the image. -/
def imgBlock (b : Buf) (i : Nat) : Buf := imgRec b 0x04 0 64 i

/-- A hop of the verdict flood: it sends the flood record, or receives one (R239, R270). -/
def Entry.floodHop (b : Buf) (e : Entry) : Bool :=
  let d := Blk.ofBuf (imgBlock b e.arg)
  (e.action = 0x40 && d.space = 2) || (e.action = 0x48 && (d.space = 2 || d.rxOp = 3))

/-- The first entry with an action. -/
def imgAction (b : Buf) (action : Nat) : Option (Nat × Entry) := (imgEntryList b).find? fun e => e.2.action = action

/-! ### Coordinates (R140, R261, R366) -/

/-- The coordinate of an axis (0 T, 1 P, 2 D, 3 S) in a CW: one byte each (R140). -/
def cwCoord (cw axis : Nat) : Nat := bits cw (8 * axis) 8

/-- The size of an axis. -/
def imgSize (b : Buf) (axis : Nat) : Nat :=
  match axis with
  | 0 => imgSizeT b
  | 1 => imgSizeP b
  | 2 => imgSizeD b
  | _ => imgSizeS b

/-- CW of the neighbour on a port: port 2a is the + side of axis a and port 2a + 1 its - side (R4, R261, R366). -/
def neighbourCw (b : Buf) (port : Nat) : Nat :=
  let a := port / 2
  let n := imgSize b a
  let c := cwCoord (imgCw b) a
  let c' := if port % 2 = 0 then (c + 1) % n else (c + n - 1) % n
  setBits (imgCw b) (8 * a) 8 c'

end Sys2Proof.Machine
end

