-- ==== Sys2Proof/Machine/Stop.lean ====
section
/-! DEFINITION. What every family may cause: the job halted, the job stopped (R365), a fatal event and the site job
restart it begins (R482 to R489), and the guest stopped (R376). -/

namespace Sys2Proof.Machine

/-- Every entry of an indexed set changed. -/
def tmap [DecidableEq α] (d : α) (f : α → α) (t : Tab α) : Tab α :=
  (t.map fun e => (e.1, f e.2)).filter fun e => e.2 ≠ d

/-- A core with nothing running: no kernel, empty queues, no drain, no bubble. Its memories, tiles and counters stay. -/
def Core.halt (c : Core) : Core :=
  { c with kernel := none, mq := [], dq := [], vq := [], vact := none, drainq := [], drain := none, bubble := none,
           closing := false, closeCc := 0, bubbleEntry := 0, bubbleQ := 0, accHold := none, overran := false, guest := ⟨none, 0⟩, samples := [] }

/-- A die whose pass and transfer list have stopped. -/
def Die.halt (d : Die) : Die := { d with dma := none, dmaLeft := 0, dmaItem := 0, dmaItems := 0, pass := none }

/-- A port with no block bound, nothing held for resend and its windows closed; it is back in the continuous open
window of R285. -/
def NearPort.halt (p : NearPort) : NearPort :=
  { p with binds := [], sent := [], txWindow := none, txBusy := 0, txGuest := 0, rxProfile := none, strayStep := none }

/-- All units stopped: no action of the timetable goes on (R487 step 1, R365). -/
def State.halt (s : State) : State :=
  { s with
    cores := tmap Core.reset Core.halt s.cores
    dies := tmap Die.reset Die.halt s.dies
    near := tmap NearPort.reset NearPort.halt s.near
    ents := [], catchup := [], rxHold := []
    erg := { s.erg with chans := tmap ErgChannel.reset (fun c => { c with window := none }) s.erg.chans }
    acx := { s.acx with ports := tmap FarPort.reset (fun f => { f with slice := none }) s.acx.ports } }

/-- A completed answer for the command a mailbox is waiting on: the command that runs is finished with a status and a
response; its entry is written by a COMPLETION_WRITE (R388, R392). -/
def Mailbox.finish (m : Mailbox) (from_ : CmdPhase) (status : Nat) (resp : Buf) (xfer ht : Nat) : Mailbox :=
  { m with cmds := go m.cmds }
where
  /-- The first command in the given phase is finished. -/
  go : List Cmd → List Cmd
    | [] => []
    | c :: l =>
      if c.phase = from_ then { c with phase := .finished, status, resp, xfer, ht } :: l
      else c :: go l

/-- The command that waits at mailbox `mb` completes (R399): the management processor is free again. -/
def State.finishWaiting (s : State) (mb status : Nat) (resp : Buf := Buf.empty) : State :=
  (s.onMbox mb fun m => m.finish .running status resp 0 s.htStamp).onPcie fun p =>
    { p with running := if p.running = some mb then none else p.running }

/-- The guest stopped with the main job (R365): it must be attached again; a GUEST_DETACH that waits for it completes. -/
def State.dropGuest (s : State) : State :=
  let t := { s with guest := none }
  match s.guest.bind (·.leaveMb) with
  | some mb => t.finishWaiting mb 0
  | none => t

/-- Scratch bytes of a core. -/
def scratchSize : Nat := 0x600000

/-- The guest scratch partition of a core: base and length, (0x600000, 0) where it has none (R370). -/
def guestScratch (b : Buf) (core : Nat) : Nat × Nat :=
  match (imgRegions b).find? fun r => r.cls = 4 && r.space = 2 && r.core = core with
  | some r => (r.base, r.length)
  | none => (scratchSize, 0)

/-- A guest that is to leave is detached once none of its kernels runs (R376): its partitions are released, its scratch
partition is cleared to zero, and the GUEST_DETACH completes. -/
def State.detachGuest (s : State) : State :=
  match s.guest, s.job with
  | some g, some j =>
    if !g.leaving || s.cores.any (fun c => c.2.kernel.any (·.guest)) then s
    else
      let zero (r : Ram) (a n : Nat) : Ram := ⟨r.data.clear a n, r.chk.clear (2 * (a / 8)) (2 * (n / 8))⟩
      let t := (List.range 128).foldl (fun (s : State) c =>
        { s with scratch := zero s.scratch (c * scratchSize + (guestScratch j.image c).1) (guestScratch j.image c).2 }) s
      let t := { t with gstore := [], cores := tmap Core.reset (fun c => { c with guest := ⟨none, 0⟩ }) t.cores }
      (t.dropGuest).raise Ev.guestDetached 0 [] j.step true
  | _, _ => s

/-- The guest stopped alone, with cause and core in the event (R376, R377). Its partitions stay with it until a detach. -/
def State.stopGuest (s : State) (cause core : Nat) : State :=
  match s.guest with
  | none => s
  | some g =>
    if g.stopped then s
    else
      let cs := tmap Core.reset (fun c =>
        match c.kernel with
        | some k => if k.guest then { c.halt with flags := c.flags, bubble := none } else { c with guest := ⟨none, 0⟩ }
        | none => { c with guest := ⟨none, 0⟩ }) s.cores
      (({ s with guest := some { g with stopped := true }, cores := cs } : State).raise
        Ev.guestStopped core [(16, cause), (16, core)] 0 true).detachGuest

/-- The main job stopped until a restore (R365): the guest goes first, JOB_STOPPED is raised, Erg is kept, and a JOB_STOP
that waits completes (R406). -/
def State.stopJob (s : State) : State :=
  match s.job with
  | none => s
  | some j =>
    let t := (s.dropGuest).halt
    let t := { t with job := some { j with phase := .stopped, stopMb := none } }
    let t := t.raise Ev.jobStopped 0 [] j.step
    match j.stopMb with
    | none => t
    | some mb => t.finishWaiting mb 0

/-! ### Flits and open messages (R267, R280, R282, R284) -/

/-- Fields of a flit (R267). -/
def flitType (f : Buf) : Nat := f.fld 0 4
@[inherit_doc flitType] def flitLast (f : Buf) : Bool := f.flag 4
@[inherit_doc flitType] def flitResend (f : Buf) : Bool := f.flag 5
@[inherit_doc flitType] def flitWrap (f : Buf) : Nat := f.fld 6 1
@[inherit_doc flitType] def flitBlock (f : Buf) : Nat := f.fld 8 24
@[inherit_doc flitType] def flitIdx (f : Buf) : Nat := f.fld 32 16
@[inherit_doc flitType] def flitLen (f : Buf) : Nat := f.fld 48 8
@[inherit_doc flitType] def flitStep (f : Buf) : Nat := f.fld 56 8
@[inherit_doc flitType] def flitVc (f : Buf) : Nat := f.fld 56 2
@[inherit_doc flitType] def flitMsg (f : Buf) : Nat := f.fld 58 6
@[inherit_doc flitType] def flitPayload (f : Buf) : Nat := f.fld 64 1920
@[inherit_doc flitType] def flitEpoch (f : Buf) : Nat := f.fld 1984 16

/-- Pauses of a port brought up to date: every µs in which a VC-lane has a flit queued and no credit counts (R284). -/
def NearPort.settle (n : NearPort) (now : Nat) : NearPort :=
  (List.range 8).foldl (fun n k =>
    let since := tget 0 n.paused k
    let n := if since = 0 then n
      else
        let us := (now + 1 - since) / 1000
        { n with pauseUs := satAdd 32 n.pauseUs us, paused := tset 0 n.paused k (since + 1000 * us) }
    let waits := (tget [] n.txq k) ≠ [] && tget 0 n.credits k = 0
    if waits then (if tget 0 n.paused k = 0 then { n with paused := tset 0 n.paused k (now + 1) } else n)
    else { n with paused := tset 0 n.paused k 0 }) n

/-- An OPEN flit of a message for the device at CW `cw`, its CRC not yet in place (R267). -/
def openFlit (v id fidx : Nat) (last : Bool) (cw len payload : Nat) : Buf :=
  packBuf 256 [(4, 2), (1, b2n last), (3, 0), (6, cwCoord cw 0), (6, cwCoord cw 1), (6, cwCoord cw 2), (6, cwCoord cw 3),
    (16, fidx), (8, len), (2, v), (6, id), (1920, payload), (64, 0)]

/-- The flits of an open message in FIDX order (R282). -/
def messageFlits (v id cw : Nat) (b : Buf) : List Buf :=
  let n := Nat.max 1 (ceilDiv b.len 240)
  (List.range n).map fun k => openFlit v id k (k + 1 = n) cw (Nat.min 240 (b.len - 240 * k)) (bits b.val (1920 * k) 1920)

/-- Flits of this device's producers in the transmit queue of a VC; forwarded ones lie in the open buffer (R283, R284). -/
def NearPort.queued (n : NearPort) (v : Nat) : Nat :=
  (tget [] n.txq (2 * v) ++ tget [] n.txq (2 * v + 1)).countP fun x => x.1 = 64

/-- Held flits enter the transmit queues of 256 flits, in order on each VC, as far as there is room (R284). -/
def NearPort.refill (n : NearPort) : NearPort :=
  n.txHeld.foldl (fun m x =>
    if m.queued x.1 < 256 && m.txHeld.all fun y => y.1 ≠ x.1 then
      { m with txq := tset [] m.txq (2 * x.1) (tget [] m.txq (2 * x.1) ++ [(64, x.2)]) }
    else { m with txHeld := m.txHeld ++ [x] }) { n with txHeld := [] }

/-- A message handed to a VC of a port: its producer is held where the transmit queue is full (R282, R284). -/
def NearPort.message (n : NearPort) (v cw : Nat) (b : Buf) : NearPort :=
  let id := tget 0 n.msgNext v
  ({ n with msgNext := tset 0 n.msgNext v ((id + 1) % 64), txHeld := n.txHeld ++ (messageFlits v id cw b).map fun f => (v, f) } :
    NearPort).refill

/-- An open message sent on a VC of a port (R280, R282). -/
def State.sendMessage (s : State) (p v cw : Nat) (b : Buf) : State :=
  s.onPort p fun n => ((n.settle s.now).message v cw b).settle s.now

/-- The oldest whole message of a VC is taken from the open buffer, and its places are free (R280, R281). -/
def NearPort.take (n : NearPort) (v : Nat) : NearPort :=
  match n.inbox.find? fun x => x.1 = v && flitLast x.2 with
  | none => n
  | some x =>
    let r := n.inbox.foldl (fun (a : Bool × List (Nat × Buf) × Tab Nat) y =>
      if !a.1 && y.1 = v && flitMsg y.2 = flitMsg x.2 then
        (let k := 2 * v + flitWrap y.2
         (flitLast y.2, a.2.1, tset 0 a.2.2 k (tget 0 a.2.2 k - 1)))
      else (a.1, a.2.1 ++ [y], a.2.2)) (false, [], n.rxHeld)
    { n with inbox := r.2.1, rxHeld := r.2.2 }

/-- The messages for the management processor and the step controller are lost, and their places free. -/
def NearPort.clearInbox (n : NearPort) : NearPort :=
  { n with
    inbox := [], rxMsgs := []
    rxHeld := n.inbox.foldl (fun t y => let k := 2 * y.1 + flitWrap y.2; tset 0 t k (tget 0 t k - 1)) n.rxHeld }

/-- The management processor or the step controller takes a message that has come on a VC of a port (R280). -/
def State.takeMessage (s : State) (p v : Nat) : State := s.onPort p fun n => n.take v

/-! ### Notices and the site job restart (R482 to R489) -/

/-- The notice of R486. -/
def siteNotice (kind epoch cw jobId htx step stepOld digest desc : Nat) : Buf :=
  packBuf 64 [(8, kind), (8, 0), (16, epoch), (32, cw), (64, jobId), (64, htx), (64, step), (64, stepOld),
    (128, digest), (64, desc)]

/-- A notice sent on every used port but one, as a message of VC 2 to the neighbour there (R486). -/
def State.sendNotice (s : State) (b : Buf) (exceptPort : Option Nat) : State :=
  match s.job with
  | none => s
  | some j =>
    ((imgPorts j.image).filter fun p => some p ≠ exceptPort).foldl (fun s p => s.sendMessage p 2 (neighbourCw j.image p) b) s

/-- The main job is armed and not stopped: a fatal event restarts it (R483, R484). -/
def Job.live (j : Job) : Bool := j.phase ≠ .stopped

/-- Step 1 of a site job restart (R487): job and guest stopped at once, RESTART sent with `htx`, SITE_RESTART raised.
Nothing happens on a device that is already restarting (R489) or whose job is not running (R483). -/
def State.restart (s : State) (htx : Nat) : State :=
  match s.job with
  | none => s
  | some j =>
    if j.phase = .stopped || s.site.phase ≠ .idle then s
    else
      let t := (s.dropGuest).halt
      let t := { t with job := some { j with phase := .restarting, hasEpoch := false } }
      let t := t.onSite fun x =>
        { x with phase := .fault s.now, htx, seen := [(1, imgCw j.image)], ckpts := [], readies := [], stopReq := false
                 minority := false, source := none, asks := 0, pulled := [], ownCd := [], digests := [] }
      let t := t.sendNotice (siteNotice 1 0 (imgCw j.image) (imgJobId j.image) htx 0 0 0 0) none
      t.raise Ev.siteRestart 0 [(32, htx % 2 ^ 32)] j.step

/-- A Fault event that concerns the main job (R482 to R484): raised, and the site's job restarts. -/
def State.fatal (s : State) (e : Ev) (unit : Nat := 0) (items : List (Nat × Nat) := []) : State :=
  let step := match s.job with | none => 0 | some j => j.step
  (s.raise e.asFault unit items step).restart s.htNow

end Sys2Proof.Machine
end

