-- ==== Sys2Proof/Machine/FarOps.lean ====
section
/-! DEFINITION. The operations of the Acrix transport (R326 to R358): frames and headers, keys, routes, RTT estimates,
acknowledgement and loss, queues, Weir tokens, and the opening and closing of sessions. -/

namespace Sys2Proof.Machine

/-! ### Sessions by place -/

/-- The places that hold a session. -/
def State.places (s : State) : List Nat := (List.range 16).filter fun k => (s.sess k).used

/-- The session that a local id names on a port. -/
def State.placeOf (s : State) (port localId : Nat) : Option Nat :=
  s.places.find? fun k => (s.sess k).localId = localId && (s.sess k).port = port

/-- The session with a partner site, in any state but CLOSED. -/
def State.partnerPlace (s : State) (site : Nat) : Option Nat :=
  s.places.find? fun k => (s.sess k).peer = site && (s.sess k).state ≠ .closed && (s.sess k).replacing.isNone

/-- The OPEN or HELD session with a partner site. -/
def State.openPlace (s : State) (site : Nat) : Option Nat :=
  s.places.find? fun k => (s.sess k).peer = site && ((s.sess k).state = .open_ || (s.sess k).state = .held)

/-- A route of a session. -/
def Session.route (x : Session) (r : Nat) : SessRoute := if r = 0 then x.ra else x.rb

/-- The same changed. -/
def Session.onRoute (x : Session) (r : Nat) (f : SessRoute → SessRoute) : Session :=
  if r = 0 then { x with ra := f x.ra } else { x with rb := f x.rb }

/-- A route of a far port. -/
def FarPort.route (p : FarPort) (r : Nat) : FarRoute := if r = 0 then p.routeA else p.routeB

/-- The same changed. -/
def FarPort.onRoute (p : FarPort) (r : Nat) (f : FarRoute → FarRoute) : FarPort :=
  if r = 0 then { p with routeA := f p.routeA } else { p with routeB := f p.routeB }

/-- An event of a session: it carries the far port, the session id and the peer site (R359). -/
def State.raiseSess (s : State) (e : Ev) (k : Nat) (items : List (Nat × Nat) := []) : State :=
  let x := s.sess k
  s.raise e x.port ([(16, x.localId), (3, x.peer)] ++ items)

/-! ### Frames (R328, R331) -/

/-- An Acrix header. -/
structure AcxHdr where
  type     : Nat
  retx     : Bool
  route    : Nat
  last     : Bool
  echo     : Bool
  session  : Nat
  epoch    : Nat
  seq      : Nat
  txCount  : Nat
  ackBase  : Nat
  sack     : Nat
  round    : Nat
  frag     : Nat
  site     : Nat
  plen     : Nat
  chunk    : Nat
  tsVal    : Nat
  tsEcr    : Nat
  deriving DecidableEq, Repr, Inhabited

/-- The 48 bytes of a header (R331). -/
def AcxHdr.bytes (h : AcxHdr) : Buf :=
  Buf.cat [Buf.ofLe 1 (h.type % 16 + 16 * 3), Buf.ofLe 1 (b2n h.retx + 2 * (h.route % 2) + 4 * b2n h.last + 8 * b2n h.echo),
    Buf.ofBe 2 h.session, Buf.ofBe 2 h.epoch, Buf.ofBe 6 h.seq, Buf.ofBe 2 h.txCount, Buf.ofBe 6 h.ackBase, Buf.ofBe 8 h.sack,
    Buf.ofBe 4 h.round, Buf.ofLe 1 (h.frag % 64), Buf.ofLe 1 (h.site % 8), Buf.ofBe 2 h.plen, Buf.ofBe 4 h.chunk,
    Buf.ofBe 4 h.tsVal, Buf.ofBe 4 h.tsEcr]

/-- The fields of a received header (R331). -/
def AcxHdr.ofBuf (b : Buf) : AcxHdr :=
  { type := b.fld 0 4, retx := b.flag 8, route := b.fld 9 1, last := b.flag 10, echo := b.flag 11, session := b.be 2 2,
    epoch := b.be 4 2, seq := b.be 6 6, txCount := b.be 12 2, ackBase := b.be 14 6, sack := b.be 20 8, round := b.be 28 4,
    frag := b.fld 256 6, site := b.fld 264 3, plen := b.be 34 2, chunk := b.be 36 4, tsVal := b.be 40 4, tsEcr := b.be 44 4 }

/-- Sum of the big-endian 16-bit words of a byte string, a last odd byte padded with zero. -/
def sum16 (b : Buf) : Nat :=
  ((List.range (ceilDiv b.len 2)).map fun i => 256 * b.byte (2 * i) + (if 2 * i + 1 < b.len then b.byte (2 * i + 1) else 0)).sum

/-- The one's complement checksum of a sum of 16-bit words. -/
def onesSum (n : Nat) : Nat :=
  let f (x : Nat) : Nat := x % 65536 + x / 65536
  f (f (f n))

/-- The UDP checksum over the pseudo-header of IPv6 and the datagram, 0 sent as 0xFFFF (R328). -/
def udpChecksum (src dst : Nat) (udp : Buf) : Nat :=
  let ph := Buf.cat [Buf.ofBe 16 src, Buf.ofBe 16 dst, Buf.ofBe 4 udp.len, Buf.ofBe 4 17]
  let c := 65535 - onesSum (sum16 ph + sum16 udp)
  if c = 0 then 65535 else c

/-- The peer's address on a route; a storage endpoint has one (R412). -/
def Partner.addr (p : Partner) (r : Nat) : Nat := if r = 0 || p.addrB = 0 then p.addrA else p.addrB

/-- One bit of the CRC of an FCS, least significant first (IEEE 802.3). -/
def fcsBits : Nat → Nat → Nat
  | 0, c => c
  | n + 1, c => fcsBits n (if c.testBit 0 then (c >>> 1) ^^^ 0xEDB88320 else c >>> 1)

/-- The FCS of a frame (R327, R328). -/
def fcs (b : Buf) : Nat := (b.bytes.foldl (fun c x => fcsBits 8 (c ^^^ x)) 0xFFFFFFFF) ^^^ 0xFFFFFFFF

/-- A frame with its FCS. -/
def withFcs (b : Buf) : Buf := b.app (Buf.ofLe 4 (fcs b))

/-- The Ethernet frame of a datagram, FCS included (R328). -/
def ethFrame (r : FarRoute) (peer session route : Nat) (dg : Buf) : Buf :=
  let udp0 := Buf.cat [Buf.ofBe 2 r.udpPort, Buf.ofBe 2 r.udpPort, Buf.ofBe 2 (8 + dg.len), Buf.ofBe 2 0, dg]
  let ck := udpChecksum r.ip6 peer udp0
  let udp := Buf.cat [Buf.ofBe 2 r.udpPort, Buf.ofBe 2 r.udpPort, Buf.ofBe 2 (8 + dg.len), Buf.ofBe 2 ck, dg]
  let flow := (session * 16 + route) % 2 ^ 20
  let ip := Buf.cat [Buf.ofBe 4 (6 * 2 ^ 28 + r.tclass % 256 * 2 ^ 20 + flow), Buf.ofBe 2 udp.len, Buf.ofLe 1 17,
    Buf.ofLe 1 r.hopLim, Buf.ofBe 16 r.ip6, Buf.ofBe 16 peer]
  let tag := if r.vlanEn then (Buf.ofBe 2 0x8100).app (Buf.ofBe 2 (r.prio * 8192 + r.vid)) else Buf.empty
  withFcs (Buf.cat [Buf.ofBe 6 r.nextHop, Buf.ofBe 6 r.mac, tag, Buf.ofBe 2 0x86DD, ip, udp])

/-- Line bytes of a datagram: its frame with FCS, and 20 (R351). -/
def lineBytes (r : FarRoute) (plen : Nat) : Nat := 14 + (if r.vlanEn then 4 else 0) + 40 + 8 + 48 + plen + 16 + 4 + 20

/-! ### Keys (R336 to R339) -/

/-- The label of a derivation: its string, the direction in one byte, and the epoch in two where it has one. -/
def acxLabel (name : String) (d : Nat) (e : Option Nat) : Buf :=
  let b := (ascii name).app (Buf.ofLe 1 d)
  match e with
  | none => b
  | some x => b.app (Buf.ofBe 2 x)

/-- CS(d, 0) (R336). -/
def chainFirst (prk : Buf) (d : Nat) : Nat := (hkdfExpand prk (acxLabel "acrix3 chain" d none) 32).val
/-- CS(d, e + 1) (R336). -/
def chainNext (cs d e : Nat) : Nat := (hkdfExpand ⟨32, cs⟩ (acxLabel "acrix3 next" d (some e)) 32).val
/-- KEY and SALT of epoch e (R336). -/
def epochKey (cs d e : Nat) : Nat := (hkdfExpand ⟨32, cs⟩ (acxLabel "acrix3 key" d (some e)) 36).val

/-- The 256-bit key of a KEY and SALT pair. -/
def keyOf (k : Nat) : Buf := ⟨32, k % 2 ^ 256⟩

/-- The nonce SALT, SEQ, TXCOUNT (R337). -/
def acxNonce (k seq tx : Nat) : Nat := ((Buf.mk 36 k).be 32 4 * 2 ^ 48 + seq) * 2 ^ 16 + tx

/-- The direction in which a side sends (R336). -/
def Session.dir (x : Session) : Nat := if x.initiator then 0 else 1

/-- A session's keys from N_i, N_r and K: epoch 0 of both directions, epoch 1 ready for receiving (R336, R339). -/
def Session.derive (x : Session) (k : Nat) (now ht : Nat) : Session :=
  let prk := hkdfExtract ((Buf.ofBe 32 x.nonceI).app (Buf.ofBe 32 x.nonceR)) (Buf.ofBe 32 k)
  let dt := x.dir
  let dr := 1 - dt
  let c0 := chainFirst prk dt
  let r0 := chainFirst prk dr
  let r1 := chainNext r0 dr 0
  { x with csTx := chainNext c0 dt 0, keyTx := epochKey c0 dt 0, csRx := chainNext r1 dr 1, keyRx := epochKey r0 dr 0,
           keyRxNext := epochKey r1 dr 1, keyRxOld := none, txEpoch := 0, rxEpoch := 0, epochAt := ht, epochSent := 0,
           ackAt := now, hbAt := now }

/-- The sending direction moved to its next epoch (R338). -/
def Session.ratchet (x : Session) (ht : Nat) : Session :=
  { x with txEpoch := x.txEpoch + 1, keyTx := epochKey x.csTx x.dir (x.txEpoch + 1),
           csTx := chainNext x.csTx x.dir (x.txEpoch + 1), epochAt := ht, epochSent := 0 }

/-- Whether the sending epoch has run its course (R338). -/
def Session.ratchetDue (x : Session) (ht : Nat) : Bool := 2 ^ 32 ≤ x.epochSent || x.epochAt + 600 * oneS ≤ ht

/-- The first datagram of the next receiving epoch authenticated: the old key is held (R339). -/
def Session.rxAdvance (x : Session) (now : Nat) : Session :=
  let dr := 1 - x.dir
  { x with keyRxOld := some (x.keyRx, now + Nat.max (2 * x.maxRtt) (2 * oneMs)), rxEpoch := x.rxEpoch + 1,
           keyRx := x.keyRxNext, keyRxNext := epochKey x.csRx dr (x.rxEpoch + 2),
           csRx := chainNext x.csRx dr (x.rxEpoch + 2) }

/-- The sending epoch of a session moved on, with its event (R338). -/
def State.ratchetSess (s : State) (k : Nat) : State :=
  (s.onSess k fun x => x.ratchet s.htNow).raiseSess Ev.acxKeyRatchet k

/-! ### Routes -/

/-- The route is up at the port. -/
def State.routeUp (s : State) (port r : Nat) : Bool := ((s.farPort port).route r).linkUp

/-- The routes in use of a session (R348). -/
def Session.inUse (x : Session) : List Nat := (if x.ra.inUse then [0] else []) ++ (if x.rb.inUse then [1] else [])

/-- A reliable datagram is to be sent once more, or is abandoned when it has been sent 1 + RETRY_MAX times (R347). -/
def Datagram.exhausted (d : Datagram) (retryMax : Nat) : Bool := 1 + retryMax ≤ d.txCount

/-- Whether a route is in use is settled again: it is up, not failed, and both ends report its receive side healthy
(R348). A route that leaves use hands its unacknowledged datagrams to the other (R349). -/
def State.settleRoute (s : State) (k r : Nat) : State :=
  let x := s.sess k
  let rt := x.route r
  let use := s.routeUp x.port r && !rt.failed && rt.rxOk && rt.peerOk
  if use = rt.inUse then s
  else
    let s := s.onSess k fun x => x.onRoute r fun t => { t with inUse := use, used := true }
    if use then (if rt.used then s.raiseSess Ev.acxRouteUp k else s)
    else
      let s := s.onSess k fun x =>
        { x with flight := x.flight.map fun d => if d.route = r && s.now < d.sentAt + d.rtoNs then { d with lost := true } else d }
      s.raiseSess Ev.acxRouteDown k

/-! ### RTT (R344 to R346) -/

/-- A sample fed into a route's estimates (R344). Divisions drop the remainder (log entry 41). -/
def SessRoute.feed (r : SessRoute) (v : Nat) : SessRoute :=
  if !r.hasRtt then { r with hasRtt := true, srtt := v, rttvar := v / 2 }
  else
    let d := if v ≤ r.srtt then r.srtt - v else v - r.srtt
    { r with rttvar := (3 * r.rttvar + d) / 4, srtt := (7 * r.srtt + v) / 8 }

/-- RTO of a route before doubling (R344); 2 s where it has no sample yet (log entry 42). -/
def SessRoute.rto (r : SessRoute) : Nat := if r.hasRtt then r.srtt + Nat.max (4 * r.rttvar) oneMs else 2 * oneS

/-- REORDER of a route (R344, R346). -/
def SessRoute.reorder (r : SessRoute) (now : Nat) : Nat :=
  Nat.max (r.srtt / 64) (100 * oneUs) + (if now < r.widenTo then r.widen else 0)

/-- The last eight candidates are on one side of SRTT (R346). -/
def SessRoute.stepped (r : SessRoute) : Bool :=
  let l := r.cands.drop (r.cands.length - 8)
  l.length = 8 && (l.all (fun v => r.srtt < v) || l.all (fun v => v < r.srtt))

/-- An RTT sample of a session's route: a candidate is held, eight on one side are a reroute, and an ordinary sample
feeds those held and then itself (R346). -/
def State.rttSample (s : State) (k r v : Nat) : State :=
  let s := s.onSess k fun x => { x with maxRtt := Nat.max x.maxRtt v }
  let rt := (s.sess k).route r
  let far := if v ≤ rt.srtt then rt.srtt - v else v - rt.srtt
  if !rt.hasRtt || far ≤ 4 * rt.rttvar then
    s.onSess k fun x => x.onRoute r fun t => { ((t.cands.foldl SessRoute.feed t).feed v) with cands := [] }
  else
    let t := { rt with cands := rt.cands ++ [v] }
    if !t.stepped then s.onSess k fun x => x.onRoute r fun _ => t
    else
      let mean := (t.cands.drop (t.cands.length - 8)).sum / 8
      let delta := if mean ≤ t.srtt then t.srtt - mean else mean - t.srtt
      let t := { t with cands := [], srtt := mean, widen := delta, widenTo := s.now + 2 * mean }
      let s := s.onSess k fun x =>
        let x := x.onRoute r fun _ => t
        { x with flight := x.flight.map (fun d => if d.route = r then { d with rtoNs := Nat.max d.rtoNs t.rto } else d)
                 reroutes := satAdd 16 x.reroutes 1 }
      s.raiseSess Ev.acxReroute k

/-! ### Queues (R341 to R343, R351, R353) -/

/-- N, the slots of the Cistern (R341). -/
def State.cistSlots (s : State) : Nat :=
  match s.job.bind fun j => imgRole j.image 3 with
  | some r => 4 * (r.length / 32960)
  | none => 4 * (s.acx.cistLen / 32960)

/-- Payload slots taken: the Caravan chunks of this device that are kept, and the other reliable payloads held (R341). -/
def State.cistUsed (s : State) : Nat :=
  let own := match s.job with
    | some j => ((List.range 64).map fun f =>
        (((s.frag f).caravans.filter fun c => c.1 % 64 = (imgBytes j.image 0x0A).fld 0 3).map fun c => c.2.length).sum).sum
    | none => 0
  own + ((s.places.map fun k => ((s.sess k).flight.filter fun d => d.type ≠ 1).length).sum)

/-- The payload ring has no free slot (R343). -/
def State.cistFull (s : State) : Bool := s.cistSlots ≤ s.cistUsed

/-- Work that would fill the Cistern is held: the event at most once per second (R343). -/
def State.cistHeld (s : State) (k : Nat) : State :=
  let x := s.sess k
  let s := s.onSess k fun x => { x with fullFrom := some (x.fullFrom.getD s.now) }
  if s.due x.fullEvAt oneS then
    (s.onSess k fun x => { x with fullEvAt := some s.now }).raiseSess Ev.acxCisternFull k
  else s

/-- The end of the time a session's producers were held by a full Cistern (R343). -/
def Session.cistFree (x : Session) (now : Nat) : Session :=
  match x.fullFrom with
  | none => x
  | some t => { x with fullUs := satAdd 32 x.fullUs ((now - t) / oneUs), fullFrom := none }

/-- What a held producer offers enters the transmit queue as far as its 64 places allow (R353). -/
def Session.refill (x : Session) (now : Nat) : Session :=
  let n := 64 - x.queue.length
  let x := { x with queue := x.queue ++ x.outStream.take n, outStream := x.outStream.drop n }
  if x.outStream = [] then
    match x.holdFrom with
    | none => x
    | some t => { x with holdUs := satAdd 32 x.holdUs ((now - t) / oneUs), holdFrom := none }
  else { x with holdFrom := some (x.holdFrom.getD now) }

/-- Reliable datagrams handed to a session's transmit queue (R353). -/
def State.offer (s : State) (k : Nat) (l : List Datagram) : State :=
  if l = [] then s else s.onSess k fun x => { x with outStream := x.outStream ++ l }.refill s.now

/-- A reliable datagram that has not been sent. -/
def newDatagram (type round frag chunk : Nat) (last : Bool) (payload : Buf) : Datagram :=
  { type, seq := 0, round, frag, chunk, last, payload, txCount := 0, route := 0, sentAt := 0, rtoNs := 0, timeouts := 0,
    lost := false }

/-- Sent to every partner site whose session is open (R302, R306, R320, R321). -/
def State.offerPartners (s : State) (l : List Datagram) : State :=
  (List.range 5).foldl (fun s site =>
    match s.openPlace site with
    | some k => if (s.sess k).state = .open_ then s.offer k l else s
    | none => s) s

/-- Tokens of a session's Weir brought up to the present: RATE Mb/s is RATE units of 1/8,000 byte per ns (R351, R352). -/
def Session.fill (x : Session) (now : Nat) : Session :=
  { x with tokens := Nat.min (x.tokens + x.rate * (now - x.tokensAt)) (x.burst * 1024 * 8000), tokensAt := now }

/-! ### Sending -/

/-- SACK (R331): bit k for SEQ ACK_BASE + 1 + k received. -/
def Session.sack (x : Session) : Nat :=
  (x.gotAbove.filter fun q => x.ackBase < q && q ≤ x.ackBase + 64).foldl (fun a q => a ||| (1 <<< (q - x.ackBase - 1))) 0

/-- This site's index for SRC_SITE, 0 with no job. -/
def State.ownSite (s : State) : Nat :=
  match s.job with
  | some j => (imgBytes j.image 0x0A).fld 0 3
  | none => 0

/-- One datagram of an OPEN or HELD session sealed and sent on a route (R328, R331, R337, R344). The 128-bit tag follows
the ciphertext. A change of epoch that is due comes first (R338). -/
def State.sendSealed (s : State) (k route type seq tx round frag chunk : Nat) (last : Bool) (payload : Buf) : State :=
  let s := if (s.sess k).ratchetDue s.htNow then s.ratchetSess k else s
  let x := s.sess k
  let rt := x.route route
  let (echo, ecr) := match rt.tsNew with
    | some (v, t) => (true, (v + (s.now - t) / 16) % 2 ^ 32)
    | none => (false, 0)
  let h : AcxHdr :=
    { type, retx := tx ≠ 0, route, last, echo, session := x.peerId, epoch := x.txEpoch, seq, txCount := tx,
      ackBase := x.ackBase, sack := x.sack, round, frag, site := s.ownSite, plen := payload.len, chunk,
      tsVal := s.htNow / 16 % 2 ^ 32, tsEcr := ecr }
  let hb := h.bytes
  let dg := hb.app (gcmSeal (keyOf x.keyTx) (acxNonce x.keyTx seq tx) hb payload)
  let p := s.farPort x.port
  let s := s.emit (.frame x.port route (ethFrame (p.route route) ((s.partner x.peer).addr route) x.peerId route dg))
  let s := s.onSess k fun x => { x with epochSent := x.epochSent + 1 }
  s.onFarPort x.port fun p => { p with txCount := satAdd 64 p.txCount 1 }

/-- An unreliable datagram: it takes the next SEQ and is never held (R332). -/
def State.sendLoose (s : State) (k route type : Nat) (payload : Buf) : State :=
  let x := s.sess k
  let s := s.sendSealed k route type x.nextSeq 0 0 0 0 false payload
  s.onSess k fun y => { y with nextSeq := x.nextSeq + 1, loose := y.loose ++ [(route, s.now, x.nextSeq)] }

/-- SEND_FLOOR: the lowest SEQ still held (R333). -/
def Session.floor (x : Session) : Nat := (x.flight.map (·.seq)).foldl Nat.min x.nextSeq

/-- A HEARTBEAT on each route that is up (R332, R348). -/
def State.sendHeartbeats (s : State) (k : Nat) : State :=
  let s := s.onSess k fun x => { x with hbAt := s.now }
  [0, 1].foldl (fun s r =>
    let x := s.sess k
    if s.routeUp x.port r then
      let rx := b2n (x.ra.rxOk && !x.ra.failed) + 2 * b2n (x.rb.rxOk && !x.rb.failed)
      s.sendLoose k r 7 (Buf.cat [Buf.ofBe 6 x.floor, Buf.ofLe 1 rx, Buf.zeros 9])
    else s) s

/-! ### Acknowledgement and loss (R333, R345, R347) -/

/-- The datagrams of a session that have been sent 1 + RETRY_MAX times and are lost are given up (R347): a DATA datagram
is abandoned; any other closes the session, which the answer says. -/
def State.abandon (s : State) (k : Nat) : State × Bool :=
  let x := s.sess k
  let m := (s.partner x.peer).retryMax
  let gone := x.flight.filter fun d => d.lost && d.exhausted m
  if gone = [] then (s, false)
  else
    let n := gone.length
    let s := s.putSess k { x with flight := x.flight.filter fun d => !(d.lost && d.exhausted m), abandoned := satAdd 32 x.abandoned n }
    let s := gone.foldl (fun s _ => s.raiseSess Ev.acxRetryExhausted k) s
    (s, gone.any fun d => d.type ≠ 1)

/-- Datagrams sent on a route so long before an acknowledged one that they are deemed lost (R345). -/
def Session.findLost (x : Session) (now : Nat) : Session :=
  { x with flight := x.flight.map fun d =>
      let t := x.route d.route
      if !d.lost && t.ackedTo ≠ 0 && d.sentAt + t.reorder now ≤ t.ackedTo then { d with lost := true } else d }

/-- Settles every SEQ that a test names as acknowledged (R333, R341, R345). -/
def Session.settle (x : Session) (now : Nat) (acked : Nat → Bool) : Session :=
  let done := (x.flight.filter fun d => acked d.seq).map fun d => (d.route, d.sentAt)
  let done := done ++ ((x.loose.filter fun l => acked l.2.2).map fun l => (l.1, l.2.1))
  let top (r : Nat) : Nat := (done.filter fun p => p.1 = r).foldl (fun a p => Nat.max a p.2) (x.route r).ackedTo
  let x := { x with flight := x.flight.filter fun d => !acked d.seq, loose := x.loose.filter fun l => !acked l.2.2 }
  let a := top 0
  let b := top 1
  let x := (x.onRoute 0 fun t => { t with ackedTo := Nat.max t.ackedTo a }).onRoute 1 fun t => { t with ackedTo := Nat.max t.ackedTo b }
  x.findLost now

/-- What the header of a datagram acknowledges (R331, R333). -/
def ackedBy (h : AcxHdr) (q : Nat) : Bool := q < h.ackBase || (h.ackBase < q && h.sack.testBit (q - h.ackBase - 1))

/-- The SEQs above ACK_BASE as runs: first and length (R333). -/
def runsOf : List Nat → List (Nat × Nat)
  | [] => []
  | q :: l =>
    match runsOf l with
    | (f, n) :: t => if f = q + 1 && n < 65535 then (q, n + 1) :: t else (q, 1) :: (f, n) :: t
    | [] => [(q, 1)]

/-- ACK_BASE carried on past SEQs received above it. -/
def Session.slide : Nat → Session → Session
  | 0, x => x
  | n + 1, x =>
    if x.gotAbove.contains x.ackBase then
      Session.slide n { x with ackBase := x.ackBase + 1, gotAbove := x.gotAbove.erase x.ackBase }
    else x

/-- A SEQ received (R331, R339): ACK_BASE moves past it where it is the lowest missing. -/
def Session.receive (x : Session) (q : Nat) : Session :=
  let x := { x with gotAbove := sortBy (fun x y => x ≤ y) (x.gotAbove ++ [q]), unrep := x.unrep + 1 }
  Session.slide (x.gotAbove.length + 1) x

/-- Every SEQ below a floor taken as settled (R333). -/
def Session.toFloor (x : Session) (floor : Nat) : Session :=
  if floor ≤ x.ackBase then x
  else
    let x := { x with ackBase := floor, gotAbove := x.gotAbove.filter fun q => floor ≤ q }
    Session.slide (x.gotAbove.length + 1) x

/-! ### Closing and opening (R334, R335, R350) -/

/-- What a session that ends still owes its peer (R350): unacknowledged datagrams, then those queued, as new ones. -/
def Session.owed (x : Session) : List Datagram :=
  (x.flight ++ x.queue ++ x.outStream).filterMap fun d =>
    if d.type = 9 then none else some { d with seq := 0, txCount := 0, timeouts := 0, lost := false }

/-- A session becomes CLOSED: its keys are erased; what it owes waits for the next session to that peer (R350). -/
def Session.close (x : Session) : Session :=
  { Session.reset with
    used := x.used, localId := x.localId, peer := x.peer, port := x.port, bulk := x.bulk, initiator := x.initiator,
    outStream := if x.bulk then [] else x.owed, rate := x.rate, burst := x.burst, quota := x.quota, tokens := x.tokens,
    tokensAt := x.tokensAt, budgets := x.budgets, resends := x.resends, abandoned := x.abandoned, reroutes := x.reroutes,
    authFails := x.authFails, dups := x.dups, staleEp := x.staleEp, winDrops := x.winDrops, holdUs := x.holdUs,
    fullUs := x.fullUs }

/-- The donor of a bootstrap is lost (R319): its fragments choose the lowest-indexed other site of the job. -/
def State.donorLost (s : State) (site : Nat) : State :=
  match s.job with
  | none => s
  | some j =>
    let sites := onesOf 5 ((imgBytes j.image 0x0A).fld 8 5)
    let next := sites.find? fun k => k ≠ s.ownSite && k ≠ site
    { s with acx := { s.acx with frags := s.acx.frags.map fun f =>
        if f.2.jstate = 1 && f.2.donor = some site then (f.1, { f.2 with donor := next.or (some site) }) else f } }

/-- The JOB_RESTORE that runs and waits for records from bulk session `id` (R408), with its mailbox. -/
def State.pullCmd (s : State) (id : Nat) : Option (Nat × Cmd) :=
  match s.pcie.running with
  | none => none
  | some mb =>
    ((s.mbox mb).cmds.find? fun c => c.phase = .running && c.entry.fld 0 16 = 0x0403 && c.entry.fld 576 2 = 2 &&
      c.entry.fld 608 16 = id).map fun c => (mb, c)

/-- A session ends in CLOSED with ACX_SESSION_FAIL where it failed, and an export or pull it carried fails (R350, R355). -/
def State.closeSess (s : State) (k : Nat) (failed : Bool) : State :=
  let x := s.sess k
  let s := if failed then s.raiseSess Ev.acxSessionFail k else s
  let s := match x.exportId with
    | some _ => s.raiseSess Ev.acxExportFailed k
    | none => s
  let s := match x.waitMb with
    | some mb => s.finishWaiting mb 0x0165
    | none => s
  let s := match s.pullCmd x.localId with
    | some (mb, _) => s.finishWaiting mb 0x0165
    | none => s
  let s := s.onCom fun c => { c with exports := c.exports.filter fun p => p.2 ≠ x.localId }
  let s := if failed then s.donorLost x.peer else s
  s.onSess k Session.close

/-- CLOSE sent with a reason code (R332). -/
def State.sendClose (s : State) (k reason : Nat) : State :=
  let x := s.sess k
  match x.inUse with
  | r :: _ =>
    (s.sendSealed k r 9 x.nextSeq 0 0 0 0 false (Buf.ofBe 4 reason)).onSess k fun y => { y with nextSeq := y.nextSeq + 1 }
  | [] => s

/-- The next local session id: a free choice of the device from 1 to 65,535 among those not in use (log entry 43). -/
def State.pickSessId (s : State) : Nat × State :=
  let (v, s) := s.free 16
  let ids := s.places.map fun k => (s.sess k).localId
  (((List.range 17).map fun i => (v + i) % 65535 + 1).find? (fun i => !ids.contains i) |>.getD 1, s)

/-- The place that a new session to a peer takes: that of a CLOSED session to it, else a free one, else that of any CLOSED
session. -/
def State.newPlace (s : State) (peer : Nat) (bulk : Bool) : Option Nat :=
  let closed (k : Nat) : Bool := (s.sess k).state = .closed
  match s.places.find? fun k => closed k && (s.sess k).peer = peer && (s.sess k).bulk = bulk with
  | some k => some k
  | none =>
    match (List.range 16).find? fun k => !(s.sess k).used with
    | some k => some k
    | none => (List.range 16).find? fun k => closed k

/-- IMAGE_ID of the armed job, 0 with none. -/
def State.imageId (s : State) : Nat := match s.job with | some j => imgId j.image | none => 0
/-- CW of the armed job, 0 with none. -/
def State.cw (s : State) : Nat := match s.job with | some j => imgCw j.image | none => 0

/-- A signature of the identity key over a digest, in 384 bytes. -/
def identitySig (digest : Nat) : Buf := Buf.ofBe 384 (Config.identitySign digest)

/-- The signed part of an INIT or ACCEPT up to the chain: id, IMAGE_ID, site, CW and the random value (R335, log entry
44). -/
def helloHead (id imageId site cw nonce : Nat) : Buf :=
  Buf.cat [Buf.ofBe 2 id, Buf.ofBe 8 imageId, Buf.ofBe 1 site, Buf.ofBe 4 cw, Buf.ofBe 32 nonce]

/-- Bytes of `helloHead`. -/
def helloLen : Nat := 47

/-- A TYPE 0xA or 0xB datagram: the header and the payload in plain (R328, R331, R335). -/
def State.sendHello (s : State) (k type session : Nat) (payload : Buf) : State :=
  let x := s.sess k
  [0, 1].foldl (fun s r =>
    if s.routeUp x.port r then
      let h : AcxHdr :=
        { type, retx := false, route := r, last := false, echo := false, session, epoch := 0xFFFF, seq := 0, txCount := 0,
          ackBase := 0, sack := 0, round := 0, frag := 0, site := s.ownSite, plen := payload.len, chunk := 0,
          tsVal := s.htNow / 16 % 2 ^ 32, tsEcr := 0 }
      let p := s.farPort x.port
      (s.emit (.frame x.port r (ethFrame (p.route r) ((s.partner x.peer).addr r) session r (h.bytes.app payload)))).onFarPort
        x.port fun p => { p with txCount := satAdd 64 p.txCount 1 }
    else s) s

/-- The Weir and quota a session takes from its partner's configuration (R330, R351, R352); the tokens it starts with are
a free value (log entry 45). -/
def State.startWeir (s : State) (k : Nat) : State :=
  let x := s.sess k
  let p := s.partner x.peer
  let (v, s) := s.free 32
  s.onSess k fun x =>
    { x with rate := p.rate, burst := p.burst, quota := p.quota, tokens := v % (p.burst * 1024 + 1) * 8000, tokensAt := s.now }

/-- A session begun by this device: OPENING, INIT sent (R335). Nothing where the device has no identity (R463). -/
def State.initSession (s : State) (peer port : Nat) (bulk : Bool) (mb : Option Nat) : State × Option Nat :=
  if !s.hasIdentity then (s, none)
  else
    match s.newPlace peer bulk with
    | none => (s, none)
    | some k =>
      let keep := (s.sess k).outStream
      let (id, s) := s.pickSessId
      let (n, s) := s.random
      let head := helloHead id s.imageId s.ownSite s.cw n
      let body := head.app s.identityChain
      let pay := body.app (identitySig (sha256 body))
      let x : Session :=
        { Session.reset with
          used := true, localId := id, state := .opening, bulk, peer, port, initiator := true, nonceI := n, initPay := pay,
          initAt := s.now, initGap := oneS, openSince := s.now, waitMb := mb, outStream := keep }
      let s := (s.putSess k x).startWeir k
      (s.sendHello k 0xA 0 pay, some k)

/-- A session reopened instead of running out of SEQs or epochs (R337). -/
def State.reopen (s : State) (k : Nat) : State :=
  let x := s.sess k
  (((s.sendClose k 0).closeSess k true).initSession x.peer x.port x.bulk none).1

/-- A session enters OPEN (R334, R356): what the session before it owed is offered again, and a session it replaces ends. -/
def State.opened (s : State) (k : Nat) : State :=
  let x := s.sess k
  let owed := match x.replacing with
    | some o => (s.sess o).owed
    | none => []
  let s := match x.replacing with
    | some o => s.putSess o Session.reset
    | none => s
  let s := s.onSess k fun x =>
    let x := { x with state := .open_, replacing := none, outStream := owed ++ x.outStream, waitMb := none }
    ((x.onRoute 0 fun t => { t with lastRx := s.now }).onRoute 1 fun t => { t with lastRx := s.now }).refill s.now
  let s := s.raiseSess Ev.acxSessionOpen k
  match x.waitMb with
  | some mb => s.finishWaiting mb 0 (Buf.ofLe 2 x.localId)
  | none => s

end Sys2Proof.Machine
end

