-- ==== Sys2Proof/Machine/HallTime.lean ====
section
/-! DEFINITION. Hall time (R33 to R48, R67): the pulse pair, the timing symbols, the choice of an upstream and the time
states. `now` counts HALL edges since power-on, so slewing, which only adjusts the HALL frequency (R43), never changes
`off`; only UNSET and ACQUIRING step it (log entry 3). -/

namespace Sys2Proof.Machine

/-- SOURCE coding of R67 as the unit of a time event (R499). -/
def State.htUnit (s : State) : Nat := s.ht.source

/-- HT_OUT runs only in LOCKED and HOLDOVER; in every other state it is held low (R35). -/
def HtState.outRuns (st : HtState) : Bool := st = .locked || st = .holdover

/-- A new time state; HT_LAST_CHANGE takes the HT of the transition (R67). -/
def State.htGoto (s : State) (st : HtState) : State :=
  { s with ht := { s.ht with state := st, lockRun := 0, srcLostAt := none, cands := [], lastChange := s.htNow } }

/-- A hop count taken, with FAR above 64 (R42). -/
def State.htHops (s : State) (hops : Nat) : State :=
  let h := s.ht
  if 64 < hops then
    if h.far then { s with ht := { h with hops } }
    else ({ s with ht := { h with hops, far := true } } : State).raise Ev.htFar s.htUnit
  else { s with ht := { h with hops, far := false } }

/-- Entry to UNSET (R44, R45): HT is not valid and there is no source. -/
def State.htUnset (s : State) : State :=
  let s := s.htGoto .unset
  { s with ht := { s.ht with source := 0xF, hops := 0xFF, far := false, offsetPs := 0, leftOut := none } }

/-- Entry to LOCKED (R45). -/
def State.htLock (s : State) : State :=
  let s := s.htGoto .locked
  ({ s with ht := { s.ht with leftOut := none } } : State).raise Ev.htLocked s.htUnit

/-- Entry to HOLDOVER (R45). -/
def State.htHold (s : State) : State :=
  let s := s.htGoto .holdover
  let u := s.htUnit
  ({ s with ht := { s.ht with holdSince := s.now, source := 0xF } } : State).raise Ev.htHoldover u

/-- The device takes time from HT_IN alone: it is a root, HT_IN has not been dropped (R39, R48), and the selection under
R43 does not leave it out. -/
def HtUnit.useIn (h : HtUnit) : Bool := h.root && !h.inDropped && h.leftOut ≠ some 8

/-- A port whose peer may be taken as upstream (R39): LOCKED, a hop count below 255, its link not DOWN, not left out. -/
def State.isCandidate (s : State) (p : Nat) : Bool :=
  let n := s.port p
  n.peerSeen && n.peerState = 2 && decide (n.peerHops < 255) && n.state ≠ .down && s.ht.leftOut ≠ some p

/-- Lower hop count first, then lower port index (R39). -/
def State.betterPort (s : State) (p q : Nat) : Bool :=
  decide ((s.port p).peerHops < (s.port q).peerHops) ||
    ((s.port p).peerHops = (s.port q).peerHops && decide (p < q))

/-- The best candidate (R39). -/
def State.bestPort (s : State) : Option Nat :=
  ((List.range 8).filter s.isCandidate).foldl
    (fun b p => match b with
      | none => some p
      | some q => if s.betterPort p q then some p else some q) none

/-- A port taken as source; each change of source raises HT_UPSTREAM_CHANGED (R39). The spec does not say whether the 256
exchanges of ACQUIRING start again with another source; the count goes on (log entry 8). -/
def State.takePort (s : State) (p : Nat) (announce : Bool) : State :=
  let was := s.ht.source
  let s := { s with ht := { s.ht with source := p, cands := [], srcLostAt := none } }
  let s := s.htHops ((s.port p).peerHops + 1)
  if announce && was ≠ p then s.raise Ev.htUpstreamChanged p else s

/-- The source is lost (R45). -/
def State.sourceLost (s : State) : State :=
  let h := s.ht
  match h.state with
  | .locked =>
    match s.bestPort with
    | some p => s.takePort p true
    | none => s.htHold
  | .acquiring =>
    match s.bestPort with
    | some p => if h.useIn then s else s.takePort p true
    | none => if h.srcLostAt = none then { s with ht := { h with srcLostAt := some s.now, lockRun := 0 } } else s
  | _ => s

/-- Offsets are held exactly, in units of 2^-17 ps: half of the difference of two stamps in 2^-16 ns and of an asymmetry
constant in ps. This is `ps` picoseconds in them. -/
def thUnits (ps : Int) : Int := 131072 * ps

/-- The filtered offset θ (R67). The spec gives the filter's time constant and not its form, so the value reported is a
free value (log entry 7); every decision below uses the offset of the one exchange. -/
def State.noteOffset (s : State) : State :=
  let (v, s) := s.free 32
  { s with ht := { s.ht with offsetPs := sext 32 v } }

/-- HT set or stepped: from this instant on its stamps belong to one time scale (log entry 8). -/
def State.htMoved (s : State) : State := { s with ht := { s.ht with setAt := s.htNow * 65536 } }

/-- An exchange or pulse of the source while ACQUIRING, of offset `th`: HT may be stepped (R44), and 256 in a row within
100 ps lock (R45). The step is to the nearest ns (log entry 8). -/
def State.acquire (s : State) (th : Int) : State :=
  if (th.natAbs : Int) ≤ thUnits 100 then
    let n := s.ht.lockRun + 1
    if 256 ≤ n then s.htLock else { s with ht := { s.ht with lockRun := n } }
  else ({ s with ht := { s.ht with lockRun := 0, off := s.ht.off - (th + thUnits 500) / thUnits 1000 } } : State).htMoved

/-- R43: an offset beyond 2.0 ns in LOCKED is not corrected. -/
def State.offsetExcess (s : State) (src : Nat) : State :=
  let s := s.raise Ev.htOffsetExcess src
  let s := { s with ht := { s.ht with leftOut := some src } }
  s.htHold

/-- The count of consecutive exchanges that speak for candidate `src`, one more, or none. -/
def HtUnit.count (h : HtUnit) (src : Nat) (good : Bool) : HtUnit :=
  { h with cands := tset 0 h.cands src (if good then tget 0 h.cands src + 1 else 0) }

/-- An exchange of a candidate in HOLDOVER (R45): 64 in a row within 2.0 ns lock. -/
def State.relock (s : State) (src : Nat) (th : Int) (hops : Nat) : State :=
  let h := s.ht.count src ((th.natAbs : Int) ≤ thUnits 2000)
  if 64 ≤ tget 0 h.cands src then (({ s with ht := { h with source := src } } : State).htHops hops).htLock
  else { s with ht := h }

/-! ### HT_IN -/

/-- Offset of an HT_IN edge: the captured time less the delay constant (R34), against the nearest multiple of
1,000,000 ns, or of 1,000,000,000 ns for a second marker (R33). -/
def State.edgeOffset (s : State) (marker : Bool) (skewPs : Int) : Int :=
  let t : Int := 1000 * (s.htNow : Int) + skewPs - s.isl.delayPs
  let unit : Int := if marker then 1000000000000 else 1000000000
  let r := t % unit
  thUnits (if 2 * r < unit then r else r - unit)

/-- HT set at a second marker of value `v`: the edge was captured `delayPs` late (R34). -/
def State.setFromMarker (s : State) (v : Nat) (skewPs : Int) : State :=
  let lag : Int := (s.isl.delayPs - skewPs + 500) / 1000
  ({ s with ht := { s.ht with off := (v : Int) + lag - s.now, pendingSet := none, source := 8, hops := 0, far := false } } :
    State).htMoved

/-- A valid pulse of a HT_IN that is in use (R34, R45). -/
def State.usePulse (s : State) (marker : Bool) (skewPs : Int) : State :=
  let th := s.edgeOffset marker skewPs
  let pend : Option Nat := match s.ht.pendingSet with
    | some (v, t) => if marker && s.now ≤ t + 1500000000 then some v else none
    | none => none
  match s.ht.state with
  | .unset =>
    match pend with
    | some v => (s.setFromMarker v skewPs).htGoto .acquiring
    | none => s
  | .acquiring =>
    match pend with
    | some v => s.setFromMarker v skewPs
    | none => if s.ht.source = 8 then (s.noteOffset).acquire th else s
  | .locked =>
    if s.ht.source = 8 then
      if thUnits 2000 < th.natAbs then s.offsetExcess 8 else s.noteOffset
    else s
  | .holdover => if s.ht.leftOut = some 8 then s else (s.noteOffset).relock 8 th 0
  | .lost => s

/-- A valid pulse of a dropped HT_IN: the sixteenth in a row within 2.0 ns restores it (R48), and a root that took its time
from a near port meanwhile takes it from HT_IN again (R39). In UNSET there is no HT that a pulse could lie within 2.0 ns of,
so it is not restored there (log entry 8). -/
def State.restorePulse (s : State) (marker : Bool) (skewPs : Int) : State :=
  let th := s.edgeOffset marker skewPs
  if s.htValid && (th.natAbs : Int) ≤ thUnits 2000 then
    if 16 ≤ s.ht.inGood + 1 then
      let s := ({ s with ht := { s.ht with inDropped := false, inGood := 0 } } : State).raise Ev.htInRestored 8
      if s.ht.root && s.ht.source < 8 then
        (({ s with ht := { s.ht with source := 8, cands := [], srcLostAt := none } } : State).htHops 0).raise Ev.htUpstreamChanged 8
      else s
    else { s with ht := { s.ht with inGood := s.ht.inGood + 1 } }
  else { s with ht := { s.ht with inGood := 0 } }

/-- The HT_IN pulse of R33 as R48 qualifies it. `highNs` is its high time and `skewPs` where its rising edge fell within
the HALL cycle of the command. -/
def State.htInPulse (s : State) (highNs : Nat) (skewPs : Int) : State :=
  let early := match s.ht.edgeLast with
    | none => false
    | some t => decide (s.now < t + 500000)
  if early then
    let s := { s with ht := { s.ht with inOverruns := satAdd 32 s.ht.inOverruns 1 } }
    let (s, t) := s.raiseOnce s.ht.overrunEvAt Ev.htInOverrun 8
    { s with ht := { s.ht with overrunEvAt := t } }
  else
    let s := { s with ht := { s.ht with edgeLast := some s.now } }
    let plain := 8000 ≤ highNs && highNs ≤ 12000
    let marker := 80000 ≤ highNs && highNs ≤ 120000
    if !(plain || marker) then
      { s with ht := { s.ht with inInvalid := satAdd 32 s.ht.inInvalid 1, inGood := 0 } }
    else if s.ht.inDropped then s.restorePulse marker skewPs
    else if s.ht.root then s.usePulse marker skewPs
    else s

/-- HT_IN_PULSE (R33, R34, R48); the receiver is ignored until option loading has ended (R426). -/
def execHtInPulse (at_ highNs : Nat) (skewPs : Int) (s : State) : Res :=
  let s := s.tick at_
  .next (if s.pinsLive then s.htInPulse highNs skewPs else s)

/-- HT_IN_STUCK (R48): a pulse held high for more than 2 ms is counted, not used, and HT_IN is dropped as a source. -/
def State.htInStuck (s : State) : State :=
  let s := { s with ht := { s.ht with inInvalid := satAdd 32 s.ht.inInvalid 1, inGood := 0, inDropped := true } }
  let s := s.raise Ev.htInStuck 8
  if s.ht.source = 8 then s.sourceLost else s

@[inherit_doc State.htInStuck]
def execHtInStuck (at_ : Nat) (s : State) : Res :=
  let s := s.tick at_
  .next (if s.pinsLive then s.htInStuck else s)

/-- HT_SET_TIMEOUT (R34): 1.5 s after the set command without a second marker the value is discarded; the time state
stays. -/
def State.htSetTimeout (s : State) : State :=
  match s.ht.pendingSet with
  | some (_, t) => if t + 1500000000 ≤ s.now then { s with ht := { s.ht with pendingSet := none } } else s
  | none => s

@[inherit_doc State.htSetTimeout]
def execHtSetTimeout (at_ : Nat) (s : State) : Res := .next (s.tick at_).htSetTimeout

/-! ### Timing symbols -/

/-- The epoch tag of the armed job: the low 16 bits of E / 3,900; 0 when no job is armed or E is not set (R36, R487). -/
def State.epochTag (s : State) : Nat :=
  match s.job with
  | none => 0
  | some j => if j.hasEpoch then wrap 16 (j.epoch / 3900) else 0

/-- Whether slot 0 of a link frame begins in the given ns, at a fraction in units of 2^-16 ns (R266): a frame starts at each
HT that is a multiple of 4,096 ns, and its slots last 1.28 ns. -/
def inSlot0 (ht frac : Nat) : Bool := decide (100 * (65536 * (ht % 4096) + frac) < 128 * 65536)

/-- TIMING_SYMBOL_SEND (R36, R266): one symbol every 4,096 ns of HT on a port whose transmitter runs, `frac` being the
fraction of its departure in units of 2^-16 ns; in UP it leaves in slot 0 of the link frame. -/
def State.timingSend (s : State) (p frac : Nat) : State :=
  let n := s.port p
  let frac := frac % 65536
  let t := s.htNow * 65536 + frac
  if n.state = .down || (n.ownStamp ≠ 0 && n.ownStamp / 65536 / 4096 = s.htNow / 4096) ||
      (n.state = .up && !inSlot0 s.htNow frac) then s
  else
    let turn := (t + 2 ^ 80 - n.peerAt) % 2 ^ 32
    let s := s.emit (.timing p t (if n.peerSeen then n.peerStamp else 0) turn s.ht.state.code s.ht.hops s.epochTag)
    s.putPort p { n with ownStamp := t }

@[inherit_doc State.timingSend]
def execTimingSymbolSend (at_ : Nat) (row : DepartPort) (s : State) : Res := .next ((s.tick at_).timingSend row.port row.frac)

/-- Twice the mean one-way delay d of R37, in units of 2^-16 ns. -/
def exchangeDelay2 (sym : TimingSymbol) (own : Int) : Int :=
  let t1 : Int := sym.echo
  let t3 : Int := sym.depart
  let t2 : Int := t3 - sym.turnaround
  (own - t1) - (t3 - t2)

/-- The delay d in whole ps, as DELAY_PS holds it. -/
def exchangeDelay (sym : TimingSymbol) (own : Int) : Int := 1000 * exchangeDelay2 sym own / 131072

/-- The offset θ of R37 in units of 2^-17 ps, exactly: own clock minus peer clock, with the port's asymmetry constant in
ps. -/
def exchangeOffset (sym : TimingSymbol) (own asym : Int) : Int :=
  let t1 : Int := sym.echo
  let t3 : Int := sym.depart
  let t2 : Int := t3 - sym.turnaround
  1000 * ((own - t3) - (t2 - t1)) - 65536 * asym

/-- Whether a peer of the same job shows another epoch tag (R49); the neighbour notice says which job it belongs to. -/
def State.tagMismatch (s : State) (p : Nat) : Bool :=
  match s.job, (s.port p).notice with
  | some j, some (id, _, _) =>
    j.hasEpoch && j.phase ≠ .stopped && id = imgJobId j.image && (s.port p).peerSeen && (s.port p).peerTag ≠ s.epochTag
  | _, _ => false

/-- What an exchange on port `p` does to the time state (R39, R43, R45); `d2` is twice its delay in 2^-16 ns. -/
def State.exchange (s : State) (p : Nat) (th d2 : Int) : State :=
  let n := s.port p
  let h := s.ht
  match h.state with
  | .unset =>
    if !h.useIn && s.bestPort = some p then
      let off : Int := (2 * (n.peerStamp : Int) + d2 + 65536) / 131072 - s.now
      ((({ s with ht := { h with off } } : State).htMoved).takePort p false).htGoto .acquiring
    else s
  | .acquiring =>
    if h.source = p then
      if s.isCandidate p then ((s.noteOffset).takePort p false).acquire th else s.sourceLost
    else if h.srcLostAt ≠ none && !h.useIn && s.bestPort = some p then s.takePort p true
    else s
  | .locked =>
    if h.source = p then
      if !s.isCandidate p then s.sourceLost
      else if thUnits 2000 < th.natAbs then s.offsetExcess p
      else (s.noteOffset).htHops (n.peerHops + 1)
    else if h.source < 8 then
      let h := h.count p (s.bestPort = some p && s.betterPort p h.source)
      if 64 ≤ tget 0 h.cands p then s.takePort p true else { s with ht := h }
    else s
  | .holdover =>
    if h.useIn then s
    else if s.isCandidate p then (s.noteOffset).relock p th (n.peerHops + 1)
    else { s with ht := h.count p false }
  | .lost => s

/-- Whether an echo is a stamp that own HT has given on its present time scale: none from before HT was last set or
stepped, and none yet to come (log entry 8). -/
def HtUnit.echoes (h : HtUnit) (echo own : Nat) : Bool := echo ≠ 0 && decide (h.setAt ≤ echo) && decide (echo ≤ own)

/-- TIMING_SYMBOL_RX (R36, R37): the symbol is noted; one that echoes a stamp of this device is an exchange. -/
def State.timingRx (s : State) (p : Nat) (sym : TimingSymbol) : State :=
  let n := s.port p
  let own : Nat := s.htNow * 65536 + sym.arriveFrac
  let n' := { n with peerState := sym.state % 8, peerHops := sym.hops % 256, peerTag := sym.epochTag % 65536,
                     peerReady := sym.ready, peerStamp := sym.depart % 2 ^ 80, peerAt := own, peerSeen := true }
  let s := s.putPort p n'
  let s := if s.tagMismatch p then s.fatal Ev.htEpochMismatch p else s
  if n.ownStamp ≠ 0 && s.ht.echoes sym.echo own then
    let d := exchangeDelay sym own
    let s := s.putPort p { n' with delayPs := some (wrap 32 (if d < 0 then 0 else d)) }
    s.exchange p (exchangeOffset sym own (tget 0 s.isl.asym p)) (exchangeDelay2 sym own)
  else if s.ht.source = p && !s.isCandidate p then s.sourceLost
  else s

@[inherit_doc State.timingRx]
def execTimingSymbolRx (at_ port : Nat) (sym : TimingSymbol) (s : State) : Res := .next ((s.tick at_).timingRx port sym)

/-- HT_SOURCE_LOSS_TIMEOUT (R45): ACQUIRING with its source lost for 10 ms leads to UNSET. -/
def State.htSourceTimeout (s : State) : State :=
  match s.ht.state, s.ht.srcLostAt with
  | .acquiring, some t => if t + 10 * oneMs ≤ s.now then s.htUnset else s
  | _, _ => s

@[inherit_doc State.htSourceTimeout]
def execHtSourceLossTimeout (at_ : Nat) (s : State) : Res := .next (s.tick at_).htSourceTimeout

/-- HT_LOST (R45 to R47): the holdover limit is reached. The event is fatal, so any armed job is stopped at once, and with
no job left running LOST leads to UNSET. -/
def State.htLost (s : State) : State :=
  if s.ht.state = .holdover && s.ht.holdSince + s.isl.holdMs * oneMs ≤ s.now then
    ((s.htGoto .lost).fatal Ev.htLost s.ht.source).htUnset
  else s

@[inherit_doc State.htLost]
def execHtLost (at_ : Nat) (s : State) : Res := .next (s.tick at_).htLost

/-! ### Records -/

/-- ERR_BOUND_PS: 20 + 7.5 h ps, and in HOLDOVER 5 ps more for each ms elapsed, rounded up (R41, R46, R67). -/
def State.errBound (s : State) : Nat :=
  match s.ht.state with
  | .locked => ceilDiv (40 + 15 * s.ht.hops) 2
  | .holdover => ceilDiv ((40 + 15 * s.ht.hops) * oneMs + 10 * (s.now - s.ht.holdSince)) (2 * oneMs)
  | _ => 0xFFFFFFFF

/-- The HT_STATE record (R67). -/
def State.htRecord (s : State) : Buf :=
  let h := s.ht
  let holdUs := if h.state = .holdover then (s.now - h.holdSince) / oneUs else 0
  let epoch := match s.job with
    | some j => if j.hasEpoch then j.epoch else 0
    | none => 0
  packBuf 32 [(3, h.state.code), (1, b2n h.root), (1, b2n h.far), (3, 0), (4, h.source), (4, 0), (8, h.hops), (8, 0),
    (32, holdUs), sf 32 h.offsetPs, (32, s.errBound), (64, h.lastChange), sf 64 epoch]

/-- The level of HT_OUT at the instant `now`, a pin that no command sets: in LOCKED and HOLDOVER it is high for 10 µs from
each HT that is a multiple of 1,000,000 ns, and for 100 µs from each multiple of 1,000,000,000 ns; otherwise it is low
(R33, R35). -/
def State.htOut (s : State) : Bool :=
  s.ht.state.outRuns && s.pinsLive &&
    decide (s.htNow % 1000000 < if s.htNow % 1000000000 < 1000000 then 100000 else 10000)

end Sys2Proof.Machine
end

