-- ==== Sys2Proof/Machine/Timetable.lean ====
section
/-! DEFINITION. Dispatch of timetable entries (R50, R58 to R65): sync objects, preconditions, slot misses and their
resolution, the verdict causes they raise (R234 to R236), and completion with its signal. -/

namespace Sys2Proof.Machine

/-- A running main job: its steps start and its entries are dispatched. -/
def Job.runs (j : Job) : Bool := j.phase = .running || j.phase = .stopping

/-- Step number of the running step, 0 without a job. -/
def State.stepNo (s : State) : Nat :=
  match s.job with
  | none => 0
  | some j => j.step

/-- Entry `i` of the armed image, where the job runs and has it. -/
def State.entry? (s : State) (i : Nat) : Option (Job × Entry) :=
  match s.job with
  | none => none
  | some j => if j.runs && i < imgEntries j.image then some (j, imgEntry j.image i) else none

/-! ### Sync objects -/

/-- A signal of step `m` (R58): newer takes over, equal counts, older is ignored. -/
def SyncObj.signal (o : SyncObj) (m : Int) (skip : Bool) : SyncObj :=
  if o.step < m then ⟨m, 1, skip⟩
  else if o.step = m then ⟨o.step, satAdd 32 o.count 1, o.skip || skip⟩
  else o

/-- A signal reaches sync object `k` (R58). -/
def State.signal (s : State) (k : Nat) (m : Int) (skip : Bool := false) : State :=
  let o := s.so k
  if m < o.step then
    ({ s with soStale := s.soStale + 1 } : State).raise Ev.soStaleSignal 0 [] m.toNat
  else s.putSo k (o.signal m skip)

/-- SO_SIGNAL (R58). -/
def execSoSignal (at_ so : Nat) (step : Int) (skip : Bool) (s : State) : Res := .next ((s.tick at_).signal so step skip)

/-- Whether a sync object holds step `n` with at least `count` (R59). -/
def SyncObj.reached (o : SyncObj) (n count : Nat) : Bool := o.step = (n : Int) && decide (count ≤ o.count)

/-! ### Verdict causes -/

/-- The 0x61 instant of the running step has passed: its decision record is written. -/
def State.decided (s : State) : Bool :=
  match s.com.decision, s.job with
  | some d, some j => d.step = j.step && !j.fresh
  | _, _ => false

/-- The due instant, in JT, of the first entry with an action in the running step (R50, R232). -/
def Job.dueOf (j : Job) (action : Nat) : Option Nat := (imgAction j.image action).map fun e => j.sn + e.2.offset

/-- The 0x61 due instant of the running step has come (R236). -/
def State.pastDecision (s : State) : Bool :=
  match s.job with
  | none => false
  | some j => j.runs && !j.fresh && (j.dueOf 0x61).any fun t => decide ((t : Int) ≤ s.jtInt)

/-- The 0x60 due instant of the running step has passed, or the contribution has been made (R236). -/
def State.pastFreeze (s : State) : Bool :=
  s.com.frozen ||
    match s.job with
    | none => false
    | some j => j.runs && !j.fresh && (j.dueOf 0x60).any fun t => decide ((t : Int) < s.jtInt)

/-- A cause of R235 arises (R236): up to the 0x60 due instant it enters the contribution of the step; from the 0x61 due
instant on, that of the next step; between them it is LATE_CAUSE. -/
def State.cause (s : State) (b : Nat) : State :=
  if s.pastDecision then s.onCom fun c => { c with causeNext := c.causeNext ||| (1 <<< b) }
  else if s.pastFreeze then s.fatal Ev.lateCause
  else s.onCom fun c => { c with cause := c.cause ||| (1 <<< b) }

/-! ### Slot misses -/

/-- A miss record changed, with LAST_MISS_STEP (R68). -/
def State.noteMiss (s : State) (target : Nat) (f : MissRec → MissRec) : State :=
  s.onMissRec target fun r => { f r with lastStep := s.stepNo }

/-- An entry of the guest: 0x02, 0x03, and 0x20 with ARG[31] set (R373). -/
def Entry.isGuest (e : Entry) : Bool :=
  e.action = 0x02 || e.action = 0x03 || (e.action = 0x20 && e.arg.testBit 31)

/-- The step has a fault-class miss (R65): as many such steps in a row as the slot-fault limit raise SLOT_FAULT_LIMIT. -/
def State.markMiss (s : State) : State :=
  match s.job with
  | none => s
  | some j =>
    if j.missThis then s
    else
      let s := { s with job := some { j with missThis := true } }
      if j.sfLimit ≤ j.sfRun + 1 then s.fatal Ev.slotFaultLimit else s

/-- The carried contribution is dropped (R250). -/
def State.dropCarry (s : State) : State :=
  match s.com.carry with
  | some _ =>
    (s.onCom fun c => { c with carry := none, cCarryLost := satAdd 32 c.cCarryLost 1 }).raise Ev.carryDropped 0 [] s.stepNo
  | none => s

/-- An entry that waits on CARRY_SO is the carry fold: with it the carried contribution of the step before is lost
(R250). -/
def State.missFold (s : State) (e : Entry) : State :=
  match s.com.carry with
  | some (n, l, _) => if e.preEn && n < s.stepNo && l.any (fun m => m.2.1 = e.preSo) then s.dropCarry else s
  | none => s

/-- A fault-class miss of entry `i` in step `n` (R62): it is counted and raised; a pass entry raises UPDATE_FAULT with its pass descriptor
index (R214, R231), the flood and commit entries and the hops of the flood raise FLOOD_FAULT (R241), a guest entry stops the
guest (R376), and any other sets SLOT_FAULT in the verdict (R235) and, on a core, FAULT_MISS in its record (R234). A kernel may
outlive its step (R64); its miss is then one of step `n` and leaves the running step's use of the entry alone. -/
def State.faultMissOf (s : State) (i : Nat) (e : Entry) (n : Nat) : State :=
  let s := if n = s.stepNo then (s.putEnt i .faulted).missFold e else s
  let s := s.onMissRec e.target fun r => { r with faulted := satAdd 32 r.faulted 1, lastStep := n }
  if e.isGuest then
    (s.raise Ev.slotFault e.target [(20, i)] n true).stopGuest 2 e.target
  else
    let s := s.raise Ev.slotFault e.target [(20, i)] n
    let s := s.markMiss
    if e.action = 0x10 then s.fatal Ev.updateFault e.target [(32, e.arg)]
    else if e.action = 0x60 || e.action = 0x61 || s.job.any (fun j => e.floodHop j.image) then s.fatal Ev.floodFault e.target
    else
      let s := if e.target < 128 then
          s.onCore e.target fun c => { c with flags := { c.flags with faultMiss := true } }
        else s
      s.cause 4

/-- A fault-class miss of entry `i` in the running step (R62). -/
def State.faultMiss (s : State) (i : Nat) (e : Entry) : State := s.faultMissOf i e s.stepNo

/-- An entry skipped (R61, R62): counted, raised, and signalled with the skip mark if SIG_EN is 1. -/
def State.skipEntry (s : State) (i : Nat) (e : Entry) : State :=
  let s := (s.putEnt i .skipped).missFold e
  let s := s.noteMiss e.target fun r => { r with skipped := satAdd 32 r.skipped 1 }
  let s := s.raise Ev.slotSkipped e.target [(20, i)] s.stepNo e.isGuest
  if e.sigEn then s.signal e.sigSo s.stepNo true else s

/-- Places of a catch-up entry in use: deferred actions, and blocks or resends held (R63, R64). -/
def State.heldPlaces (s : State) (k : Nat) : Nat := (tget [] s.catchup k).length + tget 0 s.rxHold k

/-- The capacity of a catch-up entry (R56, R63). -/
def Entry.capacity (e : Entry) : Nat := e.arg % 4 + 1

/-- An entry moved to its catch-up entry, or a fault-class miss where that is full (R62, R63). -/
def State.deferEntry (s : State) (j : Job) (i : Nat) (e : Entry) : State :=
  let c := imgEntry j.image e.catchup
  if c.capacity ≤ s.heldPlaces e.catchup then
    let s := s.noteMiss e.target fun r => { r with catchupFull := satAdd 32 r.catchupFull 1 }
    (s.raise Ev.catchupFull e.target [(20, i)] s.stepNo).faultMiss i e
  else
    let s := s.putEnt i .deferred
    let s := { s with catchup := tset [] s.catchup e.catchup (tget [] s.catchup e.catchup ++ [i]) }
    let s := s.noteMiss e.target fun r => { r with deferred := satAdd 32 r.deferred 1 }
    s.raise Ev.slotDeferred e.target [(20, i)] s.stepNo

/-! ### Preconditions -/

/-- Nothing runs on the target of an entry (R59). -/
def State.targetIdle (s : State) (target : Nat) : Bool :=
  if target < 0x80 then (s.core target).kernel = none
  else if target < 0x88 then (s.die (target - 0x80)).pass = none
  else if target < 0x90 then (s.die (target - 0x88)).dma = none
  else if target < 0xB0 then (s.chan (target - 0x90)).window = none
  else if target < 0xB8 then
    (s.port (target - 0xB0)).txBusy ≤ s.htNow &&
      (match (s.port (target - 0xB0)).txWindow with | none => true | some (_, _, fin) => decide (fin ≤ s.jt))
  else if target < 0xC0 then true
  else if target < 0xC4 then (s.farPort (target - 0xC0)).slice = none
  else true

/-- What becomes of an entry at the present instant. -/
inductive Due where
  | notYet    -- before its due instant, or already resolved
  | start
  | wait      -- within its guard band, precondition unmet
  | skip
  | defer
  | fault
  deriving DecidableEq, Repr

/-- An entry runs an OUTER pass (R216). -/
def Entry.isOuter (b : Buf) (e : Entry) : Bool := e.action = 0x10 && (imgRec b 0x08 0 64 e.arg).fld 0 4 = 4

/-- PRE_SO carries the skip mark for this step (R61). -/
def State.skipMarked (s : State) (j : Job) (e : Entry) : Bool :=
  e.preEn && (s.so e.preSo).step = (j.step : Int) && (s.so e.preSo).skip

/-- The skip mark at PRE_SO keeps an entry from starting (R61). An OUTER pass runs instead, in mode NONE (R314). -/
def State.preSkipped (s : State) (j : Job) (e : Entry) : Bool := s.skipMarked j e && !e.isOuter j.image

/-- The precondition of R59 with the target's idleness given. -/
def State.metPre (s : State) (j : Job) (e : Entry) (idle : Bool) : Bool :=
  idle && (!e.preEn || (s.so e.preSo).reached j.step e.preCount || (s.skipMarked j e && e.isOuter j.image))

/-- How POLICY resolves a miss when the guard band is over (R62). -/
def Entry.late (e : Entry) : Due :=
  if e.policy = 1 then .defer else if e.policy = 2 then .skip else .fault

/-- R59 to R62 for entry `i` at the present instant, with the target's idleness given. The last HALL cycle of the guard band is
taken to be the one that starts at its end, due + 8 GUARD (DESIGN CHOICE, log entry 131). -/
def State.judge (s : State) (j : Job) (i : Nat) (e : Entry) (idle : Bool) : Due :=
  let open_ := s.ent i = .idle || s.ent i = .waiting
  let due := j.sn + e.offset
  if !open_ || s.jtInt < due then .notYet
  else if s.preSkipped j e then (if e.policy = 2 then .skip else .fault)
  else if s.metPre j e idle && s.jt ≤ due + e.guard then .start
  else if due + e.guard ≤ s.jt then e.late
  else if e.policy = 3 then .fault
  else .wait

/-- An action starts now (R60): a start after the due instant is a miss resolved within the guard band (R62, R68). -/
def State.beginEntry (s : State) (i : Nat) (e : Entry) (due : Nat) : State :=
  let s := s.putEnt i (.running s.jt)
  if due < s.jt then
    let late := s.jt - due
    s.noteMiss e.target fun r => { r with late := satAdd 32 r.late 1, maxLateNs := Nat.max r.maxLateNs late }
  else s

/-- An action that does not start now, as `Due` says. -/
def State.notStarted (s : State) (j : Job) (i : Nat) (e : Entry) : Due → State
  | .wait => s.putEnt i .waiting
  | .skip => s.skipEntry i e
  | .defer => s.deferEntry j i e
  | .fault => s.faultMiss i e
  | .notYet => s
  | .start => s

/-- One timetable row: entry `i` must be an `action` entry of the running job; `start` does what the action does once
R59 lets it start, and a miss is resolved under R61 and R62. -/
def State.dispatch (s : State) (i action : Nat) (start : State → Job → Entry → State) : State :=
  match s.entry? i with
  | none => s
  | some (j, e) =>
    if e.action ≠ action then s
    else
      let idle := s.targetIdle e.target
      match s.judge j i e idle with
      | .start => start (s.beginEntry i e (j.sn + e.offset)) j e
      | d => s.notStarted j i e d

/-- An action completes: SIG_SO is signalled if SIG_EN is 1 (R60). -/
def State.completeEntry (s : State) (i : Nat) (step : Nat) : State :=
  match s.job with
  | none => s
  | some j =>
    let e := imgEntry j.image i
    let s := if step = j.step then s.putEnt i .done else s
    if e.sigEn then s.signal e.sigSo step else s

/-- The planned JT of an entry in step `n` (R51). -/
def plannedJt (b : Buf) (n i : Nat) : Nat := n * imgPeriod b + (imgEntry b i).offset

/-- The due instant, in JT, of an entry in the running step (R50). -/
def Job.dueAt (j : Job) (i : Nat) : Nat := j.sn + (imgEntry j.image i).offset

/-! ### Records -/

/-- Every TARGET, in order (R55, R68). -/
def missTargets : List Nat := List.range 0xC4 ++ [0xD0]

/-- A slot-miss record as the command returns it (R68). -/
def MissRec.record (r : MissRec) : Buf :=
  packBuf 32 [(32, r.late), (32, r.deferred), (32, r.skipped), (32, r.faulted), (32, r.maxLateNs), (32, r.catchupFull),
    (64, r.lastStep)]

end Sys2Proof.Machine
end

