-- ==== Sys2Proof/Machine/Far.lean ====
section
/-! DEFINITION. The Acrix transport's own commands (R326 to R358): frames and neighbours, INIT and ACCEPT, reception,
ACK and HEARTBEAT, transmission under the Weir, routes and failover, key epochs, budgets, and slices. -/

namespace Sys2Proof.Machine

/-! ### Reception (R332, R333, R339, R340, R344) -/

/-- What an authenticated datagram brings: its session's place, header and plaintext, and whether its SEQ is new. -/
structure Got where
  k     : Nat
  h     : AcxHdr
  text  : Buf
  fresh : Bool
  deriving DecidableEq, Repr

/-- The key under which a session opens an epoch, and whether it is the next one (R339). -/
def Session.rxKey (x : Session) (e now : Nat) : Option (Nat × Bool) :=
  if e = x.rxEpoch then some (x.keyRx, false)
  else if e = x.rxEpoch + 1 then some (x.keyRxNext, true)
  else
    match x.keyRxOld with
    | some (k, t) => if e + 1 = x.rxEpoch && now ≤ t then some (k, false) else none
    | none => none

/-- The session can open datagrams: OPEN, HELD, or a responder that waits for its first heartbeat (R335). -/
def Session.listens (x : Session) : Bool := x.state = .open_ || x.state = .held || (x.state = .opening && !x.initiator)

/-- 4 MiB of receive staging, opened in the port's next slice (R354). -/
def stageBytes : Nat := 4 * 2 ^ 20

/-- A datagram to a full receive staging buffer is dropped (R354). -/
def State.staged (s : State) (port n : Nat) : State × Bool :=
  let p := s.farPort port
  if p.slice.isSome then (s, true)
  else if stageBytes < p.staged + n then (s.putFarPort port { p with stageDrops := satAdd 32 p.stageDrops 1 }, false)
  else (s.putFarPort port { p with staged := p.staged + n }, true)

/-- An RTT sample where the header echoes one (R344). -/
def State.sampleOf (s : State) (k r : Nat) (h : AcxHdr) : State :=
  if h.echo then s.rttSample k r ((s.htNow / 16 + 2 ^ 32 - h.tsEcr) % 2 ^ 32 * 16) else s

/-- The route noted as heard: its last arrival, and the newest TSVAL (R344, R349). -/
def SessRoute.heard (r : SessRoute) (now tsVal : Nat) : SessRoute :=
  let newer := match r.tsNew with
    | none => true
    | some (v, _) => (tsVal + 2 ^ 32 - v) % 2 ^ 32 < 2 ^ 31
  { r with lastRx := now, rxOk := r.rxOk || !r.failed, tsNew := if newer then some (tsVal, now) else r.tsNew }

/-- Datagrams given up close their session where R347 says so, with reason 2. -/
def State.lossCheck (s : State) (k : Nat) : State :=
  let (s, close) := s.abandon k
  if close then (s.sendClose k 2).closeSess k true else s

/-- What the acknowledgement of an arriving header settles (R333, R345), an export completed by it included (R355). -/
def State.ackArrived (s : State) (k : Nat) (h : AcxHdr) (acked : Nat → Bool) : State :=
  let s := s.onSess k fun x => ({ x with peerAck := Nat.max x.peerAck h.ackBase } : Session).settle s.now acked
  let x := s.sess k
  let s := s.onSess k fun x => if s.cistFull then x else x.cistFree s.now
  let s := match x.exportId with
    | some id =>
      if s.com.exports.contains (id, x.localId) && x.flight = [] && x.queue = [] && x.outStream = [] then
        ((s.onSess k fun x => { x with exportId := none }).onCom fun c =>
          { c with exports := c.exports.filter fun p => p ≠ (id, x.localId) }).raiseSess Ev.acxExportDone k [(32, id)]
      else s
    | none => s
  s.lossCheck k

/-- One arriving datagram of the types that `want` names: refused unopened, dropped, or authenticated, with everything
that its header says done. -/
def State.rxDatagram (s : State) (port route : Nat) (dg : Buf) (want : Nat → Bool) : Option Got × State :=
  let hb := dg.slice 0 48
  let h := AcxHdr.ofBuf hb
  if dg.len < 64 || !want h.type || hb.fld 4 4 ≠ 3 then (none, s)
  else
    match s.placeOf port h.session with
    | none => (none, s)
    | some k =>
      let x := s.sess k
      if !x.listens then (none, s)
      else
        match s.staged port dg.len with
        | (s, false) => (none, s)
        | (s, true) =>
          match x.rxKey h.epoch s.now with
          | none =>
            (none,
              if h.epoch < x.rxEpoch then s.onSess k fun x => { x with staleEp := satAdd 32 x.staleEp 1 }
              else if x.state = .held && x.initiator then s.reopen k
              else s)
          | some (key, next) =>
            if x.ackBase + 2097152 ≤ h.seq then (none, s.onSess k fun x => { x with winDrops := satAdd 32 x.winDrops 1 })
            else
              match gcmOpen (keyOf key) (acxNonce key h.seq h.txCount) hb (dg.drop 48) with
              | none =>
                let s := s.onSess k fun x => { x with authFails := satAdd 16 x.authFails 1 }
                if s.due x.authEvAt oneS then
                  (none, (s.onSess k fun x => { x with authEvAt := some s.now }).raiseSess Ev.acxAuthFail k)
                else (none, s)
              | some text =>
                let fresh := !(h.seq < x.ackBase || x.gotAbove.contains h.seq)
                let s := s.onFarPort port fun p => { p with rxCount := satAdd 64 p.rxCount 1 }
                let s := s.onSess k fun x =>
                  let x := if next then x.rxAdvance s.now else x
                  let x := x.onRoute route fun r => r.heard s.now h.tsVal
                  if fresh then x.receive h.seq
                  else { x with unrep := x.unrep + 1, dups := if h.type = 6 || h.type = 7 then x.dups else satAdd 32 x.dups 1 }
                let s := (s.sampleOf k route h).settleRoute k route
                let s := s.ackArrived k h (ackedBy h)
                (if (s.sess k).state = .closed then none else some ⟨k, h, text, fresh⟩, s)

/-- ACK_RX (R333): the ranges name runs received above ACK_BASE. -/
def State.ackRx (s : State) (port route : Nat) (dg : Buf) : State :=
  match s.rxDatagram port route dg (· = 6) with
  | (none, s) => s
  | (some g, s) =>
    let n := Nat.min (g.text.be 0 2) 1023
    let runs := (List.range n).map fun i => (g.text.be (8 + 8 * i) 6, g.text.be (14 + 8 * i) 2)
    s.ackArrived g.k g.h fun q => runs.any fun r => r.1 ≤ q && q < r.1 + r.2

@[inherit_doc State.ackRx]
def execAckRx (at_ port route : Nat) (dg : Buf) (s : State) : Res := .next ((s.tick at_).ackRx port route dg)

/-- A failed route hears its sixteenth consecutive heartbeat and returns (R349): its estimates start again from their
samples. -/
def SessRoute.back (r : SessRoute) : SessRoute := { r with failed := false, rxOk := true, hbRun := 0 }

/-- A HELD session has a route again (R350): OPEN, with everything unacknowledged to be sent again. -/
def State.reheld (s : State) (k : Nat) : State :=
  let x := s.sess k
  if x.state = .held && (!x.ra.failed || !x.rb.failed) then
    (s.onSess k fun x =>
      { x with state := .open_, flight := x.flight.map fun d => { d with lost := true } }).lossCheck k
  else s

/-- HEARTBEAT_RX (R333, R348 to R350): the first one opens a responder's session (R335). -/
def State.heartbeatRx (s : State) (port route : Nat) (dg : Buf) : State :=
  match s.rxDatagram port route dg (· = 7) with
  | (none, s) => s
  | (some g, s) =>
    let s := if (s.sess g.k).state = .opening then s.opened g.k else s
    let rx := g.text.byte 6
    let s := s.onSess g.k fun x =>
      let x := x.toFloor (g.text.be 0 6)
      let x := (x.onRoute 0 fun r => { r with peerOk := rx.testBit 0 }).onRoute 1 fun r => { r with peerOk := rx.testBit 1 }
      x.onRoute route fun r =>
        if !r.failed then r
        else if r.hbRun + 1 < 16 then { r with hbRun := r.hbRun + 1 }
        else r.back
    (((s.settleRoute g.k 0).settleRoute g.k 1).reheld g.k)

@[inherit_doc State.heartbeatRx]
def execHeartbeatRx (at_ port route : Nat) (dg : Buf) (s : State) : Res := .next ((s.tick at_).heartbeatRx port route dg)

/-- CLOSE_RX (R350): the session becomes CLOSED. -/
def State.closeRx (s : State) (port route : Nat) (dg : Buf) : State :=
  match s.rxDatagram port route dg (· = 9) with
  | (none, s) => s
  | (some g, s) => if g.fresh then s.closeSess g.k true else s

@[inherit_doc State.closeRx]
def execCloseRx (at_ port route : Nat) (dg : Buf) (s : State) : Res := .next ((s.tick at_).closeRx port route dg)

/-! ### INIT and ACCEPT (R335) -/

/-- A message that fails a check: discarded without reply, counted and raised (R335). -/
def State.rejectHello (s : State) (port : Nat) : State :=
  (s.onAcx fun a => { a with rejected := a.rejected + 1 }).raise Ev.acxSessionRejected port

/-- Bytes of an INIT payload and of an ACCEPT payload (R335, R465). -/
def initLen : Nat := helloLen + 1664 + 384
@[inherit_doc initLen] def acceptLen : Nat := helloLen + 1664 + 384 + 384

/-- The checks of R335 that an INIT must pass, against the partner that its site names. -/
def State.initGood (s : State) (port : Nat) (b : Buf) : Bool :=
  let p := s.partner (b.byte 10)
  let key := certModulus (b.slice helloLen 832)
  b.len = initLen && b.byte 10 < 5 && p.used && p.port = port && keyDigest key = p.keyDigest && b.be 2 8 = s.imageId &&
    b.be 11 4 = s.cw && b.be 0 2 ≠ 0 && s.chainGood (b.slice helloLen 1664) && s.hasIdentity &&
    pssVerify key (sha256 (b.slice 0 (initLen - 384))) (b.be (initLen - 384) 384)

/-- INIT_RX (R335, R356): verified and answered with ACCEPT; a session that stands OPEN with the peer is replaced once
the new one is OPEN. -/
def State.initRx (s : State) (port : Nat) (b : Buf) : State :=
  if !s.initGood port b then s.rejectHello port
  else
    let site := b.byte 10
    let s := match s.places.find? fun k => (s.sess k).peer = site && (s.sess k).state = .opening && !(s.sess k).initiator with
      | some k => s.putSess k { Session.reset with outStream := (s.sess k).outStream, used := true, peer := site, port }
      | none => s
    match s.newPlace site false with
    | none => s.rejectHello port
    | some k =>
      let keep := (s.sess k).outStream
      let old := s.openPlace site
      let (id, s) := s.pickSessId
      let (kk, s) := s.random
      let (nr, s) := s.random
      let (seed, s) := s.random
      let x : Session :=
        { Session.reset with
          used := true, localId := id, peerId := b.be 0 2, state := .opening, peer := site, port, nonceI := b.be 15 32,
          nonceR := nr, openSince := s.now, outStream := keep, replacing := old }
      let s := (s.putSess k (x.derive kk s.now s.htNow)).startWeir k
      let enc := rsaPublic (certModulus (b.slice helloLen 832)) (oaepEncode kk seed)
      let body := Buf.cat [helloHead id s.imageId s.ownSite s.cw nr, s.identityChain, Buf.ofBe 384 enc]
      let sig := identitySig (sha256 ((sha256Buf b).app body))
      s.sendHello k 0xB (b.be 0 2) (body.app sig)

@[inherit_doc State.initRx]
def execInitRx (at_ port _route : Nat) (payload : Buf) (s : State) : Res := .next ((s.tick at_).initRx port payload)

/-- The checks of R335 that an ACCEPT must pass for the session it answers: a storage endpoint is authorised by its
configured digest alone. -/
def State.acceptGood (s : State) (k : Nat) (b : Buf) : Bool :=
  let x := s.sess k
  let p := s.partner x.peer
  let key := certModulus (b.slice helloLen 832)
  b.len = acceptLen && x.state = .opening && x.initiator && keyDigest key = p.keyDigest && b.be 2 8 = s.imageId &&
    (8 ≤ x.peer || (b.byte 10 = x.peer && (x.bulk || b.be 11 4 = s.cw) && s.chainGood (b.slice helloLen 1664))) &&
    b.be 0 2 ≠ 0 &&
    pssVerify key (sha256 ((sha256Buf x.initPay).app (b.slice 0 (acceptLen - 384)))) (b.be (acceptLen - 384) 384)

/-- ACCEPT_RX (R335): keys are derived, the session is OPEN, and a HEARTBEAT goes out on each route. -/
def State.acceptRx (s : State) (port : Nat) (b : Buf) : State :=
  match s.places.find? fun k => (s.sess k).port = port && s.acceptGood k b with
  | none => s.rejectHello port
  | some k =>
    match Config.identityDecrypt (b.be (helloLen + 1664) 384) with
    | none => s.rejectHello port
    | some kk =>
      let s := s.onSess k fun x =>
        ({ x with peerId := b.be 0 2, nonceR := b.be 15 32 } : Session).derive (kk % 2 ^ 256) s.now s.htNow
      (s.opened k).sendHeartbeats k

@[inherit_doc State.acceptRx]
def execAcceptRx (at_ port _route : Nat) (payload : Buf) (s : State) : Res := .next ((s.tick at_).acceptRx port payload)

/-- INIT_RETRY (R335): INIT again, the interval doubled up to 30 s. A BULK_OPEN that has waited 30 s fails (R402). -/
def State.initRetry (s : State) (k : Nat) : State :=
  let x := s.sess k
  if x.state ≠ .opening || !x.initiator || s.now < x.initAt + x.initGap then s
  else if x.waitMb.isSome && x.openSince + 30 * oneS ≤ s.now then s.closeSess k true
  else
    let s := s.onSess k fun x => { x with initAt := s.now, initGap := Nat.min (2 * x.initGap) (30 * oneS) }
    s.sendHello k 0xA 0 x.initPay

@[inherit_doc State.initRetry]
def execInitRetry (at_ sess : Nat) (s : State) : Res := .next ((s.tick at_).initRetry sess)

/-! ### Frames that are not Acrix datagrams (R328, R332) -/

/-- Offset of the IPv6 header in a frame. -/
def ipOff (f : Buf) : Nat := if f.be 12 2 = 0x8100 then 18 else 14

/-- The route's solicited-node multicast group. -/
def solicited (ip : Nat) : Nat := 0xFF0200000000000000000001FF000000 + ip % 2 ^ 24

/-- The frame is addressed to the route: its MAC and address, or its solicited-node group (R328). -/
def forRoute (r : FarRoute) (f : Buf) : Bool :=
  let o := ipOff f
  (f.be 0 6 = r.mac && f.be (o + 24) 16 = r.ip6) ||
    (f.be 0 6 = 0x3333FF000000 + r.ip6 % 2 ^ 24 && f.be (o + 24) 16 = solicited r.ip6)

/-- Whether R328 or R332 has the device discard a frame as FOREIGN. ICMPv6 to the route is discarded but not counted. -/
def isForeign (r : FarRoute) (f : Buf) : Bool :=
  let o := ipOff f
  let nh := f.byte (o + 6)
  let udp := f.drop (o + 40)
  let dg := udp.drop 8
  let ty := dg.fld 0 4
  let sum := onesSum (sum16 (Buf.cat [f.slice (o + 8) 32, Buf.ofBe 4 udp.len, Buf.ofBe 4 17]) + sum16 udp)
  f.be (o - 2) 2 ≠ 0x86DD || f.fld (8 * o + 4) 4 ≠ 6 || !forRoute r f ||
    (nh ≠ 58 && (nh ≠ 17 || udp.be 2 2 ≠ r.udpPort || udp.be 6 2 = 0 || sum ≠ 65535 || dg.fld 4 4 ≠ 3 || ty = 0 || 0xB < ty))

/-- A received frame without its FCS, where the FCS is good. -/
def goodFrame (b : Buf) : Option Buf :=
  let f := b.slice 0 (b.len - 4)
  if 58 ≤ b.len && b.le (b.len - 4) 4 = fcs f then some f else none

/-- FOREIGN_FRAME (R328, R331, R332, R357): a frame that is not an Acrix datagram for the route is discarded and counted;
one with a bad FCS counts in FCS_ERRORS. -/
def State.foreignFrame (s : State) (port route : Nat) (b : Buf) : State :=
  match goodFrame b with
  | none => s.onFarPort port fun p => { p with fcsErrors := satAdd 32 p.fcsErrors 1 }
  | some f =>
  if isForeign ((s.farPort port).route route) f then s.onFarPort port fun p => { p with foreign := satAdd 32 p.foreign 1 } else s

@[inherit_doc State.foreignFrame]
def execForeignFrame (at_ port route : Nat) (frame : Buf) (s : State) : Res := .next ((s.tick at_).foreignFrame port route frame)

/-- A Neighbor Advertisement for the route, answering a solicitation (R328; its fields are those of IPv6 neighbour
discovery, log entry 53). -/
def advert (r : FarRoute) (f : Buf) : Buf :=
  let o := ipOff f
  let src := f.be (o + 8) 16
  let dst := if src = 0 then 0xFF020000000000000000000000000001 else src
  let mac := if src = 0 then 0x333300000001 else f.be 6 6
  let icmp (ck : Nat) : Buf := Buf.cat [Buf.ofLe 1 136, Buf.ofLe 1 0, Buf.ofBe 2 ck,
    Buf.ofBe 4 (if src = 0 then 0x20000000 else 0x60000000), Buf.ofBe 16 r.ip6, Buf.ofLe 1 2, Buf.ofLe 1 1, Buf.ofBe 6 r.mac]
  let ph := Buf.cat [Buf.ofBe 16 r.ip6, Buf.ofBe 16 dst, Buf.ofBe 4 32, Buf.ofBe 4 58]
  let ck := 65535 - onesSum (sum16 ph + sum16 (icmp 0))
  let tag := if r.vlanEn then (Buf.ofBe 2 0x8100).app (Buf.ofBe 2 (r.prio * 8192 + r.vid)) else Buf.empty
  withFcs <| Buf.cat [Buf.ofBe 6 mac, Buf.ofBe 6 r.mac, tag, Buf.ofBe 2 0x86DD, Buf.ofBe 4 (6 * 2 ^ 28 + r.tclass * 2 ^ 20), Buf.ofBe 2 32,
    Buf.ofLe 1 58, Buf.ofLe 1 255, Buf.ofBe 16 r.ip6, Buf.ofBe 16 dst, icmp ck]

/-- NEIGHBOR_SOLICITATION (R328): answered where it asks for the route's own address; any other ICMPv6 message is
discarded. -/
def State.solicitation (s : State) (port route : Nat) (b : Buf) : State :=
  let r := (s.farPort port).route route
  let f := (goodFrame b).getD Buf.empty
  let o := ipOff f
  if f.len ≠ 0 && r.linkUp && forRoute r f && f.byte (o + 6) = 58 && f.byte (o + 40) = 135 && f.be (o + 48) 16 = r.ip6 then
    s.emit (.frame port route (advert r f))
  else s

@[inherit_doc State.solicitation]
def execNeighborSolicitation (at_ port route : Nat) (frame : Buf) (s : State) : Res :=
  .next ((s.tick at_).solicitation port route frame)

/-! ### Timers (R333, R348) -/

/-- ACK_TIMER (R333): after 100 µs or 64 arrivals not reported, an ACK on each route in use. -/
def State.ackTimer (s : State) (k : Nat) : State :=
  let x := s.sess k
  if x.state ≠ .open_ || x.unrep = 0 || (s.now < x.ackAt + 100 * oneUs && x.unrep < 64) then s
  else
    let runs := runsOf (x.gotAbove.filter fun q => x.ackFrom ≤ q)
    let out := runs.take 1023
    let next := match (runs.drop 1023).head? with | some r => r.1 | none => 0
    let pay := Buf.cat (((Buf.ofBe 2 out.length).app (Buf.zeros 6)) :: out.map fun r => (Buf.ofBe 6 r.1).app (Buf.ofBe 2 r.2))
    let s := x.inUse.foldl (fun s r => s.sendLoose k r 6 pay) s
    s.onSess k fun x => { x with unrep := 0, ackAt := s.now, ackFrom := next }

@[inherit_doc State.ackTimer]
def execAckTimer (at_ sess : Nat) (s : State) : Res := .next ((s.tick at_).ackTimer sess)

/-- HEARTBEAT_TIMER (R348): each OPEN or HELD session, every 500 µs. -/
def State.heartbeatTimer (s : State) (k : Nat) : State :=
  let x := s.sess k
  if (x.state = .open_ || x.state = .held) && x.hbAt + 500 * oneUs ≤ s.now then s.sendHeartbeats k else s

@[inherit_doc State.heartbeatTimer]
def execHeartbeatTimer (at_ sess : Nat) (s : State) : Res := .next ((s.tick at_).heartbeatTimer sess)

/-- RTO_EXPIRY (R345): the RTO of the transmission, doubled for each earlier timeout and at most 2 s, has passed. -/
def State.rtoExpiry (s : State) (k seq : Nat) : State :=
  match (s.sess k).flight.find? fun d => d.seq = seq && !d.lost with
  | none => s
  | some d =>
    if s.now < d.sentAt + Nat.min (d.rtoNs * 2 ^ d.timeouts) (2 * oneS) then s
    else
      (s.onSess k fun x => { x with flight := x.flight.map fun d =>
        if d.seq = seq then { d with lost := true, timeouts := d.timeouts + 1 } else d }).lossCheck k

@[inherit_doc State.rtoExpiry]
def execRtoExpiry (at_ sess seq : Nat) (s : State) : Res := .next ((s.tick at_).rtoExpiry sess seq)

/-! ### Transmission (R342, R347, R351) -/

/-- Urgent types leave first (R351). -/
def urgent (type : Nat) : Bool := type = 2 || type = 3 || type = 4 || type = 5 || type = 9

/-- What a session sends next: a datagram of its queue, or a resend, in the order of R351; new ones only within the quota,
the peer's window and the Cistern (R341, R342). -/
def Session.next (x : Session) (full : Bool) : Option (Datagram × Bool) :=
  let mayNew (d : Datagram) : Bool :=
    x.flight.length < x.quota && x.nextSeq < x.peerAck + 2097152 && (d.type = 1 || !full)
  match x.queue.find? fun d => urgent d.type && mayNew d with
  | some d => some (d, true)
  | none =>
    match x.flight.find? fun d => d.lost with
    | some d => some (d, false)
    | none =>
      match x.queue.find? fun d => d.type = 1 && mayNew d with
      | some d => some (d, true)
      | none => (x.queue.find? fun d => d.type = 8 && mayNew d).map fun d => (d, true)

/-- The route of a transmission (R347, R348): new ones alternate over the routes in use; a resend goes on the other route
than before if that is in use. -/
def Session.pickRoute (x : Session) (last : Nat) : Option Nat :=
  match x.inUse with
  | [] => none
  | [r] => some r
  | _ => some (1 - last)

/-- DATAGRAM_TRANSMIT (R337, R342, R347, R348, R351): the next waiting datagram leaves when the bucket holds its cost. -/
def State.transmit (s : State) (k : Nat) : State :=
  let s := s.onSess k fun x => x.fill s.now
  let x := s.sess k
  if x.state ≠ .open_ then s
  else
    match x.next s.cistFull with
    | none => if x.queue ≠ [] && s.cistFull then s.cistHeld k else s
    | some (d, new) =>
      if 0xFFF0 ≤ x.txEpoch || 2 ^ 48 - 1 ≤ (if new then x.nextSeq else d.seq) then s.reopen k
      else
        match x.pickRoute (if new then x.lastRoute else d.route) with
        | none => s
        | some r =>
          let cost := 8000 * lineBytes ((s.farPort x.port).route r) d.payload.len
          if x.tokens < cost then s
          else
            let seq := if new then x.nextSeq else d.seq
            let d' : Datagram := { d with seq, txCount := d.txCount + 1, route := r, sentAt := s.now, rtoNs := (x.route r).rto, lost := false }
            let s := s.onSess k fun x =>
              let x := { x with tokens := x.tokens - cost }
              if new then
                ({ x with queue := x.queue.erase d, flight := x.flight ++ [d'], nextSeq := x.nextSeq + 1, lastRoute := r } : Session).refill s.now
              else
                { x with flight := x.flight.map (fun y => if y.seq = seq then d' else y), resends := satAdd 32 x.resends 1 }
            s.sendSealed k r d.type seq d.txCount d.round d.frag d.chunk d.last d.payload

@[inherit_doc State.transmit]
def execDatagramTransmit (at_ sess : Nat) (s : State) : Res := .next ((s.tick at_).transmit sess)

/-! ### Routes, sessions and keys (R338, R339, R349, R350) -/

/-- ROUTE_FAIL (R349, R350): 1,500 µs without an authenticated datagram, or loss of signal. With both routes failed the
session is HELD. -/
def State.routeFail (s : State) (k route : Nat) (signalLost : Bool) : State :=
  let x := s.sess k
  if !(x.state = .open_ || x.state = .held) then
    if signalLost && x.used then s.onFarPort x.port fun p => p.onRoute route fun r => { r with linkUp := false } else s
  else
    let s := if signalLost then s.onFarPort x.port fun p => p.onRoute route fun r => { r with linkUp := false } else s
    let rt := x.route route
    if rt.failed || !(signalLost || rt.lastRx + 1500 * oneUs ≤ s.now) then s
    else
      let s := s.onSess k fun x => x.onRoute route fun r =>
        { r with failed := true, rxOk := false, hbRun := 0, hasRtt := false, cands := [] }
      let s := s.onFarPort x.port fun p => { p with failovers := satAdd 16 p.failovers 1 }
      let s := s.settleRoute k route
      let x := s.sess k
      if x.state = .open_ && x.ra.failed && x.rb.failed then
        (s.onSess k fun x => { x with state := .held, heldAt := s.now }).raiseSess Ev.acxPortDown k
      else s.lossCheck k

@[inherit_doc State.routeFail]
def execRouteFail (at_ sess route : Nat) (signalLost : Bool) (s : State) : Res :=
  .next ((s.tick at_).routeFail sess route signalLost)

/-- FAR_ROUTE_LINK_UP (R349): the link of a route is up; every session of the port settles it. -/
def State.farLinkUp (s : State) (port route : Nat) : State :=
  let s := s.onFarPort port fun p => p.onRoute route fun r => { r with linkUp := true }
  s.places.foldl (fun s k => if (s.sess k).port = port then s.settleRoute k route else s) s

@[inherit_doc State.farLinkUp]
def execFarRouteLinkUp (at_ port route : Nat) (s : State) : Res :=
  let s := s.tick at_
  .next (if s.pinsLive then s.farLinkUp port route else s)

/-- SESSION_TIMEOUT (R350): HELD for SESSION_TIMEOUT. -/
def State.sessionTimeout (s : State) (k : Nat) : State :=
  let x := s.sess k
  if x.state = .held && x.heldAt + (s.partner x.peer).timeoutS * oneS ≤ s.now then s.closeSess k true else s

@[inherit_doc State.sessionTimeout]
def execSessionTimeout (at_ sess : Nat) (s : State) : Res := .next ((s.tick at_).sessionTimeout sess)

/-- ACX_KEY_RATCHET (R337, R338). -/
def State.keyRatchet (s : State) (k : Nat) : State :=
  let x := s.sess k
  if !(x.state = .open_ || x.state = .held) || !x.ratchetDue s.htNow then s
  else if 0xFFF0 ≤ x.txEpoch + 1 then s.reopen k
  else s.ratchetSess k

@[inherit_doc State.keyRatchet]
def execAcxKeyRatchet (at_ sess : Nat) (s : State) : Res := .next ((s.tick at_).keyRatchet sess)

/-- KEY_HOLD_EXPIRY (R339): the key of the epoch before is erased. -/
def State.keyHoldExpiry (s : State) (k : Nat) : State :=
  s.onSess k fun x =>
    match x.keyRxOld with
    | some (_, t) => if t ≤ s.now then { x with keyRxOld := none } else x
    | none => x

@[inherit_doc State.keyHoldExpiry]
def execKeyHoldExpiry (at_ sess : Nat) (s : State) : Res := .next ((s.tick at_).keyHoldExpiry sess)

/-! ### Budgets (R352) -/

/-- A session's Weir set: the tokens are kept and capped at the new burst. -/
def Session.setWeir (x : Session) (now rate burst : Nat) : Session :=
  let x := x.fill now
  { x with rate, burst, tokens := Nat.min x.tokens (burst * 1024 * 8000) }

/-- WEIR_BUDGET_EFFECTIVE (R352): the earliest pending change of a Weir whose EFFECTIVE_HT has come. -/
def State.weirEffective (s : State) (target : Nat) : State :=
  if target < 5 then
    let p := s.partner target
    match p.budgets.find? fun b => b.1 ≤ s.htNow && p.budgets.all fun c => b.1 ≤ c.1 with
    | none => s
    | some b =>
      let s := s.putPartner target { p with budgets := p.budgets.erase b, rate := b.2.1, burst := b.2.2 }
      let ks := s.places.filter fun k => (s.sess k).peer = target && !(s.sess k).bulk
      let s := ks.foldl (fun s k => s.onSess k fun x => x.setWeir s.now b.2.1 b.2.2) s
      match ks with
      | k :: _ => s.raiseSess Ev.acxBudgetChanged k
      | [] => s.raise Ev.acxBudgetChanged p.port [(16, 0), (3, target)]
  else
    match s.places.find? fun k => (s.sess k).localId = target - 0x100 && (s.sess k).bulk with
    | none => s
    | some k =>
      let x := s.sess k
      match x.budgets.find? fun b => b.1 ≤ s.htNow && x.budgets.all fun c => b.1 ≤ c.1 with
      | none => s
      | some b =>
        (s.onSess k fun x => ({ x with budgets := x.budgets.erase b } : Session).setWeir s.now b.2.1 b.2.2).raiseSess
          Ev.acxBudgetChanged k

@[inherit_doc State.weirEffective]
def execWeirBudgetEffective (at_ target : Nat) (s : State) : Res := .next ((s.tick at_).weirEffective target)

/-! ### Slices (R343, R354) -/

/-- A slice that enables a work class runs on some port. -/
def State.sliceRuns (s : State) (b : Nat) : Bool :=
  (List.range 4).any fun k => match (s.farPort k).slice with | some (_, en, _) => en.testBit b | none => false

/-- Encodes held and released by the Cistern as a slice with encode begins (R343). -/
def State.encodeGate (s : State) : State :=
  let full := s.cistFull
  let enc := (List.range 64).filter fun f => (s.frag f).encoding.isSome
  let s := enc.foldl (fun s f => s.onFrag f fun x => { x with encHeld := full }) s
  if full && enc ≠ [] then
    (s.places.filter fun k => (s.sess k).state = .open_ && (s.sess k).peer < 5).foldl (fun s k => s.cistHeld k) s
  else if full then s
  else s.places.foldl (fun s k => s.onSess k fun x => x.cistFree s.now) s

/-- A slice begins on a port: what its receive staging holds is opened where it enables that (R354). -/
def State.beginSlice (s : State) (k tag en end_ : Nat) : State :=
  let s := s.onFarPort k fun p =>
    { p with slice := some (tag, en, end_), staged := if en.testBit 1 then 0 else p.staged }
  if en.testBit 2 then s.encodeGate else s

/-- A slice of the timetable begins (R354). -/
def State.startSlice (s : State) (j : Job) (i : Nat) (e : Entry) : State :=
  s.beginSlice (e.target - 0xC0) (i + 1) ((imgRec j.image 0x0B 0 16 e.arg).fld 0 6) (s.now + e.duration)

/-- RUN_SLICE (R354): timetable action 0x50. -/
def State.runSlice (s : State) (i : Nat) : State := s.dispatch i 0x50 fun s j e => s.startSlice j i e

@[inherit_doc State.runSlice]
def execRunSlice (at_ entry : Nat) (s : State) : Res := .next ((s.tick at_).runSlice entry)

/-- ACRIX_IDLE_SLICE (R354): with no job armed, 10 µs slices for F0 to F3 in turn with every class enabled. -/
def State.idleSlice (s : State) (port : Nat) : State :=
  if s.job.isSome || s.acx.idlePort ≠ port then s
  else
    let s := { s with acx := { s.acx with ports := tmap FarPort.reset (fun p => { p with slice := none }) s.acx.ports } }
    (s.beginSlice port 0 63 (s.now + 10 * oneUs)).onAcx fun a => { a with idlePort := (port + 1) % 4 }

@[inherit_doc State.idleSlice]
def execAcrixIdleSlice (at_ port : Nat) (s : State) : Res := .next ((s.tick at_).idleSlice port)

/-! ### Records (R357, R358) -/

/-- State of a route as the port record shows it (R357). -/
def State.routeCode (s : State) (port r : Nat) : Nat :=
  let ks := s.places.filter fun k => (s.sess k).port = port && ((s.sess k).state = .open_ || (s.sess k).state = .held)
  if !s.routeUp port r then 0
  else if ks.any fun k => ((s.sess k).route r).inUse then 2
  else if ks.any fun k => ((s.sess k).route r).failed then 3
  else 1

/-- The record of a far port (R357). -/
def State.farRecord (s : State) (k : Nat) : Buf :=
  let p := s.farPort k
  packBuf 32 [(2, s.routeCode k 0), (2, s.routeCode k 1), (4, 0), (3, p.partner), (5, 0), (16, p.failovers), (32, p.foreign),
    (32, p.stageDrops), (32, p.fcsErrors), (64, p.txCount), (64, p.rxCount)]

/-- STATE of a session (R358). -/
def SessState.code : SessState → Nat
  | .closed => 0 | .opening => 1 | .open_ => 2 | .held => 3

/-- The record of a session (R358); a place that holds none reads 0. -/
def Session.record (x : Session) : Buf :=
  if !x.used then Buf.zeros 64
  else
    packBuf 64 [(16, x.localId), (2, x.state.code), (1, b2n x.bulk), (3, x.port), (10, 0), (16, x.txEpoch), (16, x.rxEpoch),
      (32, x.ra.srtt / oneUs), (32, x.rb.srtt / oneUs), (32, x.resends), (32, x.abandoned), (16, x.reroutes), (16, x.authFails),
      (32, x.dups), (32, x.staleEp), (32, x.winDrops), (32, x.flight.length), (32, x.holdUs), (32, x.fullUs)]

end Sys2Proof.Machine
end

