-- ==== Sys2Proof/Machine/Memory.lean ====
section
/-! DEFINITION. The S8 symbol code and the memories under it (R144, R164 to R170): reading and writing scratch and Oasis
words, Erg lines by their physical place, and what uncorrectable data leads to. -/

namespace Sys2Proof.Machine

/-! ### The code (R164, R165) -/

/-- One step of multiplication by α in GF(2^8) with the polynomial 0x11D (R164). -/
def gfStep (a : Nat) : Nat := if a.testBit 7 then ((a <<< 1) ^^^ 0x11D) % 256 else (a <<< 1) % 256

/-- α^n times a. -/
def gfTimesPow : Nat → Nat → Nat
  | 0, a => a
  | n + 1, a => gfTimesPow n (gfStep a)

/-- The symbols S0 and S1 of an error pattern given as (position, error) pairs (R164). -/
def syndromes (errs : List (Nat × Nat)) : Nat × Nat :=
  errs.foldl (fun s e => (s.1 ^^^ e.2, s.2 ^^^ gfTimesPow e.1 e.2)) (0, 0)

/-- The check symbols of eight data symbols held little-endian in `d` (R164): s8 is the field element that
(α^8 + α^9) takes to B + A α^9. -/
def checkSymbols (d : Nat) : Nat × Nat :=
  let (a, b) := syndromes ((List.range 8).map fun j => (j, (d >>> (8 * j)) % 256))
  let t := b ^^^ gfTimesPow 9 a
  let s8 := ((List.range 256).find? fun x => gfTimesPow 8 x ^^^ gfTimesPow 9 x = t).getD 0
  (s8, a ^^^ s8)

/-- What the decoder of one codeword finds (R165). -/
inductive CodeRead where
  | clean
  | single (pos err : Nat)
  | poison
  | bad
  deriving DecidableEq, Repr

/-- The decoder (R165), with the marked position of R167 where there is one. -/
def decodeSyn (mark : Option Nat) (s0 s1 : Nat) : CodeRead :=
  if s0 = 0 && s1 = 0 then .clean
  else if s0 ≠ 0 then
    match (List.range 10).find? fun j => gfTimesPow j s0 = s1 with
    | some j =>
      match mark with
      | none => .single j s0
      | some m => if m = j then .single j s0 else .bad
    | none => .bad
  else if s1 = 0x27 then .poison
  else .bad

/-! ### Words -/

/-- The deviation of check symbols 8 and 9 of word `w`. -/
def Ram.chkOf (r : Ram) (w : Nat) : Nat × Nat := ((r.chk.read (2 * w)).toNat, (r.chk.read (2 * w + 1)).toNat)

/-- How word `w` decodes. -/
def Ram.status (r : Ram) (w : Nat) : CodeRead :=
  let (x, y) := r.chkOf w
  let (s0, s1) := syndromes [(8, x), (9, y)]
  decodeSyn none s0 s1

/-- The words of a byte range whose check symbols deviate. -/
def Ram.oddWords (r : Ram) (a n : Nat) : List Nat :=
  if n = 0 then []
  else
    let lo := 2 * (a / 8)
    let hi := 2 * ((a + n - 1) / 8) + 2
    ((r.chk.filter fun c => lo ≤ c.1 && c.1 < hi).map fun c => c.1 / 2).dedup

/-- The check symbols of word `w` set. -/
def Ram.setChk (r : Ram) (w x y : Nat) : Ram :=
  { r with chk := (r.chk.write (2 * w) (BitVec.ofNat 8 x)).write (2 * w + 1) (BitVec.ofNat 8 y) }

/-- What a read of a byte range gives: its value with single errors corrected, the words corrected and the words that are
uncorrectable or poisoned. -/
structure RamRead where
  val   : Nat
  fixed : List Nat
  bad   : List Nat
  deriving DecidableEq, Repr, Inhabited

/-- A read of `n` bytes at `a` (R144, R165). -/
def Ram.readAt (r : Ram) (a n : Nat) : RamRead :=
  let raw := r.data.load a n
  (r.oddWords a n).foldl (fun x w =>
    match r.status w with
    | .clean => x
    | .single p e =>
      let addr := 8 * w + p
      let v := if p < 8 && a ≤ addr && addr < a + n then x.val ^^^ (e <<< (8 * (addr - a))) else x.val
      { x with val := v, fixed := x.fixed ++ [w] }
    | _ => { x with bad := x.bad ++ [w] }) ⟨raw, [], []⟩

/-- The value alone. -/
def Ram.val (r : Ram) (a n : Nat) : Nat := (r.readAt a n).val

/-- A range is free of uncorrectable and poisoned words. -/
def Ram.good (r : Ram) (a n : Nat) : Bool := (r.readAt a n).bad = []

/-- Words of a range that a write covers in part only. -/
def partialWords (a n : Nat) : List Nat :=
  if n = 0 then []
  else ((if a % 8 ≠ 0 then [a / 8] else []) ++ (if (a + n) % 8 ≠ 0 then [(a + n) / 8] else [])).dedup

/-- The stored symbols of a word corrected and its check symbols made valid. -/
def Ram.heal (r : Ram) (w : Nat) : Ram :=
  match r.status w with
  | .single p e =>
    let d := if p < 8 then r.data.write (8 * w + p) (r.data.read (8 * w + p) ^^^ BitVec.ofNat 8 e) else r.data
    ({ r with data := d } : Ram).setChk w 0 0
  | _ => r

/-- A word that a partial write must leave poisoned (R144). -/
def Ram.spoiled (r : Ram) (w : Nat) : Bool :=
  match r.status w with
  | .poison | .bad => true
  | _ => false

/-- A write of `n` bytes at `a` (R144): whole words get fresh check symbols; a word covered in part is merged into its
corrected data, and stays poisoned where it was uncorrectable. -/
def Ram.writeAt (r : Ram) (a n v : Nat) : Ram :=
  if n = 0 then r
  else
    let parts := partialWords a n
    let spoiled := parts.filter r.spoiled
    let r := parts.foldl Ram.heal r
    let lo := 2 * (a / 8)
    let hi := 2 * ((a + n - 1) / 8) + 2
    let r : Ram := { data := r.data.store a n v, chk := r.chk.clear lo (hi - lo) }
    spoiled.foldl (fun r w => r.setChk w 1 1) r

/-- Every word that a byte range touches stored with the poison marker (R168). -/
def Ram.spoil (r : Ram) (a n : Nat) : Ram :=
  if n = 0 then r
  else (List.range ((a + n - 1) / 8 - a / 8 + 1)).foldl (fun r i => r.setChk (a / 8 + i) 1 1) r

/-- A write of data that is poisoned at its source (R168): every word it touches is stored with the marker. -/
def Ram.writeBad (r : Ram) (a n v : Nat) : Ram := (r.writeAt a n v).spoil a n

/-- The parts of a read of `n` bytes at `a` that came from bad words, as (offset, length) pairs (R168). -/
def RamRead.badParts (x : RamRead) (a n : Nat) : List (Nat × Nat) :=
  x.bad.map fun w => (Nat.max a (8 * w) - a, Nat.min (a + n) (8 * w + 8) - Nat.max a (8 * w))

/-- A symbol of word `w` disturbed (R164): a data symbol moves both check symbols away from the valid ones. -/
def Ram.strike (r : Ram) (w symbol err : Nat) : Ram :=
  let (x, y) := r.chkOf w
  if symbol < 8 then
    let (u, v) := checkSymbols (err <<< (8 * symbol))
    ({ r with data := r.data.write (8 * w + symbol) (r.data.read (8 * w + symbol) ^^^ BitVec.ofNat 8 err) } : Ram).setChk
      w (x ^^^ u) (y ^^^ v)
  else if symbol = 8 then r.setChk w (x ^^^ err) y
  else r.setChk w x (y ^^^ err)

/-- `n` bytes zeroed with valid check symbols (R144). `a` and `n` are multiples of 8. -/
def Ram.zero (r : Ram) (a n : Nat) : Ram :=
  { data := r.data.clear a n, chk := r.chk.clear (2 * (a / 8)) (2 * (n / 8)) }

/-! ### Basin entries (R105, R144)

An entry is ten 64-bit words; its side word shares their check symbols, so a bad word of an entry makes the whole entry bad.
-/

/-- Basin tile `i` of a core. -/
def Core.tile (c : Core) (i : Nat) : Tile := if i = 0 then c.tile0 else c.tile1

/-- The same replaced. -/
def Core.putTile (c : Core) (i : Nat) (t : Tile) : Core := if i = 0 then { c with tile0 := t } else { c with tile1 := t }

/-- The deviation of check symbols 8 and 9 of word `w` of an entry set. -/
def Acc.setChk (a : Acc) (w x y : Nat) : Acc := { a with chk := setBits (setBits a.chk (16 * w) 8 x) (16 * w + 8) 8 y }

/-- How word `w` of an entry decodes. -/
def Acc.status (a : Acc) (w : Nat) : CodeRead :=
  let (s0, s1) := syndromes [(8, bits a.chk (16 * w) 8), (9, bits a.chk (16 * w + 8) 8)]
  decodeSyn none s0 s1

/-- A single-symbol error of word `w` corrected, and its check symbols made valid. -/
def Acc.heal (a : Acc) (w : Nat) : Acc :=
  match a.status w with
  | .single p e => ({ a with limbs := if p < 8 then a.limbs ^^^ (e <<< (64 * w + 8 * p)) else a.limbs } : Acc).setChk w 0 0
  | _ => a

/-- An entry with every single-symbol error corrected. -/
def Acc.healed (a : Acc) : Acc := if a.chk = 0 then a else (List.range 10).foldl Acc.heal a

/-- Words of an entry that a read corrects, and words that it finds uncorrectable or poisoned. -/
def Acc.fixedWords (a : Acc) : List Nat :=
  if a.chk = 0 then [] else (List.range 10).filter fun w => match a.status w with | .single _ _ => true | _ => false
@[inherit_doc Acc.fixedWords]
def Acc.badWords (a : Acc) : List Nat :=
  if a.chk = 0 then [] else (List.range 10).filter fun w => match a.status w with | .poison | .bad => true | _ => false

/-- An entry that an addition rewrites: corrected data with fresh check symbols, its bad words with the marker (R144, R168). -/
def Acc.renew (a : Acc) : Acc := a.badWords.foldl (fun a w => a.setChk w 1 1) a.healed

/-- A symbol of word `w` of an entry disturbed (R164). -/
def Acc.strike (a : Acc) (w symbol err : Nat) : Acc :=
  let x := bits a.chk (16 * w) 8
  let y := bits a.chk (16 * w + 8) 8
  if symbol < 8 then
    let (u, v) := checkSymbols (err <<< (8 * symbol))
    ({ a with limbs := a.limbs ^^^ (err <<< (64 * w + 8 * symbol)) } : Acc).setChk w (x ^^^ u) (y ^^^ v)
  else if symbol = 8 then a.setChk w (x ^^^ err) y
  else a.setChk w x (y ^^^ err)

/-! ### Addresses -/

/-- Place of a core-scratch byte. -/
def scratchKey (core a : Nat) : Nat := core * 0x600000 + a

/-- The bank of a core-scratch byte (R70). -/
def scratchBank (a : Nat) : Nat := a / 64 % 48

/-- Bank, layer and row of an offset in a die's Oasis (R145). -/
def oasisBank (off : Nat) : Nat := (off >>> 7) % 64
@[inherit_doc oasisBank] def oasisLayer (off : Nat) : Nat := oasisBank off >>> 5
@[inherit_doc oasisBank] def oasisRow (off : Nat) : Nat := off >>> 13

/-- Where events and write-backs place a word of a Basin entry: above scratch and Oasis, tile by tile, 80 bytes an entry
(DESIGN CHOICE, log entry 136). -/
def basinAddr (tile acc word : Nat) : Nat := 0xC0600000 + 80 * (9216 * tile + acc) + 8 * word

/-- Bytes of a die's Oasis (R145). -/
def oasisSize : Nat := 0x18000000

/-- F of R150: frames of a channel. -/
def Erg.frames (e : Erg) : Nat := 1000000000 * e.capacity / 2 ^ 21

/-- U of R150: frames that carry logical pages. -/
def Erg.usable (e : Erg) : Nat := e.frames - 128

/-- Logical bytes of Erg (R150, R152). -/
def Erg.bytes (e : Erg) : Nat := 32 * e.usable * 2 ^ 21

/-- Channel and frame of an ELA (R151). -/
def elaChannel (ela : Nat) : Nat := (ela >>> 21) % 32
@[inherit_doc elaChannel] def elaFrame (ela : Nat) : Nat := (ela >>> 21) / 32

/-- The ELA of a byte of a channel's logical frame. -/
def elaOf (ch frame off : Nat) : Nat := (frame * 32 + ch) * 2 ^ 21 + off

/-- The physical frame of a channel's logical frame: the redirect table first (R151). -/
def State.physFrame (s : State) (ch q : Nat) : Nat :=
  match s.isl.redirect.find? fun r => r.1 = ch && r.2.1 = q with
  | some r => s.erg.usable + r.2.2
  | none => q

/-- Place of a byte of a channel's physical frame. -/
def ergKey (ch frame off : Nat) : Nat := ch * 2 ^ 38 + frame * 2 ^ 21 + off

/-- Place of the byte at an ELA (R151). -/
def State.ergAddr (s : State) (ela : Nat) : Nat :=
  ergKey (elaChannel ela) (s.physFrame (elaChannel ela) (elaFrame ela)) (ela % 2 ^ 21)

/-- Where a line lies in a channel's DIMM (R151). -/
structure LinePlace where
  rank       : Nat
  subchannel : Nat
  bankGroup  : Nat
  bank       : Nat
  row        : Nat
  burst      : Nat
  deriving DecidableEq, Repr

/-- The place of the line at an offset of a physical frame (R151). -/
def Erg.linePlace (e : Erg) (frame off : Nat) : LinePlace :=
  { rank := frame % e.ranks, subchannel := bits off 6 1, bankGroup := bits off 7 3, bank := bits off 10 2
    row := frame / e.ranks * 4 + bits off 19 2, burst := bits off 12 7 }

/-- Rank and subchannel of a line as one number, 2 rank + subchannel (R151). -/
def Erg.rankSub (e : Erg) (frame off : Nat) : Nat := 2 * (e.linePlace frame off).rank + (e.linePlace frame off).subchannel

/-- SRAM symbols disturbed (log entry 136). -/
def State.strike (s : State) (l : List Strike) : State :=
  l.foldl (fun s u =>
    match u.place with
    | .scratch core w => { s with scratch := s.scratch.strike (scratchKey core (8 * w) / 8) u.symbol u.err.toNat }
    | .oasis w => { s with oasis := s.oasis.strike w u.symbol u.err.toNat }
    | .basin core tile i w => s.onCore core fun c =>
        let t := c.tile tile
        c.putTile tile { t with acc := tset Acc.reset t.acc i ((tget Acc.reset t.acc i).strike w u.symbol u.err.toNat) }) s

/-! ### Erg data by ELA, for the engines that take whole lines as they stand -/

/-- Pieces of an ELA range that lie within one page. -/
def pagePieces : Nat → Nat → Nat → List (Nat × Nat)
  | 0, _, _ => []
  | fuel + 1, a, n =>
    if n = 0 then []
    else
      let k := Nat.min n (2 ^ 21 - a % 2 ^ 21)
      (a, k) :: pagePieces fuel (a + k) (n - k)

/-- Newer writes of the lines `lo` to `hi` of a channel make waiting scrub write-backs and copy writes of them unnecessary
(R171, R174). -/
def ErgChannel.dropStale (c : ErgChannel) (lo hi : Nat) : ErgChannel :=
  let stale (r : ErgReq) : Bool := r.user = .maint && r.write && lo ≤ r.line && r.line ≤ hi
  if c.queue.any stale then
    let copies := (c.queue.filter fun r => stale r && r.dest ≠ .scrub).length
    { c with queue := c.queue.filter fun r => !stale r
             retire := c.retire.map fun t => { t with line := t.line + copies } }
  else c

/-- A write of Erg bytes at an ELA; a frame that is being retired takes every write in both places (R174), and maintenance writes
of its lines that still wait are dropped (R171). -/
def State.ergWrite (s : State) (ela n v : Nat) (bad : Bool := false) : State :=
  (pagePieces (n / 2 ^ 21 + 2) ela n).foldl (fun s p =>
    let part := (v >>> (8 * (p.1 - ela))) % 256 ^ p.2
    let put (r : Ram) (a : Nat) : Ram := if bad then r.writeBad a p.2 part else r.writeAt a p.2 part
    let ch := elaChannel p.1
    let f := s.physFrame ch (elaFrame p.1)
    let line (a : Nat) : Nat := f * 32768 + a % 2 ^ 21 / 64
    let s := if (s.chan ch).queue = [] then s else s.onChan ch fun c => c.dropStale (line p.1) (line (p.1 + p.2 - 1))
    let ram := put s.erg.ram (ergKey ch f (p.1 % 2 ^ 21))
    let ram := match (s.chan ch).retire with
      | some t => if t.frame = f then put ram (ergKey ch (s.erg.usable + t.spare) (p.1 % 2 ^ 21)) else ram
      | none => ram
    s.onErg fun e => { e with ram }) s

/-! ### Uncorrectable data (R170) -/

/-- The region class of an address of a space under the armed job's plan; PERSISTENT without one (R170). -/
def State.classOf (s : State) (space core addr : Nat) : Nat :=
  match s.job with
  | none => 0
  | some j => imgClass j.image space core addr

/-- DEFERRED set in a core's record by a read of its main or guest kernel (R170, R234, R374). -/
def State.deferredErr (s : State) (core : Nat) (guest : Bool) : State :=
  if guest then
    (s.onCore core fun c => { c with gflags := { c.gflags with deferred := true } }).stopGuest 1 core
  else (s.onCore core fun c => { c with flags := { c.flags with deferred := true } }).cause 3

/-- Which reader meets bad data: a core's engine (main or guest), a die engine, or the update engine. -/
inductive Reader where
  | core (k : Nat) (guest : Bool)
  | dma
  | update
  | maint
  deriving DecidableEq, Repr

/-- MEM_UNCORRECTABLE with tier (0 scratch or Basin, 1 Oasis, 2 Erg), address and region class (R170, R178). -/
def State.raiseBad (s : State) (unit tier addr cls : Nat) : State :=
  s.raise Ev.memUncorrectable unit [(2, tier), (43, addr), (3, cls)] s.stepNo

/-- Which half of the local checkpoint an ELA lies in (R409, R485). -/
def State.ckptHalf (s : State) (ela : Nat) : Nat :=
  match s.job with
  | none => 0
  | some j =>
    match imgRole j.image 5 with
    | none => 0
    | some r => if ela < r.base + ckptCopyLen j.image + ckptHalfLen j.image then 0 else 1

/-- The row of R170 that an uncorrectable or poisoned word or line falls under: PERSISTENT data, and TRANSIENT data that an update
pass reads, restart the site's job (R214). -/
def State.badRead (s : State) (unit tier addr cls : Nat) (who : Reader) : State :=
  if (tier ≠ 0 && cls = 0) || (who = .update && (tier = 0 || cls = 1)) then
    s.fatal Ev.memUncorrectable unit [(2, tier), (43, addr), (3, cls)]
  else
    let s := s.raiseBad unit tier addr cls
    if tier = 0 || cls = 1 then
      match who with
      | .core k g => s.deferredErr k g
      | .dma => s.cause 3
      | .update => s
      | .maint => s
    else if cls = 4 then s.stopGuest 1 (match who with | .core k _ => k | _ => 0)
    else if cls = 3 then s.onCom fun c => { c with ckptBad := (c.ckptBad ++ [s.ckptHalf addr]).dedup }
    else s

/-- A correction counted for a die, with MEM_CORRECTED at most once per second (R144, R177, R178). -/
def State.corrected (s : State) (die : Nat) (oasis : Bool) (n : Nat) : State :=
  if n = 0 then s
  else
    let d := s.die die
    let d := if oasis then { d with oasisCorrected := satAdd 32 d.oasisCorrected n }
      else { d with coreCorrected := satAdd 32 d.coreCorrected n }
    let s := s.putDie die d
    let (s, t) := s.raiseOnce d.correctedEvAt Ev.memCorrected (0x100 + die)
    s.onDie die fun d => { d with correctedEvAt := t }

/-- What a read of core scratch leads to: corrections are counted and await write-back, bad words are raised each
(R144, R170). -/
def State.noteScratch (s : State) (core : Nat) (r : RamRead) (who : Reader) : State :=
  if r.fixed = [] && r.bad = [] then s
  else
    let s := s.corrected (core / 16) false r.fixed.length
    let s := if r.fixed = [] then s else
      s.onCore core fun c => { c with writeback := (c.writeback ++ r.fixed.map fun w => 8 * w - scratchKey core 0).dedup }
    r.bad.foldl (fun s w =>
      let s := s.onDie (core / 16) fun d => { d with coreUncorrectable := satAdd 32 d.coreUncorrectable 1 }
      s.badRead (0x100 + core / 16) 0 (8 * w - scratchKey core 0) 1 who) s

/-- What a read of the entries of a tile that `sel` picks leads to (R144, R170): corrections are counted and await
write-back, bad words are raised each. -/
def State.noteBasin (s : State) (core tile : Nat) (sel : Nat → Bool) (who : Reader) : State :=
  let hit := ((s.core core).tile tile).acc.filter fun e => e.2.chk ≠ 0 && sel e.1
  if hit = [] then s
  else
    let fixed := hit.flatMap fun e => e.2.fixedWords.map (basinAddr tile e.1)
    let bad := hit.flatMap fun e => e.2.badWords.map (basinAddr tile e.1)
    let s := s.corrected (core / 16) false fixed.length
    let s := s.onCore core fun c => { c with writeback := (c.writeback ++ fixed).dedup }
    bad.foldl (fun s a =>
      let s := s.onDie (core / 16) fun d => { d with coreUncorrectable := satAdd 32 d.coreUncorrectable 1 }
      s.badRead (0x100 + core / 16) 0 a 1 who) s

/-- The entries that `sel` picks rewritten; their pending write-backs are dropped (R144). -/
def State.renewBasin (s : State) (core tile : Nat) (sel : Nat → Bool) : State :=
  s.onCore core fun c =>
    let t := c.tile tile
    let hit := t.acc.filter fun e => e.2.chk ≠ 0 && sel e.1
    if hit = [] then c
    else
      let c := c.putTile tile { t with acc := hit.foldl (fun l e => tset Acc.reset l e.1 e.2.renew) t.acc }
      { c with writeback := c.writeback.filter fun a => !(hit.any fun e => basinAddr tile e.1 0 ≤ a && a < basinAddr tile e.1 10) }

/-- What a read of Oasis leads to (R144, R170). -/
def State.noteOasis (s : State) (r : RamRead) (who : Reader) : State :=
  if r.fixed = [] && r.bad = [] then s
  else
    let s := r.fixed.foldl (fun s w =>
      let die := 8 * w / oasisSize
      (s.corrected die true 1).onDie die fun d => { d with oasisWriteback := (d.oasisWriteback ++ [8 * w]).dedup }) s
    r.bad.foldl (fun s w =>
      let die := 8 * w / oasisSize
      let s := s.onDie die fun d => { d with oasisUncorrectable := satAdd 32 d.oasisUncorrectable 1 }
      s.badRead (0x100 + die) 1 (8 * w) (s.classOf 1 0 (8 * w)) who) s

/-- A read of core scratch by one of its engines: the value and the state that follows. -/
def State.scratchRead (s : State) (core a n : Nat) (who : Reader) : Nat × State :=
  let r := s.scratch.readAt (scratchKey core a) n
  (r.val, s.noteScratch core r who)

/-- A write of core scratch. Words written drop their pending write-backs (R144). -/
def State.scratchWrite (s : State) (core a n v : Nat) (bad : Bool := false) : State :=
  let k := scratchKey core a
  let s := { s with scratch := if bad then s.scratch.writeBad k n v else s.scratch.writeAt k n v }
  if (s.core core).writeback = [] then s
  else s.onCore core fun c => { c with writeback := c.writeback.filter fun w => w + 8 ≤ a || a + n ≤ w }

/-- A read of Oasis at a device address. -/
def State.oasisRead (s : State) (a n : Nat) (who : Reader) : Nat × State :=
  let r := s.oasis.readAt a n
  (r.val, s.noteOasis r who)

/-- A write of Oasis at a device address. -/
def State.oasisWrite (s : State) (a n v : Nat) (bad : Bool := false) : State :=
  let s := { s with oasis := if bad then s.oasis.writeBad a n v else s.oasis.writeAt a n v }
  let die := a / oasisSize
  if (s.die die).oasisWriteback = [] then s
  else s.onDie die fun d => { d with oasisWriteback := d.oasisWriteback.filter fun w => w + 8 ≤ a || a + n ≤ w }

/-- SRAM_WRITEBACK (R144): a scratch or Basin word corrected on a read is written back; a write that landed first has dropped
it. Addresses from 0x600000 up name the Oasis word at the device address less 0x600000, which the scrub reservation carries,
and those above Oasis the Basin word that `basinAddr` places there. -/
def State.sramWriteback (s : State) (core addr : Nat) : State :=
  if addr < scratchSize then
    if (s.core core).writeback.contains addr then
      ({ s with scratch := s.scratch.heal (scratchKey core addr / 8) } : State).onCore core fun c =>
        { c with writeback := c.writeback.filter fun w => w ≠ addr }
    else s
  else if basinAddr 0 0 0 ≤ addr then
    let n := (addr - basinAddr 0 0 0) / 8
    let tile := n / 92160
    s.onCore core fun c =>
      if !c.writeback.contains addr then c
      else
        let t := c.tile tile
        let i := n / 10 % 9216
        { c.putTile tile { t with acc := tset Acc.reset t.acc i ((tget Acc.reset t.acc i).heal (n % 10)) } with
          writeback := c.writeback.filter fun w => w ≠ addr }
  else
    let a := addr - scratchSize
    let die := a / oasisSize
    if (s.die die).oasisWriteback.contains a then
      ({ s with oasis := s.oasis.heal (a / 8) } : State).onDie die fun d =>
        { d with oasisWriteback := d.oasisWriteback.filter fun w => w ≠ a }
    else s

@[inherit_doc State.sramWriteback]
def execSramWriteback (at_ core addr : Nat) (s : State) : Res := .next ((s.tick at_).sramWriteback core addr)

/-- The error pattern that upsets add to a codeword, as (position, error) pairs. -/
def upsetErrs (l : List Upset) (cw : Nat) : List (Nat × Nat) :=
  (l.filter fun u => u.codeword = cw && u.symbol < 10).map fun u => (u.symbol, u.err.toNat)

/-- OASIS_SCRUB (R146): the scrub reads one Oasis word, with the disturbance it then shows; a single-symbol error is
corrected, counted and written back, an uncorrectable one is raised under R170. -/
def State.oasisScrub (s : State) (die addr : Nat) (upset : List Upset) : State :=
  let a := die * oasisSize + addr / 8 * 8
  let (x, y) := s.oasis.chkOf (a / 8)
  let (s0, s1) := syndromes ((8, x) :: (9, y) :: upsetErrs upset 0)
  match decodeSyn none s0 s1 with
  | .clean => s
  | .single _ _ =>
    let s := { s with oasis := s.oasis.heal (a / 8) }
    let s := s.corrected die true 1
    s.onDie die fun d => { d with oasisWriteback := d.oasisWriteback.filter fun w => w ≠ a }
  | _ => s.noteOasis ⟨0, [], [a / 8]⟩ .maint

@[inherit_doc State.oasisScrub]
def execOasisScrub (at_ die addr : Nat) (upset : List Upset) (s : State) : Res :=
  .next ((s.tick at_).oasisScrub die addr upset)

end Sys2Proof.Machine
end

