-- ==== Sys2Proof/Machine/Num.lean ====
section
/-! DEFINITION. Numbers: exact dyadic values, the element formats (R98 to R102), roundings, FP32 arithmetic, the table
functions (R116, R131, R132) and the output stage (R111 to R120). -/

namespace Sys2Proof.Machine

/-! ### Exact values -/

/-- NaN, an infinity, or the finite value (-1)^neg * mag * 2^e, which keeps the sign of a zero. -/
inductive Fv where
  | nan
  | inf (neg : Bool)
  | fin (neg : Bool) (mag : Nat) (e : Int)
  deriving DecidableEq, Repr, Inhabited

/-- Number of bits of a natural number. -/
def bitLen (n : Nat) : Nat := if n = 0 then 0 else n.log2 + 1

/-- +0. -/
def Fv.zero : Fv := .fin false 0 0

/-- A finite nonzero value or zero as an integer over a power of two; 0 for the others. -/
def Fv.num (v : Fv) : Int :=
  match v with
  | .fin neg m _ => if neg then -(m : Int) else m
  | _ => 0

/-- The power of two that goes with `Fv.num`. -/
def Fv.pow (v : Fv) : Int :=
  match v with
  | .fin _ _ e => e
  | _ => 0

/-- An exact value from an integer over a power of two; a zero takes the given sign. -/
def Fv.ofInt (m : Int) (e : Int) (zneg : Bool := false) : Fv :=
  if m = 0 then .fin zneg 0 0 else .fin (decide (m < 0)) m.natAbs e

/-- A zero of either sign. -/
def Fv.isZero (v : Fv) : Bool :=
  match v with
  | .fin _ 0 _ => true
  | _ => false

/-- A finite value. -/
def Fv.isFin (v : Fv) : Bool :=
  match v with
  | .fin _ _ _ => true
  | _ => false

/-- An infinity. -/
def Fv.isInf (v : Fv) : Bool :=
  match v with
  | .inf _ => true
  | _ => false

/-- The sign. -/
def Fv.neg? (v : Fv) : Bool :=
  match v with
  | .fin n _ _ => n
  | .inf n => n
  | .nan => false

/-- The opposite value. -/
def Fv.negate (v : Fv) : Fv :=
  match v with
  | .fin n m e => .fin (!n) m e
  | .inf n => .inf (!n)
  | .nan => .nan

/-- The magnitude. -/
def Fv.abs (v : Fv) : Fv :=
  match v with
  | .fin _ m e => .fin false m e
  | .inf _ => .inf false
  | .nan => .nan

/-- Two integers over powers of two brought to the lower power. -/
def align (m1 : Int) (e1 : Int) (m2 : Int) (e2 : Int) : Int × Int × Int :=
  if e1 ≤ e2 then (m1, m2 * 2 ^ (e2 - e1).toNat, e1) else (m1 * 2 ^ (e1 - e2).toNat, m2, e2)

/-- The exact sum of two finite values, as an integer over a power of two. -/
def addExact (m1 : Int) (e1 : Int) (m2 : Int) (e2 : Int) : Int × Int :=
  let (a, b, e) := align m1 e1 m2 e2
  (a + b, e)

/-- Comparison of two finite values: negative, zero or positive. -/
def cmpExact (m1 : Int) (e1 : Int) (m2 : Int) (e2 : Int) : Int :=
  let (a, b, _) := align m1 e1 m2 e2
  a - b

/-- Less than on values that are not NaN; zeros of both signs are equal. -/
def Fv.lt (a b : Fv) : Bool :=
  match a, b with
  | .inf true, .inf true => false
  | .inf true, .fin _ _ _ => true
  | .inf true, .inf false => true
  | .fin _ _ _, .inf false => true
  | .fin _ _ _, .fin _ _ _ => cmpExact a.num a.pow b.num b.pow < 0
  | _, _ => false

/-- Equality of values; zeros of both signs are equal, NaN equals nothing. -/
def Fv.eqv (a b : Fv) : Bool :=
  match a, b with
  | .inf x, .inf y => x = y
  | .fin _ _ _, .fin _ _ _ => cmpExact a.num a.pow b.num b.pow = 0
  | _, _ => false

/-- Less than, with -0 below +0 (R114 step 3). -/
def Fv.ltz (a b : Fv) : Bool :=
  if a.isZero && b.isZero then a.neg? && !b.neg? else a.lt b

/-! ### Rounding -/

/-- A magnitude `m * 2^e` rounded to a multiple of 2^q, to nearest even or toward zero. -/
def roundAt (m : Nat) (e q : Int) (rtz : Bool) : Nat × Int :=
  if q ≤ e then (m <<< (e - q).toNat, q)
  else
    let sh := (q - e).toNat
    if bitLen m + 1 < sh then (0, q)            -- less than half of the quantum
    else
      let keep := m >>> sh
      let rem := m % 2 ^ sh
      let half := 2 ^ (sh - 1)
      let up := !rtz && (half < rem || (rem = half && keep % 2 = 1))
      (if up then keep + 1 else keep, q)

/-- A magnitude rounded to `p` significant bits, with quantum at least 2^qmin and no upper bound on the exponent. -/
def roundMag (p : Nat) (qmin : Int) (rtz : Bool) (m : Nat) (e : Int) : Nat × Int :=
  if m = 0 then (0, 0)
  else
    let q := e + bitLen m - p
    roundAt m e (if q < qmin then qmin else q) rtz

/-- A signed value rounded to an integer, to nearest even or toward zero. -/
def roundInt (v : Fv) (rtz : Bool) : Int :=
  match v with
  | .fin neg m e =>
    let (k, _) := roundAt m e 0 rtz
    let k := k
    if neg then -(k : Int) else k
  | _ => 0

/-! ### Formats -/

/-- A floating-point element format (R98). `top` is the largest finite code without its sign. -/
structure Fmt where
  exp  : Nat
  man  : Nat
  bias : Int
  top  : Nat
  hasInf : Bool
  nanCode : Option Nat    -- canonical NaN, where the format has one (R111)
  deriving DecidableEq, Repr, Inhabited

/-- Width in bits. -/
def Fmt.width (f : Fmt) : Nat := 1 + f.exp + f.man

/-- FP8 E4M3 and MXFP8 E4M3 elements (R98). -/
def fE4M3 : Fmt := ⟨4, 3, 7, 0x7E, false, some 0x7F⟩
/-- FP8 E5M2 and MXFP8 E5M2 elements (R98). -/
def fE5M2 : Fmt := ⟨5, 2, 15, 0x7B, true, some 0x7F⟩
/-- MXFP6 E3M2 elements (R98). -/
def fE3M2 : Fmt := ⟨3, 2, 3, 0x1F, false, none⟩
/-- MXFP6 E2M3 elements (R98). -/
def fE2M3 : Fmt := ⟨2, 3, 1, 0x1F, false, none⟩
/-- MXFP4 E2M1 elements (R98). -/
def fE2M1 : Fmt := ⟨2, 1, 1, 0x7, false, none⟩
/-- BF16 (R98). -/
def fBF16 : Fmt := ⟨8, 7, 127, 0x7F7F, true, some 0x7FC0⟩
/-- FP16 (R98). -/
def fFP16 : Fmt := ⟨5, 10, 15, 0x7BFF, true, some 0x7E00⟩
/-- FP32 (R98). -/
def fFP32 : Fmt := ⟨8, 23, 127, 0x7F7FFFFF, true, some 0x7FC00000⟩

/-- The floating-point format of a format code, FP32 for the others (R78). -/
def fmtOf (code : Nat) : Fmt :=
  match code with
  | 0x0 => fE4M3 | 0x1 => fE5M2 | 0x2 => fE4M3 | 0x3 => fE5M2 | 0x4 => fE3M2 | 0x5 => fE2M3 | 0x6 => fE2M1
  | 0x7 => fBF16 | 0x8 => fFP16 | _ => fFP32

/-- Bits per element of a format code (R78). -/
def fmtBits (code : Nat) : Nat :=
  match code with
  | 0x0 | 0x1 | 0x2 | 0x3 | 0x9 => 8
  | 0x4 | 0x5 => 6
  | 0x6 | 0xA => 4
  | 0x7 | 0x8 => 16
  | 0xB | 0xC => 32
  | _ => 8

/-- MX formats (R78). -/
def fmtIsMx (code : Nat) : Bool := 2 ≤ code && code ≤ 6

/-- Integer formats (R78). -/
def fmtIsInt (code : Nat) : Bool := code = 0x9 || code = 0xA || code = 0xC

/-- The value of a code, subnormals included (R98, R99). -/
def Fmt.decode (f : Fmt) (c : Nat) : Fv :=
  let neg := c.testBit (f.exp + f.man)
  let body := c % 2 ^ (f.exp + f.man)
  let ex := body >>> f.man
  let m := body % 2 ^ f.man
  if f.top < body then
    if f.hasInf && m = 0 then .inf neg
    else if f.nanCode.isSome then .nan
    else .fin neg (2 ^ f.man + m) ((ex : Int) - f.bias - f.man)
  else if ex = 0 then (if m = 0 then .fin neg 0 0 else .fin neg m (1 - f.bias - f.man))
  else .fin neg (2 ^ f.man + m) ((ex : Int) - f.bias - f.man)

/-- FP32 with its subnormals flushed on input (R100). -/
def dec32 (c : Nat) : Fv :=
  match fFP32.decode c with
  | .fin n m e => if m < 2 ^ 23 then .fin n 0 0 else .fin n m e
  | v => v

/-- The largest finite magnitude of a format: mantissa and power of two. -/
def Fmt.maxMag (f : Fmt) : Nat × Int :=
  (2 ^ f.man + f.top % 2 ^ f.man, ((f.top >>> f.man : Nat) : Int) - f.bias - f.man)

/-- The power of two of the smallest subnormal. -/
def Fmt.qmin (f : Fmt) : Int := 1 - f.bias - f.man

/-- The code without its sign of a magnitude that the format holds exactly. -/
def Fmt.codeOf (f : Fmt) (m : Nat) (e : Int) : Nat :=
  if m = 0 then 0
  else
    let top := e + bitLen m - 1          -- exponent of the leading bit
    let q := if top - f.man < f.qmin then f.qmin else top - f.man
    let k := (m <<< (e - q).toNat) >>> (q - e).toNat   -- m * 2^(e - q)
    if k < 2 ^ f.man then k
    else (((q + f.man + f.bias).toNat) <<< f.man) + (k - 2 ^ f.man)

/-- The sign bit at its place. -/
def Fmt.signBit (f : Fmt) (neg : Bool) : Nat := if neg then 2 ^ (f.exp + f.man) else 0

/-- The code of an infinity or of an overflow (R118): under INF the infinity, or E4M3's NaN; under SAT, and in a format
with neither, the largest finite value of the sign. -/
def Fmt.ovfCode (f : Fmt) (neg : Bool) (ovfInf : Bool) : Nat :=
  if ovfInf then
    if f.hasInf then f.signBit neg + (2 ^ f.exp - 1) <<< f.man
    else match f.nanCode with
      | some c => c
      | none => f.signBit neg + f.top
  else f.signBit neg + f.top

/-- One rounding of a value into a format, with the flags it sets (R100, R111, R117, R118). -/
def Fmt.encode (f : Fmt) (v : Fv) (rtz ovfInf : Bool) : Nat × NumFlags :=
  match v with
  | .nan => (f.nanCode.getD 0, .none_)
  | .inf neg =>
    (f.ovfCode neg ovfInf, { invalid := false, ovf := !(ovfInf && f.hasInf), unf := false, clip := false })
  | .fin neg m e =>
    let (k, q) := roundMag (f.man + 1) f.qmin rtz m e
    let (tm, te) := f.maxMag
    if 0 < cmpExact k q tm te then (f.ovfCode neg ovfInf, { ovf := true })
    else if k = 0 then (f.signBit neg, { unf := m ≠ 0 })
    else (f.signBit neg + f.codeOf k q, .none_)

/-- RN of an exact value to FP32 (R114, R115): one rounding with an unbounded exponent, an overflow taken as infinity or
as the largest finite value, and a magnitude below 2^-126 flushed to zero of its sign (R100). -/
def rn32 (v : Fv) (ovfInf : Bool) : Nat × NumFlags :=
  match v with
  | .nan => (0x7FC00000, .none_)
  | .inf neg => (fFP32.signBit neg + 0x7F800000, .none_)
  | .fin neg m e =>
    let (k, q) := roundMag 24 (e + bitLen m - 24) false m e
    let top := q + bitLen k - 1                 -- exponent of the leading bit
    if k = 0 then (fFP32.signBit neg, .none_)
    else if 127 < top then (fFP32.ovfCode neg ovfInf, { ovf := true })
    else if top < -126 then (fFP32.signBit neg, { unf := true })
    else (fFP32.signBit neg + fFP32.codeOf k q, .none_)

/-- RN to FP32 with overflow to infinity, flags left out. -/
def rnf (v : Fv) : Nat := (rn32 v true).1

/-- Exact product of two finite values. -/
def Fv.mulFin (a b : Fv) : Fv :=
  match a, b with
  | .fin n1 m1 e1, .fin n2 m2 e2 => .fin (n1 != n2) (m1 * m2) (e1 + e2)
  | _, _ => .nan

/-- Exact sum of two finite values. A zero sum of values that are not both negative zeros is +0. -/
def Fv.addFin (a b : Fv) : Fv :=
  match a, b with
  | .fin n1 _ _, .fin n2 _ _ =>
    let (m, e) := addExact a.num a.pow b.num b.pow
    Fv.ofInt m e (n1 && n2)
  | _, _ => .nan

/-- A quotient of integers as a dyadic value that rounds as the exact quotient does: `k` fraction bits and a sticky
bit below them. -/
def quotSticky (neg : Bool) (n d k : Nat) : Fv :=
  let x := n <<< k
  .fin neg (2 * (x / d) + (if x % d = 0 then 0 else 1)) (-(k : Int) - 1)

/-! ### The table functions -/

/-- Fraction bits of the fixed-point evaluation of transcendental values (log entry 15). -/
def fxBits : Nat := 320

/-- The terms of the exponential series: x + x^2/2 + ... in fixed point. -/
def expSeries : Nat → Nat → Nat → Nat → Nat → Nat
  | 0, _, _, _, acc => acc
  | fuel + 1, i, x, term, acc =>
    let t := (term * x) >>> fxBits
    let t := t / i
    expSeries fuel (i + 1) x t (acc + t)

/-- `n` squarings. -/
def fxSquares : Nat → Nat → Nat
  | 0, y => y
  | n + 1, y => fxSquares n ((y * y) >>> fxBits)

/-- e^(n/d) in fixed point, for n/d from 0 to 32: the series at a thousandth of the argument, squared up. -/
def fxExp (n d : Nat) : Nat :=
  let x := ((n <<< fxBits) / d) >>> 10
  fxSquares 10 (expSeries 40 1 x (1 <<< fxBits) (1 <<< fxBits))

/-- The FP32 value nearest the exact σ(n/128) for an integer n (R116). -/
def sigmaNode (n : Int) : Nat :=
  let one := 1 <<< fxBits
  let e := fxExp n.natAbs 128
  -- σ(z) = e^z / (1 + e^z) for z < 0 is 1 / (1 + e^|z|)
  if n < 0 then rnf (quotSticky false one (one + e) 200) else rnf (quotSticky false e (one + e) 200)

/-- A sum of integer multiples of FP32 values, rounded once. -/
def rnSum (l : List (Int × Nat)) : Nat :=
  rnf (l.foldl (fun a t => a.addFin ((Fv.ofInt t.1 0).mulFin (dec32 t.2))) Fv.zero)

/-- C0 + t (C1 + t C2), exact, rounded once to FP32 (R116, R132). -/
def quadRow (c0 c1 c2 : Nat) (t : Fv) : Nat :=
  let t2 := t.mulFin t
  rnf ((dec32 c0).addFin ((t.mulFin (dec32 c1)).addFin (t2.mulFin (dec32 c2))))

/-- floor(m * 2^e). -/
def floorExact (m : Int) (e : Int) : Int :=
  if 0 ≤ e then m * 2 ^ e.toNat else m / 2 ^ (-e).toNat

/-- σ_T, the table sigmoid (R116). -/
def sigmaT (z : Nat) : Nat :=
  match dec32 z with
  | .nan => 0x7FC00000
  | .inf neg => if neg then 0 else 0x3F800000
  | v =>
    if 0 ≤ cmpExact v.num v.pow 32 0 then 0x3F800000
    else if cmpExact v.num v.pow (-32) 0 < 0 then 0
    else
      let (m, e) := addExact (v.num * 64) v.pow 2048 0
      let i := floorExact m e
      let (tm, te) := addExact m e (-i) 0
      let n := 2 * i - 4096                     -- a = n / 128
      let y0 := sigmaNode n
      let y1 := sigmaNode (n + 1)
      let y2 := sigmaNode (n + 2)
      quadRow y0 (rnSum [(-3, y0), (4, y1), (-1, y2)]) (rnSum [(2, y0), (-4, y1), (2, y2)]) (Fv.ofInt tm te)

/-! ### Vector table functions (R131, R132) -/

/-- C0 + t (C1 + t C2), exact (R131). -/
def quadExact (c0 c1 c2 : Nat) (t : Fv) : Fv :=
  (dec32 c0).addFin ((t.mulFin (dec32 c1)).addFin ((t.mulFin t).mulFin (dec32 c2)))

/-- A row of the quadratic table from a node function: node `2 i`, `2 i + 1` and `2 i + 2` half steps from the start,
evaluated at t (R116, R131). -/
def tableEval (node : Nat → Nat) (i : Nat) (t : Fv) : Fv :=
  let y0 := node (2 * i)
  let y1 := node (2 * i + 1)
  let y2 := node (2 * i + 2)
  quadExact y0 (rnSum [(-3, y0), (4, y1), (-1, y2)]) (rnSum [(2, y0), (-4, y1), (2, y2)]) t

/-- Integer square root, bit by bit from bit `k`. -/
def isqrtFrom : Nat → Nat → Nat → Nat
  | 0, _, r => r
  | k + 1, n, r => let c := r + 2 ^ k; isqrtFrom k n (if c * c ≤ n then c else r)

/-- RN(1 / (1 + k/512)). -/
def rcpNode (k : Nat) : Nat := rnf (quotSticky false 512 (512 + k) 60)

/-- RN(1 / sqrt(1 + k/256)): the root of 2^120 * 256 / (256 + k) with a sticky bit. -/
def rsqNode (k : Nat) : Nat :=
  let x := (256 <<< 120) / (256 + k)
  let r := isqrtFrom 62 x 0
  rnf (.fin false (2 * r + (if r * r * (256 + k) = 256 <<< 120 then 0 else 1)) (-61))

/-- Largest n of the low `k` bits with (base + n)^512 at most `lim`. -/
def root512From : Nat → Nat → Nat → Nat
  | 0, _, r => r
  | k + 1, lim, r => let c := r + 2 ^ k; root512From k lim (if c ^ 512 ≤ lim then c else r)

/-- RN(2^(k/512)), by the exact comparison of 512th powers. -/
def exp2Node (k : Nat) : Nat :=
  let lim := 2 ^ (k + 512 * 26)
  let r := root512From 28 lim 0
  rnf (.fin false (2 * r + (if r ^ 512 = lim then 0 else 1)) (-27))

/-- The first `n` binary digits of log2 of a fixed-point value in [1, 2). -/
def log2Digits : Nat → Nat → Nat → Nat
  | 0, _, acc => acc
  | n + 1, x, acc =>
    let y := (x * x) >>> fxBits
    if 2 ^ (fxBits + 1) ≤ y then log2Digits n (y >>> 1) (2 * acc + 1) else log2Digits n y (2 * acc)

/-- RN(log2(1 + k/512)). -/
def log2Node (k : Nat) : Nat :=
  if k = 0 then 0
  else if k = 512 then 0x3F800000
  else rnf (.fin false (2 * log2Digits 64 (((512 + k) <<< fxBits) / 512) 0 + 1) (-65))

/-- floor and fraction of (v - start) / h, for h = 2^-k: the row and t (R131). -/
def rowOf (m : Int) (e : Int) (start : Int) (k : Nat) : Nat × Fv :=
  let (d, de) := addExact m e (-start) 0
  let i := floorExact d (de + k)
  let (tm, te) := addExact d (de + k) (-i) 0
  (i.toNat, Fv.ofInt tm te)

/-- VRCP on FP32 (R131, R132). -/
def vrcp (x : Nat) : Nat × NumFlags :=
  match dec32 x with
  | .nan => (0x7FC00000, .none_)
  | .inf n => (fFP32.signBit n, .none_)
  | .fin n m e =>
    if m = 0 then (fFP32.signBit n + 0x7F800000, .none_)
    else
      let ex := e + bitLen m - 1
      let (i, t) := rowOf m (e - ex) 1 8
      let p := tableEval rcpNode i t
      rn32 (Fv.ofInt (if n then -p.num else p.num) (p.pow - ex)) true

/-- VRSQ on FP32 (R131, R132). -/
def vrsq (x : Nat) : Nat × NumFlags :=
  match dec32 x with
  | .nan => (0x7FC00000, .none_)
  | .inf n => if n then (0x7FC00000, { invalid := true }) else (0, .none_)
  | .fin n m e =>
    if m = 0 then (fFP32.signBit n + 0x7F800000, .none_)
    else if n then (0x7FC00000, { invalid := true })
    else
      let ex := e + bitLen m - 1
      let ev := ex - ex % 2
      let (i, t) := rowOf m (e - ev) 1 7
      let p := tableEval rsqNode i t
      rn32 (Fv.ofInt p.num (p.pow - ev / 2)) true

/-- VEXP2 on FP32 (R131, R132). -/
def vexp2 (x : Nat) : Nat × NumFlags :=
  match dec32 x with
  | .nan => (0x7FC00000, .none_)
  | .inf n => if n then (0, .none_) else (0x7F800000, .none_)
  | v =>
    if 0 ≤ cmpExact v.num v.pow 128 0 then (0x7F800000, { ovf := true })
    else
      let n := floorExact v.num v.pow
      let (fm, fe) := addExact v.num v.pow (-n) 0
      let (i, t) := rowOf fm fe 0 8
      let p := tableEval exp2Node i t
      rn32 (Fv.ofInt p.num (p.pow + n)) true

/-- VLOG2 on FP32 (R131, R132). -/
def vlog2 (x : Nat) : Nat × NumFlags :=
  match dec32 x with
  | .nan => (0x7FC00000, .none_)
  | .inf n => if n then (0x7FC00000, { invalid := true }) else (0x7F800000, .none_)
  | .fin n m e =>
    if m = 0 then (0xFF800000, .none_)
    else if n then (0x7FC00000, { invalid := true })
    else
      let ex := e + bitLen m - 1
      let (i, t) := rowOf m (e - ex) 1 8
      let p := tableEval log2Node i t
      rn32 ((Fv.ofInt ex 0).addFin p) true

/-! ### Arithmetic of the element types (R124) -/

/-- VADD (R124): invalid where a NaN comes from inputs that are none. -/
def fvAdd (a b : Fv) : Fv × Bool :=
  match a, b with
  | .nan, _ => (.nan, false)
  | _, .nan => (.nan, false)
  | .inf x, .inf y => if x = y then (.inf x, false) else (.nan, true)
  | .inf x, _ => (.inf x, false)
  | _, .inf y => (.inf y, false)
  | _, _ => (a.addFin b, false)

/-- VMUL (R124). -/
def fvMul (a b : Fv) : Fv × Bool :=
  match a, b with
  | .nan, _ => (.nan, false)
  | _, .nan => (.nan, false)
  | .fin _ _ _, .fin _ _ _ => (a.mulFin b, false)
  | _, _ => if a.isZero || b.isZero then (.nan, true) else (.inf (a.neg? != b.neg?), false)

/-- a b + c, one rounding to come (R124). -/
def fvFma (a b c : Fv) : Fv × Bool :=
  match a, b, c with
  | .nan, _, _ => (.nan, false)
  | _, .nan, _ => (.nan, false)
  | _, _, .nan => (.nan, false)
  | _, _, _ =>
    let (p, bad) := fvMul a b
    if bad then (.nan, true) else fvAdd p c

/-- The larger (or smaller) of two values; -0 is below +0, and a NaN gives NaN (R124). -/
def fvPick (max : Bool) (a b : Fv) : Fv :=
  match a, b with
  | .nan, _ => .nan
  | _, .nan => .nan
  | _, _ => if a.ltz b then (if max then b else a) else (if max then a else b)

/-! ### Activations (R115) -/

/-- K_G and C_G (R115). -/
def geluK : Nat := 0x3FCC422A
@[inherit_doc geluK] def geluC : Nat := 0x3D372713

/-- Sum of two exact values where both are finite, for the inner term of GELU. -/
def geluInner (x : Fv) : Fv :=
  (dec32 geluK).mulFin (x.addFin ((dec32 geluC).mulFin (x.mulFin (x.mulFin x))))

/-- x times a table value, rounded once. -/
def timesSigma (x : Fv) (sig : Nat) (ovfInf : Bool) : Nat × NumFlags := rn32 (x.mulFin (dec32 sig)) ovfInf

/-- The activation ACT of an FP32 value (R115). -/
def activate (act : Nat) (c : Nat) (ovfInf : Bool) : Nat × NumFlags :=
  let x := dec32 c
  if act = 0 then (c, .none_)
  else
    match x with
    | .nan => (c, .none_)
    | .inf neg =>
      if !neg then (0x7F800000, .none_)
      else if act ≤ 2 then (0, .none_) else (0x80000000, .none_)
    | .fin neg m _ =>
      if act = 1 then (if neg || m = 0 then 0 else c, .none_)
      else if act = 2 then (if neg || m = 0 then (0, .none_) else rn32 (x.mulFin x) ovfInf)
      else if act = 3 then
        let (w, f1) := rn32 (geluInner x) ovfInf
        let (y, f2) := timesSigma x (sigmaT w) ovfInf
        (y, f1.or f2)
      else timesSigma x (sigmaT c) ovfInf

/-! ### Integers (R120) -/

/-- An integer in range, saturated, or wrapped per INTSAT (R120). -/
def intSat (w : Nat) (wrapIt : Bool) (q : Int) : Nat × NumFlags :=
  let lo : Int := -((2 ^ (w - 1) : Nat) : Int)
  let hi : Int := ((2 ^ (w - 1) : Nat) : Int) - 1
  if q < lo || hi < q then (wrap w (if wrapIt then q else if q < 0 then lo else hi), { ovf := true })
  else (wrap w q, .none_)

/-- A value written to an integer destination of `w` bits (R111, R120). -/
def toInt (w : Nat) (rtz wrapIt : Bool) (v : Fv) : Nat × NumFlags :=
  match v with
  | .nan => (0, .none_)
  | .inf neg => (wrap w (if neg then -((2 ^ (w - 1) : Nat) : Int) else ((2 ^ (w - 1) : Nat) : Int) - 1), { ovf := true })
  | .fin _ m _ =>
    let q := roundInt v rtz
    let (c, f) := intSat w wrapIt q
    (c, { f with unf := q = 0 && m ≠ 0 })

/-! ### The output stage (R113, R114) -/

/-- A profile (R113). -/
structure Profile where
  act    : Nat
  rtz    : Bool
  ovfInf : Bool
  direct : Bool
  sMode  : Nat
  bMode  : Nat
  sValue : Nat
  sAddr  : Nat
  bAddr  : Nat
  clipLo : Nat
  clipHi : Nat
  deriving DecidableEq, Repr, Inhabited

/-- Step 1 of R114 with the step-1 rows of R111: scale and bias. -/
def scaleBias (v : Fv) (texp : Int) (s b : Fv) (ovfInf : Bool) : Nat × NumFlags :=
  let bad : Nat × NumFlags := (0x7FC00000, { invalid := true })
  match v, s, b with
  | .nan, _, _ => bad
  | _, .nan, _ => bad
  | _, _, .nan => bad
  | .fin n m e, .fin _ _ _, .fin _ _ _ =>
    let r := ((Fv.fin n m (e + texp)).mulFin s).addFin b
    if r.isZero then (0, .none_) else rn32 r ovfInf
  | _, _, _ =>
    if (v.isInf || s.isInf) && (v.isZero || s.isZero) then bad
    else if v.isInf || s.isInf then
      let neg := v.neg? != s.neg?
      match b with
      | .inf bn => if bn = neg then (fFP32.signBit neg + 0x7F800000, .none_) else bad
      | _ => (fFP32.signBit neg + 0x7F800000, .none_)
    else (fFP32.signBit b.neg? + 0x7F800000, .none_)

/-- Step 3 of R114: min(max(x, lo), hi), with lo above hi giving hi. A clip that changes only the sign of a zero sets no
flag (R111). -/
def clip (c lo hi : Nat) : Nat × NumFlags :=
  let x := dec32 c
  let l := dec32 lo
  let h := dec32 hi
  let y := if h.ltz l then hi else
    let a := if x.ltz l then lo else c
    if h.ltz (dec32 a) then hi else a
  let yv := dec32 y
  let same := y = c || (yv.isZero && x.isZero)
  (if yv.isZero then fFP32.signBit yv.neg? else y, { clip := !same })

/-- Steps 1 to 3 for one accumulator: an FP32 code and the flags so far (R111, R114). -/
def stageFront (p : Profile) (v : Fv) (texp : Int) (s b : Fv) : Nat × NumFlags :=
  match v with
  | .nan => (0x7FC00000, { invalid := true })
  | _ =>
    let (x, f1) := scaleBias v texp s b p.ovfInf
    if f1.invalid then (x, f1)
    else
      let (y, f2) := activate p.act x p.ovfInf
      let (z, f3) := clip y p.clipLo p.clipHi
      (z, (f1.or f2).or f3)

/-- Whether a code of a format is a zero of either sign. -/
def codeIsZero (fmt c : Nat) : Bool := if fmtIsInt fmt then c = 0 else ((fmtOf fmt).decode c).isZero

/-- One element written to a destination that is not an MX format: code, flags, and whether it was written as zero with
underflow-to-zero (R114 steps 4 and 5, R256). -/
def stageBack (p : Profile) (fmt intsat : Nat) (front : Nat × NumFlags) : Nat × NumFlags × Bool :=
  let (x, f) := front
  let v := dec32 x
  let (c, g) :=
    if v = .nan then (if fmtIsInt fmt then 0 else (fmtOf fmt).nanCode.getD 0, NumFlags.none_)
    else if fmtIsInt fmt then toInt (fmtBits fmt) p.rtz (intsat = 1) v
    else (fmtOf fmt).encode v p.rtz p.ovfInf
  let all := f.or g
  (c, all, all.unf && codeIsZero fmt c)

/-- INT_DIRECT (R120): the exact value rounded once to an integer. -/
def stageDirect (p : Profile) (fmt intsat : Nat) (v : Fv) (texp : Int) : Nat × NumFlags × Bool :=
  match v with
  | .nan => (0, { invalid := true }, false)
  | .inf _ => let (c, f) := toInt (fmtBits fmt) p.rtz (intsat = 1) v; (c, f, false)
  | .fin n m e =>
    let (c, f) := toInt (fmtBits fmt) p.rtz (intsat = 1) (.fin n m (e + texp))
    (c, f, f.unf)

/-- emax of an MX element format (R119). -/
def mxEmax (fmt : Nat) : Int :=
  match fmt with
  | 0x2 => 8 | 0x3 => 15 | 0x4 => 4 | _ => 2

/-- floor(log2) of a finite nonzero magnitude. -/
def floorLog2 (m : Nat) (e : Int) : Int := e + bitLen m - 1

/-- X of R119 step 2 from the magnitudes that count. -/
def mxExp (fmt : Nat) (mags : List (Nat × Int)) : Int :=
  let tops := (mags.filter fun x => x.1 ≠ 0).map fun x => floorLog2 x.1 x.2
  match tops with
  | [] => -127
  | t :: l => clampI (-127) 127 (l.foldl max t - mxEmax fmt)

/-- One MX block of FP32 codes (R119, and the MX rows of R111): the scale byte, and for each element its code, the flags
of this step and whether it was written as zero with underflow-to-zero. Under SAT an infinity counts as the largest finite value
of its sign, and its clamp sets no flag; under INF it sets overflow (DEDUCED, log entry 13). -/
def mxBlock (fmt : Nat) (rtz ovfInf : Bool) (xs : List Nat) : Nat × List (Nat × NumFlags × Bool) :=
  let f := fmtOf fmt
  let vs := xs.map dec32
  let whole := f.nanCode = none && vs.any fun v => v = .nan || (ovfInf && v.isInf)
  if whole then
    (0xFF, vs.map fun v => (0, { ovf := ovfInf && v.isInf }, false))
  else
    let x := mxExp fmt (vs.filterMap fun v =>
      match v with
      | .fin _ m e => some (m, e)
      | .inf _ => if ovfInf then none else some (0xFFFFFF, (104 : Int))
      | .nan => none)
    ((x + 127).toNat, vs.map fun v =>
      match v with
      | .nan => (f.nanCode.getD 0, NumFlags.none_, false)
      | .inf n => (f.ovfCode n ovfInf, { ovf := ovfInf }, false)
      | .fin n m e =>
        let (c, g) := f.encode (.fin n m (e - x)) rtz false
        (c, { unf := g.unf }, g.unf))

end Sys2Proof.Machine
end

