-- ==== Sys2Proof/Machine/Kernel.lean ====
section
/-! DEFINITION. Kernels and the sequencer (R70 to R76, R84, R91 to R96, R126, R127, R374): item formats, scratch
interlocks, issue, waits, the end of a kernel, and guest bubbles. -/

namespace Sys2Proof.Machine

/-! ### Item formats -/

/-- A matrix-operation descriptor (R84). -/
structure Mat where
  fmtA : Nat
  fmtB : Nat
  fmtD : Nat
  scaleA : Nat
  scaleB : Nat
  transA : Bool
  transB : Bool
  cont : Bool
  drain : Bool
  tile : Nat
  shape : Nat
  profile : Nat
  intsat : Nat
  sigEn : Bool
  waitEn : Bool
  tscaleA : Nat
  tscaleB : Nat
  m : Nat
  n : Nat
  k : Nat
  aAddr : Nat
  bAddr : Nat
  aScale : Nat
  bScale : Nat
  dAddr : Nat
  dScale : Nat
  aLd : Nat
  bLd : Nat
  dLd : Nat
  aSld : Nat
  bSld : Nat
  dSld : Nat
  sigSo : Nat
  waitSo : Nat
  waitCount : Nat
  tag : Nat
  deriving DecidableEq, Repr, Inhabited

/-- The fields of a matrix-operation descriptor (R84). -/
def Mat.ofBuf (b : Buf) : Mat :=
  { fmtA := b.fld 8 4, fmtB := b.fld 12 4, fmtD := b.fld 16 4, scaleA := b.fld 20 2, scaleB := b.fld 22 2,
    transA := b.flag 24, transB := b.flag 25, cont := b.flag 26, drain := b.flag 27, tile := b.fld 28 1,
    shape := b.fld 29 3, profile := b.fld 32 4, intsat := b.fld 36 2, sigEn := b.flag 38, waitEn := b.flag 39,
    tscaleA := b.fld 40 8, tscaleB := b.fld 48 8, m := b.fld 64 10, n := b.fld 80 10, k := b.fld 96 28,
    aAddr := b.fld 128 32, bAddr := b.fld 160 32, aScale := b.fld 192 32, bScale := b.fld 224 32,
    dAddr := b.fld 256 32, dScale := b.fld 288 32, aLd := b.fld 320 16, bLd := b.fld 336 16, dLd := b.fld 352 16,
    aSld := b.fld 368 16, bSld := b.fld 384 16, dSld := b.fld 400 16, sigSo := b.fld 416 16, waitSo := b.fld 432 16,
    waitCount := b.fld 448 32, tag := b.fld 480 16 }

/-- The 64 bytes of a matrix-operation descriptor (R84). -/
def Mat.toBuf (d : Mat) : Buf :=
  packBuf 64 [(8, 0x4D), (4, d.fmtA), (4, d.fmtB), (4, d.fmtD), (2, d.scaleA), (2, d.scaleB), (1, b2n d.transA),
    (1, b2n d.transB), (1, b2n d.cont), (1, b2n d.drain), (1, d.tile), (3, d.shape), (4, d.profile), (2, d.intsat),
    (1, b2n d.sigEn), (1, b2n d.waitEn), (8, d.tscaleA), (8, d.tscaleB), (8, 0), (10, d.m), (6, 0), (10, d.n), (6, 0),
    (28, d.k), (4, 0), (32, d.aAddr), (32, d.bAddr), (32, d.aScale), (32, d.bScale), (32, d.dAddr), (32, d.dScale),
    (16, d.aLd), (16, d.bLd), (16, d.dLd), (16, d.aSld), (16, d.bSld), (16, d.dSld), (16, d.sigSo), (16, d.waitSo),
    (32, d.waitCount), (16, d.tag), (16, 0)]

/-- A core DMA descriptor (R94). -/
structure CoreDma where
  srcSpace : Nat
  dstSpace : Nat
  peerSrc : Nat
  peerDst : Nat
  elem : Nat
  transpose : Bool
  sigEn : Bool
  waitEn : Bool
  src : Nat
  dst : Nat
  rows : Nat
  cols : Nat
  srcStride : Nat
  dstStride : Nat
  sigSo : Nat
  waitSo : Nat
  waitCount : Nat
  tag : Nat
  deriving DecidableEq, Repr, Inhabited

/-- The fields of a core DMA descriptor (R94). -/
def CoreDma.ofBuf (b : Buf) : CoreDma :=
  { srcSpace := b.fld 8 2, dstSpace := b.fld 10 2, peerSrc := b.fld 12 4, peerDst := b.fld 16 4, elem := b.fld 20 2,
    transpose := b.flag 22, sigEn := b.flag 23, waitEn := b.flag 24, src := b.fld 32 32, dst := b.fld 64 32,
    rows := b.fld 96 16, cols := b.fld 112 16, srcStride := b.fld 128 24, dstStride := b.fld 160 24,
    sigSo := b.fld 192 16, waitSo := b.fld 208 16, waitCount := b.fld 224 32, tag := b.fld 256 16 }

/-- Bytes per element of a core DMA item (R94). -/
def CoreDma.bytes (d : CoreDma) : Nat := 2 ^ d.elem

/-- Vector block header fields (R126). -/
def vbIcount (b : Buf) : Nat := b.fld 8 12
@[inherit_doc vbIcount] def vbRepeat (b : Buf) : Nat := b.fld 20 16
@[inherit_doc vbIcount] def vbAdv (b : Buf) : Nat := b.fld 36 16
@[inherit_doc vbIcount] def vbTs (b : Buf) : Nat := b.fld 52 12

/-- Length of a vector block: header and instructions, padded to 64 bytes (R126). -/
def vbLen (b : Buf) : Nat := alignUp (8 + 8 * vbIcount b) 64

/-- Instruction `i` of a block's body. -/
def vbWord (b : Buf) (i : Nat) : Nat := b.le (8 + 8 * i) 8

/-- The word of a vector instruction (R127). -/
def vecWord (op : Nat) (f : VFields) : Nat :=
  packBits [(8, op), (5, f.vd), (5, f.va), (5, f.vb), (3, f.ty), (3, f.msk), (3, 0), (32, f.imm)]

/-- Opcode and fields of a vector instruction word (R127). -/
def vecFields (w : Nat) : Nat × VFields :=
  (bits w 0 8, ⟨bits w 8 5, bits w 13 5, bits w 18 5, bits w 23 3, bits w 26 3, bits w 32 32⟩)

/-! ### Scratch spans (R71) -/

/-- Rows of bytes at a stride. -/
structure Span where
  base   : Nat
  stride : Nat
  rows   : Nat
  len    : Nat
  deriving DecidableEq, Repr, Inhabited

/-- Whether a span touches a byte range, at 64-byte granularity (R71). -/
def Span.hits (s : Span) (a n : Nat) : Bool :=
  n ≠ 0 && s.len ≠ 0 && (List.range s.rows).any fun j =>
    let x := s.base + j * s.stride
    a / 64 ≤ (x + s.len - 1) / 64 && x / 64 ≤ (a + n - 1) / 64

/-- Whether two spans touch a common 64-byte unit. -/
def Span.meets (s t : Span) : Bool := (List.range s.rows).any fun j => t.hits (s.base + j * s.stride) s.len

/-- Any span of one list meets any of the other. -/
def spansMeet (l m : List Span) : Bool := l.any fun s => m.any fun t => s.meets t

/-- Bytes of `n` packed elements of a format. -/
def packedBytes (fmt n : Nat) : Nat := ceilDiv (n * fmtBits fmt) 8

/-- The profile `i` of the profile block held in `b` (R113). -/
def profileOf (b : Buf) : Profile :=
  { act := b.fld 0 3, rtz := b.flag 3, ovfInf := b.flag 4, direct := b.flag 5, sMode := b.fld 6 2, bMode := b.fld 8 2,
    sValue := b.fld 32 32, sAddr := b.fld 64 32, bAddr := b.fld 96 32, clipLo := b.fld 128 32, clipHi := b.fld 160 32 }

/-- Operand spans of a matrix descriptor: A and B of the first M rows and N columns, and their scales (R80, R81, R83). -/
def Mat.inSpans (d : Mat) : List Span :=
  let blk := d.k / 32
  [if d.transA then ⟨d.aAddr, 64 * d.aLd, d.k, packedBytes d.fmtA d.m⟩ else ⟨d.aAddr, 64 * d.aLd, d.m, packedBytes d.fmtA d.k⟩,
   if d.transB then ⟨d.bAddr, 64 * d.bLd, d.n, packedBytes d.fmtB d.k⟩ else ⟨d.bAddr, 64 * d.bLd, d.k, packedBytes d.fmtB d.n⟩]
  ++ (if d.scaleA = 2 then [⟨d.aScale, 64 * d.aSld, d.m, blk⟩] else [])
  ++ (if d.scaleB = 2 then [⟨d.bScale, 64 * d.bSld, d.n, blk⟩] else [])

/-- The per-column arrays a draining descriptor reads through its profile (R113). -/
def Mat.profSpans (d : Mat) (p : Profile) : List Span :=
  if !d.drain then []
  else (if p.sMode = 1 then [⟨p.sAddr, 0, 1, 4 * d.n⟩] else [])
    ++ (if p.bMode = 1 then [⟨p.bAddr, 0, 1, 2 * d.n⟩] else if p.bMode = 2 then [⟨p.bAddr, 0, 1, 4 * d.n⟩] else [])

/-- Destination spans of a matrix descriptor (R90). -/
def Mat.outSpans (d : Mat) : List Span :=
  if !d.drain then []
  else [⟨d.dAddr, 64 * d.dLd, d.m, packedBytes d.fmtD d.n⟩]
    ++ (if fmtIsMx d.fmtD then [⟨d.dScale, 64 * d.dSld, d.m, d.n / 32⟩] else [])

/-- Own-scratch source and destination spans of a core DMA item (R94). -/
def CoreDma.inSpans (d : CoreDma) : List Span :=
  if d.srcSpace = 0 then [⟨d.src, d.srcStride, d.rows, d.cols * d.bytes⟩] else []
@[inherit_doc CoreDma.inSpans]
def CoreDma.outSpans (d : CoreDma) : List Span :=
  if d.dstSpace = 0 then
    [if d.transpose then ⟨d.dst, d.dstStride, d.cols, d.rows * d.bytes⟩ else ⟨d.dst, d.dstStride, d.rows, d.cols * d.bytes⟩]
  else []

/-- The span of one memory instruction of a block over every repetition (R128, R129, R133). -/
def vecSpan (b : Buf) (w : Nat) : Option (Bool × Span) :=
  let (op, f) := vecFields w
  let adv := if f.va % 2 = 1 then vbAdv b * 64 else 0
  let reps := vbRepeat b + 1
  let ts := vbTs b * 64
  if op = 0x40 then some (false, ⟨f.imm, adv, reps, 256⟩)
  else if op = 0x41 then some (true, ⟨f.imm, adv, reps, 256⟩)
  else if op = 0x42 then some (false, ⟨f.imm, adv, reps, 63 * ts + 16⟩)
  else if op = 0x43 then some (true, ⟨f.imm, adv, reps, 63 * ts + 16⟩)
  else if op = 0x54 then some (true, ⟨f.imm / 64 * 64, 0, 1, 48⟩)
  else if op = 0x55 then some (false, ⟨f.imm / 64 * 64, 0, 1, 48⟩)
  else none

/-- The memory instructions of a block (R133). -/
def vecSpans (b : Buf) : List (Bool × Span) := (List.range (vbIcount b)).filterMap fun i => vecSpan b (vbWord b i)

/-- KIND of an item (R73). -/
def itemKind (b : Buf) : Nat := b.fld 0 8

/-- The TAG of an item: a descriptor's own, 0 for a vector block (R97). -/
def itemTag (b : Buf) : Nat :=
  if itemKind b = 0x4D then (Mat.ofBuf b).tag else if itemKind b = 0x44 then (CoreDma.ofBuf b).tag else 0

/-! ### Kernel code -/

/-- `n` bytes of a kernel's code at an offset from its first byte (R70). -/
def State.code (s : State) (core : Nat) (k : Kernel) (off n : Nat) : Nat :=
  if k.guest then s.gstore.load (core * 2 ^ 16 + k.base + off) n else s.kstore.load (core * 2 ^ 18 + k.base + off) n

/-- Profile `i` of a kernel (R73, R113). -/
def State.profile (s : State) (core : Nat) (k : Kernel) (i : Nat) : Profile := profileOf ⟨32, s.code core k (32 * i) 32⟩

/-- The item at an offset, with a vector block's whole body (R73). -/
def State.itemAt (s : State) (core : Nat) (k : Kernel) (off : Nat) : Buf :=
  let h : Buf := ⟨64, s.code core k off 64⟩
  if itemKind h = 0x56 then ⟨vbLen h, s.code core k off (vbLen h)⟩ else h

/-- Reads and writes of an item in own scratch. -/
def State.itemSpans (s : State) (core : Nat) (k : Kernel) (b : Buf) : List Span × List Span :=
  if itemKind b = 0x4D then
    let d := Mat.ofBuf b
    (d.inSpans ++ d.profSpans (s.profile core k d.profile), d.outSpans)
  else if itemKind b = 0x44 then
    let d := CoreDma.ofBuf b
    (d.inSpans, d.outSpans)
  else if itemKind b = 0x56 then
    ((vecSpans b).filterMap fun x => if x.1 then none else some x.2,
     (vecSpans b).filterMap fun x => if x.1 then some x.2 else none)
  else ([], [])

/-- Items issued on a core and not yet finished (R71, R74). -/
def Core.unfinished (c : Core) : List Item :=
  c.mq ++ c.dq ++ c.vq ++ (match c.vact with | some (i, _) => [i] | none => [])
    ++ c.drainq.map (·.2) ++ (match c.drain with | some d => [d.item] | none => [])

/-- R71: a new item must wait for an earlier unfinished one. -/
def State.interlocked (s : State) (core : Nat) (k : Kernel) (b : Buf) : Bool :=
  let (rd, wr) := s.itemSpans core k b
  (s.core core).unfinished.any fun it =>
    let (r, w) := s.itemSpans core k it.body
    spansMeet wr (r ++ w) || spansMeet rd w

/-! ### Outside writes (R72) -/

/-- The fault-class miss of a kernel's own entry in the kernel's step, or of the guest (R72, R76, R87, R107, R138, R374). -/
def State.kernelMiss (s : State) (core : Nat) (k : Kernel) : State :=
  if k.guest then
    (s.onCore core fun c => { c with gflags := { c.gflags with faultMiss := true } }).stopGuest 2 core
  else
    match s.job with
    | none => s
    | some j => s.faultMissOf k.entry (imgEntry j.image k.entry) k.step

/-- The same of a kernel that the device stops (R76, R87, R107, R138): it issues nothing more. -/
def State.kernelFault (s : State) (core : Nat) (k : Kernel) : State :=
  (s.onCore core fun c => { c with kernel := c.kernel.map fun x => { x with stopped := true } }).kernelMiss core k

/-- A write into core scratch from outside the core: performed, and, where it lands on a range of an unfinished item,
counted, raised and a fault-class miss of the running kernel's entry (R72). The kernel itself goes on. -/
def State.outsideWrite (s : State) (core a n v : Nat) (bad : Bool := false) : State :=
  let s := s.scratchWrite core a n v bad
  let c := s.core core
  match c.kernel with
  | none => s
  | some k =>
    match c.unfinished.find? fun it =>
      let (r, w) := s.itemSpans core k it.body
      (r ++ w).any fun x => x.hits a n with
    | none => s
    | some it =>
      let s := s.putCore core { c with conflicts := satAdd 32 c.conflicts 1 }
      (s.raise Ev.scratchConflict core [(16, itemTag it.body)] k.step k.guest).kernelMiss core k

/-! ### Issue -/

/-- The sync object that a kernel awaits carries the skip mark for its step (R76). -/
def State.waitSkipped (s : State) (k : Kernel) (so : Nat) : Bool := (s.so so).step = (k.step : Int) && (s.so so).skip

/-- Whether a wait of a kernel is met: the sync object holds the kernel's step and the count, and no skip mark (R75, R76). -/
def State.waitMet (s : State) (k : Kernel) (so count : Nat) : Bool :=
  (s.so so).reached k.step count && !s.waitSkipped k so

/-- The wait of an item, if it has one. -/
def itemWait (b : Buf) : Option (Nat × Nat) :=
  if itemKind b = 0x4D then
    let d := Mat.ofBuf b
    if d.waitEn then some (d.waitSo, d.waitCount) else none
  else if itemKind b = 0x44 then
    let d := CoreDma.ofBuf b
    if d.waitEn then some (d.waitSo, d.waitCount) else none
  else none

/-- The queue an item goes to is full (R70, R74, R133). -/
def Core.queueFull (c : Core) (b : Buf) : Bool :=
  if itemKind b = 0x4D then 4 ≤ c.mq.length
  else if itemKind b = 0x44 then 4 ≤ c.dq.length
  else 2 ≤ c.vq.length

/-- The earliest CORE cycle of the next issue: 4 after the start or after the last issue (R91). -/
def Kernel.issueFrom (k : Kernel) : Nat := (if k.issuedAny then k.lastIssue else k.startCc) + 4

/-- TID and TAG ranges of a watch slot (R253). -/
def wsTag (b : Buf) : Nat × Nat := (b.fld 40 16, b.fld 56 16)

/-- The commit parameter block (R244). -/
def imgCommit (b : Buf) : Buf := (imgBytes b 0x0C).slice 0 64

/-- Each core's kernels loaded into its kernel store, one after the other in table order (R70, R363, R368); for a guest,
into its guest kernel store. -/
def State.loadKernels (s : State) (b : Buf) (guest : Bool) : State :=
  let code := imgBytes b 0x03
  let size := if guest then 2 ^ 16 else 2 ^ 18
  (List.range 128).foldl (fun (s : State) (c : Nat) =>
    let ks := imgKernels b c
    let v : Buf := Buf.cat (ks.map fun k => code.slice k.codeOff (64 * k.len))
    let put (m : Mem) : Mem := m.store (c * size) size (v.val % 256 ^ size)
    if guest then { s with gstore := put s.gstore } else { s with kstore := put s.kstore }) s

/-- WS_COUNT and the slot entries (R244, R253). -/
def imgSlots (b : Buf) : List Buf :=
  let p := imgCommit b
  (b.drop (p.fld 288 32)).recs 32 (if p.fld 200 16 ≤ 256 then p.fld 200 16 else 256)

/-- The slot in whose TAG range a TAG lies (R253). -/
def slotOfTag (b : Buf) (tag : Nat) : Option Nat :=
  (imgSlots b).findIdx? fun x => (wsTag x).1 ≤ tag && tag ≤ (wsTag x).2

/-- Whether the code of a kernel from `off` on holds an item that writes to the watch area of own scratch (R255, log entry 17). -/
def State.scanWatch (s : State) (core : Nat) (k : Kernel) (lo hi : Nat) : Nat → Nat → Bool
  | 0, _ => false
  | fuel + 1, off =>
    let b := s.itemAt core k off
    if itemKind b = 0x45 || k.codeLen ≤ off then false
    else ((s.itemSpans core k b).2.any fun x => x.hits lo (hi - lo)) || s.scanWatch core k lo hi fuel (off + b.len)

/-- The core's watch kernel: one whose items write records to the watch area (R255, log entry 17). -/
def State.isWatch (s : State) (core : Nat) (k : Kernel) : Bool :=
  match s.job with
  | none => false
  | some j =>
    let w := (imgCommit j.image).fld 320 32
    !k.guest && s.scanWatch core k w (w + 24576) 4096 (alignUp (32 * k.nprof) 64)

/-- In the watch kernel a descriptor of a watched TAG that was not sampled is passed over (R255). -/
def State.passedOver (s : State) (core : Nat) (k : Kernel) (b : Buf) : Bool :=
  match s.job with
  | none => false
  | some j =>
    itemKind b = 0x4D && (slotOfTag j.image (itemTag b)).isSome && !(s.core core).samples.contains (itemTag b)
      && s.isWatch core k

/-- The cycles of a wait on a sync object that began at `t`, counted (R96). -/
def Core.waited (c : Core) (t : Option Nat) (cc : Nat) : Core :=
  match t with
  | some t => { c with waitCycles := satAdd 32 c.waitCycles (cc - t) }
  | none => c

/-- The cycles of a hold under R71 that began at `t`, counted (R96). -/
def Core.locked (c : Core) (t : Option Nat) (cc : Nat) : Core :=
  match t with
  | some t => { c with interlock := satAdd 32 c.interlock (cc - t) }
  | none => c

/-- A tile holds an undrained accumulation: its last descriptor, of a guest or not as `guest` says, did not drain (R92). -/
def Tile.undrained (t : Tile) (guest : Bool) : Bool := t.guestUse = guest && itemKind t.desc = 0x4D && !(Mat.ofBuf t.desc).drain

/-- Tile `i` will hold an undrained accumulation once the descriptors in the queue have run: the last of them on the tile, or
the one that used it last, does not drain (R92). -/
def Core.accumulates (c : Core) (guest : Bool) (i : Nat) : Bool :=
  match (c.mq.filter fun it => (Mat.ofBuf it.body).tile = i).getLast? with
  | some it => !(Mat.ofBuf it.body).drain
  | none => (c.tile i).undrained guest

/-- A kernel that is to end at its next tile boundary, as a guest at the end of its bubble (R374) or a dropped micro-batch's kernel
(R249), issues no item that begins a new accumulation, and none at all where no tile holds an undrained accumulation of it, which
is its tile boundary (R92). -/
def Core.closingHolds (c : Core) (guest : Bool) (b : Buf) : Bool :=
  c.closing && ((itemKind b = 0x4D && !(Mat.ofBuf b).cont) || !(c.accumulates guest 0 || c.accumulates guest 1))

/-- An ACC_READ that is not yet answered holds the core's kernel at its next item boundary (R110, R417, log entry 140). -/
def State.accHeld (s : State) (c : Core) : Bool :=
  match c.accHold with
  | none => false
  | some mb => match (s.mbox mb).cmds with | x :: _ => x.entry.fld 0 16 = 0x0A02 | [] => false

/-- ITEM_ISSUE (R74): the sequencer issues the next item to its engine's queue, or holds it: for its wait, for a full
queue, or under R71. A kernel held by an ACC_READ issues nothing (R110). -/
def State.itemIssue (s : State) (core : Nat) : State :=
  let c := s.core core
  match c.kernel with
  | none => s
  | some k =>
    let cc := s.dieCc (core / 16)
    let b := s.itemAt core k k.pos
    let kind := itemKind b
    if k.stopped || k.ended || s.accHeld c || cc < k.issueFrom || !(kind = 0x4D || kind = 0x44 || kind = 0x56) then s
    else if c.closingHolds k.guest b then s
    else if s.passedOver core k b then
      let k := { k with pos := k.pos + 64, nextIndex := k.nextIndex + 1, passed := k.passed + 1, lastIssue := cc,
                        issuedAny := true, waitFrom := none, lockFrom := none }
      s.putCore core { c with kernel := some k }
    else
      match itemWait b with
      | some (so, n) =>
        if s.waitMet k so n then issue s c k cc b
        else s.putCore core { c with kernel := some { k with waitFrom := some (k.waitFrom.getD cc) } }
      | none => issue s c k cc b
where
  /-- The item goes to its queue unless R71 or a full queue holds it. A wait that is met has ended, and so has a hold under R71
  that no longer holds: each is counted by itself (R96). -/
  issue (s : State) (c : Core) (k : Kernel) (cc : Nat) (b : Buf) : State :=
    let c := c.waited k.waitFrom cc
    let k := { k with waitFrom := none }
    if s.interlocked core k b then
      s.putCore core { c with kernel := some { k with lockFrom := some (k.lockFrom.getD cc) } }
    else if c.queueFull b then
      s.putCore core { c.locked k.lockFrom cc with kernel := some { k with lockFrom := none } }
    else
      let it : Item := ⟨k.pos, k.nextIndex, b, cc, none⟩
      let c := c.locked k.lockFrom cc
      let k := { k with pos := k.pos + b.len, nextIndex := k.nextIndex + 1, lastIssue := cc, issuedAny := true,
                        waitFrom := none, lockFrom := none }
      let c := { c with kernel := some k }
      s.putCore core (if itemKind b = 0x4D then { c with mq := c.mq ++ [it] }
        else if itemKind b = 0x44 then { c with dq := c.dq ++ [it] }
        else { c with vq := c.vq ++ [it] })

@[inherit_doc State.itemIssue]
def execItemIssue (at_ core : Nat) (s : State) : Res := .next ((s.tick at_).itemIssue core)

/-- KERNEL_END (R73): the sequencer reaches the END item. -/
def State.kernelEnd (s : State) (core : Nat) : State :=
  let c := s.core core
  match c.kernel with
  | none => s
  | some k =>
    let cc := s.dieCc (core / 16)
    if k.stopped || k.ended || s.accHeld c || cc < k.issueFrom || itemKind (s.itemAt core k k.pos) ≠ 0x45 then s
    else s.onCore core fun c => { c with kernel := some { k with ended := true, lastDone := Nat.max k.lastDone cc } }

@[inherit_doc State.kernelEnd]
def execKernelEnd (at_ core : Nat) (s : State) : Res := .next ((s.tick at_).kernelEnd core)

/-- Nothing issued on the core is unfinished. -/
def Core.drained (c : Core) : Bool := c.unfinished.isEmpty

/-- A tile boundary: an item boundary at which nothing issued is unfinished and no tile holds an undrained accumulation (R92). -/
def Core.tileBoundary (c : Core) (guest : Bool) : Bool := c.drained && !c.tile0.undrained guest && !c.tile1.undrained guest

/-- The next VWAIT of the active vector block, if that is what it waits on. -/
def Core.vecWait (c : Core) : Option (Nat × Nat) :=
  match c.vact with
  | none => none
  | some (it, v) =>
    let n := vbIcount it.body
    if n = 0 || n * (vbRepeat it.body + 1) ≤ v.done then none
    else
      let (op, f) := vecFields (vbWord it.body (v.done % n))
      if op = 0x70 then some (bits f.imm 0 16, bits f.imm 16 16) else none

/-- KERNEL_WAIT_FAULT (R76): a wait of the kernel is unmet at the end of the footprint, or its sync object carries the
skip mark for the step; the kernel stops before the waiting item, and the cycles of the wait count (R96). -/
def State.kernelWaitFault (s : State) (core : Nat) : State :=
  let c := s.core core
  match c.kernel with
  | none => s
  | some k =>
    let cc := s.dieCc (core / 16)
    let b := s.itemAt core k k.pos
    let failed (w : Nat × Nat) : Bool :=
      !s.waitMet k w.1 w.2 && (k.limitJt ≤ s.jt || s.waitSkipped k w.1)
    if k.stopped then s
    else
      match c.vecWait with
      | some w =>
        if failed w then
          let s := s.putCore core ({ c with vact := none, vq := [] }.waited k.vwaitFrom cc)
          (s.raise Ev.kernelWaitFault core [(16, 0)] k.step k.guest).kernelFault core k
        else s
      | none =>
        match if k.ended then none else itemWait b with
        | some w =>
          if failed w then
            ((s.putCore core (c.waited k.waitFrom cc)).raise Ev.kernelWaitFault core [(16, itemTag b)] k.step
              k.guest).kernelFault core k
          else s
        | none => s

@[inherit_doc State.kernelWaitFault]
def execKernelWaitFault (at_ core : Nat) (s : State) : Res := .next ((s.tick at_).kernelWaitFault core)

/-- The kernel of a guest that follows kernel `i`: the next of the table, the first again after the last (R374). -/
def Guest.nextKernel (g : Guest) (core i : Nat) : Nat :=
  let n := (imgKernels g.image core).length
  if n = 0 then 0 else (i + 1) % n

/-! ### Starting kernels -/

/-- The promoted kernel of a kernel, where a promoted slot lists it (R253, R255). -/
def promotedKernel (b : Buf) (promoted core idx : Nat) : Nat :=
  let slots := imgSlots b
  let base := (imgCommit b).fld 288 32 + 32 * slots.length
  let hits := (List.range slots.length).filterMap fun i =>
    if !promoted.testBit i then none
    else
      let x := slots.getD i Buf.empty
      ((List.range (x.fld 212 12)).map fun j => b.slice (base + 8 * (x.fld 192 20 + j)) 8).find? fun m =>
        m.fld 0 7 = core && m.fld 7 10 = idx
  match hits with
  | [] => idx
  | m :: _ => m.fld 17 10

/-- A main entry finds a core held by the guest: the guest is stopped at its next tile boundary (R92, R376). -/
def State.blameGuest (s : State) (core : Nat) : State :=
  match (s.core core).kernel with
  | some k =>
    if k.guest then
      s.onCore core fun c => { c with closing := true, overran := true, closeCc := if c.closing then c.closeCc else s.dieCc (core / 16) }
    else s
  | none => s

/-! ### Guest bubbles (R92, R139, R374) -/

/-- Scratch address at which a suspended guest's vector state is saved: the last 9 KiB of its scratch partition (R139). -/
def guestSaveAddr : Nat := scratchSize - 9 * 1024

/-- The bytes of a saved vector state: registers, masks, channels and VFLAGS, 8,512 in all (R139). The spec gives their
size and not their order (log entry 25). MK0 reads all ones (R122). -/
def VState.image (v : VState) : Nat :=
  let regs := (List.range 2048).foldr (fun i a => (tget 0 v.regs i).toNat + a <<< 32) 0
  let masks := (List.range 8).foldr (fun i a => (if i = 0 then 2 ^ 64 - 1 else (tget 0 v.masks i).toNat) + a <<< 64) 0
  let chans := (List.range 4).foldr (fun i a =>
    let c := tget Channel.reset v.chans i
    (wrap 320 c.q + c.spec <<< 320 + c.count <<< 324) + a <<< 384) 0
  let flags := b2n v.fInvalid + 2 * b2n v.fOver + 4 * b2n v.fUnder + 8 * b2n v.fClip
  regs + masks <<< 65536 + chans <<< 66048 + flags <<< 67584

/-- The vector state that a saved image holds (R139); MK0 has no storage (R122). -/
def VState.ofImage (x : Nat) : VState :=
  { regs := (List.range 2048).foldr (fun i l => let w : Lane := BitVec.ofNat 32 (x >>> (32 * i)); if w = 0 then l else (i, w) :: l) []
    masks := (List.range 7).foldr (fun i l =>
      let w : BitVec 64 := BitVec.ofNat 64 (x >>> (65600 + 64 * i)); if w = 0 then l else (i + 1, w) :: l) []
    chans := (List.range 4).foldr (fun i l =>
      let a := 66048 + 384 * i
      let c : Channel := ⟨sext 320 (bits x a 320), bits x (a + 320) 2, bits x (a + 324) 41⟩
      if c = Channel.reset then l else (i, c) :: l) []
    fInvalid := x.testBit 67584, fOver := x.testBit 67585, fUnder := x.testBit 67586, fClip := x.testBit 67587 }

/-- A guest kernel of a core at its first item, within the bubble that entry `entry` opened; `q` is the count of R141 so far. The
spec names no footprint that bounds a guest's waits, so the model sets no limit (DESIGN CHOICE, log entry 133). -/
def State.guestKernel (s : State) (g : Guest) (core idx entry q : Nat) : Option Kernel :=
  let ks := imgKernels g.image core
  match ks[idx]? with
  | none => none
  | some r =>
    some { index := idx, entry := entry, guest := true, base := kernelBase ks idx, nprof := r.nprof,
           codeLen := 64 * r.len, step := s.stepNo, startCc := s.dieCc (core / 16),
           plannedJt := match s.job with | none => 0 | some j => plannedJt j.image j.step entry,
           limitJt := 2 ^ 63, pos := alignUp (32 * r.nprof) 64, nextIndex := 0, lastIssue := 0, issuedAny := false,
           stopped := false, ended := false, lastDone := s.dieCc (core / 16), qCount := q, passed := 0,
           waitFrom := none, lockFrom := none, vwaitFrom := none }

/-- A suspended guest kernel resumes: its vector state is read back from its scratch partition in 40 CORE cycles (R139), after
which it may issue. Its draws go on from the action that started it, since suspended cycles are not counted (R141, log entry
134). A read that finds the save area bad stops the guest (R170). -/
def State.resumeGuest (s : State) (core : Nat) (k : Kernel) (step : Nat) : State :=
  let cc := s.dieCc (core / 16)
  let (img, s) := s.scratchRead core guestSaveAddr 8512 (.core core true)
  if s.guest.any (·.stopped) then s
  else
    s.onCore core fun c =>
      { c with kernel := some { k with step, issuedAny := false, startCc := cc + 36, lastDone := cc }
               v := VState.ofImage img, guest := { c.guest with kernel := none } }

/-- The guest resumes on a core where it was suspended, or starts its next kernel; with no guest attached, or one that is
stopped, the action completes at once (R374). -/
def State.startBubble (s : State) (j : Job) (i : Nat) (e : Entry) : State :=
  let core := e.target
  match s.guest with
  | none => s.completeEntry i j.step
  | some g =>
    let g := { g with pending := false }
    let s := { s with guest := some g }
    if g.stopped || g.leaving then s.completeEntry i j.step
    else
      let c := s.core core
      let s := s.putCore core { c with bubble := some e.arg, bubbleEntry := i, bubbleQ := 0, closing := false }
      let s := match c.guest.kernel with
        | some k => s.resumeGuest core k j.step
        | none =>
          match s.guestKernel g core c.guest.next i 0 with
          | none => s
          | some k => s.onCore core fun c => { c with kernel := some k, v := .reset }
      s.completeEntry i j.step

/-- OPEN_GUEST_BUBBLE (R374): timetable action 0x02. -/
def State.openBubble (s : State) (i : Nat) : State := s.dispatch i 0x02 fun s j e => s.startBubble j i e

@[inherit_doc State.openBubble]
def execOpenGuestBubble (at_ entry : Nat) (s : State) : Res := .next ((s.tick at_).openBubble entry)

/-- A guest is told to end at its next tile boundary; a core without one has its bubble closed (R92, R374). -/
def State.startClose (s : State) (j : Job) (i : Nat) (e : Entry) : State :=
  (s.onCore e.target fun c =>
    match c.kernel with
    | some k => if k.guest then { c with closing := true, closeCc := s.dieCc (e.target / 16) } else { c with bubble := none }
    | none => { c with bubble := none }).completeEntry i j.step

/-- CLOSE_GUEST_BUBBLE (R92, R374): timetable action 0x03. From here the guest begins no new accumulation and is suspended
at its next tile boundary. The guest's own kernel does not keep the action from starting. -/
def State.closeBubble (s : State) (i : Nat) : State :=
  match s.entry? i with
  | none => s
  | some (j, e) =>
    if e.action ≠ 0x03 then s
    else
      match s.judge j i e true with
      | .start => (s.beginEntry i e (j.sn + e.offset)).startClose j i e
      | d => s.notStarted j i e d

@[inherit_doc State.closeBubble]
def execCloseGuestBubble (at_ entry : Nat) (s : State) : Res := .next ((s.tick at_).closeBubble entry)

/-- GUEST_TILE_BOUNDARY (R92, R139, R374): a closing guest has reached its tile boundary and is suspended there, its vector
state saved in its scratch partition in 40 CORE cycles. A kernel that has reached its END is finished, and the next bubble
starts the one after it. -/
def State.guestBoundary (s : State) (core : Nat) : State :=
  let c := s.core core
  match c.kernel with
  | none => s
  | some k =>
    if !k.guest || !c.closing || !c.tileBoundary true || s.dieCc (core / 16) < Nat.max k.lastDone c.closeCc + 40 then s
    else
      let s := s.scratchWrite core guestSaveAddr 8512 c.v.image
      let next := match s.guest with | some g => g.nextKernel core k.index | none => 0
      let s := if k.ended then { s with guest := s.guest.map fun g => { g with done := g.done + 1 } } else s
      let gc : GuestCore := if k.ended || k.stopped then ⟨none, next⟩ else { c.guest with kernel := some k }
      let s := s.onCore core fun c =>
        { c with kernel := none, closing := false, overran := false, bubble := none, guest := gc, v := .reset }
      (if c.overran then s.stopGuest 3 core else s).detachGuest

@[inherit_doc State.guestBoundary]
def execGuestTileBoundary (at_ core : Nat) (s : State) : Res := .next ((s.tick at_).guestBoundary core)

end Sys2Proof.Machine
end

