-- ==== Sys2Proof/Machine/Shard.lean ====
section
/-! DEFINITION. Shard descriptors, logical blocks and the state run of a shard (R180 to R183). -/

namespace Sys2Proof.Machine

/-! ### Shard descriptors (R180 to R183) -/

/-- A shard descriptor (R182). -/
structure Shard where
  id : Nat
  fragment : Nat
  wErg : Bool
  direct : Bool
  afx32 : Bool
  fp16 : Bool
  adam : Bool
  snaps : Nat
  raxes : Nat
  epoch : Nat
  lbRows : Nat
  lbCols : Nat
  slRow : Nat
  slCol : Nat
  slNr : Nat
  slNc : Nat
  owRow : Nat
  owCol : Nat
  owNr : Nat
  owNc : Nat
  stateEla : Nat
  wOasis : Nat
  gAddr : Nat
  anAddr : Nat
  shAddr : Nat
  rbAddr : Nat
  deriving DecidableEq, Repr, Inhabited

/-- The fields of a shard descriptor (R182). -/
def Shard.ofBuf (b : Buf) : Shard :=
  { id := b.fld 0 20, fragment := b.fld 20 6, wErg := b.flag 26, direct := b.flag 27, afx32 := b.flag 28,
    fp16 := b.flag 29, adam := b.flag 30, snaps := b.fld 32 3, raxes := b.fld 35 4, epoch := b.fld 48 16,
    lbRows := b.fld 64 16, lbCols := b.fld 80 16, slRow := b.fld 96 16, slCol := b.fld 112 16, slNr := b.fld 128 16,
    slNc := b.fld 144 16, owRow := b.fld 160 16, owCol := b.fld 176 16, owNr := b.fld 192 16, owNc := b.fld 208 16,
    stateEla := b.fld 224 43, wOasis := b.fld 288 32, gAddr := b.fld 320 32, anAddr := b.fld 352 32,
    shAddr := b.fld 384 32, rbAddr := b.fld 416 32 }

/-- The shard descriptors of an image, in table order. -/
def imgShards (b : Buf) : List Shard := (imgRecs b 0x09 0 64).map Shard.ofBuf

/-- The shard descriptor of a tensor. -/
def imgShard (b : Buf) (tensor : Nat) : Option Shard := (imgShards b).find? fun x => x.id = tensor

/-- The layout epoch of an image: that of its shard descriptors (R182, R288). -/
def imgEpoch (b : Buf) : Nat := (imgShards b).foldl (fun a x => Nat.max a x.epoch) 0

/-- Elements of a logical block, AFX blocks of one, elements of the shard, AFX blocks of the slice. -/
def Shard.lbElems (x : Shard) : Nat := x.lbRows * x.lbCols
@[inherit_doc Shard.lbElems] def Shard.lbSubs (x : Shard) : Nat := x.lbElems / 256
@[inherit_doc Shard.lbElems] def Shard.elems (x : Shard) : Nat := x.owNr * x.owNc * x.lbElems
@[inherit_doc Shard.lbElems] def Shard.sliceSubs (x : Shard) : Nat := x.slNr * x.slNc * x.lbSubs

/-- The device owns a shard of the tensor (R182). -/
def Shard.owns (x : Shard) : Bool := x.owNr ≠ 0

/-- The logical blocks of the shard, in block order (R180). -/
def Shard.blocks (x : Shard) : List (Nat × Nat) :=
  (List.range x.owNr).flatMap fun r => (List.range x.owNc).map fun c => (x.owRow + r, x.owCol + c)

/-- A logical block lies in the shard. -/
def Shard.ownsBlock (x : Shard) (r c : Nat) : Bool :=
  decide (x.owRow ≤ r) && decide (r < x.owRow + x.owNr) && decide (x.owCol ≤ c) && decide (c < x.owCol + x.owNc)

/-- A logical block lies in the slice. -/
def Shard.hasBlock (x : Shard) (r c : Nat) : Bool :=
  decide (x.slRow ≤ r) && decide (r < x.slRow + x.slNr) && decide (x.slCol ≤ c) && decide (c < x.slCol + x.slNc)

/-- Place of a logical block in the shard, and in the slice (R180). -/
def Shard.ownIdx (x : Shard) (r c : Nat) : Nat := (r - x.owRow) * x.owNc + (c - x.owCol)
@[inherit_doc Shard.ownIdx] def Shard.sliceIdx (x : Shard) (r c : Nat) : Nat := (r - x.slRow) * x.slNc + (c - x.slCol)

/-- The copies of a shard in its state run (R183). -/
inductive Copy where
  | inner | second | anchor | outer | residual | snapshot (slot : Nat) | weight
  deriving DecidableEq, Repr

/-- Bytes per element of a copy. -/
def Copy.width : Copy → Nat
  | .second | .anchor | .outer => 4
  | _ => 2

/-- Offset of a copy in the state run (R183). -/
def Shard.copyOff (x : Shard) (c : Copy) : Nat :=
  let s2 := alignUp (2 * x.elems) (2 ^ 21)
  let s4 := alignUp (4 * x.elems) (2 ^ 21)
  let sec := if x.adam then s4 else 0
  match c with
  | .inner => 0
  | .second => s2
  | .anchor => s2 + sec
  | .outer => s2 + sec + s4
  | .residual => s2 + sec + 2 * s4
  | .snapshot k => s2 + sec + 2 * s4 + s2 + k * s2
  | .weight => s2 + sec + 2 * s4 + s2 + x.snaps * s2

/-- Length of the state run (R183). -/
def Shard.runLen (x : Shard) : Nat := x.copyOff .weight + (if x.wErg then alignUp (2 * x.elems) (2 ^ 21) else 0)

/-- The slot and the offset in it of an ELA that lies in a snapshot copy of the shard. -/
def Shard.snapAt (x : Shard) (ela : Nat) : Option (Nat × Nat) :=
  let base := x.stateEla + x.copyOff (.snapshot 0)
  let len := alignUp (2 * x.elems) (2 ^ 21)
  if x.owns && base ≤ ela && ela < base + x.snaps * len then some ((ela - base) / len, (ela - base) % len) else none

end Sys2Proof.Machine
end

