-- ==== Sys2Proof/Machine/Erg.lean ====
section
/-! DEFINITION. Erg (R148 to R178) and the die DMA engine (R369): bring-up, windows, line reads and writes, refresh,
temperature, patrol scrub, device marks, page retirement, and transfer lists. -/

namespace Sys2Proof.Machine

/-! ### Bring-up (R148, R149) -/

/-- The rates of R148 by kind, highest first. -/
def ergRates (mrdimm : Bool) : List Nat :=
  if mrdimm then [12800, 10400, 8800] else [6400, 6000, 5600, 5200, 4800, 4400, 4000, 3600, 3200]

/-- A DIMM of a kind, capacity, density and width that R148 lists. -/
def dimmListed (d : Dimm) : Bool :=
  d.width = 4 && d.checks &&
    ((d.capacity = 64 && d.density = 16 && d.ranks = 2) || (d.capacity = 128 && d.density = 32 && d.ranks = 2)
      || (d.mrdimm && d.capacity = 256 && d.density = 32 && d.ranks = 4))

/-- Two DIMMs that R149 lets stand together. -/
def dimmAlike (a b : Dimm) : Bool :=
  a.mrdimm = b.mrdimm && a.capacity = b.capacity && a.ranks = b.ranks && a.density = b.density && a.width = b.width

/-- The highest R148 rate that every DIMM present supports (R149). -/
def ergCommonRate (l : List Dimm) : Option Nat :=
  let here := (l.take 32).filter (·.present)
  match here with
  | [] => none
  | d :: _ => (ergRates d.mrdimm).find? fun r => here.all fun x => (ergRates x.mrdimm).contains r && x.rates.contains r

/-- The reasons of R149 by channel: (channel, reason), the lowest that holds of each. -/
def ergReasons (l : List Dimm) : List (Nat × Nat) :=
  let at_ (c : Nat) : Dimm := l.getD c ⟨false, false, 0, 0, 0, 0, false, []⟩
  let ref := ((List.range 32).map at_).find? fun d => d.present && dimmListed d
  (List.range 32).filterMap fun c =>
    let d := at_ c
    if !d.present then some (c, 1)
    else if !dimmListed d then some (c, 2)
    else match ref with
      | some r => if !dimmAlike d r then some (c, 3) else if (ergCommonRate l).isNone then some (c, 4) else none
      | none => none

/-- ERG_BRINGUP (R149): Erg training completes and the population is checked. -/
def State.ergBringup (s : State) (dimms : List Dimm) : State :=
  if !s.erg.training then s
  else
    let s := s.onErg fun e => { e with training := false }
    let bad (s : State) (l : List (Nat × Nat)) : State :=
      l.foldl (fun s x => s.raise Ev.ergPopulation x.1 [(16, x.2)]) s
    match ergReasons dimms, ergCommonRate dimms, dimms with
    | [], some r, d :: _ =>
      let s := s.onErg fun e => { e with ready := true, capacity := d.capacity, density := d.density, ranks := d.ranks,
                                         mrdimm := d.mrdimm, rate := r }
      -- patrol scrub begins its first pass (R171, R177)
      (List.range 32).foldl (fun s c => s.onChan c fun x => { x with scrubStart := s.now, idleFrom := s.now }) s
    | l, _, _ => bad s l

@[inherit_doc State.ergBringup]
def execErgBringup (at_ : Nat) (dimms : List Dimm) (s : State) : Res := .next ((s.tick at_).ergBringup dimms)

/-! ### Windows (R153 to R157) -/

/-- The USER code of R155, where the user is one of windows. -/
def userCode : ErgUser → Option Nat
  | .dma => some 0 | .update => some 1 | .spill => some 2 | .cistW => some 3 | .cistR => some 4 | .acxRx => some 5
  | .exportRd => some 6 | .maint => some 7
  | .openDma => none | .openAcrix => none | .openRilseti => none

/-- A window descriptor of the image (R154). -/
def imgWindow (b : Buf) (i : Nat) : Buf := imgRec b 0x06 0 64 i

/-- SLOTS of a user in a window descriptor, 0 where it has no share (R154). -/
def windowSlots (w : Buf) (user : Nat) : Nat :=
  match (List.range (w.fld 8 4)).find? fun k => w.fld (64 + 32 * k) 4 = user with
  | some k => w.fld (64 + 32 * k + 8) 7
  | none => 0

/-- A window's mode carries reads (or writes) (R157). -/
def windowCarries (w : Buf) (write : Bool) : Bool := w.fld 0 8 = 3 || w.fld 0 8 = (if write then 2 else 1)

/-- Usable slots of a group of 40 ns by mode at a data rate in MT/s (R153). -/
def usableSlots (mode rate : Nat) : Nat := if mode = 3 then 3 * rate / 800 else 7 * rate / 1600

/-- The ns of its group in which usable slot `j` starts: ERG_CTL edge floor(64 j * 200 / R), at 1.6 GHz (R20, R153). -/
def slotNs (rate j : Nat) : Nat := 64 * j * 200 / rate * 5 / 8

/-- The user whose share holds slot `j` of a window's groups: the entries take contiguous runs in order (R156). -/
def shareUser (w : Buf) (j : Nat) : Option Nat :=
  ((List.range (w.fld 8 4)).find? fun k => j < ((List.range (k + 1)).map fun i => w.fld (72 + 32 * i) 7).sum).map fun k =>
    w.fld (64 + 32 * k) 4

/-- Nanoseconds of the refresh footprint of the installed devices (R161). -/
def Erg.refreshNs (e : Erg) : Nat := if e.density = 16 then 320 else 430

/-- The HALL clock runs and HT places refreshes (R163). -/
def State.htRefreshes (s : State) : Bool :=
  (s.ht.state = .acquiring || s.ht.state = .locked || s.ht.state = .holdover) &&
    (match s.aon.phase with | .inReset _ _ full => !full | .powerOff => false | _ => true)

/-- JT lies within the period of the running step, whose timetable then places windows and refreshes (R50, R160); before the
first step, in a step's extension, and with the job stopped or none armed the controller itself refreshes (R160, R163). -/
def State.inPeriod (s : State) : Bool :=
  match s.job with
  | none => false
  | some j => j.runs && !j.fresh && (j.sn : Int) ≤ s.jtInt && s.jtInt < (j.sn + imgPeriod j.image : Nat)

/-- The first refresh instant of a channel after the instant `at_` ns (R160, R163). -/
def State.nextRefresh (s : State) (ch at_ : Nat) : Nat :=
  let c := s.chan ch
  if s.htRefreshes then
    let p := if c.highRate then 1950 else 3900
    at_ + (p - (wrap 64 ((at_ : Int) + s.ht.off)) % p)
  else c.lastRefresh + (if c.highRate then 48 * 40 else 97 * 40)

/-- The first instant after `at_` ns at which an entry of the running step is to open a window of a channel. -/
def State.nextWindow (s : State) (ch at_ : Nat) : Option Nat :=
  match s.job with
  | none => none
  | some j =>
    if !s.inPeriod then none
    else
      ((List.range (imgEntries j.image)).filterMap fun i =>
        let e := imgEntry j.image i
        let due := s.now + (j.sn + e.offset) - s.jt
        if e.target = 0x90 + ch && e.action = 0x30 && (s.ent i = .idle || s.ent i = .waiting) && at_ < due then some due
        else none).min?

/-- The group of 40 ns that now runs on a channel: its start in ns, its mode, and the descriptor of its window (R153). Outside
windows it is a group of the MIXED pattern, which starts at the end of a refresh footprint or window and is used only where it
fits before the next (R159). -/
def State.groupNow (s : State) (ch : Nat) : Option (Nat × Nat × Option Buf) :=
  let c := s.chan ch
  match c.window, s.job with
  | some (_, i, start, fin), some j =>
    let g := (s.jt - start) / 40
    if s.jt < start || fin < start + 40 * (g + 1) then none
    else some (s.now - (s.jt - start) % 40, (imgWindow j.image i).fld 0 8, some (imgWindow j.image i))
  | _, _ =>
    let at_ := s.now - (s.now - c.idleFrom) % 40
    let next := match s.nextWindow ch at_ with
      | some t => Nat.min t (s.nextRefresh ch at_)
      | none => s.nextRefresh ch at_
    if s.now < c.idleFrom || next < at_ + 40 then none else some (at_, 3, none)

/-- A mode carries reads (or writes) (R157). -/
def modeCarries (mode : Nat) (write : Bool) : Bool := mode = 3 || mode = (if write then 2 else 1)

/-- A user waits for a line in a direction that a mode carries. Maintenance always has the next line of the scrub to read,
except in HOLD (R171, R445). -/
def State.waits (s : State) (ch mode : Nat) (p : ErgUser → Bool) : Bool :=
  (s.chan ch).queue.any (fun r => p r.user && modeCarries mode r.write) ||
    (p .maint && modeCarries mode false && s.aon.power ≠ .hold)

/-- Open class is served in rotation among the die DMA engine, the Acrix engine and the management processor (R159). -/
def openOrder : ErgUser → List ErgUser
  | .openDma => [.openAcrix, .openRilseti, .openDma]
  | .openAcrix => [.openRilseti, .openDma, .openAcrix]
  | _ => [.openDma, .openAcrix, .openRilseti]

/-- Whether the turn of open class is a user's: no user before it in the rotation waits (R159). -/
def State.openTurn (s : State) (ch mode : Nat) (user : ErgUser) : Bool :=
  ((openOrder (s.chan ch).rotor).takeWhile (· ≠ user)).all fun u => !s.waits ch mode (· = u)

/-- Slot `j` of the running group serves a user: a share slot its own user, and any other slot open class; a share slot whose
user waits for nothing that the window carries serves open class (R156, R157, R159). Outside windows patrol scrub and copies run
in open class (R171). -/
def State.slotServes (s : State) (ch mode : Nat) (w : Option Buf) (j : Nat) (user : ErgUser) : Bool :=
  let open_ := (userCode user).isNone && s.openTurn ch mode user
  match w with
  | none => open_ || user = .maint
  | some w =>
    match shareUser w j with
    | some u => userCode user = some u || (open_ && !s.waits ch mode fun x => userCode x = some u)
    | none => open_

/-- The slot in which a line of a user may be served on a channel now: its group's start and its number (R153, R156 to R159,
R171). -/
def State.ergSlot (s : State) (ch : Nat) (user : ErgUser) (write : Bool) : Option (Nat × Nat) :=
  match s.groupNow ch with
  | none => none
  | some (at_, mode, w) =>
    let c := s.chan ch
    let used := if c.groupAt = at_ then c.groupUsed else []
    if !s.erg.ready || !modeCarries mode write then none
    else
      ((List.range (usableSlots mode s.erg.rate)).find? fun j =>
        slotNs s.erg.rate j = s.now - at_ && !used.contains j && s.slotServes ch mode w j user).map fun j => (at_, j)

/-- A user may have a line served on a channel now. -/
def State.ergMay (s : State) (ch : Nat) (user : ErgUser) (write : Bool) : Bool := (s.ergSlot ch user write).isSome

/-- The slot is taken. -/
def State.takeSlot (s : State) (ch : Nat) (user : ErgUser) (write : Bool) : State :=
  match s.ergSlot ch user write with
  | none => s
  | some (at_, j) =>
    s.onChan ch fun c =>
      { c with groupAt := at_, groupUsed := if c.groupAt = at_ then j :: c.groupUsed else [j]
               rotor := if (userCode user).isNone then user else c.rotor }

/-- Groups of the open window that have ended since they were last judged, counted in SHARE_WAITS where a request of a share's
user still waits: it waited beyond its share (R156). -/
def State.judgeShares (s : State) (ch : Nat) : State :=
  let c := s.chan ch
  match c.window, s.job with
  | some (_, i, start, fin), some j =>
    let w := imgWindow j.image i
    let beyond := c.queue.any fun r => match userCode r.user with
      | some u => windowSlots w u ≠ 0 && windowCarries w r.write
      | none => false
    let ended (t : Nat) : Nat := (Nat.min t fin - start) / 40
    let n := ended s.jt - ended (s.jt - (s.now - c.sharesAt))
    s.putChan ch { c with sharesAt := s.now, shareWaits := if beyond then satAdd 32 c.shareWaits n else c.shareWaits }
  | _, _ => s

/-- A window begins: it lasts DURATION from its start, cut at `fin`, the end of the footprint that holds it (R153). -/
def State.startWindow (s : State) (i : Nat) (e : Entry) (fin : Nat) : State :=
  s.onChan (e.target - 0x90) fun c =>
    { c with window := some (i, e.arg, s.jt, Nat.min (s.jt + e.duration) fin), sharesAt := s.now }

/-- OPEN_SCHEDULED_WINDOW (R153): timetable action 0x30. -/
def State.openWindow (s : State) (i : Nat) : State := s.dispatch i 0x30 fun s j e => s.startWindow i e (j.sn + e.finish)

@[inherit_doc State.openWindow]
def execOpenScheduledWindow (at_ entry : Nat) (s : State) : Res := .next ((s.tick at_).openWindow entry)

/-- ERG_WINDOW_END (R153): the window closes and its action completes; one that was cut is a fault-class miss (R64). -/
def State.windowEnd (s : State) (ch : Nat) : State :=
  match (s.chan ch).window, s.job with
  | some (i, _, start, fin), some j =>
    let e := imgEntry j.image i
    if s.jt < fin then s
    else
      let s := (s.judgeShares ch).onChan ch fun c => { c with window := none, idleFrom := s.now - (s.jt - fin) }
      if fin < start + e.duration then s.faultMiss i e else s.completeEntry i j.step
  | _, _ => s

@[inherit_doc State.windowEnd]
def execErgWindowEnd (at_ ch : Nat) (s : State) : Res := .next ((s.tick at_).windowEnd ch)

/-! ### Lines (R164 to R168) -/

/-- What the decoder finds in a line (R165, R166). -/
inductive LineRead where
  | clean
  | corrected (pos : Nat)
  | poison
  | bad
  deriving DecidableEq, Repr

/-- What the eight codewords of a line find together (R166). -/
def lineOf (l : List CodeRead) : LineRead :=
  let pos := (l.filterMap fun r => match r with | .single j _ => some j | _ => none).dedup
  if l.contains .bad || 2 ≤ pos.length then .bad
  else if l.contains .poison then .poison
  else match pos with
    | p :: _ => .corrected p
    | [] => .clean

/-- The decoding of each codeword of the line at a physical place, with what the array adds at this read. -/
def State.lineCodes (s : State) (key : Nat) (mark : Option Nat) (up : List Upset) : List CodeRead :=
  (List.range 8).map fun k =>
    let (x, y) := s.erg.ram.chkOf (key / 8 + k)
    let (s0, s1) := syndromes ((8, x) :: (9, y) :: upsetErrs up k)
    decodeSyn mark s0 s1

/-- The 64 data bytes as the array shows them at this read. -/
def State.lineRaw (s : State) (key : Nat) (up : List Upset) : Nat :=
  (up.filter fun u => u.codeword < 8 && u.symbol < 8).foldl (fun v u => v ^^^ (u.err.toNat <<< (8 * (8 * u.codeword + u.symbol))))
    (s.erg.ram.data.load key 64)

/-- The same corrected. -/
def fixLine (raw : Nat) (codes : List CodeRead) : Nat :=
  ((List.range 8).zip codes).foldl (fun v c =>
    match c.2 with
    | .single j e => if j < 8 then v ^^^ (e <<< (8 * (8 * c.1 + j))) else v
    | _ => v) raw

/-- The device mark of a channel, rank and subchannel (R167). -/
def State.markOf (s : State) (ch rs : Nat) : Option Nat :=
  (s.isl.marks.find? fun m => m.1 = ch && m.2.1 = rs).map (·.2.2)

/-! ### Retirement (R173 to R176) -/

/-- The logical frame that a physical frame serves, if any (R151). -/
def State.logicalOf (s : State) (ch frame : Nat) : Option Nat :=
  if frame < s.erg.usable then
    if s.isl.redirect.any fun r => r.1 = ch && r.2.1 = frame then none else some frame
  else (s.isl.redirect.find? fun r => r.1 = ch && s.erg.usable + r.2.2 = frame).map (·.2.1)

/-- Spare frames of a channel in service or retired. -/
def State.sparesTaken (s : State) (ch : Nat) : List Nat :=
  (s.isl.redirect.filterMap fun r => if r.1 = ch then some r.2.2 else none)
    ++ (s.isl.badSpares.filterMap fun r => if r.1 = ch then some r.2 else none)

/-- The lowest free spare of a channel (R174). -/
def State.freeSpare (s : State) (ch : Nat) : Option Nat := (List.range 128).find? fun i => !(s.sparesTaken ch).contains i

/-- A frame is to be retired (R173 to R175): a spare not in service is set aside, a frame in service starts its copy, or waits
for the copy that runs on its channel. -/
def State.retire (s : State) (ch frame : Nat) : State :=
  match s.logicalOf ch frame with
  | none =>
    if frame < s.erg.usable || (s.isl.badSpares.contains (ch, frame - s.erg.usable)) then s
    else s.onIsl fun x => { x with badSpares := x.badSpares ++ [(ch, frame - s.erg.usable)] }
  | some _ =>
    if (s.chan ch).retire.isSome then
      s.onChan ch fun c =>
        if c.retire.any (fun t => t.frame = frame) || c.retireNext.contains frame then c
        else { c with retireNext := c.retireNext ++ [frame] }
    else
      match s.freeSpare ch with
      | none => s.raise Ev.ergRetireFull ch
      | some sp =>
        if 4096 ≤ s.isl.redirect.length then s.raise Ev.ergRetireFull ch
        else s.onChan ch fun c => { c with retire := some ⟨frame, sp, 0, false⟩ }

/-- A completed copy takes effect (R174): the redirect entry is stored and raised. -/
def State.applyRetire (s : State) (ch : Nat) : State :=
  match (s.chan ch).retire with
  | none => s
  | some t =>
    if !t.ready then s
    else
      let s := s.onChan ch fun c => { c with retire := none }
      match s.logicalOf ch t.frame with
      | none => s
      | some q =>
        let s := s.onIsl fun x =>
          { x with
            redirect := (x.redirect.filter fun r => !(r.1 = ch && r.2.1 = q)) ++ [(ch, q, t.spare)]
            badSpares := if t.frame < s.erg.usable then x.badSpares
              else x.badSpares ++ [(ch, t.frame - s.erg.usable)] }
        let s := (s.deviceLedger 0x0006).raise Ev.ergPageRetired ch
        match (s.chan ch).retireNext with
        | [] => s
        | f :: l => (s.onChan ch fun c => { c with retireNext := l }).retire ch f

/-- PAGE_RETIRE_COPY_DONE (R174): the copy is complete; the switch falls at the next commit point, or at once with no job
armed. -/
def State.retireDone (s : State) (ch : Nat) : State :=
  match (s.chan ch).retire with
  | none => s
  | some t =>
    if t.line < 32768 || t.ready then s
    else
      let s := s.onChan ch fun c => { c with retire := some { t with ready := true } }
      if s.job.isNone then s.applyRetire ch else s

@[inherit_doc State.retireDone]
def execPageRetireCopyDone (at_ ch : Nat) (s : State) : Res := .next ((s.tick at_).retireDone ch)

/-! ### Corrections and bad lines -/

/-- 24 h in ns. -/
def dayNs : Nat := 86400 * oneS

/-- A correction is counted, and may mark a device (R167) or retire a frame (R173). -/
def State.noteFix (s : State) (ch frame line rs pos : Nat) : State :=
  let s := s.onChan ch fun c => { c with corrected := satAdd 32 c.corrected 1 }
  let (s, t) := s.raiseOnce (s.chan ch).correctedEvAt Ev.memCorrected ch
  let s := s.onChan ch fun c =>
    { c with correctedEvAt := t,
             fixes := (c.fixes.filter fun f => s.now < f.2.2.2 + dayNs) ++ [(line, rs, pos, s.now)] }
  let recent := (s.chan ch).fixes
  let lines := ((recent.filter fun f => f.2.1 = rs && f.2.2.1 = pos).map (·.1)).dedup
  let s := if 16 ≤ lines.length && (s.markOf ch rs).isNone then
      ((s.onIsl fun x => { x with marks := x.marks ++ [(ch, rs, pos)] }).deviceLedger 0x0006).raise Ev.ergDeviceMarked ch
    else s
  let here := ((recent.filter fun f => f.1 / 32768 = frame && s.markOf ch f.2.1 ≠ some f.2.2.1).map (·.1)).dedup
  if 64 ≤ here.length then s.retire ch frame else s

/-- Who a line's data is for, as R170 reads it. -/
def readerOf : ErgUser → Reader
  | .dma => .dma | .openDma => .dma | .update => .update | .spill => .update | _ => .maint

/-- A line stays bad: it is counted, its consequence under R170 follows, and after its re-read its frame is retired. -/
def State.badLine (s : State) (ch frame line : Nat) (r : ErgReq) (poisoned : Bool) : State :=
  let s := s.onChan ch fun c => { c with uncorrectable := satAdd 32 c.uncorrectable 1 }
  let off := line % 32768 * 64
  let ela := match s.logicalOf ch frame with | some q => elaOf ch q off | none => elaOf ch frame off
  let cls := s.classOf 0 0 ela
  let s := match r.dest with
    | .host _ _ => s.raiseBad ch 2 ela cls
    | .copy _ => s.raiseBad ch 2 ela cls
    | _ => if (s.logicalOf ch frame).isNone then s.raiseBad ch 2 ela cls else s.badRead ch 2 ela cls (readerOf r.user)
  if poisoned then s else s.retire ch frame

/-! ### Reads by the engines that take a range as it stands -/

/-- A flawed line that such a read meets: the ELA of the line, its channel, frame, line number, rank and subchannel, and what its
codewords show (R165 to R167). -/
structure LineFlaw where
  ela   : Nat
  ch    : Nat
  frame : Nat
  line  : Nat
  rs    : Nat
  codes : List CodeRead
  deriving DecidableEq, Repr

/-- The flawed lines of a range of ELAs, each under the device mark of its rank and subchannel. -/
def State.ergFlaws (s : State) (ela n : Nat) : List LineFlaw :=
  (pagePieces (n / 2 ^ 21 + 2) ela n).flatMap fun p =>
    let key := s.ergAddr p.1
    let lines := ((s.erg.ram.oddWords key p.2).map (· / 8)).dedup
    lines.filterMap fun l =>
      let ch := elaChannel p.1
      let frame := s.physFrame ch (elaFrame p.1)
      let off := 64 * l % 2 ^ 21
      let rs := s.erg.rankSub frame off
      let codes := s.lineCodes (64 * l) (s.markOf ch rs) []
      if lineOf codes = .clean then none
      else some ⟨p.1 / 2 ^ 21 * 2 ^ 21 + off, ch, frame, frame * 32768 + off / 64, rs, codes⟩

/-- A flawed line stays uncorrected under the rule of R166. -/
def LineFlaw.isBad (f : LineFlaw) : Bool := match lineOf f.codes with | .bad | .poison => true | _ => false

/-- A read of Erg bytes at an ELA by an engine: the value, with the corrected lines put right (R166), and the ELAs of the lines
that are uncorrectable or poisoned. -/
def State.ergRead (s : State) (ela n : Nat) : Nat × List Nat :=
  let fl := s.ergFlaws ela n
  let raw := (pagePieces (n / 2 ^ 21 + 2) ela n).foldl
    (fun v (p : Nat × Nat) => v + (s.erg.ram.data.load (s.ergAddr p.1) p.2) <<< (8 * (p.1 - ela))) 0
  let errs (f : LineFlaw) : Nat := fixLine 0 f.codes
  ((fl.filter fun f => !f.isBad).foldl (fun v f =>
      if ela ≤ f.ela then v ^^^ (errs f <<< (8 * (f.ela - ela)) % 256 ^ n) else v ^^^ (errs f >>> (8 * (ela - f.ela)) % 256 ^ n)) raw,
   (fl.filter LineFlaw.isBad).map (·.ela))

/-- What such a read leads to (R158, R167, R170, R173, R177): corrections are counted and may mark a device or retire a frame; an
uncorrectable line is read once more and, still bad, has the consequences of R170 for its reader; a poisoned one has them at
once. -/
def State.noteErg (s : State) (ela n : Nat) (who : Reader) : State :=
  (s.ergFlaws ela n).foldl (fun s f =>
    match lineOf f.codes with
    | .clean => s
    | .corrected p => s.noteFix f.ch f.frame f.line f.rs p
    | x =>
      let s := s.onChan f.ch fun c =>
        { c with uncorrectable := satAdd 32 c.uncorrectable 1, rereads := if x = .bad then satAdd 32 c.rereads 1 else c.rereads }
      let s := s.badRead f.ch 2 f.ela (s.classOf 0 0 f.ela) who
      if x = .bad then s.retire f.ch f.frame else s) s

/-! ### Transfer lists (R369) -/

/-- List record `i` and the items of a transfer-list section. -/
def imgList (b : Buf) (i : Nat) : Nat × Nat :=
  let r := imgRec b 0x07 0 16 i
  (r.fld 0 32, r.fld 32 16)
@[inherit_doc imgList]
def imgItem (b : Buf) (i : Nat) : Buf :=
  match imgSect b 0x07 with
  | none => Buf.zeros 32
  | some x => b.slice (x.off + alignUp (16 * x.count) 64 + 32 * i) 32

/-- The image whose lists an entry's ARG indexes. -/
def State.listImage (s : State) (j : Job) (e : Entry) : Option Buf :=
  if e.arg.testBit 31 then s.guest.map (·.image) else some j.image

/-- A line read from Oasis or scratch for a transfer: its data and whether a word of it is bad. -/
def State.lineFrom (s : State) (space core a : Nat) : Nat × Bool × State :=
  if space = 1 then
    let r := s.oasis.readAt a 64
    (r.val, r.bad ≠ [], s.noteOasis r .dma)
  else
    let r := s.scratch.readAt (scratchKey core a) 64
    (r.val, r.bad ≠ [], s.noteScratch core r .dma)

/-- A line written to Oasis or scratch by a transfer (R72, R146, R168). -/
def State.lineTo (s : State) (space core a v : Nat) (bad : Bool) : State :=
  if space = 1 then s.oasisWrite a 64 v bad else s.outsideWrite core a 64 v bad

/-- A request joins the queue of the channel that owns its line. -/
def State.enqueue (s : State) (r : ErgReq) : State :=
  (s.judgeShares (elaChannel r.line)).onChan (elaChannel r.line) fun c => { c with queue := c.queue ++ [r] }

/-- Where a main-job item that writes a snapshot slot goes (R298, log entry 37): nowhere in a step in which the fragment
takes no snapshot, and otherwise to the slot of every round that is taken. -/
def State.snapDests (s : State) (j : Job) (ela : Nat) : List Nat :=
  match (imgShards j.image).findSome? fun x => (x.snapAt ela).map fun p => (x, p) with
  | none => [ela]
  | some (x, (_, off)) =>
    ((s.frag x.fragment).out.filter fun r => r.snapStep = j.step).map fun r =>
      x.stateEla + x.copyOff (.snapshot (r.round % x.snaps)) + off

/-- The destinations of an item, none where a snapshot item has nothing to do. -/
def State.itemDests (s : State) (it : Buf) (main : Bool) : List Nat :=
  match s.job with
  | some j => if main && it.fld 2 2 = 0 then s.snapDests j (it.fld 128 64) else [it.fld 128 64]
  | none => [it.fld 128 64]

/-- One item started for a destination: lines that touch no Erg move at once, the others wait for their slots. -/
def State.moveItem (s : State) (die : Nat) (it : Buf) (dst : Nat) : State :=
  let sp := it.fld 0 2
  let dp := it.fld 2 2
  let user := if it.flag 4 then ErgUser.openDma else ErgUser.dma
  let sc := it.fld 5 7
  let dc := it.fld 12 7
  (List.range (it.fld 32 32 / 64)).foldl (fun s n =>
    let a := it.fld 64 64 + 64 * n
    let b := dst + 64 * n
    if sp = 0 then
      let dest := if dp = 0 then ErgDest.erg die b else if dp = 1 then .oasis die b else .scratch die dc b
      (s.enqueue ⟨user, false, a, 0, false, false, dest⟩).onDie die fun d => { d with dmaLeft := d.dmaLeft + 1 }
    else
      let (v, bad, s) := s.lineFrom sp sc a
      if dp = 0 then
        (s.enqueue ⟨user, true, b, v, bad, false, .erg die b⟩).onDie die fun d => { d with dmaLeft := d.dmaLeft + 1 }
      else s.lineTo dp dc b v bad) s

/-- One item started (R369). -/
def State.startItem (s : State) (die : Nat) (it : Buf) (main : Bool) : State :=
  (s.itemDests it main).foldl (fun s dst => s.moveItem die it dst) s

/-- The die runs a list of the main job. -/
def State.mainList (s : State) (die : Nat) : Bool :=
  match (s.die die).dma, s.job with
  | some (i, _), some j => !(imgEntry j.image i).arg.testBit 31
  | _, _ => false

/-- The next items of a die's running list, until one waits for Erg (R369). -/
def State.advanceList (s : State) (die : Nat) (img : Buf) : Nat → State
  | 0 => s
  | fuel + 1 =>
    let d := s.die die
    if d.dma.isNone || d.dmaLeft ≠ 0 || d.dmaItems = 0 then s
    else
      let s := s.putDie die { d with dmaItem := d.dmaItem + 1, dmaItems := d.dmaItems - 1 }
      (s.startItem die (imgItem img d.dmaItem) (s.mainList die)).advanceList die img fuel

/-- The image of the list a die runs. -/
def State.runningList (s : State) (die : Nat) : Option Buf :=
  match (s.die die).dma, s.job with
  | some (i, _), some j => s.listImage j (imgEntry j.image i)
  | _, _ => none

/-- One of the lines a die's list waits for has arrived or been accepted. -/
def State.dmaLine (s : State) (die : Nat) : State :=
  let s := s.onDie die fun d => { d with dmaLeft := d.dmaLeft - 1 }
  match s.runningList die with
  | some b => s.advanceList die b ((s.die die).dmaItems + 1)
  | none => s

/-- A die takes up a transfer list. A guest entry with no guest attached completes at once (R369, R374). -/
def State.startList (s : State) (j : Job) (i : Nat) (e : Entry) : State :=
  match s.listImage j e with
  | none => s.completeEntry i j.step
  | some b =>
    let die := e.target - 0x88
    let (first, count) := imgList b (e.arg % 2 ^ 31)
    let s := s.onDie die fun d => { d with dma := some (i, j.step), dmaLeft := 0, dmaItem := first, dmaItems := count }
    s.advanceList die b count

/-- RUN_TRANSFER_LIST (R369): timetable action 0x20. -/
def State.runList (s : State) (i : Nat) : State := s.dispatch i 0x20 fun s j e => s.startList j i e

@[inherit_doc State.runList]
def execRunTransferList (at_ entry : Nat) (s : State) : Res := .next ((s.tick at_).runList entry)

/-- TRANSFER_LIST_COMPLETE (R369): the last write has been accepted. -/
def State.listComplete (s : State) (die : Nat) : State :=
  let d := s.die die
  match d.dma with
  | none => s
  | some (i, step) =>
    if d.dmaLeft ≠ 0 || d.dmaItems ≠ 0 then s
    else (s.putDie die { d with dma := none }).completeEntry i step

@[inherit_doc State.listComplete]
def execTransferListComplete (at_ die : Nat) (s : State) : Res := .next ((s.tick at_).listComplete die)

/-! ### Line reads and writes (R158, R159, R171, R174) -/

/-- The oldest waiting request of a user and direction. -/
def ErgChannel.first (c : ErgChannel) (user : ErgUser) (write : Bool) : Option ErgReq :=
  c.queue.find? fun r => r.user = user && r.write = write

/-- Requests without the given one. -/
def ErgChannel.drop (c : ErgChannel) (r : ErgReq) : ErgChannel := { c with queue := c.queue.erase r }

/-- The lines of a channel, spares included (R171). -/
def Erg.lines (e : Erg) : Nat := e.frames * 32768

/-- The scrub goes on to the next line; a pass that ends is timed (R171, R177). -/
def State.scrubNext (s : State) (ch : Nat) : State :=
  s.onChan ch fun c =>
    if c.scrubLine + 1 < s.erg.lines then { c with scrubLine := c.scrubLine + 1 }
    else { c with scrubLine := 0, scrubPassS := (s.now - c.scrubStart) / oneS, scrubStart := s.now, scrubLate := false }

/-- The request that a user's next slot serves. For maintenance a waiting re-read comes first, then the next line of a
retirement copy, then the next line of the scrub. -/
def State.nextRead (s : State) (ch : Nat) (user : ErgUser) : Option ErgReq :=
  let c := s.chan ch
  match c.first user false with
  | some r => some r
  | none =>
    if user ≠ .maint then none
    else
      match c.retire with
      | some t =>
        if t.line < 32768 && !(c.queue.any fun r => r.dest = .copy t.spare) then
          some ⟨.maint, false, t.frame * 32768 + t.line, 0, false, false, .copy t.spare⟩
        else scrub
      | none => scrub
where
  /-- The line of the patrol scrub, which pauses in HOLD (R445). -/
  scrub : Option ErgReq :=
    if s.aon.power = .hold then none else some ⟨.maint, false, (s.chan ch).scrubLine, 0, false, false, .scrub⟩

/-- Frame and line within the channel of a request. -/
def State.lineOfReq (s : State) (ch : Nat) (r : ErgReq) : Nat × Nat :=
  match r.dest with
  | .scrub | .copy _ => (r.line / 32768, r.line)
  | _ =>
    let f := s.physFrame ch (elaFrame r.line)
    (f, f * 32768 + r.line % 2 ^ 21 / 64)

/-- Progress of a background command of a mailbox (R399, R403). -/
def State.bgBytes (s : State) (mb opcode n : Nat) : State :=
  s.onPcie fun p => { p with bg := p.bg.map fun b => if b.1 = opcode && b.2.1 = mb then (b.1, b.2.1, b.2.2 + n) else b }

/-- The line of a read delivered to what asked for it (R158, R168, R369, R404). -/
def State.deliver (s : State) (ch : Nat) (r : ErgReq) (v : Nat) (bad fixed : Bool) : State :=
  match r.dest with
  | .host mb a =>
    let s := (s.emit (.hostWrite a (Buf.ofLe 64 v))).bgBytes mb 0x0302 64
    if bad then s.onMbox mb fun m =>
        { m with cmds := m.cmds.map fun c => if c.phase = .background && c.entry.fld 0 16 = 0x0302 then { c with status := 0x0142 } else c }
    else s
  | .oasis die a => (s.lineTo 1 0 a v bad).dmaLine die
  | .scratch die core a => (s.lineTo 2 core a v bad).dmaLine die
  | .erg die a => s.enqueue ⟨r.user, true, a, v, bad, false, .erg die a⟩
  | .scrub =>
    if fixed then s.onChan ch fun c => { c with queue := c.queue ++ [⟨.maint, true, r.line, v, false, false, .scrub⟩] }
    else if bad then s.onChan ch fun c => { c with queue := c.queue ++ [⟨.maint, true, r.line, v, true, false, .scrub⟩] }
    else s
  | .copy sp => s.onChan ch fun c => { c with queue := c.queue ++ [⟨.maint, true, r.line, v, bad, false, .copy sp⟩] }
  | .engine => s

/-- ERG_LINE_READ (R158, R165 to R171): the user's next slot reads its waiting line. A line that is uncorrectable at its
first read is read once more in the user's next slot. -/
def State.ergLineRead (s : State) (ch : Nat) (user : ErgUser) (up : List Upset) : State :=
  if !s.ergMay ch user false then s
  else
    match s.nextRead ch user with
    | none => s
    | some r =>
      let (frame, line) := s.lineOfReq ch r
      let s := ((s.judgeShares ch).takeSlot ch user false).onChan ch fun c => c.drop r
      let s := if r.dest = .scrub && !r.reread then s.scrubNext ch else s
      let off := line % 32768 * 64
      let rs := s.erg.rankSub frame off
      let key := ergKey ch frame off
      let codes := s.lineCodes key (s.markOf ch rs) up
      let raw := s.lineRaw key up
      match lineOf codes with
      | .clean => s.deliver ch r raw false false
      | .corrected p => (s.noteFix ch frame line rs p).deliver ch r (fixLine raw codes) false true
      | .poison => (s.badLine ch frame line r true).deliver ch r raw true false
      | .bad =>
        if r.reread then (s.badLine ch frame line r false).deliver ch r raw true false
        else s.onChan ch fun c =>
          { c with rereads := satAdd 32 c.rereads 1, queue := { r with reread := true } :: c.queue }

@[inherit_doc State.ergLineRead]
def execErgLineRead (at_ ch : Nat) (user : ErgUser) (upset : List Upset) (s : State) : Res :=
  .next ((s.tick at_).ergLineRead ch user upset)

/-- ERG_LINE_WRITE (R158, R168, R171, R174): the user's next write slot accepts its waiting line. -/
def State.ergLineWrite (s : State) (ch : Nat) (user : ErgUser) : State :=
  if !s.ergMay ch user true then s
  else
    match (s.chan ch).first user true with
    | none => s
    | some r =>
      let s := ((s.judgeShares ch).takeSlot ch user true).onChan ch fun c => c.drop r
      match r.dest with
      | .scrub =>
        let a := ergKey ch (r.line / 32768) (r.line % 32768 * 64)
        s.onErg fun e => { e with ram := if r.poison then e.ram.writeBad a 64 r.data else e.ram.writeAt a 64 r.data }
      | .copy sp =>
        let a := ergKey ch (s.erg.usable + sp) (r.line % 32768 * 64)
        let s := s.onErg fun e => { e with ram := if r.poison then e.ram.writeBad a 64 r.data else e.ram.writeAt a 64 r.data }
        s.onChan ch fun c => { c with retire := c.retire.map fun t => { t with line := t.line + 1 } }
      | _ =>
        let s := s.ergWrite r.line 64 r.data r.poison
        match r.dest with
        | .erg die _ => s.dmaLine die
        | .host mb _ => s.bgBytes mb 0x0303 64
        | _ => s

@[inherit_doc State.ergLineWrite]
def execErgLineWrite (at_ ch : Nat) (user : ErgUser) (s : State) : Res := .next ((s.tick at_).ergLineWrite ch user)

/-! ### Refresh (R160 to R163) -/

/-- A refresh of a channel. -/
def State.refresh (s : State) (ch : Nat) : State :=
  s.onChan ch fun c => { c with lastRefresh := s.now, refreshes := c.refreshes + 1, idleFrom := s.now + s.erg.refreshNs }

/-- REFRESH_NORMAL_RATE (R160, R163): timetable action 0x31. Outside the period of a running step the operand is the channel,
refreshed at every HT that is a multiple of 3,900 ns, or one refresh interval after the last (log entry 23). -/
def State.refreshNormal (s : State) (i : Nat) : State :=
  if s.inPeriod then
    s.dispatch i 0x31 fun s j e => (s.refresh (e.target - 0x90)).completeEntry i j.step
  else if s.erg.ready && s.htRefreshes && (s.htNow % 3900 = 0 || (s.chan i).lastRefresh + 3900 ≤ s.now) then s.refresh i
  else s

@[inherit_doc State.refreshNormal]
def execRefreshNormalRate (at_ entry : Nat) (s : State) : Res := .next ((s.tick at_).refreshNormal entry)

/-- REFRESH_HIGH_RATE (R160, R163): timetable action 0x32, which issues nothing unless the high rate is in force. -/
def State.refreshHigh (s : State) (i : Nat) : State :=
  if s.inPeriod then
    s.dispatch i 0x32 fun s j e =>
      let ch := e.target - 0x90
      (if (s.chan ch).highRate then s.refresh ch else s).completeEntry i j.step
  else if s.erg.ready && s.htRefreshes && (s.chan i).highRate
      && (s.htNow % 3900 = 1950 || (s.chan i).lastRefresh + 1950 ≤ s.now) then s.refresh i
  else s

@[inherit_doc State.refreshHigh]
def execRefreshHighRate (at_ entry : Nat) (s : State) : Res := .next ((s.tick at_).refreshHigh entry)

/-- ERG_REFRESH_AON (R163): where HT does not place refreshes, every 97 AON cycles, or 48 at the high rate. -/
def State.refreshAon (s : State) (ch : Nat) : State :=
  let gap := if (s.chan ch).highRate then 48 * 40 else 97 * 40
  if s.erg.ready && !s.htRefreshes && (s.chan ch).lastRefresh + gap ≤ s.now then s.refresh ch else s

@[inherit_doc State.refreshAon]
def execErgRefreshAon (at_ ch : Nat) (s : State) : Res := .next ((s.tick at_).refreshAon ch)

/-! ### Temperature and scrub -/

/-- The highest of a list of readings in tenths of a degree. -/
def hottest (l : List Int) : Int := l.foldl max (l.headD 0)

/-- ERG_THERMAL_SAMPLE (R162): readings in tenths of a degree. -/
def State.thermalSample (s : State) (ch : Nat) (l : List Int) : State :=
  if l = [] then s
  else
    let t := hottest l
    let s := s.onChan ch fun c => { c with tempC := t / 10, coolRun := if t < 830 then c.coolRun + 1 else 0 }
    let c := s.chan ch
    let s :=
      if 850 < t && !c.highRate then (s.putChan ch { c with highRate := true }).raise Ev.ergRefreshHigh ch
      else if c.highRate && 10 ≤ c.coolRun then (s.putChan ch { c with highRate := false }).raise Ev.ergRefreshNormal ch
      else s
    if 950 < t then s.fatal Ev.ergOvertemp ch else s

@[inherit_doc State.thermalSample]
def execErgThermalSample (at_ ch : Nat) (tenths : List Int) (s : State) : Res := .next ((s.tick at_).thermalSample ch tenths)

/-- ERG_SCRUB_LATE (R171): a pass has exceeded 24 h. -/
def State.ergScrubLate (s : State) (ch : Nat) : State :=
  let c := s.chan ch
  if !s.erg.ready || c.scrubLate || s.now ≤ c.scrubStart + dayNs then s
  else (s.putChan ch { c with scrubLate := true }).raise Ev.ergScrubLate ch

@[inherit_doc State.ergScrubLate]
def execErgScrubLate (at_ ch : Nat) (s : State) : Res := .next ((s.tick at_).ergScrubLate ch)

end Sys2Proof.Machine
end

