-- ==== Sys2Proof/Machine/Train.lean ====
section
/-! DEFINITION. Parameters and gradients (R179 to R205): copies of a shard, AFX blocks, the
reduction-buffer pool, the Spillway, and scale history. -/

namespace Sys2Proof.Machine

/-! ### Fields -/

/-- `n` fields of `w` bits of a number. -/
def fields (w n v : Nat) : List Nat := (List.range n).map fun i => bits v (w * i) w

/-- A number from fields of `w` bits. -/
def packFields (w : Nat) (l : List Nat) : Nat := l.foldr (fun x a => x % 2 ^ w + a <<< w) 0

/-! ### Copies of a shard -/

/-- A part of a copy: `n` elements from element `e` of the shard on, with the bad lines or words met. -/
def State.readCopy (s : State) (x : Shard) (c : Copy) (e n : Nat) : Nat × Bool :=
  if c = .weight && !x.wErg then
    let r := s.oasis.readAt (x.wOasis + 2 * e) (2 * n)
    (r.val, r.bad ≠ [])
  else
    let (v, bad) := s.ergRead (x.stateEla + x.copyOff c + c.width * e) (c.width * n)
    (v, bad ≠ [])

/-- What a read of a part of a copy leads to for its reader (R144, R158, R166 to R170). -/
def State.noteCopy (s : State) (x : Shard) (c : Copy) (e n : Nat) (who : Reader) : State :=
  if c = .weight && !x.wErg then s.noteOasis (s.oasis.readAt (x.wOasis + 2 * e) (2 * n)) who
  else s.noteErg (x.stateEla + x.copyOff c + c.width * e) (c.width * n) who

/-- The same written. -/
def State.writeCopy (s : State) (x : Shard) (c : Copy) (e n v : Nat) : State :=
  if c = .weight && !x.wErg then s.oasisWrite (x.wOasis + 2 * e) (2 * n) v
  else s.ergWrite (x.stateEla + x.copyOff c + c.width * e) (c.width * n) v

/-! ### AFX blocks (R189 to R195) -/

/-- Header fields of an AFX block (R191). -/
def afxAnchor (b : Buf) : Int := b.sfld 0 16
@[inherit_doc afxAnchor] def afx32 (b : Buf) : Bool := b.flag 16
@[inherit_doc afxAnchor] def afxNf (b : Buf) : Bool := b.flag 17
@[inherit_doc afxAnchor] def afxOvf (b : Buf) : Bool := b.flag 18
@[inherit_doc afxAnchor] def afxCount (b : Buf) : Nat := b.fld 32 32
@[inherit_doc afxAnchor] def afxTensor (b : Buf) : Nat := b.fld 64 20
@[inherit_doc afxAnchor] def afxRow (b : Buf) : Nat := b.fld 96 16
@[inherit_doc afxAnchor] def afxCol (b : Buf) : Nat := b.fld 112 16
@[inherit_doc afxAnchor] def afxSub (b : Buf) : Nat := b.fld 128 16
@[inherit_doc afxAnchor] def afxEpoch (b : Buf) : Nat := b.fld 144 16
@[inherit_doc afxAnchor] def afxStep (b : Buf) : Nat := b.fld 160 64

/-- Bits of an element, and F and H of the format (R189). -/
def afxWidth (b : Buf) : Nat := if afx32 b then 32 else 64
@[inherit_doc afxWidth] def afxF (w32 : Bool) : Nat := if w32 then 24 else 40
@[inherit_doc afxWidth] def afxH (w32 : Bool) : Nat := if w32 then 7 else 23

/-- Bytes of a block (R191). -/
def afxLen (w32 : Bool) : Nat := if w32 then 1056 else 2080

/-- Element `i` of a block. -/
def afxElem (b : Buf) (i : Nat) : Int := b.sfld (256 + afxWidth b * i) (afxWidth b)

/-- The 256 elements. -/
def afxElems (b : Buf) : List Int := (List.range 256).map (afxElem b)

/-- The identifying fields of R194. -/
def afxId (b : Buf) : Nat × Nat × Nat × Nat × Nat × Bool × Int :=
  (afxTensor b, afxRow b, afxCol b, afxSub b, afxEpoch b, afx32 b, afxAnchor b)

/-- The header of a block (R191). -/
structure AfxHdr where
  anchor : Int
  w32    : Bool
  nf     : Bool
  ovf    : Bool
  count  : Nat
  tensor : Nat
  row    : Nat
  col    : Nat
  sub    : Nat
  epoch  : Nat
  step   : Nat
  deriving DecidableEq, Repr

/-- A block from its header and elements (R191). -/
def AfxHdr.block (h : AfxHdr) (els : List Int) : Buf :=
  let w := if h.w32 then 32 else 64
  let hdr := packBits [sf 16 h.anchor, (1, b2n h.w32), (1, b2n h.nf), (1, b2n h.ovf), (13, 0), (32, h.count),
    (20, h.tensor), (12, 0), (16, h.row), (16, h.col), (16, h.sub), (16, h.epoch), (64, h.step), (32, 0)]
  ⟨afxLen h.w32, hdr + (els.foldr (fun i a => wrap w i + a <<< w) 0) <<< 256⟩

/-- The header of a stored block. -/
def AfxHdr.of (b : Buf) : AfxHdr :=
  ⟨afxAnchor b, afx32 b, afxNf b, afxOvf b, afxCount b, afxTensor b, afxRow b, afxCol b, afxSub b, afxEpoch b, afxStep b⟩

/-- Saturation of an element (R193, R194). -/
def afxSat (w32 : Bool) (i : Int) : Int × Bool :=
  let lim : Int := ((2 ^ (afxF w32 + afxH w32) : Nat) : Int)
  if lim ≤ i then (lim - 1, true) else if i < -lim then (-lim, true) else (i, false)

/-- The sum of two blocks with the same identifying fields (R194). -/
def afxJoin (a b : Buf) : Buf :=
  let l : List (Int × Bool) := ((afxElems a).zip (afxElems b)).map fun (p : Int × Int) => afxSat (afx32 a) (p.1 + p.2)
  let h := AfxHdr.of a
  { h with nf := h.nf || afxNf b, ovf := h.ovf || afxOvf b || l.any (fun (p : Int × Bool) => p.2), count := satAdd 32 h.count (afxCount b),
           step := Nat.max h.step (afxStep b) }.block (l.map fun (p : Int × Bool) => p.1)

/-- Two blocks added; `none` where an identifying field differs (R194). -/
def afxAdd (a b : Buf) : Option Buf := if afxId a ≠ afxId b then none else some (afxJoin a b)

/-- A value x × 2^e of a gradient converted (R193): the element, NF and OVF. -/
def afxOfValue (v : Fv) (e anchor : Int) (w32 : Bool) : Int × Bool × Bool :=
  match v with
  | .fin n m p =>
    let i := roundInt (.fin n m (p - e + afxF w32 - anchor)) false
    let lim : Int := ((2 ^ (afxF w32 + afxH w32) : Nat) : Int)
    if lim ≤ i then (lim - 1, false, true) else if i ≤ -lim then (-lim, false, true) else (i, false, false)
  | _ => (0, true, false)

/-- One gradient element converted (R193): the element, NF and OVF. `e` is L + Gₜ. -/
def afxConvert (fp16 : Bool) (code : Nat) (e anchor : Int) (w32 : Bool) : Int × Bool × Bool :=
  afxOfValue ((if fp16 then fFP16 else fBF16).decode code) e anchor w32

/-- floor(log2 N) of a positive number. -/
def log2Nat (n : Nat) : Nat := bitLen n - 1

/-- The next anchor of a block from its final sum, and whether the ±4 clamp held it (R197). -/
def nextAnchor (b : Buf) : Int × Bool :=
  let a := afxAnchor b
  let m := (afxElems b).foldl (fun x i => Nat.max x i.natAbs) 0
  if m = 0 then (a, false)
  else
    let n := if afxCount b = 0 then 1 else afxCount b
    let x := a + (bitLen m : Int) - afxF (afx32 b) - log2Nat n + 1
    let y := clampI (a - 4) (a + 4) x
    (clampI (-32768) 32767 y, x ≠ y)

/-! ### Scale history in Oasis (R204) -/

/-- Gradient scale exponent of a tensor (R186, R204). -/
def State.gexp (s : State) (x : Shard) : Int := sext 8 (s.oasis.val (x.shAddr + 6) 1)

/-- The same written. -/
def State.setGexp (s : State) (x : Shard) (g : Int) : State := s.oasisWrite (x.shAddr + 6) 1 (wrap 8 g)

/-- An amax entered at HEAD of a tensor's record (R204). -/
def State.pushAmax (s : State) (x : Shard) (amax step : Nat) : State :=
  let h : Buf := ⟨64, s.oasis.val x.shAddr 64⟩
  let head := h.fld 20 10
  let s := s.oasisWrite (x.shAddr + 64 + 4 * head) 4 amax
  let v := setBits h.val 20 10 ((head + 1) % 1024)
  let v := setBits v 32 11 (Nat.min (h.fld 32 11 + 1) 1024)
  s.oasisWrite x.shAddr 16 (setBits v 64 64 step)

/-- Place in Oasis of the anchor entry of an AFX block (R197). -/
def Shard.anchorAddr (x : Shard) (r c sub : Nat) : Nat := x.anAddr + 2 * (x.sliceIdx r c * x.lbSubs + sub)

/-- The committed anchor of an AFX block. -/
def State.anchor (s : State) (x : Shard) (r c sub : Nat) : Int := sext 16 (s.oasis.val (x.anchorAddr r c sub) 2)

/-- The same written. -/
def State.setAnchor (s : State) (x : Shard) (r c sub : Nat) (a : Int) : State :=
  s.oasisWrite (x.anchorAddr r c sub) 2 (wrap 16 a)

/-! ### Passes as the pool needs them (R199, R216) -/

/-- A pass descriptor of the image (R216). -/
def imgPass (b : Buf) (i : Nat) : Buf := imgRec b 0x08 0 64 i

/-- The shards that a pass lists, in list order (R216, R513). -/
def passShards (b : Buf) (p : Buf) : List Shard :=
  match imgSect b 0x08 with
  | none => []
  | some x =>
    let all := imgShards b
    (List.range (p.fld 52 12)).filterMap fun k =>
      all[(b.slice (x.off + 64 * x.count + 4 * (p.fld 32 20 + k)) 4).fld 0 32]?

/-- The die whose inner pass lists a tensor (R199, R215). -/
def ownerDie (b : Buf) (tensor : Nat) : Option Nat :=
  ((imgEntryList b).find? fun e =>
    e.2.action = 0x10 && (imgPass b e.2.arg).fld 0 4 < 4 &&
      (passShards b (imgPass b e.2.arg)).any fun x => x.id = tensor).map fun e => e.2.target - 0x80

/-! ### The pool (R198, R199) -/

/-- Bytes of the direct-reduce regions of a die (R190, R200). -/
def directBytes (b : Buf) (die : Nat) : Nat :=
  (((imgShards b).filter fun x => x.direct && x.rbAddr / oasisSize = die).map fun x => x.sliceSubs * 2080).sum

/-- The free runs of a die's reduction-buffer region from `a` on, between the direct-reduce regions given in rising order, each as
its base and its slots of one AFX64 block (R198). -/
def poolRuns (fin : Nat) : Nat → List (Nat × Nat) → List (Nat × Nat)
  | a, [] => [(a, (fin - a) / 2080)]
  | a, (x, n) :: l => (a, (x - a) / 2080) :: poolRuns fin (Nat.max a (x + n)) l

/-- The places of a die's pool slots in Oasis: the region of R198 less its direct-reduce regions, filled from its low end (DESIGN
CHOICE, log entry 141). -/
def poolPlaces (b : Buf) (die : Nat) : List (Nat × Nat) :=
  match (imgRegions b).find? fun r => r.role = 1 && r.space = 1 && r.base / oasisSize = die with
  | none => []
  | some r =>
    poolRuns (r.base + r.length) r.base (sortBy (fun x y => x.1 ≤ y.1)
      (((imgShards b).filter fun x => x.direct && x.rbAddr / oasisSize = die).map fun x => (x.rbAddr, x.sliceSubs * 2080)))

/-- Pool slots of a die (R198). -/
def poolSlots (b : Buf) (die : Nat) : Nat := ((poolPlaces b die).map (·.2)).sum

/-- The Oasis address of slot `k` of the given runs. -/
def slotAddr : List (Nat × Nat) → Nat → Nat
  | [], _ => 0
  | (a, n) :: l, k => if k < n then a + 2080 * k else slotAddr l (k - n)

/-- The lowest slot that holds no block; the spec does not say which is taken (DESIGN CHOICE, log entry 141). -/
def Die.freeSlot (d : Die) : Nat := ((List.range (d.poolAt.length + 1)).find? fun k => !d.poolAt.contains k).getD 0

/-- Block `k` of a die's pool written to its slot. -/
def State.storeSlot (s : State) (b : Buf) (die slot : Nat) (x : Buf) (bad : Bool) : State :=
  s.oasisWrite (slotAddr (poolPlaces b die) slot) x.len x.val bad

/-- Slot `slot` of a die's pool as a reader finds it: whether it holds bad words, and what the read leads to (R144, R170). -/
def State.readSlot (s : State) (b : Buf) (die slot len : Nat) (who : Reader) : Bool × State :=
  let r := s.oasis.readAt (slotAddr (poolPlaces b die) slot) len
  (r.bad ≠ [], s.noteOasis r who)

/-- The blocks of a pool that satisfy `p` kept, the slots of the others freed. -/
def Die.keepBlocks (d : Die) (p : Buf → Bool) : Die :=
  let l := (d.pool.zip d.poolAt).filter fun x => p x.1
  { d with pool := l.map (·.1), poolAt := l.map (·.2) }

/-- The pool block with the identifying fields of a block, if any. -/
def samePlace (l : List Buf) (b : Buf) : Option Nat := l.findIdx? fun x => afxId x = afxId b

/-- The watch slot in whose range a tensor id lies (R253). -/
def slotOfTensor (b : Buf) (tensor : Nat) : Option Nat :=
  (imgSlots b).findIdx? fun x => x.fld 0 20 ≤ tensor && tensor ≤ x.fld 20 20

/-- What a final sum with NF or OVF set brings (R195, R211, R212, R235). `nf` and `ovf` say whether the block it joined
had them already. -/
def State.noteFinal (s : State) (die : Nat) (b : Buf) (nf ovf : Bool) : State :=
  let s := if afxNf b && !nf then (s.onDie die fun d => { d with nfBlocks := satAdd 32 d.nfBlocks 1 }).cause 0 else s
  if afxOvf b && !ovf then
    let s := (s.onDie die fun d => { d with ovfBlocks := satAdd 32 d.ovfBlocks 1 }).cause 1
    if s.com.afxEvent then s
    else (s.raise Ev.afxOverflow (0x80 + die) [(20, afxTensor b)] s.stepNo).onCom fun c => { c with afxEvent := true }
  else s

/-- Bytes of a Spillway record (R201). -/
def spillLen (b : Buf) : Nat := if afx32 b then 1088 else 2112

/-- The Spillway cannot take a block (R202): a fault-class miss of the receiving entry. -/
def State.spillFull (s : State) (die : Nat) (entry : Option Nat) : State :=
  let s := s.raise Ev.spillwayFull (0x100 + die) [] s.stepNo
  match entry, s.job with
  | some i, some j => s.faultMiss i (imgEntry j.image i)
  | _, _ => s.markMiss.cause 4

/-- A final sum reaches the pool of the die whose engine owns its tensor (R199): added to a pool block, placed in a free
slot, or appended to the Spillway. -/
def State.poolArrive (s : State) (die : Nat) (b : Buf) (entry : Option Nat) : State :=
  match s.job with
  | none => s
  | some j =>
    let d := s.die die
    match samePlace d.pool b with
    | some k =>
      let was := d.pool.getD k Buf.empty
      let sum := afxJoin was b
      let slot := d.poolAt.getD k 0
      let (bad, s) := s.readSlot j.image die slot was.len .dma
      let s := s.storeSlot j.image die slot sum bad
      (s.onDie die fun d => { d with pool := d.pool.set k sum }).noteFinal die sum (afxNf was) (afxOvf was)
    | none =>
      if d.pool.length < poolSlots j.image die then
        let s := s.storeSlot j.image die d.freeSlot b false
        (s.onDie die fun d =>
          { d with pool := d.pool ++ [b], poolAt := d.poolAt ++ [d.freeSlot],
                   rbPeak := Nat.max d.rbPeak (d.pool.length + 1) }).noteFinal die b false false
      else
        match imgRole j.image 2 with
        | none => (s.noteFinal die b false false).spillFull die entry
        | some r =>
          if r.length < s.spillOff + spillLen b then (s.noteFinal die b false false).spillFull die entry
          else
            let rec_ : Spill := ⟨s.spillOff, die, b, s.stepNo, entry, false, true⟩
            let s := { s with spills := s.spills ++ [rec_], spillOff := s.spillOff + spillLen b }
            let live := (s.spills.filter fun x => x.die = die && x.valid).length
            let s := s.onDie die fun d =>
              { d with spillBlocks := satAdd 32 d.spillBlocks 1, spillPeak := Nat.max d.spillPeak live }
            s.noteFinal die b false false

/-- A block of a tensor that the device's update engines own goes to the pool of the die whose inner pass lists the tensor,
whatever die holds the receive buffer; a block of another tensor is no final sum of this device (R199). -/
def State.finalSum (s : State) (b : Buf) (entry : Option Nat) : State :=
  match s.job with
  | none => s
  | some j =>
    match ownerDie j.image (afxTensor b) with
    | some die => s.poolArrive die b entry
    | none => s

/-- POOL_BLOCK_ARRIVAL (R199): a final sum arrives outside a receive row of the near ports, as a carried contribution
does; `die` holds its receive buffer. -/
def State.poolBlockArrival (s : State) (_die : Nat) (b : Buf) : State := s.finalSum b none

@[inherit_doc State.poolBlockArrival]
def execPoolBlockArrival (at_ die : Nat) (block : Buf) (s : State) : Res :=
  .next ((s.tick at_).poolBlockArrival die block)

/-! ### The Spillway (R201, R202) -/

/-- The 32-byte spill header (R201). -/
def spillHeader (valid : Bool) (step : Nat) : Nat := packBits [(8, 0x53), (1, b2n valid), (55, 0), (64, step), (128, 0)]

/-- Record `k` written whole to its place in the Spillway region. -/
def State.writeSpill (s : State) (base k : Nat) (x : Spill) : State :=
  let img : Buf := (Buf.ofLe 32 (spillHeader true x.step)).app x.block
  let s := s.ergWrite (base + x.off) (spillLen x.block) img.val
  { s with spills := s.spills.set k { x with present := true } }

/-- The group that now runs on the channel of a line lies in a window whose share for a user carries a direction (R155 to
R157). -/
def State.shareOpen (s : State) (ela user : Nat) (write : Bool) : Bool :=
  match s.groupNow (elaChannel ela) with
  | some (_, mode, some w) => windowSlots w user ≠ 0 && modeCarries mode write
  | _ => false

/-- SPILLWAY_APPEND_COMPLETE (R201, R202): the last line of a die's oldest append is accepted in a slot of the SPILL share, and the
record is present. -/
def State.spillAppended (s : State) (die : Nat) : State :=
  match s.job with
  | none => s
  | some j =>
    match imgRole j.image 2, s.spills.findIdx? fun x => x.die = die && !x.present with
    | some r, some k =>
      let x := s.spills.getD k ⟨0, 0, Buf.empty, 0, none, true, false⟩
      if s.shareOpen (r.base + x.off + spillLen x.block - 64) 2 true then s.writeSpill r.base k x else s
    | _, _ => s

@[inherit_doc State.spillAppended]
def execSpillwayAppendComplete (at_ die : Nat) (s : State) : Res := .next ((s.tick at_).spillAppended die)

/-- A reader waits for the appends still in progress that `sel` picks (R202): the result is the same wherever each block waited,
so they are completed for it (DEDUCED, log entry 142). -/
def State.awaitSpills (s : State) (base : Nat) (sel : Spill → Bool) : State :=
  (List.range s.spills.length).foldl (fun s k =>
    match s.spills[k]? with
    | some x => if x.valid && !x.present && sel x then s.writeSpill base k x else s
    | none => s) s

/-- A record's block as it stands, and whether a line of it is bad. -/
def State.spillBlock (s : State) (base : Nat) (x : Spill) : Buf × Bool :=
  if x.present then
    let (v, bad) := s.ergRead (base + x.off + 32) x.block.len
    (⟨x.block.len, v⟩, bad ≠ [])
  else (x.block, false)

/-- What reading a record leads to. -/
def State.noteSpill (s : State) (base : Nat) (who : Reader) (x : Spill) : State :=
  if x.present then s.noteErg (base + x.off) (spillLen x.block) who else s

/-- Base of the Spillway region, 0 without one (R201). -/
def State.spillBase (s : State) : Nat :=
  match s.job with
  | some j => (match imgRole j.image 2 with | some g => g.base | none => 0)
  | none => 0

/-- The pool, the Spillway and what they hold are discarded (R203): blocks of a carried contribution stay for the next
step. -/
def State.discardPools (s : State) (keep : Buf → Bool) : State :=
  { s with
    dies := tmap Die.reset (fun d => d.keepBlocks keep) s.dies
    spills := s.spills.filter fun x => x.valid && keep x.block
    spillOff := if s.spills.any fun x => x.valid && keep x.block then s.spillOff else 0 }

/-- The training-state record of a die (R211). -/
def Die.trainRecord (d : Die) : Buf :=
  packBuf 32 [(32, d.rbPeak), (32, d.spillBlocks), (32, d.spillPeak), (32, d.nfBlocks), (32, d.ovfBlocks), (32, d.anchorClamps)]

end Sys2Proof.Machine
end

