-- ==== Sys2Proof/Machine/Digest.lean ====
section
/-! DEFINITION. Replica digests (R490 to R492): the keys, the tree of a copy, the shard digest and the commit digest. -/

namespace Sys2Proof.Machine

/-- A digest key of a job: bytes 0 to 15 of the hash, 1 where they are 0 (R490). -/
def digestKey (name : String) (jobId : Nat) : Nat :=
  let k := (sha256Buf ((ascii name).app (Buf.ofLe 8 jobId))).le 0 16
  if k = 0 then 1 else k

/-- H and K of R490. -/
def digestH (jobId : Nat) : Nat := digestKey "oliun digest H" jobId
@[inherit_doc digestH] def digestK (jobId : Nat) : Nat := digestKey "oliun digest K" jobId

/-- The value of a leaf of 256 words (R491). -/
def leafDigest (h block : Nat) : Nat := gf128Poly h ((List.range 256).map fun i => bits block (128 * i) 128)

/-- The leaves of a copy of `bytes` bytes, padded with zero words to a multiple of 4 KiB (R491). -/
def leafDigests (h bytes v : Nat) : List Nat := (List.range (ceilDiv bytes 4096)).map fun i => leafDigest h (bits v (32768 * i) 32768)

/-- The level above a level of nodes (R491). -/
def levelUp (k : Nat) (l : List Nat) : List Nat :=
  (List.range (ceilDiv l.length 256)).map fun i => gf128Poly k ((l.drop (256 * i)).take 256)

/-- The levels of a tree from the leaves up, until one node remains (R491). -/
def treeLevels (k : Nat) : Nat → List Nat → List (List Nat)
  | 0, l => [l]
  | fuel + 1, l => if l.length ≤ 1 then [l] else l :: treeLevels k fuel (levelUp k l)

/-- The root of a copy (R491). -/
def rootDigest (jobId bytes v : Nat) : Nat :=
  ((treeLevels (digestK jobId) 8 (leafDigests (digestH jobId) bytes v)).getLast?.getD []).headD 0

/-- The copies that are digested, from 1 to 6 (R491). -/
def digestCopies : List Copy := [.weight, .inner, .second, .anchor, .outer, .residual]

/-- A whole copy of a shard in block order, as one number. -/
def State.copyVal (s : State) (x : Shard) (c : Copy) : Nat := (s.readCopy x c 0 x.elems).1

/-- The root of one copy of a shard (R491): zero for the second moment where ADAM is 0. -/
def State.copyRoot (s : State) (jobId : Nat) (x : Shard) (c : Copy) : Nat :=
  if c = .second && !x.adam then 0 else rootDigest jobId (c.width * x.elems) (s.copyVal x c)

/-- h to the power n. -/
def gf128Pow (h : Nat) : Nat → Nat
  | 0 => 1
  | n + 1 => gf128Mul (gf128Pow h n) h

/-- The shard digest SD (R491), which is also the DIGEST of its version tag (R287). -/
def State.shardDigest (s : State) (jobId : Nat) (x : Shard) : Nat :=
  let h := digestH jobId
  (digestCopies.zipIdx).foldl (fun a (p : Copy × Nat) => a ^^^ gf128Mul (s.copyRoot jobId x p.1) (gf128Pow h (257 + p.2))) 0

/-- The tensors of which the device owns a shard, in TENSOR_ID order. -/
def ownedShards (b : Buf) : List Shard := sortBy (fun x y => x.id ≤ y.id) ((imgShards b).filter (·.owns))

/-- The commit digest CD (R492). -/
def State.commitDigest (s : State) (b : Buf) : Nat :=
  gf128Poly (digestK (imgJobId b)) ((ownedShards b).map fun x => s.shardDigest (imgJobId b) x)

/-! ### Comparison of replicas (R493, R494) -/

/-- DESC of R486: the low 64 bits of the SHA-256 of the shard-descriptor section. -/
def shardDesc (b : Buf) : Nat := sha256 (imgBytes b 0x09) % 2 ^ 64

/-- A notice sent along the D ring (R493): on its two ports, where the image uses them. -/
def State.alongD (s : State) (b : Buf) (exceptPort : Option Nat) : State :=
  match s.job with
  | none => s
  | some j =>
    ((imgPorts j.image).filter fun p => p / 2 = 2 && some p ≠ exceptPort).foldl
      (fun s p => s.sendMessage p 2 (neighbourCw j.image p) b) s

/-- The port of the D ring that is used, the + side first. -/
def dPort (b : Buf) : Nat := if imgWidth b 4 ≠ 0 then 4 else 5

/-- The digests held for a step, the own one first: CW, CD, DESC. -/
def State.digestsOf (s : State) (cw step : Nat) : List (Nat × Nat × Nat) :=
  ((s.site.ownCd.filter fun o => o.1 = step).map fun o => (cw, o.2.2.1, o.2.2.2)) ++
    ((s.site.digests.filter fun d => d.2.1 = step).map fun d => (d.1, d.2.2.2.1, d.2.2.2.2))

/-- The CD that a strict majority of a group holds. -/
def majorityCd (g : List (Nat × Nat × Nat)) : Option Nat :=
  (g.find? fun d => g.length < 2 * (g.countP fun e => e.2.1 = d.2.1)).map fun d => d.2.1

/-- The comparison of a step, once the digest of every device of the D ring is held (R493, R494). The minority asks its
source for the shard digests (R495). -/
def State.compareReplicas (s : State) (step : Nat) : State :=
  match s.job with
  | none => s
  | some j =>
    match s.site.ownCd.find? fun o => o.1 = step with
    | none => s
    | some own =>
      let cw := imgCw j.image
      let all := s.digestsOf cw step
      if all.length < imgSizeD j.image then s
      else
        let s := s.onSite fun x =>
          { x with ownCd := x.ownCd.filter fun o => o.1 ≠ step, digests := x.digests.filter fun d => d.2.1 ≠ step }
        let g := all.filter fun d => d.2.2 = own.2.2.2
        let n := g.length
        if g.all fun d => d.2.1 = own.2.2.1 then s
        else if n = 2 then s.fatal Ev.replicaMismatch 0 [(16, n)]
        else
          match majorityCd g with
          | none => s.fatal Ev.replicaMismatch 0 [(16, n)]
          | some cd =>
            if cd = own.2.2.1 then s
            else
              let good := (g.filter fun d => d.2.1 = cd).map fun d => d.1
              let src := good.foldl (fun a b => if cwCoord b 2 < cwCoord a 2 then b else a) (good.headD cw)
              let s := s.onSite fun x => { x with minority := true, source := some src, asks := 1, pulled := [] }
              (s.raise Ev.replicaMismatch 0 [(16, n)] step).emit (.repair (dPort j.image) (.askShards src))

/-- DIGEST sent after the last pass of a finite commit (R493). -/
def State.sendDigest (s : State) (step : Nat) : State :=
  match s.job with
  | none => s
  | some j =>
    let b := j.image
    let cd := s.commitDigest b
    let epoch := imgEpoch b
    let s := s.onSite fun x => { x with ownCd := x.ownCd ++ [(step, epoch, cd, shardDesc b)] }
    let s := s.alongD (siteNotice 4 epoch (imgCw b) (imgJobId b) 0 step 0 cd (shardDesc b)) none
    s.compareReplicas step

/-! ### Installing a repair (R495) -/

/-- One pulled leaf written into its copy. -/
def State.putLeaf (s : State) (b : Buf) (l : Nat × Nat × Nat × Buf) : State :=
  match imgShard b l.1, digestCopies[l.2.1 - 1]? with
  | some t, some c =>
    let e := 4096 / c.width * l.2.2.1
    let n := Nat.min (4096 / c.width) (t.elems - e)
    s.writeCopy t c e n (l.2.2.2.val % 256 ^ (n * c.width))
  | _, _ => s

/-- The pulled blocks of a complete repair installed at a commit point, finite or skipped. -/
def State.installRepair (s : State) : State :=
  match s.job with
  | none => s
  | some j =>
    if !s.site.minority || s.site.source.isSome then s
    else
      let l := s.site.pulled
      let s := l.foldl (fun s x => s.putLeaf j.image x) s
      (s.onSite fun x => { x with minority := false, pulled := [] }).raise Ev.replicaRepaired 0 [(32, l.length)] j.step

end Sys2Proof.Machine
end

