-- ==== Sys2Proof/Machine/UpdateArith.lean ====
section
/-! DEFINITION. The arithmetic of the update engine (R216 to R226): FP32 operations that report a NaN or an infinity by
`none`, stochastic rounding, the elementwise rules, and the matrix rules. -/

namespace Sys2Proof.Machine

/-! ### FP32 with the finiteness check of R217 -/

/-- RN of an exact value, `none` where the FP32 value is NaN or infinite (R217). -/
def qrn (v : Fv) : Option Nat :=
  let c := rnf v
  if (dec32 c).isFin then some c else none

/-- The product of two FP32 values, rounded once. -/
def qmul (a b : Nat) : Option Nat := qrn ((dec32 a).mulFin (dec32 b))

/-- The sum, rounded once. -/
def qadd (a b : Nat) : Option Nat := qrn ((dec32 a).addFin (dec32 b))

/-- FMA(a, b, c). -/
def qfma (a b c : Nat) : Option Nat := qrn (((dec32 a).mulFin (dec32 b)).addFin (dec32 c))

/-- The negative of an FP32 value. -/
def neg32 (a : Nat) : Nat := a ^^^ 0x80000000

/-- 1.0. -/
def one32 : Nat := 0x3F800000

/-- RN(1 - a). -/
def qoneMinus (a : Nat) : Option Nat := qadd one32 (neg32 a)

/-- A table function's result, checked. -/
def qtab (x : Nat × NumFlags) : Option Nat := if (dec32 x.1).isFin then some x.1 else none

/-- An FP32 value rounded to BF16, to nearest-even (log entry 38). -/
def toBf16 (y : Nat) : Nat := (fBF16.encode (dec32 y) false true).1

/-- A BF16 code as an FP32 code. -/
def ofBf16 (c : Nat) : Nat := c <<< 16

/-- SR (R224): the BF16 code, and whether it saturated. `y` is an FP32 code, `r` the 16-bit draw. -/
def srRound (y r : Nat) : Nat × Bool :=
  if y % 2 ^ 31 = 0 then (y >>> 16, false)
  else
    let z := y % 2 ^ 31 + r
    if bits z 23 8 = 0xFF then (if y.testBit 31 then 0xFF7F else 0x7F7F, true)
    else (setBits (bits z 16 15) 15 1 (b2n (y.testBit 31)), false)

/-! ### Pass descriptors (R216) -/

/-- A pass descriptor. -/
structure Pass where
  rule : Nat
  clip : Bool
  wd : Bool
  nest : Bool
  bc : Bool
  nsBlock : Bool
  nsIter : Nat
  pcIter : Nat
  pcRoot : Bool
  lr : Nat
  beta1 : Nat
  beta2 : Nat
  eps : Nat
  lambda : Nat
  gscale : Nat
  oscale : Nat
  nsA : Nat
  nsB : Nat
  nsC : Nat
  nsBr : Nat
  nsBc : Nat
  deriving DecidableEq, Repr, Inhabited

/-- The fields of a pass descriptor (R216). -/
def Pass.ofBuf (b : Buf) : Pass :=
  { rule := b.fld 0 4, clip := b.flag 4, wd := b.flag 5, nest := b.flag 6, bc := b.flag 7, nsBlock := b.flag 8,
    nsIter := b.fld 9 3, pcIter := b.fld 12 4, pcRoot := b.flag 16, lr := b.fld 64 32, beta1 := b.fld 96 32,
    beta2 := b.fld 128 32, eps := b.fld 160 32, lambda := b.fld 192 32, gscale := b.fld 224 32, oscale := b.fld 256 32,
    nsA := b.fld 288 32, nsB := b.fld 320 32, nsC := b.fld 352 32, nsBr := b.fld 384 16, nsBc := b.fld 400 16 }

/-- The scalars a pass computes once at its start (R217, R219). -/
structure Scalars where
  omega  : Nat
  omega1 : Nat
  omega2 : Nat
  c1     : Nat
  c2     : Nat
  deriving DecidableEq, Repr, Inhabited

/-- A bias correction of ADAMW: rcp_T(RN(1 - exp2_T(RN(C log2_T(beta))))) (R219). -/
def biasCorrection (commits beta : Nat) : Option Nat := do
  let l ← qtab (vlog2 beta)
  let x ← qrn ((Fv.fin false commits 0).mulFin (dec32 l))
  let e ← qtab (vexp2 x)
  let d ← qoneMinus e
  qtab (vrcp d)

/-- The scalars of a pass with C finite commits (R217, R219). -/
def Pass.scalars (p : Pass) (commits : Nat) : Option Scalars := do
  let omega ← if p.wd then (do qoneMinus (← qmul p.lr p.lambda)) else some one32
  let omega1 ← qoneMinus p.beta1
  let omega2 ← qoneMinus p.beta2
  let c1 ← if p.rule = 1 && p.bc then biasCorrection commits p.beta1 else some one32
  let c2 ← if p.rule = 1 && p.bc then biasCorrection commits p.beta2 else some one32
  some ⟨omega, omega1, omega2, c1, c2⟩

/-! ### Elementwise rules -/

/-- The gradient of an element (R218): i 2^(A - F) GSCALE, one rounding, and times the clip factor where CLIP is 1. -/
def Pass.grad (p : Pass) (i anchor : Int) (w32 : Bool) (kappa : Nat) : Option Nat := do
  let g ← qrn ((Fv.ofInt i (anchor - afxF w32)).mulFin (dec32 p.gscale))
  if p.clip then qmul g kappa else some g

/-- m' of SGDM, ORTHO and PRECOND: FMA(beta1, m, g). -/
def Pass.moment (p : Pass) (m g : Nat) : Option Nat := qfma p.beta1 m g

/-- d of SGDM and ORTHO. -/
def Pass.direction (p : Pass) (m' g : Nat) : Option Nat := if p.nest then qfma p.beta1 m' g else some m'

/-- The value that the stochastic rounding of a weight takes: FMA(-lr, d, RN(w omega)). -/
def Pass.weightOf (p : Pass) (sc : Scalars) (d w : Nat) : Option Nat := do
  let w1 ← qmul w sc.omega
  qfma (neg32 p.lr) d w1

/-- What an element becomes: m', v' and the value to be rounded into the weight, all FP32. -/
structure Elem where
  m : Nat
  v : Nat
  w : Nat
  deriving DecidableEq, Repr, Inhabited

/-- SGDM (R219). -/
def Pass.sgdm (p : Pass) (sc : Scalars) (g m w : Nat) : Option Elem := do
  let m' ← p.moment m g
  let d ← p.direction m' g
  let y ← p.weightOf sc d w
  some ⟨m', 0, y⟩

/-- ADAMW (R219). -/
def Pass.adamw (p : Pass) (sc : Scalars) (g m v w : Nat) : Option Elem := do
  let m' ← qfma p.beta1 m (← qmul sc.omega1 g)
  let v' ← qfma p.beta2 v (← qmul sc.omega2 (← qmul g g))
  let mh ← if p.bc then qmul m' sc.c1 else some m'
  let vh ← if p.bc then qmul v' sc.c2 else some v'
  let t ← if (dec32 vh).isZero && !(dec32 vh).neg? then some 0 else (do qmul vh (← qtab (vrsq vh)))
  let r ← qtab (vrcp (← qadd t p.eps))
  let y ← p.weightOf sc (← qmul mh r) w
  some ⟨m', v', y⟩

/-- The outer rule (R222): u' and a'. `sum` is the element of an AFX64 block at an anchor, `k` the contributions. -/
def Pass.outer (p : Pass) (sum anchor : Int) (k u a : Nat) : Option (Nat × Nat) := do
  let q := quotSticky (sum < 0) sum.natAbs (if k = 0 then 1 else k) 64
  let delta ← qrn (match q with | .fin n m e => .fin n m (e + anchor - 40) | x => x)
  let u' ← qfma p.beta1 u delta
  let t ← qfma p.beta1 u' delta
  let a' ← qfma (neg32 p.lr) t a
  some (u', a')

/-- The rebase of FULL: RN(a' + RN(w - s)) (R222). -/
def rebase (a' w sn : Nat) : Option Nat := do
  let d ← qadd w (neg32 sn)
  qadd a' d

/-! ### Matrices of FP32 values -/

/-- A matrix as a list of rows. -/
abbrev Mx := List (List Nat)

/-- The columns of a matrix with `c` columns. -/
def Mx.transpose (m : Mx) (c : Nat) : Mx := (List.range c).map fun j => m.map fun r => r.getD j 0

/-- The product of BF16 operands, accumulated exactly and rounded once; `bt` holds the columns of the right operand. -/
def dotB (a b : List Nat) : Option Nat :=
  qrn ((a.zip b).foldl (fun (s : Fv) (p : Nat × Nat) =>
    s.addFin ((dec32 (ofBf16 (toBf16 p.1))).mulFin (dec32 (ofBf16 (toBf16 p.2))))) Fv.zero)

/-- A list of optional results, `none` where one is. -/
def allSome : List (Option α) → Option (List α)
  | [] => some []
  | x :: l => do
    let a ← x
    let t ← allSome l
    some (a :: t)

/-- <A · B> with the columns of B given. -/
def Mx.mulT (a bt : Mx) : Option Mx := allSome (a.map fun r => allSome (bt.map fun c => dotB r c))

/-- <A · B> for B with `c` columns. -/
def Mx.mul (a b : Mx) (c : Nat) : Option Mx := a.mulT (b.transpose c)

/-- An operation on every pair of elements. -/
def Mx.zip2 (f : Nat → Nat → Option Nat) (a b : Mx) : Option Mx :=
  allSome ((a.zip b).map fun p => allSome ((p.1.zip p.2).map fun q => f q.1 q.2))

/-- An operation on every element. -/
def Mx.map1 (f : Nat → Option Nat) (a : Mx) : Option Mx := allSome (a.map fun r => allSome (r.map f))

/-- The exact sum of the squares of the elements. -/
def Mx.squares (a : Mx) : Fv :=
  a.foldl (fun s r => r.foldl (fun s x => s.addFin ((dec32 x).mulFin (dec32 x))) s) Fv.zero

/-! ### Orthogonalised momentum (R220) -/

/-- The iterations of R220 on a matrix of `r` rows and `c` columns with r at most c. -/
def Pass.nsLoop (p : Pass) (r c : Nat) : Nat → Mx → Option Mx
  | 0, x => some x
  | n + 1, x => do
    let a ← x.mulT x
    let aa ← a.mul a r
    let b ← Mx.zip2 (fun ab ai => do qfma p.nsC ab (← qmul p.nsB ai)) aa a
    let bx ← b.mul x c
    let x' ← Mx.zip2 (fun xi bi => qfma p.nsA xi bi) x bx
    p.nsLoop r c n x'

/-- The orthogonalised direction of a matrix with `r` rows and `c` columns (R220). -/
def Pass.ortho (p : Pass) (r c : Nat) (d : Mx) : Option Mx := do
  let flip := c < r
  let m := if flip then d.transpose c else d
  let (r', c') := if flip then (c, r) else (r, c)
  let n2 ← qrn (m.squares.addFin (dec32 p.eps))
  let f ← qtab (vrsq n2)
  let x ← m.map1 fun v => qmul v f
  let x ← p.nsLoop r' c' (p.nsIter + 1) x
  some (if flip then x.transpose r else x)

/-! ### The block preconditioner (R221) -/

/-- Element (i, j) of a matrix. -/
def Mx.at_ (a : Mx) (i j : Nat) : Nat := (a.getD i []).getD j 0

/-- T := FMA(-1/p, M, Z), p being 4 or 2 (R221). -/
def newtonT (root4 : Bool) (m : Mx) : Option Mx :=
  allSome (m.zipIdx.map fun (r : List Nat × Nat) => allSome (r.1.zipIdx.map fun (x : Nat × Nat) =>
    qfma (if root4 then 0xBE800000 else 0xBF000000) x.1
      (if r.2 = x.2 then (if root4 then 0x3FA00000 else 0x3FC00000) else 0)))

/-- M := <T · M>, n times. -/
def timesT (b : Nat) (t : Mx) : Nat → Mx → Option Mx
  | 0, m => some m
  | n + 1, m => do timesT b t n (← t.mul m b)

/-- The iterations of invroot. -/
def newtonLoop (root4 : Bool) (b : Nat) : Nat → Mx → Mx → Option Mx
  | 0, _, x => some x
  | n + 1, m, x => do
    let t ← newtonT root4 m
    let x' ← x.mul t b
    let m' ← timesT b t (if root4 then 4 else 2) m
    newtonLoop root4 b n m' x'

/-- invroot(S) for a b by b matrix (R221). -/
def Pass.invroot (p : Pass) (b : Nat) (sm : Mx) : Option Mx := do
  let ah ← allSome (sm.zipIdx.map fun (r : List Nat × Nat) => allSome (r.1.zipIdx.map fun (x : Nat × Nat) =>
    if r.2 = x.2 then qadd x.1 p.eps else some x.1))
  let n2 ← qrn (Mx.squares ah)
  let f ← qmul n2 (← qtab (vrsq n2))
  let d := if p.pcRoot then 5 else 3
  let cp ← qrn (match dec32 f with
    | .fin n m e => (match quotSticky n (2 * m) d 64 with | .fin n m e' => .fin n m (e' + e) | x => x)
    | x => x)
  let rc ← qtab (vrcp cp)
  let m ← Mx.map1 (fun v => qmul v rc) ah
  let lg ← qtab (vlog2 cp)
  let ex ← qrn (match (dec32 lg).negate with | .fin n m e => .fin n m (e - (if p.pcRoot then 2 else 1)) | x => x)
  let e ← qtab (vexp2 ex)
  let x := (List.range b).map fun i => (List.range b).map fun j => if i = j then e else 0
  newtonLoop p.pcRoot b (p.pcIter + 1) m x

/-- What PRECOND computes for one block: m', L', R' and the direction, from the gradient, m, L and R (R221). -/
def Pass.precond (p : Pass) (sc : Scalars) (b : Nat) (g m l r : Mx) : Option (Mx × Mx × Mx × Mx) := do
  let m' ← Mx.zip2 p.moment m g
  let gg ← g.mulT g
  let gt := g.transpose b
  let gtg ← gt.mulT gt
  let l' ← Mx.zip2 (fun li x => do qfma p.beta2 li (← qmul sc.omega2 x)) l gg
  let r' ← Mx.zip2 (fun ri x => do qfma p.beta2 ri (← qmul sc.omega2 x)) r gtg
  let xl ← p.invroot b l'
  let xr ← p.invroot b r'
  let y ← xl.mul m' b
  let dir ← y.mul xr b
  some (m', l', r', dir)

end Sys2Proof.Machine
end

