-- ==== Sys2Proof/Machine/Update.lean ====
section
/-! DEFINITION. Update passes (R213 to R231): the decision they read, final sums taken from pool and Spillway, the inner
rules, the outer rule, anchors, stochastic rounding, and completion. -/

namespace Sys2Proof.Machine

/-- What a running pass works with. -/
structure PassCtx where
  die    : Nat
  index  : Nat      -- pass descriptor index
  p      : Pass
  sc     : Scalars
  kappa  : Nat
  seed   : Nat
  cw     : Nat
  c0     : Nat      -- core_cycle(planned JT); R226
  deriving DecidableEq, Repr, Inhabited

/-- A pass part-way: the state, the elements streamed, whether it has stopped, and whether it has written state. -/
structure PassRun where
  s     : State
  e     : Nat
  dead  : Bool
  wrote : Bool

/-- The 16-bit draw of element `e` of a pass's stream (R226). -/
def PassCtx.draw (x : PassCtx) (e : Nat) : Nat :=
  let k := e / 256
  let w := drawAt (laneKey x.seed (e % 256) (0x80 + x.die) 0 x.cw) (x.c0 + k - k % 8) 0 0
  let word := match k % 8 / 2 with | 0 => w.1 | 1 => w.2.1 | 2 => w.2.2.1 | _ => w.2.2.2
  bits word (16 * (k % 2)) 16

/-- UPDATE_NONFINITE (R217): the pass stops without further writes. -/
def PassRun.nonfinite (r : PassRun) (x : PassCtx) (tensor elem : Nat) : PassRun :=
  { r with s := r.s.fatal Ev.updateNonfinite (0x80 + x.die) [(32, x.index), (20, tensor), (32, elem)], dead := true }

/-- A read of a copy, with what corrected and bad parts of it lead to (R170, R214). -/
def PassRun.read (r : PassRun) (t : Shard) (c : Copy) (e n : Nat) : Nat × PassRun :=
  let (v, bad) := r.s.readCopy t c e n
  (v, { r with s := r.s.noteCopy t c e n .update, dead := r.dead || bad })

/-- Saturated weight writes counted, with SR_SATURATE once per step (R224, R230). -/
def State.countSat (s : State) (x : PassCtx) (n : Nat) : State :=
  if n = 0 then s
  else
    let s := s.onDie x.die fun d => { d with srSat := satAdd 32 d.srSat n }
    if s.com.srEvent then s
    else (s.raise Ev.srSaturate (0x80 + x.die) [(32, x.index)] s.stepNo).onCom fun c => { c with srEvent := true }

/-- FP32 values written stochastically as weights from element `e` of the shard on (R224, R226). -/
def PassRun.writeWeights (r : PassRun) (x : PassCtx) (t : Shard) (e : Nat) (ys : List Nat) : PassRun :=
  let out : List (Nat × Bool) := ys.zipIdx.map fun (y : Nat × Nat) => srRound y.1 (x.draw (r.e + y.2))
  let s := if ys = [] then r.s else r.s.writeCopy t .weight e ys.length (packFields 16 (out.map fun (o : Nat × Bool) => o.1))
  let s := s.countSat x (out.countP fun (o : Nat × Bool) => o.2)
  { r with s := s.onDie x.die fun d => { d with elements := satAdd 64 d.elements ys.length }, e := r.e + ys.length, wrote := r.wrote || ys ≠ [] }

/-- FP32 values written to a copy, by RN where it holds BF16 (R217). -/
def PassRun.writeOut (r : PassRun) (t : Shard) (c : Copy) (e : Nat) (ys : List Nat) : PassRun :=
  if ys = [] then r
  else
    let v := if c.width = 2 then packFields 16 (ys.map toBf16) else packFields 32 ys
    { r with s := r.s.writeCopy t c e ys.length v, wrote := true }

/-! ### Final sums (R199, R202, R218) -/

/-- A block lies at an AFX block's place. -/
def afxHere (b : Buf) (t : Shard) (row col sub : Nat) : Bool :=
  afxTensor b = t.id && afxRow b = row && afxCol b = col && afxSub b = sub

/-- Blocks summed in order under R194: `none` where one does not match. -/
def afxSum : Buf → List Buf → Option Buf
  | a, [] => some a
  | a, b :: l => (afxAdd a b).bind fun x => afxSum x l

/-- VALID of a Spillway record cleared (R202). -/
def State.consumeSpill (s : State) (base : Nat) (x : Spill) : State :=
  let s := { s with spills := s.spills.map fun y => if y.off = x.off then { y with valid := false } else y }
  if x.present then s.ergWrite (base + x.off) 32 (spillHeader false x.step) else s

/-- The final sum of an AFX block taken from the pool and the Spillway, its slot freed, its next anchor committed (R197, R199,
R202, R218). A bad word or line of either ends the pass (R170, R214). -/
def PassRun.takeSum (r : PassRun) (x : PassCtx) (t : Shard) (row col sub : Nat) : Option Buf × PassRun :=
  let here (b : Buf) : Bool := afxHere b t row col sub
  let base := r.s.spillBase
  let s := r.s.awaitSpills base fun y => y.die = x.die && here y.block
  let d := s.die x.die
  let recs := s.spills.filter fun y => y.die = x.die && y.valid && here y.block
  let stored := recs.map fun y => s.spillBlock base y
  let slots := (d.pool.zip d.poolAt).filter fun y => here y.1
  match slots.map (·.1) ++ stored.map (·.1), s.job with
  | a :: l, some j =>
    let (bad, s) := slots.foldl (fun (q : Bool × State) y =>
      let (bad, s) := q.2.readSlot j.image x.die y.2 y.1.len .update
      (q.1 || bad, s)) (false, s)
    let s := recs.foldl (fun s y => s.noteSpill base .update y) s
    if bad || stored.any (·.2) then (none, { r with s, dead := true })
    else
      match afxSum a l with
      | none => (none, { r with s := s.fatal Ev.afxMismatch (0x80 + x.die) [(32, x.index)], dead := true })
      | some b =>
        let s := s.onDie x.die fun d => d.keepBlocks fun y => !here y
        let s := recs.foldl (fun s y => s.consumeSpill base y) s
        let (a', clamped) := nextAnchor b
        let s := s.setAnchor t row col sub a'
        let s := if clamped then s.onDie x.die fun d => { d with anchorClamps := satAdd 32 d.anchorClamps 1 } else s
        (some b, { r with s })
  | _, _ =>
    (none, { r with s := s.fatal Ev.updateMissing (0x80 + x.die) [(32, x.index), (20, t.id)], dead := true })

/-- The gradients of an AFX block (R218). -/
def PassCtx.grads (x : PassCtx) (b : Buf) : List (Option Nat) :=
  (afxElems b).map fun i => x.p.grad i (afxAnchor b) (afx32 b) x.kappa

/-! ### SGDM and ADAMW (R219) -/

/-- One AFX block under an elementwise rule. Elements before one that is not finite are written, the others are not
(R217). -/
def PassRun.plainBlock (x : PassCtx) (t : Shard) (row col : Nat) (r : PassRun) (sub : Nat) : PassRun :=
  if r.dead then r
  else
    let (ob, r) := r.takeSum x t row col sub
    match ob with
    | none => r
    | some b =>
      let e := t.ownIdx row col * t.lbElems + 256 * sub
      let (mv, r) := r.read t .inner e 256
      let (vv, r) := if x.p.rule = 1 then r.read t .second e 256 else (0, r)
      let (wv, r) := r.read t .weight e 256
      if r.dead then r
      else
        let res := (((x.grads b).zip (fields 16 256 mv)).zip ((fields 32 256 vv).zip (fields 16 256 wv))).map
          fun (q : (Option Nat × Nat) × (Nat × Nat)) => do
            let g ← q.1.1
            let m := ofBf16 q.1.2
            let w := ofBf16 q.2.2
            if x.p.rule = 1 then x.p.adamw x.sc g m q.2.1 w else x.p.sgdm x.sc g m w
        let good : List Elem := (res.takeWhile fun o => o.isSome).filterMap id
        let r := r.writeOut t .inner e (good.map (·.m))
        let r := if x.p.rule = 1 then r.writeOut t .second e (good.map (·.v)) else r
        let r := r.writeWeights x t e (good.map (·.w))
        if good.length < 256 then r.nonfinite x t.id (e + good.length) else r

/-- Every AFX block of a shard, in block order. -/
def PassRun.eachBlock (t : Shard) (f : Nat → Nat → PassRun → Nat → PassRun) (r : PassRun) : PassRun :=
  t.blocks.foldl (fun r (b : Nat × Nat) => (List.range t.lbSubs).foldl (f b.1 b.2) r) r

/-! ### ORTHO (R220) -/

/-- Place in the shard of element (i, j) of its matrix. -/
def Shard.elemAt (t : Shard) (i j : Nat) : Nat :=
  (i / t.lbRows * t.owNc + j / t.lbCols) * t.lbElems + i % t.lbRows * t.lbCols + j % t.lbCols

/-- The matrices that ORTHO works on, each as its first row and column and its extents, in row-major block order. -/
def Pass.orthoBlocks (p : Pass) (t : Shard) : List (Nat × Nat × Nat × Nat) :=
  let rows := t.owNr * t.lbRows
  let cols := t.owNc * t.lbCols
  if !p.nsBlock then [(0, 0, rows, cols)]
  else (List.range (rows / p.nsBr)).flatMap fun a => (List.range (cols / p.nsBc)).map fun b => (a * p.nsBr, b * p.nsBc, p.nsBr, p.nsBc)

/-- The orthogonalised directions of a shard, in shard order. -/
def Pass.orthoAll (p : Pass) (t : Shard) (d : List Nat) : Option (List Nat) := do
  let outs ← allSome ((p.orthoBlocks t).map fun (q : Nat × Nat × Nat × Nat) => do
    let m : Mx := (List.range q.2.2.1).map fun i => (List.range q.2.2.2).map fun j => d.getD (t.elemAt (q.1 + i) (q.2.1 + j)) 0
    let x ← p.ortho q.2.2.1 q.2.2.2 m
    some ((List.range q.2.2.1).flatMap fun i => (List.range q.2.2.2).map fun j => (t.elemAt (q.1 + i) (q.2.1 + j), x.at_ i j)))
  let tab := outs.flatten
  some ((List.range t.elems).map fun e => ((tab.find? fun (q : Nat × Nat) => q.1 = e).map (·.2)).getD 0)

/-- The first half of ORTHO for one AFX block: m' is stored and d gathered. -/
def PassRun.orthoGather (x : PassCtx) (t : Shard) (row col : Nat) (a : PassRun × List Nat) (sub : Nat) : PassRun × List Nat :=
  if a.1.dead then a
  else
    let (ob, r) := a.1.takeSum x t row col sub
    match ob with
    | none => (r, a.2)
    | some b =>
      let e := t.ownIdx row col * t.lbElems + 256 * sub
      let (mv, r) := r.read t .inner e 256
      if r.dead then (r, a.2)
      else
        let res := ((x.grads b).zip (fields 16 256 mv)).map fun (q : Option Nat × Nat) => do
          let g ← q.1
          let m' ← x.p.moment (ofBf16 q.2) g
          let d ← x.p.direction m' g
          some (m', d)
        let good : List (Nat × Nat) := (res.takeWhile fun o => o.isSome).filterMap id
        let r := r.writeOut t .inner e (good.map (·.1))
        if good.length < 256 then (r.nonfinite x t.id (e + good.length), a.2) else (r, a.2 ++ good.map (·.2))

/-- Weights of a shard moved along directions given in shard order: RN(dir OSCALE) and the decayed weight (R220, R221). -/
def PassRun.moveWeights (x : PassCtx) (t : Shard) (r : PassRun) (e : Nat) (dirs : List Nat) : PassRun :=
  if r.dead then r
  else
    let (wv, r) := r.read t .weight e dirs.length
    if r.dead then r
    else
      let res := (dirs.zip (fields 16 dirs.length wv)).map fun (q : Nat × Nat) => do
        x.p.weightOf x.sc (← qmul q.1 x.p.oscale) (ofBf16 q.2)
      let good : List Nat := (res.takeWhile fun o => o.isSome).filterMap id
      let r := r.writeWeights x t e good
      if good.length < dirs.length then r.nonfinite x t.id (e + good.length) else r

/-- ORTHO over one tensor (R220). -/
def PassRun.orthoTensor (x : PassCtx) (r : PassRun) (t : Shard) : PassRun :=
  let (r, d) := t.blocks.foldl (fun a (b : Nat × Nat) => (List.range t.lbSubs).foldl (PassRun.orthoGather x t b.1 b.2) a) (r, [])
  if r.dead then r
  else
    match x.p.orthoAll t d with
    | none => r.nonfinite x t.id 0
    | some dirs => r.moveWeights x t 0 dirs

/-! ### PRECOND (R221) -/

/-- Rows of `b` FP32 values. -/
def rowsOf (b : Nat) (l : List Nat) : Mx := (List.range b).map fun i => (l.drop (b * i)).take b

/-- The gradients of a logical block, all its final sums taken. -/
def PassRun.blockGrads (x : PassCtx) (t : Shard) (row col : Nat) (a : PassRun × List (Option Nat)) (sub : Nat) :
    PassRun × List (Option Nat) :=
  if a.1.dead then a
  else
    match a.1.takeSum x t row col sub with
    | (none, r) => (r, a.2)
    | (some b, r) => (r, a.2 ++ x.grads b)

/-- PRECOND for one logical block. L and R stand in the block's second-moment bytes in BF16, L first. -/
def PassRun.precondBlock (x : PassCtx) (t : Shard) (r : PassRun) (blk : Nat × Nat) : PassRun :=
  if r.dead then r
  else
    let (r, gs) := (List.range t.lbSubs).foldl (PassRun.blockGrads x t blk.1 blk.2) (r, [])
    if r.dead then r
    else
      let b := t.lbRows
      let n := t.lbElems
      let e := t.ownIdx blk.1 blk.2 * n
      let (mv, r) := r.read t .inner e n
      let (sv, r) := r.read t .second e n
      if r.dead then r
      else
        let halves := fields 16 (2 * n) sv
        let f (l : List Nat) : Mx := rowsOf b (l.map ofBf16)
        let out := do
          let g ← allSome gs
          x.p.precond x.sc b (rowsOf b g) (f (fields 16 n mv)) (f (halves.take n)) (f (halves.drop n))
        match out with
        | none => r.nonfinite x t.id e
        | some (m', l', r', dir) =>
          let q := r.writeOut t .inner e m'.flatten
          let st := packFields 16 ((l'.flatten ++ r'.flatten).map toBf16)
          let q := { q with s := q.s.writeCopy t .second e n st }
          q.moveWeights x t e dir.flatten

/-! ### OUTER (R222) -/

/-- The fragment table entry and its fields (R295). -/
def imgFrag (b : Buf) (f : Nat) : Buf := imgRec b 0x0A 64 32 f
/-- This site's index and the job's sites (R295). -/
def imgSite (b : Buf) : Nat := (imgBytes b 0x0A).fld 0 3
@[inherit_doc imgSite] def imgSites (b : Buf) : Nat := (imgBytes b 0x0A).fld 8 5
/-- FCOUNT. -/
def imgFcount (b : Buf) : Nat := (imgBytes b 0x0A).fld 16 7

/-- Address of a fragment's sum region on a die (R295, R311). -/
def sumAddr (b : Buf) (die f : Nat) : Nat := die * oasisSize + (imgFrag b f).fld 128 32

/-- NCONTRIB of a manifest (R305). -/
def manContribs (m : Buf) : Nat := m.fld 64 4
/-- ROUND of a manifest (R305). -/
def manRound (m : Buf) : Nat := m.fld 32 32

/-- NORM_EN of the job image (R244): the device is the round owner of its shard (R297). -/
def imgNormEn (b : Buf) : Bool := (imgCommit b).flag 130

/-- The apply record of a fragment on a die, as a pass reads it: whether a word of it is bad, and what that leads to (R170, R214). -/
def State.noteApply (s : State) (b : Buf) (die f : Nat) : Bool × State :=
  let r := s.oasis.readAt (sumAddr b die f) 64
  (r.bad ≠ [], s.noteOasis r .update)

/-- The apply record of a fragment on a die: ROUND, MODE, READY, STEP (R311). -/
def State.applyRec (s : State) (b : Buf) (die f : Nat) : Nat × Nat × Bool × Nat :=
  let r : Buf := ⟨64, s.oasis.val (sumAddr b die f) 64⟩
  (r.fld 0 32, r.fld 32 2, r.flag 34, r.fld 64 64)

/-- The fragment of a pass: its tensors all have one (R215). -/
def passFragment (b p : Buf) : Nat := ((passShards b p).head?.map (·.fragment)).getD 0

/-- The shards a die's sum region covers, in the order of R301 (R311). -/
def outerShards (b p : Buf) : List Shard := sortBy (fun x y => x.id ≤ y.id) ((passShards b p).filter (·.owns))

/-- Offset in the sum region of an AFX block of a shard of the pass (R301, R311). -/
def sumOff (l : List Shard) (t : Shard) (row col sub : Nat) : Nat :=
  let before := ((l.takeWhile fun y => y.id ≠ t.id).map fun y => y.elems / 256).sum
  64 + 2080 * (before + t.ownIdx row col * t.lbSubs + sub)

/-- The elements of an AFX block under the outer rule, from what was read of its copies, and their writes (R222). -/
def PassRun.outerStore (x : PassCtx) (blk : Buf) (k : Nat) (full : Bool) (t : Shard) (e av uv wv sv : Nat) (r : PassRun) : PassRun :=
  let res := ((afxElems blk).zip ((fields 32 256 uv).zip ((fields 32 256 av).zip
      ((fields 16 256 wv).zip (fields 16 256 sv))))).map
    fun (q : Int × Nat × Nat × Nat × Nat) => do
      let (u', a') ← x.p.outer q.1 (afxAnchor blk) k q.2.1 q.2.2.1
      let y ← if full then rebase a' (ofBf16 q.2.2.2.1) (ofBf16 q.2.2.2.2) else some 0
      some (u', a', y)
  let good : List (Nat × Nat × Nat) := (res.takeWhile fun o => o.isSome).filterMap id
  let r := r.writeOut t .outer e (good.map (·.1))
  let r := r.writeOut t .anchor e (good.map (·.2.1))
  let r := if full then r.writeWeights x t e (good.map (·.2.2))
    else { r with s := r.s.onDie x.die fun d => { d with elements := satAdd 64 d.elements good.length } }
  if good.length < 256 then r.nonfinite x t.id (e + good.length) else r

/-- One AFX block under the outer rule. `k` is the number of contributions, `full` the mode. -/
def PassRun.outerBlock (x : PassCtx) (region : Nat) (l : List Shard) (k round : Nat) (full : Bool) (t : Shard)
    (row col : Nat) (r : PassRun) (sub : Nat) : PassRun :=
  if r.dead then r
  else
    let a := region + sumOff l t row col sub
    let rd := r.s.oasis.readAt a 2080
    let blk : Buf := ⟨2080, rd.val⟩
    let r := { r with s := r.s.noteOasis rd .update }
    if rd.bad ≠ [] then { r with dead := true }
    else if afxCount blk ≠ k || afxTensor blk ≠ t.id || afxRow blk ≠ row || afxCol blk ≠ col || afxSub blk ≠ sub then
      { r with s := r.s.fatal Ev.afxMismatch (0x80 + x.die) [(32, x.index)], dead := true }
    else
      let e := t.ownIdx row col * t.lbElems + 256 * sub
      let av := r.read t .anchor e 256
      let uv := av.2.read t .outer e 256
      let wv := if full then uv.2.read t .weight e 256 else (0, uv.2)
      let sv := if full then wv.2.read t (.snapshot (round % t.snaps)) e 256 else (0, wv.2)
      if sv.2.dead then sv.2 else PassRun.outerStore x blk k full t e av.1 uv.1 wv.1 sv.1 sv.2

/-- The number of contributions of a round: that of its adopted manifest, or, on a device that holds none (R314), the
COUNT of the region's first block (log entry 39). -/
def State.contribs (s : State) (f round region : Nat) : Nat :=
  match (s.frag f).adopted.find? fun m => manRound m = round with
  | some m => manContribs m
  | none => s.oasis.val (region + 64 + 4) 4

/-! ### Passes -/

/-- A pass that reads and writes nothing, counted in PASSES_IDLE (R213, R222). -/
def State.idlePass (s : State) (die : Nat) : State := s.onDie die fun d => { d with passesIdle := satAdd 32 d.passesIdle 1 }

/-- Every core's tiles left unpredictable by a pass that drives the matrix engines (R93). -/
def State.openTiles (s : State) (die : Nat) : State :=
  (List.range 16).foldl (fun s k => s.onCore (16 * die + k) fun c =>
    { c with tile0 := { c.tile0 with open_ := true }, tile1 := { c.tile1 with open_ := true } }) s

/-- An inner pass in a finite step (R213, R218 to R221). -/
def State.innerPass (s : State) (x : PassCtx) (shards : List Shard) : State :=
  let s := if x.p.rule = 2 || x.p.rule = 3 then s.openTiles x.die else s
  let r : PassRun := ⟨s, 0, false, false⟩
  let r := (shards.filter (·.owns)).foldl (fun r t =>
    if r.dead then r
    else if x.p.rule = 2 then r.orthoTensor x t
    else if x.p.rule = 3 then t.blocks.foldl (PassRun.precondBlock x t) r
    else r.eachBlock t (PassRun.plainBlock x t)) r
  if r.wrote then r.s.onDie x.die fun d => { d with passesRun := satAdd 32 d.passesRun 1 } else r.s

/-- An OUTER pass in a finite step (R222): by the apply record of its die's sum region (R311, R313, R314). -/
def State.outerPass (s : State) (x : PassCtx) (b pb : Buf) (step : Nat) : State :=
  let f := passFragment b pb
  let (bad, s) := s.noteApply b x.die f
  let (round, mode, ready, at_) := s.applyRec b x.die f
  if bad then s
  else if mode = 0 || !ready || at_ ≠ step then s.idlePass x.die
  else
    let full := mode = 1
    let region := sumAddr b x.die f
    let k := s.contribs f round region
    let l := outerShards b pb
    let r := ((passShards b pb).filter (·.owns)).foldl (fun r t =>
      PassRun.eachBlock t (PassRun.outerBlock x region l k round full t) r) (⟨s, 0, false, false⟩ : PassRun)
    if !r.wrote then r.s
    else r.s.onDie x.die fun d =>
      { d with passesRun := satAdd 32 d.passesRun 1
               outerFull := if full && !r.dead then satAdd 32 d.outerFull 1 else d.outerFull
               outerOnly := if full || r.dead then d.outerOnly else satAdd 32 d.outerOnly 1 }

/-- A pass starts with the step's decision (R213); `fin` is the end of its footprint in JT. With no decision record its entry is a fault-class miss. -/
def State.runPass (s : State) (j : Job) (i : Nat) (e : Entry) (fin : Nat) : State :=
  let die := e.target - 0x80
  let pb := imgPass j.image e.arg
  let p := Pass.ofBuf pb
  if !s.decided then s.faultMiss i e
  else
    match s.com.decision with
    | none => s.faultMiss i e
    | some d =>
      let s := s.onDie die fun x => { x with pass := some (i, j.step, fin) }
      if d.decision ≠ .finite then s.idlePass die
      else
        let x : PassCtx :=
          { die, index := e.arg, p, sc := ⟨one32, one32, one32, one32, one32⟩, kappa := d.kappa, seed := j.seed,
            cw := imgCw j.image, c0 := coreCycle (plannedJt j.image j.step i) }
        if p.rule = 4 then s.outerPass x j.image pb j.step
        else
          match p.scalars s.com.hist.commits with
          | none => (PassRun.nonfinite ⟨s, 0, false, false⟩ x 0 0).s
          | some sc => s.innerPass { x with sc } (passShards j.image pb)

/-- Every core of a die is idle: none holds a main-job or a guest kernel (R93, R214). -/
def State.coresIdle (s : State) (die : Nat) : Bool := (List.range 16).all fun k => (s.core (16 * die + k)).kernel = none

/-- UPDATE_PASS_START (R213, R214): timetable action 0x10. A guest that still holds a core of the die is blamed
(R92, R376). -/
def State.updatePassStart (s : State) (i : Nat) : State :=
  match s.entry? i with
  | none => s
  | some (j, e) =>
    if e.action ≠ 0x10 then s
    else
      let die := e.target - 0x80
      let s := if s.judge j i e true ≠ .notYet then (List.range 16).foldl (fun s k => s.blameGuest (16 * die + k)) s else s
      match s.judge j i e (s.targetIdle e.target && s.coresIdle die) with
      | .start => (s.beginEntry i e (j.sn + e.offset)).runPass j i e (j.sn + e.finish)
      | d => s.notStarted j i e d

@[inherit_doc State.updatePassStart]
def execUpdatePassStart (at_ entry : Nat) (s : State) : Res := .next ((s.tick at_).updatePassStart entry)

/-- Every 0x10 entry of the step has completed. -/
def State.passesDone (s : State) (b : Buf) (sel : Buf → Bool) : Bool :=
  (imgEntryList b).all fun e => e.2.action ≠ 0x10 || !sel (imgPass b e.2.arg) || s.ent e.1 = .done

/-- The digests of R321: of the anchors and of the outer momenta of a fragment's shards, as one shard of the device. -/
def State.fragDigests (s : State) (b : Buf) (f : Nat) : Nat × Nat :=
  let l := (ownedShards b).filter fun t => t.fragment = f
  let h (c : Copy) : Nat := gf128Poly (digestK (imgJobId b)) (l.map fun t => s.copyRoot (imgJobId b) t c)
  (h .anchor, h .outer)

end Sys2Proof.Machine
end

