-- ==== Sys2Proof/Machine/Export.lean ====
section
/-! DEFINITION. Export and import records (R206 to R210), the job scale-history record (R245), the manifest log (R323),
and where checkpoints lie (R409, R485). -/

namespace Sys2Proof.Machine

/-! ### Records (R206) -/

/-- A record as its header names it. -/
structure Rec where
  kind    : Nat
  tensor  : Nat
  row     : Nat
  col     : Nat
  lbRows  : Nat
  lbCols  : Nat
  epoch   : Nat
  step    : Nat
  round   : Nat
  payload : Buf
  deriving DecidableEq, Repr, Inhabited

/-- The first 64 bytes of a record's header. -/
def Rec.head (r : Rec) : Buf :=
  packBuf 64 [(32, 0x52534C4F), (16, 3), (8, r.kind), (8, 0), (20, r.tensor), (12, 0), (16, r.row), (16, r.col),
    (16, r.lbRows), (16, r.lbCols), (16, r.epoch), (16, 0), (64, r.step), (32, r.round), (32, r.payload.len), (192, 0)]

/-- DIGEST of a record: over header bytes 0 to 63 and the unpadded payload. -/
def Rec.digest (r : Rec) : Buf := sha256Buf (r.head.app r.payload)

/-- Bytes of a record with its padding (log entry 54). -/
def recLen (payload : Nat) : Nat := alignUp (96 + payload) 64

/-- The bytes of a record. -/
def Rec.bytes (r : Rec) : Buf :=
  let b := (r.head.app r.digest).app r.payload
  ⟨recLen r.payload.len, b.val % 256 ^ b.len⟩

/-- The record at an offset of a stream, where its magic, version, length and DIGEST are right. -/
def recAt (b : Buf) (off : Nat) : Option Rec :=
  let h := b.slice off 96
  let len := h.fld 288 32
  if b.len < off + recLen len || h.fld 0 32 ≠ 0x52534C4F || h.fld 32 16 ≠ 3 then none
  else
    let r : Rec := ⟨h.fld 48 8, h.fld 64 20, h.fld 96 16, h.fld 112 16, h.fld 128 16, h.fld 144 16, h.fld 160 16,
      h.fld 192 64, h.fld 256 32, b.slice (off + 96) len⟩
    if (h.slice 64 32).val = r.digest.val then some r else none

/-- The end record after records (R207). -/
def endRec (l : List Rec) (epoch step : Nat) : Rec :=
  let chain := sha256Buf (Buf.cat (l.map Rec.digest))
  ⟨0xFF, 0, 0, 0, 0, 0, epoch, step, 0, (Buf.ofLe 8 l.length).app chain⟩

/-- The records of a stream up to its end record, which must verify (R210); `none` where a DIGEST or the chain does not
match. -/
def parseRecs (b : Buf) : Nat → Nat → List Rec → Option (List Rec)
  | 0, _, _ => none
  | fuel + 1, off, acc =>
    match recAt b off with
    | none => none
    | some r =>
      if r.kind = 0xFF then
        (if r.payload.val = (endRec acc r.epoch r.step).payload.val then some acc else none)
      else parseRecs b fuel (off + recLen r.payload.len) (acc ++ [r])

/-- The same for a whole stream. -/
def recordsOf (b : Buf) : Option (List Rec) := parseRecs b (b.len / 128 + 1) 0 []

/-! ### Job-level payloads -/

/-- The job record (R208): the step to resume at, its start, the image and the data position. -/
def jobRec (step startJt image dataPos : Nat) : Buf := packBuf 64 [(64, step), (64, startJt), (64, image), (64, dataPos), (256, 0)]

/-- 256 fields of `w` bits from a table. -/
def tabBits (w : Nat) (t : Tab Nat) : Nat := packFields w ((List.range 256).map fun i => tget 0 t i)

/-- A table from 256 fields of `w` bits. -/
def tabOfBits (w v : Nat) : Tab Nat := ((fields w 256 v).zipIdx.filter fun (p : Nat × Nat) => p.1 ≠ 0).map fun p => (p.2, p.1)

/-- The job scale-history record (R245). -/
def ScaleHist.record (h : ScaleHist) : Buf :=
  packBuf 1120 [sf 8 h.lexp, (8, h.bias), sf 16 h.nexp, (16, h.skipRun), (8, h.probeLeft), (1, b2n h.shAbsent), (7, 0),
    (32, h.goodRun), (32, 0), (64, h.commits), (64, h.skips), (64, h.lastStep), (192, 0), (256, h.promoted),
    (4096, tabBits 16 h.ufRun), (4096, tabBits 16 h.nwRun)]

/-- The record read back. -/
def ScaleHist.ofBuf (b : Buf) : ScaleHist :=
  { lexp := b.sfld 0 8, bias := b.fld 8 8, nexp := b.sfld 16 16, skipRun := b.fld 32 16, probeLeft := b.fld 48 8,
    shAbsent := b.flag 56, goodRun := b.fld 64 32, commits := b.fld 128 64, skips := b.fld 192 64, lastStep := b.fld 256 64,
    promoted := b.fld 512 256, ufRun := tabOfBits 16 (b.fld 768 4096), nwRun := tabOfBits 16 (b.fld 4864 4096) }

/-- A log entry: the apply record, and the adopted manifest where it has one (R323). -/
def logEntry (step mode : Nat) (manifest : Buf) : Buf := (packBuf 16 [(64, step), (2, mode), (62, 0)]).app manifest

/-- The oldest unclosed round, or the next one. -/
def Fragment.oldest (x : Fragment) : Nat := match x.out with | r :: _ => r.round | [] => x.closed

/-- The fragment record of the manifest log (R323). -/
def Fragment.logRec (x : Fragment) (f : Nat) : Buf :=
  let o := x.oldest
  let st (i : Nat) : Nat := ((x.out.find? fun r => r.round = o + i).map (·.snapStep)).getD 0
  packBuf 64 [(6, f), (2, x.jstate), (3, x.out.length), (5, x.active), (16, 0), (32, o), (32, x.nextSnap), (160, 0),
    (64, st 0), (64, st 1), (64, st 2), (64, st 3)]

/-- A fragment as its record restores it (R323). -/
def Fragment.restore (x : Fragment) (b : Buf) : Fragment :=
  let o := b.fld 32 32
  let n := b.fld 8 3
  { x with jstate := b.fld 6 2, active := b.fld 11 5, closed := o, nextAdopt := o, nextSnap := b.fld 64 32,
           out := (List.range n).map fun i => (⟨o + i, b.fld (256 + 64 * i) 64, true⟩ : Round) }

/-- Fragments of an image. -/
def imgFrags (b : Buf) : List Nat := List.range (imgFcount b)

/-- The payload of kind 0x22 (R323); its log entries stand in fragment order (log entry 55). -/
def State.manifestLog (s : State) (b : Buf) : Buf :=
  Buf.cat ((imgFrags b).map (fun f => (s.frag f).logRec f) ++ (imgFrags b).flatMap fun f => (s.frag f).log)

/-! ### Export (R209) -/

/-- The payload of a copy of one logical block. -/
def State.blockPay (s : State) (t : Shard) (c : Copy) (row col : Nat) : Buf :=
  ⟨c.width * t.lbElems, (s.readCopy t c (t.ownIdx row col * t.lbElems) t.lbElems).1⟩

/-- The anchor entries of a logical block. -/
def State.anchorPay (s : State) (t : Shard) (row col : Nat) : Buf :=
  ⟨2 * t.lbSubs, s.oasis.val (t.anchorAddr row col 0) (2 * t.lbSubs)⟩

/-- The copies that a descriptor requires, with their kinds (R207). -/
def Shard.kinds (t : Shard) : List (Nat × Copy) :=
  [(1, .weight), (2, .inner)] ++ (if t.adam then [(3, .second)] else []) ++ [(4, .anchor), (5, .outer), (6, .residual)]

/-- ROUND of a record whose last round plus 1 is `n`: before any round it names 0xFFFFFFFF (log entry 101). -/
def lastRound (n : Nat) : Nat := (n + 2 ^ 32 - 1) % 2 ^ 32

/-- A checkpoint's copy of what an encode may overwrite before the records are read (R209, log entry 149): the residuals in force, and
the last rounds they hold. -/
def State.copyResid (s : State) (b : Buf) : State :=
  s.onCom fun c => { c with ckptResid := (ownedShards b).map fun t =>
    (t.id, (s.readCopy t .residual 0 t.elems).1, (s.frag t.fragment).residRound) }

/-- The residual of a logical block in force at the commit point, and its last round + 1 (R209). -/
def State.residAt (s : State) (t : Shard) (row col : Nat) : Buf × Nat :=
  match s.com.ckptResid.find? fun k => k.1 = t.id with
  | some (_, v, n) => (⟨2 * t.lbElems, v >>> (16 * (t.ownIdx row col * t.lbElems)) % 2 ^ (16 * t.lbElems)⟩, n)
  | none => (s.blockPay t .residual row col, (s.frag t.fragment).residRound)

/-- The records of one logical block. A snapshot taken at this commit point holds the committed weight (R298). -/
def State.blockRecs (s : State) (t : Shard) (step : Nat) (rc : Nat × Nat) : List Rec :=
  let x := s.frag t.fragment
  let mk (kind round : Nat) (p : Buf) : Rec := ⟨kind, t.id, rc.1, rc.2, t.lbRows, t.lbCols, t.epoch, step, round, p⟩
  let round := lastRound x.applied
  let std := t.kinds.map fun k =>
    if k.1 = 6 then (let r := s.residAt t rc.1 rc.2; mk 6 (lastRound r.2) r.1) else mk k.1 round (s.blockPay t k.2 rc.1 rc.2)
  let snaps := x.out.map fun r =>
    mk 7 r.round (s.blockPay t (if r.snapStep + 1 = step then .weight else .snapshot (r.round % t.snaps)) rc.1 rc.2)
  std ++ (if t.snaps = 0 then [] else snaps) ++ [mk 0x11 round (s.anchorPay t rc.1 rc.2)]

/-- The tensors of an image in TENSOR_ID order (R209). -/
def imgTensors (b : Buf) : List Shard := sortBy (fun x y => x.id ≤ y.id) (imgShards b)

/-- Every record of an export but the end record: `step` is the step to resume at, `startJt` its start (R208, R209). -/
def State.exportRecs (s : State) (b : Buf) (step startJt : Nat) : List Rec :=
  let ep := imgEpoch b
  let job (kind : Nat) (p : Buf) : Rec := ⟨kind, 0, 0, 0, 0, 0, ep, step, 0, p⟩
  [job 0x20 (jobRec step startJt (imgId b) s.com.dataPos), job 0x21 s.com.hist.record, job 0x22 (s.manifestLog b)] ++
    ((imgTensors b).flatMap fun t =>
      (⟨0x10, t.id, 0, 0, t.lbRows, t.lbCols, t.epoch, step, lastRound (s.frag t.fragment).applied, ⟨4160, s.oasis.val t.shAddr 4160⟩⟩ : Rec)
        :: t.blocks.flatMap fun rc => s.blockRecs t step rc)

/-- The whole stream of an export: its records, and the end record. -/
def recStream (b : Buf) (step : Nat) (l : List Rec) : Buf := Buf.cat ((l ++ [endRec l (imgEpoch b) step]).map Rec.bytes)

/-- What reading the records leads to (R144, R170): the copies of every shard, and its scale history where `scale` says that it is
read from Oasis. -/
def State.noteExport (s : State) (b : Buf) (scale : Bool) : State :=
  (imgShards b).foldl (fun s t =>
    let s := if scale then (s.noteOasis (s.oasis.readAt t.shAddr 4160) .maint).noteOasis
        (s.oasis.readAt t.anAddr (2 * t.sliceSubs)) .maint else s
    if t.owns then
      (t.kinds.map (·.2) ++ (s.frag t.fragment).out.map fun r => Copy.snapshot (r.round % t.snaps)).foldl
        (fun s c => s.noteCopy t c 0 t.elems .maint) s
    else s) s

/-- A record stream as BULK datagrams of 8,192 payload bytes (R355). -/
def bulkOf (id : Nat) (b : Buf) : List Datagram :=
  let n := ceilDiv b.len 8192
  (List.range n).map fun i => newDatagram 8 id 0 i (i + 1 = n) (b.slice (8192 * i) (Nat.min 8192 (b.len - 8192 * i)))

/-! ### Import (R210) -/

/-- The checks of an import against the current layout: the status of the first that fails. -/
def importStatus (b : Buf) (l : List Rec) : Option Nat :=
  let tens := l.filter fun r => r.kind < 0x20
  if tens.any fun r => (imgShard b r.tensor).isNone then some 0x0132
  else if tens.any fun r => match imgShard b r.tensor with
      | some t => t.lbRows ≠ r.lbRows || t.lbCols ≠ r.lbCols
      | none => false then some 0x0131
  else if !(l.any fun r => r.kind = 0x20) then some 0x0133
  else if (ownedShards b).all fun t => t.blocks.all fun rc => t.kinds.all fun k =>
      l.any fun r => r.kind = k.1 && r.tensor = t.id && r.row = rc.1 && r.col = rc.2 then none
  else some 0x0133

/-- One record placed by its logical coordinates. -/
def State.placeRec (s : State) (b : Buf) (r : Rec) : State :=
  match imgShard b r.tensor with
  | none => s
  | some t =>
    let e := t.ownIdx r.row r.col * t.lbElems
    if r.kind = 0x10 then s.oasisWrite t.shAddr 4160 r.payload.val
    else if r.kind = 0x11 then
      (if t.hasBlock r.row r.col then s.oasisWrite (t.anchorAddr r.row r.col 0) (2 * t.lbSubs) r.payload.val else s)
    else if !t.ownsBlock r.row r.col then s
    else if r.kind = 7 then
      (if t.snaps = 0 then s else s.writeCopy t (.snapshot (r.round % t.snaps)) e t.lbElems r.payload.val)
    else
      match t.kinds.find? fun k => k.1 = r.kind with
      | some k => s.writeCopy t k.2 e t.lbElems r.payload.val
      | none => s

/-- Whether scale history is there in full (R251): every 0x10 and 0x11 that the layout needs, and 0x21. -/
def hasScale (b : Buf) (l : List Rec) : Bool :=
  (l.any fun r => r.kind = 0x21) && (imgShards b).all fun t =>
    (l.any fun r => r.kind = 0x10 && r.tensor = t.id) &&
      t.blocks.all fun rc => l.any fun r => r.kind = 0x11 && r.tensor = t.id && r.row = rc.1 && r.col = rc.2

/-! ### The CHECKPOINT region (R409, R485) -/

/-- ELA of half `h` of the local checkpoint. -/
def ckptBase (b : Buf) (h : Nat) : Nat :=
  match imgRole b 5 with
  | none => 0
  | some r => r.base + ckptCopyLen b + h * ckptHalfLen b

/-- The records of a half, where every line is good and its end record verifies. -/
def State.halfRecs (s : State) (b : Buf) (h : Nat) : Option (List Rec) :=
  if s.com.ckptBad.contains h || ckptHalfLen b = 0 then none
  else
    let (v, bad) := s.ergRead (ckptBase b h) (ckptHalfLen b)
    if bad ≠ [] then none else recordsOf (Buf.mk (ckptHalfLen b) v)

/-- The step to resume at that a verified half names. -/
def recsStep (l : List Rec) : Option Nat := (l.find? fun r => r.kind = 0x20).map fun r => r.payload.fld 0 64

/-- The step of a half, `none` where it is not complete. -/
def State.halfStep (s : State) (b : Buf) (h : Nat) : Option Nat := (s.halfRecs b h).bind recsStep

/-- The half of the newest complete local checkpoint (R409). -/
def State.newestHalf (s : State) (b : Buf) : Option Nat :=
  match s.halfStep b 0, s.halfStep b 1 with
  | some x, some y => some (if x < y then 1 else 0)
  | some _, none => some 0
  | none, some _ => some 1
  | none, none => none

/-- The records of a local checkpoint written, all but the end record, into the half that does not hold the newest (R409). -/
def State.writeLocal (s : State) (b : Buf) (step : Nat) (l : List Rec) : State :=
  if ckptHalfLen b = 0 then s
  else
    let h := match s.newestHalf b with | some x => 1 - x | none => 0
    let body := Buf.cat (l.map Rec.bytes)
    let e := (endRec l (imgEpoch b) step).bytes
    let base := ckptBase b h
    let s := (s.ergWrite base body.len body.val).ergWrite (base + body.len) e.len 0
    s.onCom fun c => { c with ckptWriting := some (step, h, base + body.len, e), ckptBad := c.ckptBad.filter (· ≠ h) }

/-- CKPT_LOCAL_DONE (R409): the end record is written. -/
def State.ckptLocalDone (s : State) : State :=
  match s.com.ckptWriting with
  | none => s
  | some (step, _, a, e) =>
    ((s.ergWrite a e.len e.val).onCom fun c => { c with ckptWriting := none }).raise Ev.ckptLocalDone 0 [] step

@[inherit_doc State.ckptLocalDone]
def execCkptLocalDone (at_ : Nat) (s : State) : Res := .next (s.tick at_).ckptLocalDone

/-! ### The mirror as the source of the scale history (R205) -/

/-- Where the mirror holds a record of kind 0x10 or 0x11, from its base (log entry 75). -/
def mirrorAt (b : Buf) (r : Rec) : Option Nat :=
  match (imgShards b).findIdx? fun t => t.id = r.tensor with
  | none => none
  | some k =>
    if r.kind = 0x10 then some (4160 * k)
    else if r.kind = 0x11 then
      let tables := ((imgShards b).take k).map fun t => alignUp (2 * t.sliceSubs) 64
      ((imgShards b)[k]?).map fun t => 4160 * (imgShards b).length + tables.sum + (t.anchorAddr r.row r.col 0 - t.anAddr)
    else none

/-- A record with the payload that the mirror at `base` holds, and what reading it leads to (R205, R170). -/
def State.fromMirror (s : State) (b : Buf) (base : Nat) (r : Rec) : Rec × State :=
  match mirrorAt b r with
  | none => (r, s)
  | some a =>
    ({ r with payload := ⟨r.payload.len, (s.ergRead (base + a) r.payload.len).1⟩ }, s.noteErg (base + a) r.payload.len .maint)

/-- The job has not left for a site job restart (R487). -/
def State.keepsCkpt (s : State) : Bool := s.job.any fun j => j.phase ≠ .restarting

/-- A local checkpoint written with the scale history of the mirror, where the mirror holds that of the last finite commit (R205, log
entry 150). -/
def State.writeMirrored (s : State) (b : Buf) (step : Nat) (l : List Rec) : State :=
  match imgRole b 4 with
  | some r =>
    if s.com.mirrored = some s.com.lastFinite then
      let (l, s) := l.foldl (fun (a : List Rec × State) x =>
        let (y, s) := a.2.fromMirror b r.base x
        (a.1 ++ [y], s)) (([], s) : List Rec × State)
      if s.keepsCkpt then s.writeLocal b step l else s
    else s.writeLocal b step l
  | none => s.writeLocal b step l

/-- The mirror region is there, and it holds or is yet to hold the last finite commit: a local checkpoint takes its scale history
from it (R205). -/
def State.mirrorServes (s : State) (b : Buf) : Bool :=
  (imgRole b 4).isSome && (s.com.mirrorDue.isSome || s.com.mirrored = some s.com.lastFinite)

/-- The checkpoints marked at the commit point are read once the passes of the step have left its committed state
(R209, R213): the export goes to its bulk session, the manifest log starts anew, and a local checkpoint waits for the mirror copy
(R205). -/
def State.ckptRead (s : State) : State :=
  match s.com.ckptTail, s.job with
  | some (loc, ex), some j =>
    let b := j.image
    let step := j.step + 1
    let l := s.exportRecs b step (j.sn + imgPeriod b + j.xNext)
    let s := s.noteExport b (ex.isSome || !s.mirrorServes b)
    let s := s.onCom fun c => { c with ckptTail := none, ckptResid := [] }
    let s := if !loc || !s.keepsCkpt then s
      else if (imgRole b 4).isSome && s.com.mirrorDue.isSome then
        s.onCom fun c => { c with ckptWait := some (step, l.map Rec.bytes) }
      else s.writeMirrored b step l
    let s := match ex with
      | none => s
      | some (sid, id) =>
        match s.places.find? fun k => (s.sess k).localId = sid && (s.sess k).bulk && decide ((s.sess k).state ≠ SessState.closed) with
        | none => s.raise Ev.acxExportFailed 0 [(16, sid), (3, 0), (32, id)]
        | some k =>
          if !s.keepsCkpt then s.raise Ev.acxExportFailed 0 [(16, sid), (3, 0), (32, id)]
          else
            ((s.onSess k fun x => { x with exportId := some id }).onCom fun c => { c with exports := c.exports ++ [(id, sid)] }).offer k
              (bulkOf id (recStream b step l))
    { s with acx := { s.acx with frags := tmap Fragment.reset (fun f => { f with log := [] }) s.acx.frags } }
  | _, _ => s

/-- The mirror copy of step `n` is complete: a local checkpoint that waits for it is written (R205). -/
def State.ckptMirrored (s : State) (b : Buf) : State :=
  match s.com.ckptWait with
  | none => s
  | some (step, l) =>
    let s := s.onCom fun c => { c with ckptWait := none }
    if s.keepsCkpt then s.writeMirrored b step (l.filterMap fun x => recAt x 0) else s

end Sys2Proof.Machine
end

