-- ==== Sys2Proof/Machine/Outer.lean ====
section
/-! DEFINITION. Acrix outer rounds (R295 to R325): the codec, Caravans, manifests, the round sum, application and closing,
joining, and anchor confirmation. -/

namespace Sys2Proof.Machine

/-! ### The fragment table (R295) -/

/-- Fields of a fragment's entry (R295), defaults taken. -/
structure FragCfg where
  h        : Nat
  phase    : Nat
  tau      : Nat
  tauMax   : Nat
  deadline : Nat
  maxOut   : Nat
  twoBit   : Bool
  drop     : Nat
  takeover : Nat
  deriving DecidableEq, Repr

/-- The entry of fragment `f`. -/
def imgFragCfg (b : Buf) (f : Nat) : FragCfg :=
  let e := imgFrag b f
  { h := e.fld 0 16, phase := e.fld 16 16, tau := e.fld 32 13, tauMax := e.fld 48 16, deadline := e.fld 64 16,
    maxOut := e.fld 80 3, twoBit := e.flag 83, drop := if e.fld 88 8 = 0 then 3 else e.fld 88 8,
    takeover := if e.fld 96 16 = 0 then 16 else e.fld 96 16 }

/-- The nominal snapshot step of a round (R296). -/
def FragCfg.nominal (c : FragCfg) (r : Nat) : Nat := c.phase + r * c.h

/-- The shards of a fragment that the device owns, in TENSOR_ID order. -/
def fragShards (b : Buf) (f : Nat) : List Shard := (ownedShards b).filter fun t => t.fragment = f

/-- An event of a fragment and round (R325). -/
def State.raiseRound (s : State) (e : Ev) (f round : Nat) (site : Option Nat := none) : State :=
  s.raise e f ((32, round) :: match site with | some k => [(3, k)] | none => []) s.stepNo

/-- The fragment exchanges with partners: ACTIVE and not replaying a log (R317, R318). -/
def Fragment.sends (x : Fragment) : Bool := x.jstate = 3 && x.applyLater = []

/-- The device is the round owner of the shards it owns: it alone sends Caravans, manifests, notices, requests and digests (R297). -/
def State.roundOwner (s : State) : Bool := s.job.any fun j => imgNormEn j.image

/-- The device's overall join state, the lowest among its fragments (R318). -/
def State.joinState (s : State) : Nat :=
  match s.job with
  | none => 0
  | some j => ((List.range (imgFcount j.image)).map fun f => (s.frag f).jstate).foldl Nat.min 3

/-- The key of a Caravan: round and site. -/
def carKey (round site : Nat) : Nat := 64 * round + site

/-! ### The codec (R300) -/

/-- X of a codec block from the magnitudes of its elements. -/
def codecExp (twoBit : Bool) (xs : List Fv) : Int :=
  let tops := xs.filterMap fun v => match v with
    | .fin _ m e => if m = 0 then none else some (floorLog2 m e)
    | _ => none
  match tops with
  | [] => -127
  | t :: l => clampI (-127) 127 (l.foldl max t - if twoBit then 0 else 2)

/-- The code of an element of a codec block with exponent `x` (R300). -/
def codecCode (twoBit : Bool) (x : Int) (v : Fv) : Nat :=
  match v with
  | .fin n m e =>
    if twoBit then (if 0 < cmpExact m e 1 (x - 1) then (if n then 3 else 1) else 0)
    else (fE2M1.encode (.fin n m (e - x)) false false).1
  | _ => 0

/-- The value of a code (R300). -/
def codecValue (twoBit : Bool) (x : Int) (c : Nat) : Fv :=
  if twoBit then (if c = 1 then .fin false 1 x else if c = 3 then .fin true 1 x else .fin false 0 0)
  else match fE2M1.decode c with
    | .fin n m e => .fin n m (e + x)
    | v => v

/-- Bits of an element, and bytes of the elements of a group (R301). -/
def codecBits (twoBit : Bool) : Nat := if twoBit then 2 else 4
@[inherit_doc codecBits] def codecBytes (twoBit : Bool) : Nat := if twoBit then 64 else 128

/-- Bytes of a group. -/
def groupLen (twoBit : Bool) : Nat := 8 + codecBytes twoBit

/-- Groups of a full chunk (R301). -/
def chunkGroups (twoBit : Bool) : Nat := if twoBit then 113 else 60

/-- A group and the residuals that its 256 values leave (R299, R300). -/
def encodeGroup (twoBit : Bool) (xs : List Fv) : Buf × List Nat :=
  let blocks := (List.range 8).map fun i =>
    let l := (xs.drop (32 * i)).take 32
    let x := codecExp twoBit l
    (x, l.map fun v => (v, codecCode twoBit x v))
  let scales := blocks.map fun (p : Int × List (Fv × Nat)) => (p.1 + 127).toNat
  let codes := blocks.flatMap fun (p : Int × List (Fv × Nat)) => p.2.map (·.2)
  let rest := blocks.flatMap fun (p : Int × List (Fv × Nat)) => p.2.map fun (q : Fv × Nat) =>
    (fBF16.encode (q.1.addFin (codecValue twoBit p.1 q.2).negate) false true).1
  ((Buf.ofBytes scales).app ⟨codecBytes twoBit, packFields (codecBits twoBit) codes⟩, rest)

/-- A group is valid: no reserved code and no scale byte of 0xFF (R300). -/
def groupGood (twoBit : Bool) (g : Buf) : Bool :=
  ((List.range 8).all fun i => g.byte i ≠ 0xFF) &&
    (!twoBit || ((fields 2 256 (g.drop 8).val).all fun c => c ≠ 2))

/-- The eight exponents and the 256 codes of a group. -/
def groupParts (twoBit : Bool) (g : Buf) : List Int × List Nat :=
  ((List.range 8).map fun i => (g.byte i : Int) - 127, fields (codecBits twoBit) 256 (g.drop 8).val)

/-! ### Chunks (R301) -/

/-- The place that a chunk covers. -/
structure Chunk where
  shard  : Shard
  row    : Nat
  col    : Nat
  sub    : Nat
  groups : Nat
  deriving DecidableEq, Repr

/-- The chunks of a Caravan of the device's shard, in order. -/
def chunkPlan (b : Buf) (f : Nat) : List Chunk :=
  let g := chunkGroups (imgFragCfg b f).twoBit
  (fragShards b f).flatMap fun t => t.blocks.flatMap fun rc =>
    (List.range (ceilDiv t.lbSubs g)).map fun i => ⟨t, rc.1, rc.2, g * i, Nat.min g (t.lbSubs - g * i)⟩

/-- The 32-byte chunk header on the wire (R301, log entry 57). -/
def Chunk.header (c : Chunk) (twoBit : Bool) (site round : Nat) : Buf :=
  Buf.cat [Buf.ofBe 2 (c.shard.id / 16), packBuf 2 [(4, c.shard.id % 16), (1, b2n twoBit), (3, site), (8, c.groups)],
    Buf.ofBe 2 c.row, Buf.ofBe 2 c.col, Buf.ofBe 2 c.sub, Buf.zeros 2, Buf.ofBe 4 round, Buf.zeros 16]

/-- The site and round that a chunk payload names. -/
def chunkSite (p : Buf) : Nat := p.fld 21 3
@[inherit_doc chunkSite] def chunkRound (p : Buf) : Nat := p.be 12 4

/-- A chunk payload is valid for a place (R300, R301, log entry 70). -/
def Chunk.good (c : Chunk) (twoBit : Bool) (p : Buf) : Bool :=
  p.len = 32 + c.groups * groupLen twoBit &&
    (p.slice 0 16).val = ((c.header twoBit (chunkSite p) (chunkRound p)).slice 0 16).val && chunkSite p < 5 &&
    (List.range c.groups).all fun g => groupGood twoBit (p.slice (32 + groupLen twoBit * g) (groupLen twoBit))

/-- Every chunk of a Caravan is held. -/
def Fragment.complete (x : Fragment) (round site : Nat) : Bool :=
  let n := tget 0 x.chunksOf (carKey round site)
  n ≠ 0 && (tget [] x.caravans (carKey round site)).length = n

/-- The chunk payloads of a Caravan in chunk order. -/
def Fragment.caravan (x : Fragment) (round site : Nat) : List Buf := (tget [] x.caravans (carKey round site)).map (·.2)

/-- CDIGEST of a Caravan: the first 16 bytes of the SHA-256 over its payloads (R305). -/
def Fragment.cdigest (x : Fragment) (round site : Nat) : Nat := ((sha256Buf (Buf.cat (x.caravan round site))).slice 0 16).val

/-! ### The receive area (R302, R170) -/

/-- The receive area in Erg: the TRANSPORT region that is not the Cistern (R302, log entry 158). -/
def rxArea (b : Buf) : Option Region := (imgRegions b).find? fun g => g.space = 0 && g.cls = 2 && g.role ≠ 3

/-- Base and places of the area, each of one chunk of at most 8,192 bytes (R301). -/
def State.rxPlaces (s : State) : Option (Nat × Nat) :=
  (s.job.bind fun j => rxArea j.image).map fun g => (g.base, g.length / 8192)

/-- A place holds a chunk that is still kept. -/
def State.rxLive (s : State) (e : Nat × Nat × Nat × Nat) : Bool :=
  (tget [] (s.frag e.2.1).caravans e.2.2.1).any fun c => c.1 = e.2.2.2

/-- The place that a chunk is to take: its own, else the lowest free one. -/
def State.rxPlaceFor (s : State) (places f key chunk : Nat) : Option Nat :=
  match s.acx.rxSlots.find? fun e => e.2 = (f, key, chunk) with
  | some e => some e.1
  | none => (List.range places).find? fun k => !(s.acx.rxSlots.any fun e => e.1 = k && s.rxLive e)

/-- A received chunk kept: written into a place of the receive area, where the memory plan has one; with every place taken it is
lost (R302). -/
def State.keepChunk (s : State) (f key chunk chunks : Nat) (p : Buf) : State :=
  let put (s : State) : State := s.onFrag f fun x =>
    { x with caravans := tset [] x.caravans key (tset Buf.empty (tget [] x.caravans key) chunk p), chunksOf := tset 0 x.chunksOf key chunks }
  match s.rxPlaces with
  | none => put s
  | some (base, n) =>
    match s.rxPlaceFor n f key chunk with
    | none => s
    | some k =>
      let s := (s.ergWrite (base + 8192 * k) 8192 (p.val % 256 ^ 8192)).onAcx fun a =>
        { a with rxSlots := (a.rxSlots.filter fun e => e.1 ≠ k) ++ [(k, f, key, chunk)] }
      put s

/-- The received chunks of a fragment read: corrections are counted, and a chunk whose storage is uncorrectable is missing (R170,
R302). -/
def State.readChunks (s : State) (f : Nat) : State :=
  match s.rxPlaces with
  | none => s
  | some (base, _) =>
    (s.acx.rxSlots.filter fun e => e.2.1 = f && s.rxLive e).foldl (fun s e =>
      let a := base + 8192 * e.1
      let bad := (s.ergRead a 8192).2 ≠ []
      let s := s.noteErg a 8192 .maint
      if bad then s.onFrag f fun x =>
          { x with caravans := tset [] x.caravans e.2.2.1 ((tget [] x.caravans e.2.2.1).filter fun c => c.1 ≠ e.2.2.2) }
      else s) s

/-! ### Encode (R299) -/

/-- x of an element, exact, rounded once. Where the sum of finite values leaves the FP32 range the spec gives no result:
a finite free value (log entry 63). -/
def encodeValue (a sn e : Nat) : Fv :=
  let v := ((dec32 a).addFin (dec32 (ofBf16 sn)).negate).addFin (dec32 (ofBf16 e))
  match qrn v with
  | some y => dec32 y
  | none =>
    let z := Config.encodeOf a sn e
    dec32 (z % 2 ^ 31 % 0x7F800000 + (if z.testBit 31 then 2 ^ 31 else 0))

/-- One AFX block encoded: its group; the residual is written back. -/
def State.encodeBlock (s : State) (t : Shard) (twoBit : Bool) (round row col sub : Nat) : Buf × State :=
  let e := t.ownIdx row col * t.lbElems + 256 * sub
  let av := (s.readCopy t .anchor e 256).1
  let sv := (s.readCopy t (.snapshot (round % t.snaps)) e 256).1
  let ev := (s.readCopy t .residual e 256).1
  let xs := ((fields 32 256 av).zip ((fields 16 256 sv).zip (fields 16 256 ev))).map
    fun (p : Nat × Nat × Nat) => encodeValue p.1 p.2.1 p.2.2
  let g := encodeGroup twoBit xs
  (g.1, s.writeCopy t .residual e 256 (packFields 16 g.2))

/-- One chunk encoded. -/
def State.encodeChunk (s : State) (c : Chunk) (twoBit : Bool) (site round : Nat) : Buf × State :=
  let r := (List.range c.groups).foldl (fun (a : List Buf × State) i =>
    let g := a.2.encodeBlock c.shard twoBit round c.row c.col (c.sub + i)
    (a.1 ++ [g.1], g.2)) (([], s) : List Buf × State)
  ((c.header twoBit site round).app (Buf.cat r.1), r.2)

/-- What reading a copy of every shard of a fragment leads to (R144, R170): a bad word or line of it is PERSISTENT data. -/
def State.noteFrag (s : State) (b : Buf) (f : Nat) (c : Shard → Copy) : State :=
  (fragShards b f).foldl (fun s t => s.noteCopy t (c t) 0 t.elems .maint) s

/-- The next outstanding round that has not been encoded. -/
def Fragment.nextEncode (x : Fragment) : Option Nat := (x.out.find? fun r => !r.encoded).map (·.round)

/-- The transfer lists of the running step that copy a snapshot of the fragment have completed (R298, R299). -/
def State.snapCopied (s : State) (j : Job) (f : Nat) : Bool :=
  (imgEntryList j.image).all fun e =>
    e.2.action ≠ 0x20 || e.2.arg.testBit 31 || s.ent e.1 = .done ||
      (let l := imgList j.image (e.2.arg % 2 ^ 31)
       (List.range l.2).all fun k =>
        let it := imgItem j.image (l.1 + k)
        it.fld 2 2 ≠ 0 || (fragShards j.image f).all fun t => (t.snapAt (it.fld 128 64)).isNone)

/-- A Caravan sent to every partner whose session is open (R302). -/
def State.sendCaravan (s : State) (f round : Nat) (l : List Buf) : State :=
  s.offerPartners (l.zipIdx.map fun (p : Buf × Nat) => newDatagram 1 round f p.2 (p.2 + 1 = l.length) p.1)

/-- ACRIX_ENCODE_COMPLETE (R299): the residual and, on the round owner, the Caravan of a round are written; the Caravan
is sent (R297, R302). -/
def State.encodeComplete (s : State) (f : Nat) : State :=
  match s.job, (s.frag f).encoding with
  | some j, some r =>
    let x := s.frag f
    let snapNow := (x.out.find? fun o => o.round = r).any fun o => o.snapStep = j.step
    if x.encHeld || !s.sliceRuns 2 || (snapNow && !s.snapCopied j f) then s
    else
      let b := j.image
      let c := imgFragCfg b f
      let site := imgSite b
      let s := ((s.noteFrag b f fun _ => .anchor).noteFrag b f fun t => .snapshot (r % t.snaps)).noteFrag b f fun _ => .residual
      if !s.keepsCkpt then s
      else
      let (l, s) := (chunkPlan b f).foldl (fun (a : List Buf × State) k =>
        let (p, s) := a.2.encodeChunk k c.twoBit site r
        (a.1 ++ [p], s)) (([], s) : List Buf × State)
      let s := s.onFrag f fun x =>
        let x := { x with residRound := r + 1, out := x.out.map fun (o : Round) => if o.round = r then { o with encoded := true } else o }
        { x with encoding := x.nextEncode }
      if !imgNormEn b then s
      else
        let s := s.onFrag f fun x =>
          { x with caravans := tset [] x.caravans (carKey r site) (l.zipIdx.map fun (p : Buf × Nat) => (p.2, p.1)),
                   chunksOf := tset 0 x.chunksOf (carKey r site) l.length }
        if (s.frag f).sends then s.sendCaravan f r l else s
  | _, _ => s

@[inherit_doc State.encodeComplete]
def execAcrixEncodeComplete (at_ frag : Nat) (s : State) : Res := .next ((s.tick at_).encodeComplete frag)

/-! ### Manifests (R303 to R309) -/

/-- A manifest on the wire, from its little-endian record, and back (R305). -/
def manSwap (m : Buf) : Buf :=
  let head := Buf.cat [m.slice 0 4, Buf.ofBe 4 (m.fld 32 32), m.slice 8 8, Buf.ofBe 8 (m.fld 128 64), m.slice 24 8]
  Buf.cat (head :: ((m.drop 32).recs 32 ((m.len - 32) / 32)).map fun e =>
    Buf.cat [e.slice 0 4, Buf.ofBe 4 (e.fld 32 32), Buf.ofBe 4 (e.fld 64 32), e.slice 12 20])

/-- Fields of a manifest. -/
def manFrag (m : Buf) : Nat := m.fld 8 6
@[inherit_doc manFrag] def manLeader (m : Buf) : Nat := m.fld 16 3
@[inherit_doc manFrag] def manActive (m : Buf) : Nat := m.fld 19 5
@[inherit_doc manFrag] def manNext (m : Buf) : Nat := m.fld 24 5
@[inherit_doc manFrag] def manAttempt (m : Buf) : Nat := m.fld 29 3

/-- The entries of a manifest: site, STALE, CROUND, CHUNKS, CDIGEST. -/
def manEntries (m : Buf) : List (Nat × Bool × Nat × Nat × Nat) :=
  ((m.drop 32).recs 32 (manContribs m)).map fun e => (e.fld 0 3, e.flag 3, e.fld 32 32, e.fld 64 32, e.fld 128 128)

/-- A received manifest in the form R305 gives it. -/
def manGood (m : Buf) : Bool :=
  32 ≤ m.len && m.fld 0 8 = 0x4D && manContribs m ≤ 10 && m.len = 32 + 32 * manContribs m && manLeader m < 5

/-- The leader of an attempt: the member of A(r) at position (r + t) mod its size (R303). -/
def leaderOf (active round t : Nat) : Option Nat :=
  let l := onesOf 5 active
  l[(round + t) % l.length]?

/-- The adopted manifest of a round. -/
def Fragment.manifest (x : Fragment) (round : Nat) : Option Buf := x.adopted.find? fun m => manRound m = round

/-- A contribution is listed in a manifest. -/
def manLists (m : Buf) (round site : Nat) : Bool := (manEntries m).any fun e => e.1 = site && e.2.2.1 = round

/-- The entries a leader lists: for each site, its fresh contribution and then its stale one (R304, R305). -/
def Fragment.listing (x : Fragment) (round : Nat) : List Buf :=
  (List.range 5).flatMap fun site =>
    let one (stale : Bool) (r : Nat) : Buf :=
      packBuf 32 [(3, site), (1, b2n stale), (28, 0), (32, r), (32, tget 0 x.chunksOf (carKey r site)), (32, 0),
        (128, x.cdigest r site)]
    (if x.active.testBit site && x.complete round site then [one false round] else []) ++
      (if round ≠ 0 && x.complete (round - 1) site && (x.manifest (round - 1)).any (fun m => !manLists m (round - 1) site)
       then [one true (round - 1)] else [])

/-- NEXT_ACTIVE (R307, R320, log entry 66). -/
def Fragment.nextActive (x : Fragment) (c : FragCfg) (own round : Nat) (entries : List Buf) : Nat :=
  let keep (k : Nat) : Bool :=
    x.active.testBit k &&
      (k = own || (entries.any fun e => e.fld 0 3 = k) || round + 1 < tget 0 x.listed k + c.drop)
  let joins (k : Nat) : Bool := k ≠ own && !x.active.testBit k && tget 0 x.notices k ≠ 0 && round < tget 0 x.notices k
  ((List.range 5).filter fun k => keep k || joins k).foldl (fun a k => a ||| (1 <<< k)) 0

/-- Caravans that are no longer kept (R302, R304, log entry 69): those of closed rounds that no unclosed manifest lists,
once the next round's manifest is adopted. An own one waits for its acknowledgements too, but no longer than 4 × TAU_MAX steps from
its snapshot. -/
def State.pruneCaravans (s : State) (f : Nat) : State :=
  match s.job with
  | none => s
  | some j =>
    let x := s.frag f
    let c := imgFragCfg j.image f
    let own := imgSite j.image
    let needed (r site : Nat) : Bool := x.adopted.any fun m => x.closed ≤ manRound m && manLists m r site
    let expired (r : Nat) : Bool :=
      let p := tget 0 x.snapSteps r
      p ≠ 0 && p - 1 + 4 * c.tauMax ≤ j.step
    let sending (r : Nat) : Bool := s.places.any fun k =>
      let y := s.sess k
      (y.flight ++ y.queue ++ y.outStream).any fun d => d.type = 1 && d.round = r && d.frag = f
    let old (r site : Nat) : Bool :=
      !needed r site && ((r < x.closed && r + 1 < x.nextAdopt && (site ≠ own || !sending r)) || (site = own && expired r))
    let gone (k : Nat) : Bool := old (k / 64) (k % 64)
    s.onFrag f fun x =>
      { x with caravans := x.caravans.filter (fun p => !gone p.1), chunksOf := x.chunksOf.filter (fun p => !gone p.1),
               snapSteps := x.snapSteps.filter fun p => !gone (carKey p.1 own) && (x.closed ≤ p.1 || tget 0 x.chunksOf (carKey p.1 own) ≠ 0) }

/-- The effects of adopting manifest `m` (R306, R307, R318, log entries 66 to 69). -/
def State.adopt (s : State) (f : Nat) (m : Buf) : State :=
  let x := s.frag f
  let r := manRound m
  let own := s.ownSite
  let next := manNext m
  let old := if x.active = 0 then manActive m else x.active
  let mine := manLeader m = own && x.published.contains (r, manAttempt m)
  let s := s.onFrag f fun x =>
    let listed := (manEntries m).foldl (fun t e => tset 0 t e.1 (Nat.max (tget 0 t e.1) (r + 1))) x.listed
    let listed := (onesOf 5 next).foldl (fun t k => if old.testBit k then t else tset 0 t k (r + 1)) listed
    { x with
      adopted := m :: x.adopted, nextAdopt := r + 1, active := next, listed
      held := x.held.filter (fun h => r < manRound h)
      published := x.published.filter (fun p => r < p.1)
      attempts := x.attempts.filter fun p => r < p.1
      carriedN := satAdd 32 x.carriedN ((manEntries m).countP fun e => e.2.1) }
  let s := if mine || !x.sends || !s.roundOwner then s else s.offerPartners [newDatagram 2 r f 0 false (manSwap m)]
  let s := s.raiseRound Ev.roundManifest f r
  let s := (onesOf 5 old).foldl (fun s k => if next.testBit k then s else s.raiseRound Ev.siteRemoved f r (some k)) s
  let y := s.frag f
  let listedAny (q site : Nat) : Bool := y.adopted.any fun m => manLists m q site
  let stale := y.chunksOf.filter fun p => p.1 / 64 + 2 ≤ r && p.1 % 64 ≠ own && y.complete (p.1 / 64) (p.1 % 64) && !listedAny (p.1 / 64) (p.1 % 64)
  let s := stale.foldl (fun s p =>
    (s.onFrag f fun x =>
      { x with caravans := x.caravans.filter (fun q => q.1 ≠ p.1), chunksOf := x.chunksOf.filter (fun q => q.1 ≠ p.1),
               staleDropped := satAdd 32 x.staleDropped 1 }).raiseRound Ev.roundStaleDropped f (p.1 / 64) (some (p.1 % 64))) s
  if y.jstate = 2 && next.testBit own then
    (s.onFrag f fun x => { x with jstate := 3, activeFrom := r + 1, nextSnap := r + 1 }).raiseRound Ev.siteActive f r (some own)
  else s

/-- The manifest to adopt next, among those held: the lowest ATTEMPT with the ACTIVE this device holds (R306, log entry
58). -/
def Fragment.candidate (x : Fragment) : Option Buf :=
  let l := x.held.filter fun m => manRound m = x.nextAdopt && (x.active = 0 || manActive m = x.active)
  match l with
  | [] => none
  | m :: t => some (t.foldl (fun a b => if manAttempt b < manAttempt a then b else a) m)

/-- Every manifest that may be adopted is adopted, in round order (R306). -/
def State.adoptAll (s : State) (f : Nat) : Nat → State
  | 0 => s
  | fuel + 1 =>
    if (s.frag f).jstate < 2 || (s.frag f).bootReady then s
    else
      match (s.frag f).candidate with
      | none => s
      | some m => (s.adopt f m).adoptAll f fuel

/-- A manifest published by this device for an attempt (R304, R308). -/
def State.publish (s : State) (j : Job) (f round t : Nat) : State :=
  let x := s.frag f
  let c := imgFragCfg j.image f
  let own := imgSite j.image
  let entries := x.listing round
  let head := packBuf 32 [(8, 0x4D), (6, f), (2, 0), (3, own), (5, x.active), (5, x.nextActive c own round entries), (3, t),
    (32, round), (4, entries.length), (60, 0), (64, j.step), (64, 0)]
  let m := Buf.cat (head :: entries)
  let s := s.onFrag f fun x =>
    { x with held := x.held ++ [m], published := x.published ++ [(round, t)],
             takeovers := if t = 0 then x.takeovers else satAdd 16 x.takeovers 1 }
  let s := if t = 0 then s else s.raiseRound Ev.leaderTakeover f round (some own)
  (s.offerPartners [newDatagram 2 round f 0 false (manSwap m)]).adoptAll f 8

/-- The latest attempt of a round at or before attempt `t` whose leader a site is (R303, R308). -/
def ownAttempt (active round own t : Nat) : Option Nat :=
  ((List.range (Nat.min t 4 + 1)).filter fun k => leaderOf active round k = some own).getLast?

/-- Publication at a commit point (R304, R308): attempt 0 from the deadline on, and the next attempt whenever TAKEOVER
more steps have passed with no manifest adopted. A site whose own attempt has come and that has not published it, as after a restore,
publishes it now (log entry 159). A full Cistern holds manifest output (R343). -/
def State.publishDue (s : State) (j : Job) (f : Nat) : State :=
  let x := s.frag f
  let c := imgFragCfg j.image f
  let own := imgSite j.image
  let r := x.nextAdopt
  let base := c.nominal r + c.deadline
  if !x.sends || !x.active.testBit own || !imgNormEn j.image || j.step < base then s
  else
    let t := (j.step - base) / c.takeover
    let s := s.onFrag f fun x => { x with attempts := tset 0 x.attempts r t }
    match ownAttempt x.active r own t with
    | none => s
    | some k =>
      if x.published.contains (r, k) || (imgSites j.image ≠ 1 <<< own && s.cistFull) then s
      else (s.readChunks f).publish j f r k

/-! ### Round sums (R310, R311) -/

/-- The OUTER passes of a fragment: die and pass descriptor. -/
def outerPasses (b : Buf) (f : Nat) : List (Nat × Buf) :=
  (imgEntryList b).filterMap fun e =>
    let p := imgPass b e.2.arg
    if e.2.action = 0x10 && (Pass.ofBuf p).rule = 4 && passFragment b p = f then some (e.2.target - 0x80, p) else none

/-- The apply record written in every sum region of a fragment (R311). -/
def State.putApply (s : State) (b : Buf) (f round mode : Nat) (ready : Bool) (step : Nat) : State :=
  (outerPasses b f).foldl (fun s p =>
    s.oasisWrite (sumAddr b p.1 f) 64 (packBits [(32, round), (2, mode), (1, b2n ready), (29, 0), (64, step)])) s

/-- The place in the chunk plan of an AFX block: chunk index and group. -/
def planAt (plan : List Chunk) (id row col sub : Nat) : Option (Nat × Nat) :=
  (plan.zipIdx.find? fun (p : Chunk × Nat) =>
    p.1.shard.id = id && p.1.row = row && p.1.col = col && p.1.sub ≤ sub && sub < p.1.sub + p.1.groups).map
      fun p => (p.2, sub - p.1.sub)

/-- The sum of the groups of one AFX block (R310). -/
def sumGroups (twoBit : Bool) (t : Shard) (row col sub epoch round : Nat) (gs : List Buf) : Buf :=
  let parts := gs.map (groupParts twoBit)
  let up : Int := if twoBit then 1 else 3
  let tops := parts.flatMap fun (p : List Int × List Nat) => p.1.map (· + up)
  let a := tops.foldl max (tops.headD 0)
  let blocks := parts.map fun (p : List Int × List Nat) =>
    let els := p.2.zipIdx.map fun (q : Nat × Nat) =>
      match codecValue twoBit (p.1.getD (q.2 / 32) 0) q.1 with
      | .fin n m e => roundInt (.fin n m (e + 40 - a)) false
      | _ => 0
    (⟨a, false, false, false, 1, t.id, row, col, sub, epoch, round⟩ : AfxHdr).block els
  match blocks with
  | [] => Buf.empty
  | k :: l => (afxSum k l).getD Buf.empty

/-- The listed contributions of a round are all held, complete and with their CDIGEST (R306, R310). -/
def Fragment.allHeld (x : Fragment) (m : Buf) : Bool :=
  (manEntries m).all fun e => x.complete e.2.2.1 e.1 && x.cdigest e.2.2.1 e.1 = e.2.2.2.2

/-- The sum of round `r` from the listed Caravans, written into every sum region of the fragment (R310, R311). -/
def State.writeSum (s : State) (b : Buf) (f : Nat) (m : Buf) : State :=
  let x := s.frag f
  let r := manRound m
  let twoBit := (imgFragCfg b f).twoBit
  let plan := chunkPlan b f
  let car := (manEntries m).map fun e => x.caravan e.2.2.1 e.1
  let s := (outerPasses b f).foldl (fun s p =>
    let l := outerShards b p.2
    l.foldl (fun s t => t.blocks.foldl (fun s rc => (List.range t.lbSubs).foldl (fun s sub =>
      match planAt plan t.id rc.1 rc.2 sub with
      | none => s
      | some (i, g) =>
        let gs := car.map fun (c : List Buf) => (c.getD i Buf.empty).slice (32 + groupLen twoBit * g) (groupLen twoBit)
        s.oasisWrite (sumAddr b p.1 f + sumOff l t rc.1 rc.2 sub) 2080
          (sumGroups twoBit t rc.1 rc.2 sub (imgEpoch b) r gs).val) s) s) s) s
  (s.putApply b f r 0 true 0).onFrag f fun x => { x with sumReady := true, sumRound := r, sumMode := 0, sumStep := 0 }

/-- ROUND_SUM (R310). -/
def State.roundSum (s : State) (f : Nat) : State :=
  match s.job with
  | none => s
  | some j =>
    let x := s.frag f
    match x.manifest x.closed with
    | none => s
    | some m =>
      if x.jstate < 2 || x.bootReady || x.sumReady || manContribs m = 0 || !imgNormEn j.image || !x.allHeld m || !s.sliceRuns 3
      then s
      else
        let s := s.readChunks f
        if (s.frag f).allHeld m then s.writeSum j.image f m else s

@[inherit_doc State.roundSum]
def execRoundSum (at_ frag : Nat) (s : State) : Res := .next ((s.tick at_).roundSum frag)

/-! ### Joining (R318 to R320) -/

/-- The fragment in BOOTSTRAP with a donor (R318, R319): its snapshots and its sum are discarded. With no donor named it
is the lowest-indexed other site of the job. -/
def State.enterBootstrap (s : State) (b : Buf) (f : Nat) (donor : Option Nat) : State :=
  let own := imgSite b
  let d := match donor with
    | some k => some k
    | none => (onesOf 5 (imgSites b)).find? fun k => k ≠ own
  (s.putApply b f 0 0 false 0).onFrag f fun x =>
    { x with jstate := 1, out := [], encoding := none, encHeld := false, shifting := false, repairing := false,
             sumReady := false, sumMode := 0, donor := d, bootData := [], bootReady := false, held := [],
             adopted := [], caravans := [], chunksOf := [], digests := [], others := [] }

/-- ROUND_UNOBTAINABLE (R312). -/
def State.unobtainable (s : State) (f : Nat) : State :=
  match s.job with
  | none => s
  | some j =>
    let x := s.frag f
    let c := imgFragCfg j.image f
    let r := x.closed
    let p := ((x.out.find? fun o => o.round = r).map (·.snapStep)).getD (c.nominal r)
    match x.manifest r with
    | none => s
    | some m =>
      if x.jstate < 2 || x.sumReady || x.allHeld m || j.step < p + 4 * c.tauMax then s
      else (s.raiseRound Ev.roundUnobtainable f r).enterBootstrap j.image f none

@[inherit_doc State.unobtainable]
def execRoundUnobtainable (at_ frag : Nat) (s : State) : Res := .next ((s.tick at_).unobtainable frag)

/-- The NOTICE that asks for a pull, and what a join notice names before any round is closed (log entry 52). -/
def pullMark : Nat := 0xFFFFFFFE

/-- A NOTICE to one site, unless one of the fragment still waits there. -/
def State.sendNoticeTo (s : State) (f site v : Nat) : State :=
  match s.openPlace site with
  | none => s
  | some k =>
    let x := s.sess k
    if x.state ≠ .open_ || (x.flight ++ x.queue ++ x.outStream).any (fun d => d.type = 4 && d.frag = f) then s
    else s.offer k [newDatagram 4 0 f 0 false (Buf.ofBe 4 v)]

/-- The first fragment that still pulls from a donor: one fragment at a time (log entry 52). -/
def State.pulling (s : State) (b : Buf) (site : Nat) : Option Nat :=
  (imgFrags b).find? fun f =>
    let x := s.frag f
    (x.jstate = 1 || x.repairing) && !x.bootReady && x.bootData = [] && x.donor = some site

/-- Join notices at a commit point, to every partner (R318, R320); in BOOTSTRAP the donor gets the request for the pull in place of
its notice (log entry 52). -/
def State.joinNotices (s : State) (j : Job) (f : Nat) : State :=
  let x := s.frag f
  let asked : Option Nat := x.donor.filter fun d => s.pulling j.image d = some f
  let s := if s.roundOwner && (x.jstate = 1 || (x.jstate = 2 && !x.bootReady)) then
      ((List.range 5).filter fun k => asked ≠ some k).foldl (fun s k => s.sendNoticeTo f k (lastRound x.closed)) s
    else s
  match asked with
  | some d => if x.jstate = 2 && !x.bootReady then s else s.sendNoticeTo f d pullMark
  | none => s

/-- The records a donor sends of a fragment (R319): anchors, outer momenta and anchor entries, with ROUND r_b. -/
def State.donorRecs (s : State) (b : Buf) (f : Nat) : List Rec :=
  let rb := lastRound (s.frag f).closed
  (fragShards b f).flatMap fun t => t.blocks.flatMap fun rc =>
    let mk (kind : Nat) (p : Buf) : Rec := ⟨kind, t.id, rc.1, rc.2, t.lbRows, t.lbCols, t.epoch, s.stepNo, rb, p⟩
    [mk 4 (s.blockPay t .anchor rc.1 rc.2), mk 5 (s.blockPay t .outer rc.1 rc.2), mk 0x11 (s.anchorPay t rc.1 rc.2)]

/-- An application of the fragment is between its commit point and its last pass. -/
def State.applying (s : State) (j : Job) (f : Nat) : Bool :=
  let x := s.frag f
  x.sumReady && x.sumMode ≠ 0 && x.sumStep = j.step && s.decided

/-- NOTICE_RX (R319, R320): a join notice is kept for the leader; a request for a pull is served by an ACTIVE donor. -/
def State.noticeRx (s : State) (port route : Nat) (dg : Buf) : State :=
  match s.rxDatagram port route dg (· = 4) with
  | (none, s) => s
  | (some g, s) =>
    match s.job with
    | none => s
    | some j =>
      if !g.fresh then s
      else
        let v := g.text.be 0 4
        let f := g.h.frag
        if v = pullMark then
          let x := s.sess g.k
          let busy := (x.flight ++ x.queue ++ x.outStream).any fun d => d.type = 8
          if (s.frag f).jstate ≠ 3 || s.applying j f || busy || !s.roundOwner then s
          else
            let l := s.donorRecs j.image f
            s.offer g.k (bulkOf f (Buf.cat ((l ++ [endRec l (imgEpoch j.image) j.step]).map Rec.bytes)))
        else s.onFrag f fun x => { x with notices := tset 0 x.notices g.h.site ((v + 1) % 2 ^ 32 + 1) }

@[inherit_doc State.noticeRx]
def execNoticeRx (at_ port route : Nat) (dg : Buf) (s : State) : Res := .next ((s.tick at_).noticeRx port route dg)

/-- Every record that a pull of a fragment needs is there. -/
def pullWhole (b : Buf) (f : Nat) (l : List Rec) : Bool :=
  (fragShards b f).all fun t => t.blocks.all fun rc => [4, 5, 0x11].all fun k =>
    l.any fun r => r.kind = k && r.tensor = t.id && r.row = rc.1 && r.col = rc.2

/-- A bulk stream received in full (R355): the bytes of its datagrams in order. -/
def Session.stream (x : Session) : Option Buf :=
  match x.inLast with
  | none => none
  | some n => if x.inStream.length = n % 2 ^ 32 + 1 then some (Buf.cat (x.inStream.map (·.2))) else none

/-- A pull that has arrived in full, verified by its digests (R210, R319). One that fails is asked for again. -/
def State.pullArrived (s : State) (b : Buf) (k f : Nat) (st : Buf) : State :=
  let s := s.onSess k fun x => { x with inStream := [], inLast := none }
  match recordsOf st with
  | none => s
  | some l =>
    let x := s.frag f
    if !pullWhole b f l || x.donor ≠ some (s.sess k).peer || !(x.jstate = 1 || x.repairing) || x.bootReady then s
    else
      s.onFrag f fun x =>
        { x with bootData := l.map Rec.bytes, bootRound := ((l.head?.map (·.round)).getD 0), bootReady := x.repairing }

/-- BULK_RX (R355): bytes of a record stream; a stream of another id starts anew. -/
def State.bulkRx (s : State) (port route : Nat) (dg : Buf) : State :=
  match s.rxDatagram port route dg (· = 8) with
  | (none, s) => s
  | (some g, s) =>
    if !g.fresh then s
    else
      let key (i : Nat) : Nat := g.h.round * 2 ^ 32 + i
      let s := s.onSess g.k fun x =>
        let old := match x.inStream with | (n, _) :: _ => decide (n / 2 ^ 32 = g.h.round) | [] => true
        let x := if old then x else { x with inStream := [], inLast := none }
        { x with inStream := tset Buf.empty x.inStream (key g.h.chunk) g.text,
                 inLast := if g.h.last then some (key g.h.chunk) else x.inLast }
      match (s.sess g.k).stream, s.job with
      | some st, some j => if (s.sess g.k).peer < 5 then s.pullArrived j.image g.k g.h.round st else s
      | _, _ => s

/-- BOOTSTRAP_DONE (R318, R319): the pull is in place and the fragment enters JOINING. -/
def State.bootstrapDone (s : State) (f : Nat) : State :=
  let x := s.frag f
  if x.jstate ≠ 1 || x.bootData = [] then s
  else (s.onFrag f fun x => { x with jstate := 2, bootReady := true }).raiseRound Ev.bootstrapDone f x.bootRound x.donor

@[inherit_doc State.bootstrapDone]
def execBootstrapDone (at_ frag : Nat) (s : State) : Res := .next ((s.tick at_).bootstrapDone frag)

/-- A pull installed at a finite commit (R319, R322): for a joiner the anchor, outer momentum, working weight and
residual; for a repair the anchor and outer momentum. -/
def State.install (s : State) (b : Buf) (f : Nat) : State :=
  let x := s.frag f
  if !x.bootReady then s
  else
    let recs := x.bootData.filterMap fun d => recAt d 0
    let s := recs.foldl (fun s r => s.placeRec b r) s
    let joining := !x.repairing
    let s := if joining then
        recs.foldl (fun s r =>
          match imgShard b r.tensor with
          | some t =>
            if r.kind ≠ 4 then s
            else
              let e := t.ownIdx r.row r.col * t.lbElems
              let w := packFields 16 ((fields 32 t.lbElems r.payload.val).map toBf16)
              (s.writeCopy t .weight e t.lbElems w).writeCopy t .residual e t.lbElems 0
          | none => s) s
      else s
    let rb := (x.bootRound + 1) % 2 ^ 32
    let s := s.onFrag f fun x =>
      let x := { x with bootReady := false, bootData := [], repairing := false }
      if joining then
        { x with closed := rb, applied := rb, nextAdopt := rb, active := 0, out := [], encoding := none, nextSnap := rb, residRound := 0 }
      else if x.closed < rb then
        { x with closed := rb, applied := rb, out := x.out.filter (fun o => rb ≤ o.round), sumReady := false }
      else x
    let s := if joining then s else s.raiseRound Ev.anchorRepaired f x.bootRound x.donor
    s.adoptAll f 64

/-! ### Anchor confirmation (R321, R322) -/

/-- The sites of the digest messages of a round, the own one first: site, anchor, outer. -/
def Fragment.reports (x : Fragment) (own round : Nat) : List (Nat × Nat × Nat) :=
  match (x.digests.find? fun p => p.1 = round) with
  | none => []
  | some p => (own, p.2.1, p.2.2.1) :: (x.others.filter fun o => o.2.1 = round).map fun o => (o.1, o.2.2.1, o.2.2.2.1)

/-- The group that decides (R322): a strict majority, or the largest, ties by the lowest site index. -/
def bestGroup (l : List (Nat × Nat × Nat)) : Option (Bool × Nat × Nat) :=
  let size (d : Nat × Nat × Nat) : Nat := l.countP fun e => e.2 = d.2
  let low (d : Nat × Nat × Nat) : Nat := (l.filter fun e => e.2 = d.2).foldl (fun a e => Nat.min a e.1) 8
  match l with
  | [] => none
  | d :: t =>
    let w := t.foldl (fun a e => if size a < size e || (size a = size e && low e < low a) then e else a) d
    some (l.length < 2 * size w, w.2)

/-- The comparison of a round (R322, log entries 56 and 59). -/
def State.compareRound (s : State) (f round : Nat) (late : Bool) : State :=
  match s.job with
  | none => s
  | some j =>
    let x := s.frag f
    let own := imgSite j.image
    let l := x.reports own round
    let expect := match x.manifest round with | some m => onesOf 5 (manActive m) | none => onesOf 5 x.active
    let allIn := expect.all fun k => l.any fun d => d.1 = k
    if l = [] || !(allIn || late) then s
    else
      let s := s.onFrag f fun x =>
        { x with digests := x.digests.filter (fun p => p.1 ≠ round), others := x.others.filter fun o => o.2.1 ≠ round }
      let mine := (l.headD (0, 0, 0)).2
      if l.all fun d => d.2 = mine then s
      else
        let bad (s : State) : State := s.onFrag f fun x => { x with mismatches := satAdd 16 x.mismatches 1 }
        if l.length = 2 then
          (if l.any fun d => own < d.1 then s
           else (bad s).fatal Ev.anchorDigestMismatch f [(32, round), (3, (l.filter fun d => d.1 ≠ own).foldl (fun a d => a + d.1) 0)])
        else
          match bestGroup l with
          | none => s
          | some (strict, win) =>
            if win = mine then s
            else
              let src := ((l.filter fun d => d.2 = win).map (·.1)).foldl Nat.min 8
              let s := (bad s).raiseRound Ev.anchorDigestMismatch f round (some src)
              if strict then
                s.onFrag f fun x => { x with repairing := true, donor := some src, bootData := [], bootReady := false }
              else s.enterBootstrap j.image f none

/-- DIGEST_RX (R321, R322). -/
def State.digestRx (s : State) (port route : Nat) (dg : Buf) : State :=
  match s.rxDatagram port route dg (· = 3) with
  | (none, s) => s
  | (some g, s) =>
    if !g.fresh || (s.frag g.h.frag).jstate = 0 then s
    else
      let s := s.onFrag g.h.frag fun x =>
        { x with others := x.others.filter (fun o => !(o.1 = g.h.site && o.2.1 = g.h.round)) ++
            [(g.h.site, g.h.round, g.text.be 0 16, g.text.be 16 16, s.stepNo)] }
      s.compareRound g.h.frag g.h.round false

@[inherit_doc State.digestRx]
def execDigestRx (at_ port route : Nat) (dg : Buf) (s : State) : Res := .next ((s.tick at_).digestRx port route dg)

/-- Digest messages held too long are dropped, and a comparison whose time has come is made (R321). -/
def State.digestTimeouts (s : State) (j : Job) (f : Nat) : State :=
  let c := imgFragCfg j.image f
  let lim := 4 * c.tauMax
  let due := ((s.frag f).digests.filter fun p => p.2.2.2 + lim ≤ j.step).map (·.1)
  let s := due.foldl (fun s r => s.compareRound f r true) s
  s.onFrag f fun x => { x with others := x.others.filter fun o => j.step < o.2.2.2.2 + lim }

/-! ### Applying and closing (R313 to R316) -/

/-- The mode of a fragment's oldest unclosed round at a 0x60 instant (R299, R313, R317, R320). -/
def State.modeOf (s : State) (j : Job) (f : Nat) : Nat :=
  let x := s.frag f
  let c := imgFragCfg j.image f
  if !x.sumReady || x.sumRound ≠ x.closed || x.jstate < 2 || x.bootReady || x.repairing || x.encoding.isSome || x.encHeld ||
      x.shifting then 0
  else
    match x.applyLater with
    | (r, n, mode) :: _ => if r = x.closed && n = j.step then mode else 0
    | [] =>
      if x.jstate = 2 || x.closed < x.activeFrom then 2
      else
        match x.out with
        | [] => 0
        | o :: _ =>
          if o.round ≠ x.closed || j.step < o.snapStep + c.tau then 0
          else if j.step ≤ o.snapStep + c.tauMax then 1
          else 2

/-- A logged round whose time has come is summed from the Caravans supplied (R317, R414). -/
def State.replaySum (s : State) (j : Job) (f : Nat) : State :=
  let x := s.frag f
  match x.applyLater.head? with
  | some (r, n, _) =>
    if n = j.step && r = x.closed && !x.sumReady then
      match x.manifest r with
      | some m => if manContribs m ≠ 0 && x.allHeld m then s.writeSum j.image f m else s
      | none => s
    else s
  | none => s

/-- The round owner decides the mode of every fragment and writes MODE and STEP into the apply records (R313). -/
def State.decideModes (s : State) (j : Job) : State :=
  if !imgNormEn j.image then s
  else
    (imgFrags j.image).foldl (fun s f =>
      let s := s.replaySum j f
      let mode := s.modeOf j f
      let x := s.frag f
      (s.putApply j.image f x.sumRound mode x.sumReady j.step).onFrag f fun x => { x with sumMode := mode, sumStep := j.step }) s

/-- A log entry of the fragment (R323). -/
def State.logRound (s : State) (f step mode : Nat) (m : Option Buf) : State :=
  s.onFrag f fun x => { x with log := x.log ++ [logEntry step mode (match m with | some m => manSwap m | none => Buf.empty)] }

/-- The snapshots of the later unclosed rounds shifted for a FULL application of round `r` (R315, log entry 65). -/
def State.shiftSnaps (s : State) (b : Buf) (f r step : Nat) : State :=
  let later := ((s.frag f).out.filter fun o => r < o.round && o.snapStep < step).map (·.round)
  if later = [] then s
  else
    let s := (s.noteFrag b f fun _ => .anchor).noteFrag b f fun t => .snapshot (r % t.snaps)
    let s := later.foldl (fun s q => s.noteFrag b f fun t => .snapshot (q % t.snaps)) s
    let s := (fragShards b f).foldl (fun s t =>
      (List.range (t.elems / 256)).foldl (fun s k =>
        let e := 256 * k
        let av := fields 32 256 (s.readCopy t .anchor e 256).1
        let rv := fields 16 256 (s.readCopy t (.snapshot (r % t.snaps)) e 256).1
        later.foldl (fun s q =>
          let qv := fields 16 256 (s.readCopy t (.snapshot (q % t.snaps)) e 256).1
          let out := (av.zip (qv.zip rv)).map fun (p : Nat × Nat × Nat) =>
            let d := rnf ((dec32 (ofBf16 p.2.1)).addFin (dec32 (ofBf16 p.2.2)).negate)
            (fBF16.encode ((dec32 p.1).addFin (dec32 d)) false true).1
          s.writeCopy t (.snapshot (q % t.snaps)) e 256 (packFields 16 out)) s) s) s
    s.onFrag f fun x => { x with shifting := true }

/-- SNAPSHOT_SHIFT_COMPLETE (R315). -/
def State.shiftComplete (s : State) (f : Nat) : State :=
  if !(s.frag f).shifting || !s.sliceRuns 4 then s else s.onFrag f fun x => { x with shifting := false }

@[inherit_doc State.shiftComplete]
def execSnapshotShiftComplete (at_ frag : Nat) (s : State) : Res := .next ((s.tick at_).shiftComplete frag)

/-- A round closed with mode NONE because its manifest lists nothing (R309, log entry 61); a logged one at its logged step (R317). -/
def State.closeEmpty (s : State) (j : Job) (f : Nat) : Nat → State
  | 0 => s
  | fuel + 1 =>
    let x := s.frag f
    let r := x.closed
    match x.manifest r with
    | none => s
    | some m =>
      let wait := ((x.out.find? fun o => o.round = r).any fun o => !o.encoded) ||
        (x.applyLater.head?.any fun a => a.1 ≠ r || j.step < a.2.1)
      if manContribs m ≠ 0 || wait || x.bootReady || x.jstate < 2 then s
      else
        let s := s.onFrag f fun x =>
          { x with closed := r + 1, out := x.out.filter (fun o => o.round ≠ r), applyLater := x.applyLater.filter fun a => a.1 ≠ r }
        ((s.logRound f j.step 0 (some m)).pruneCaravans f).closeEmpty j f fuel

/-- A round closed by an application that has committed (R313, R315, R316, R321, log entry 62). -/
def State.closeApplied (s : State) (j : Job) (f r mode : Nat) : State :=
  let b := j.image
  let x := s.frag f
  let lag := match x.out.find? fun o => o.round = r with
    | some o => j.step - o.snapStep
    | none => 0
  let s := if mode = 1 then s.shiftSnaps b f r j.step else s
  let s := s.logRound f j.step mode (x.manifest r)
  let s := s.onFrag f fun x =>
    { x with
      closed := r + 1, applied := r + 1, out := x.out.filter (fun o => r < o.round), sumReady := false, sumMode := 0
      anchorOnly := if mode = 2 then satAdd 16 x.anchorOnly 1 else x.anchorOnly
      lagSteps := Nat.max x.lagSteps lag
      applyLater := x.applyLater.filter fun a => a.1 ≠ r }
  let s := if mode = 2 then s.raiseRound Ev.outerApplyDropped f r else s
  let s := s.putApply b f r 0 false 0
  let s := if imgNormEn b && x.sends && (imgSites b ≠ 1 <<< imgSite b) then
      let (a, o) := s.fragDigests b f
      let s := s.onFrag f fun x => { x with digests := tset (0, 0, 0) x.digests r (a, o, j.step) }
      (s.offerPartners [newDatagram 3 r f 0 false ((Buf.ofBe 16 a).app (Buf.ofBe 16 o))]).compareRound f r false
    else s
  (s.pruneCaravans f).closeEmpty j f 8

/-- An OUTER pass of the fragment has completed the step with an application (log entry 51): the region's apply record
names round and mode. -/
def State.closeAfterPasses (s : State) (j : Job) (f : Nat) : State :=
  match (outerPasses j.image f).head? with
  | none => s
  | some p =>
    let (round, mode, ready, step) := s.applyRec j.image p.1 f
    if !ready || mode = 0 || step ≠ j.step then s else s.closeApplied j f round mode

/-! ### Reception of Caravans, manifests and requests -/

/-- DATA_DATAGRAM_RX (R302, R300). -/
def State.dataRx (s : State) (port route : Nat) (dg : Buf) : State :=
  match s.rxDatagram port route dg (· = 1) with
  | (none, s) => s
  | (some g, s) =>
    match s.job with
    | none => s
    | some j =>
      let f := g.h.frag
      let b := j.image
      let x := s.frag f
      let plan := chunkPlan b f
      let site := chunkSite g.text
      let r := g.h.round
      match plan[g.h.chunk]? with
      | none => s
      | some c =>
        let needed := x.adopted.any fun m => x.closed ≤ manRound m && manLists m r site
        if !c.good (imgFragCfg b f).twoBit g.text || chunkRound g.text ≠ r || x.jstate = 0 ||
            (r < x.closed && r + 1 < x.nextAdopt && !needed) then s
        else s.keepChunk f (carKey r site) g.h.chunk plan.length g.text

@[inherit_doc State.dataRx]
def execDataDatagramRx (at_ port route : Nat) (dg : Buf) (s : State) : Res := .next ((s.tick at_).dataRx port route dg)

/-- MANIFEST_RX (R306): held, and adopted when its turn has come; one that differs from the adopted one counts in
CONFLICTS. -/
def State.manifestRx (s : State) (port route : Nat) (dg : Buf) : State :=
  match s.rxDatagram port route dg (· = 2) with
  | (none, s) => s
  | (some g, s) =>
    match s.job with
    | none => s
    | some j =>
      let m := manSwap g.text
      let f := manFrag m
      let x := s.frag f
      if !g.fresh || !manGood g.text || x.jstate = 0 || f ≠ g.h.frag then s
      else if manRound m < x.nextAdopt && x.jstate ≠ 1 then
        (match x.manifest (manRound m) with
         | some a => if a = m then s else s.onFrag f fun x => { x with conflicts := satAdd 16 x.conflicts 1 }
         | none => s)
      else if x.held.contains m then s
      else ((s.onFrag f fun x => { x with held := x.held ++ [m] }).adoptAll f 64).closeEmpty j f 64

@[inherit_doc State.manifestRx]
def execManifestRx (at_ port route : Nat) (dg : Buf) (s : State) : Res := .next ((s.tick at_).manifestRx port route dg)

/-- REQUEST_RX (R312): chunks served from the Cistern or the receive area as far as they are held. -/
def State.requestRx (s : State) (port route : Nat) (dg : Buf) : State :=
  match s.rxDatagram port route dg (· = 5) with
  | (none, s) => s
  | (some g, s) =>
    if !g.fresh || !s.roundOwner then s
    else
      let f := g.h.frag
      let s := s.readChunks f
      let x := s.frag f
      let l := (List.range (g.text.len / 8)).filterMap fun i =>
        let site := g.text.be (8 * i) 1
        let r := g.text.be (8 * i + 1) 4
        let k := g.text.be (8 * i + 5) 3
        ((tget [] x.caravans (carKey r site)).find? fun p => p.1 = k).map fun p =>
          newDatagram 1 r f k (k + 1 = tget 0 x.chunksOf (carKey r site)) p.2
      s.offer g.k l

@[inherit_doc State.requestRx]
def execRequestRx (at_ port route : Nat) (dg : Buf) (s : State) : Res := .next ((s.tick at_).requestRx port route dg)

/-- The chunks that a manifest's Caravans lack: site, round, chunk. A Caravan whose CDIGEST differs lacks them all. -/
def Fragment.missing (x : Fragment) (m : Buf) : List (Nat × Nat × Nat) :=
  (manEntries m).flatMap fun e =>
    let have_ := tget [] x.caravans (carKey e.2.2.1 e.1)
    let wrong := x.complete e.2.2.1 e.1 && x.cdigest e.2.2.1 e.1 ≠ e.2.2.2.2
    ((List.range e.2.2.2.1).filter fun k => wrong || !(have_.any fun p => p.1 = k)).map fun k => (e.1, e.2.2.1, k)

/-- REQUESTs for what the oldest unclosed round lacks, to the contributing site and the leader (R312, log entry 64). -/
def State.requestMissing (s : State) (f : Nat) : State :=
  let x := s.frag f
  match x.manifest x.closed with
  | none => s
  | some m =>
    let lack := if x.jstate < 2 || x.sumReady || x.applyLater ≠ [] || !s.roundOwner then [] else x.missing m
    (List.range 5).foldl (fun s site =>
      let mine := lack.filter fun q => q.1 = site || manLeader m = site
      match s.openPlace site with
      | none => s
      | some k =>
        let y := s.sess k
        if mine = [] || site = s.ownSite || (y.flight ++ y.queue ++ y.outStream).any (fun d => d.type = 5 && d.frag = f) then s
        else
          s.offer k [newDatagram 5 x.closed f 0 false
            (Buf.cat ((mine.take 1000).map fun q => Buf.cat [Buf.ofBe 1 q.1, Buf.ofBe 4 q.2.1, Buf.ofBe 3 q.2.2]))]) s

/-! ### The commit point (R296, R304, R308, R312, R316, R320) -/

/-- The next round is snapshotted at this commit: its nominal step has come and fewer than MAX_OUT rounds are outstanding
(R296, R316); a deferred one of a replayed log at its logged step (R317). -/
def State.snapReady (s : State) (j : Job) (f : Nat) : Bool :=
  let x := s.frag f
  let c := imgFragCfg j.image f
  let nom := c.nominal x.nextSnap
  decide (nom ≤ j.step) && decide (x.out.length < c.maxOut) && (nom = j.step || x.applyLater = [] || x.snapLater.contains j.step)

/-- The rounds that this commit snapshots: those deferred, then the nominal one (R298, R316). -/
def State.snapRounds (s : State) (j : Job) (f : Nat) : Nat → State
  | 0 => s
  | fuel + 1 =>
    if !s.snapReady j f then s
    else
      let nom := (imgFragCfg j.image f).nominal (s.frag f).nextSnap
      let s := s.onFrag f fun x =>
        let x := { x with out := x.out ++ [(⟨x.nextSnap, j.step, false⟩ : Round)], nextSnap := x.nextSnap + 1
                          snapSteps := tset 0 x.snapSteps x.nextSnap (j.step + 1) }
        { x with encoding := if x.encoding.isSome then x.encoding else x.nextEncode }
      (if nom = j.step then s else s.logRound f j.step 3 none).snapRounds j f fuel

/-- Snapshots of a commit (R296, R298, R316), taken once the step's passes are done, so that a round closed by an application of the
same commit no longer counts. A round whose nominal step this is, and that finds no room, is deferred. -/
def State.takeSnapshot (s : State) (j : Job) (f : Nat) : State :=
  let x := s.frag f
  let c := imgFragCfg j.image f
  if x.jstate ≠ 3 || x.bootReady then s
  else
    let s := s.snapRounds j f (c.maxOut + 1)
    let k := (j.step - c.phase) / c.h
    if c.phase ≤ j.step && (j.step - c.phase) % c.h = 0 && (s.frag f).nextSnap ≤ k then
      (s.onFrag f fun x => { x with snapDeferred := satAdd 32 x.snapDeferred 1 }).raiseRound Ev.snapshotDeferred f k
    else s

/-- What every fragment does at the commit point of the running step. -/
def State.outerCommit (s : State) (j : Job) : State :=
  (imgFrags j.image).foldl (fun s f =>
    let s := (s.publishDue j f).closeEmpty j f 8
    let s := s.joinNotices j f
    let s := s.digestTimeouts j f
    (s.requestMissing f).pruneCaravans f) s

/-! ### Pass completion (R213, R229) -/

/-- What the committed state of a step leads to once its passes are done: installs of R319 and R322, the
snapshots, the digest of R493, and the checkpoints marked at the commit point (R409). -/
def State.afterPasses (s : State) (j : Job) : State :=
  let finite := match s.com.decision with | some d => decide (d.decision = Decision.finite) | none => false
  let s := if finite then (imgFrags j.image).foldl (fun s f => s.install j.image f) s else s
  let s := (imgFrags j.image).foldl (fun s f => s.takeSnapshot j f) s
  let s := s.ckptRead
  if finite then s.sendDigest j.step else s

/-- CORE cycles of a matrix product of `macs` multiply-accumulates (R229). -/
def productCycles (macs : Nat) : Nat := ceilDiv macs 73728 + 2048

/-- CORE cycles of the matrix products that a pass makes for a shard (R220, R221, R229). -/
def Pass.matCycles (p : Pass) (t : Shard) : Nat :=
  if p.rule = 2 then
    let rows := if p.nsBlock then p.nsBr else t.owNr * t.lbRows
    let cols := if p.nsBlock then p.nsBc else t.owNc * t.lbCols
    let r := Nat.min rows cols
    let c := Nat.max rows cols
    (t.elems / Nat.max (rows * cols) 1) * ((p.nsIter + 1) *
      (productCycles (r * r * c) + productCycles (r * r * r) + productCycles (r * r * c)))
  else if p.rule = 3 then
    let roots := 2 * (p.pcIter + 1) * (1 + if p.pcRoot then 4 else 2)
    t.owNr * t.owNc * (4 + roots) * productCycles (t.lbRows * t.lbRows * t.lbRows)
  else 0

/-- What a pass takes without a wait for an UPDATE slot beyond the first request, in ns (R229, log entry 156). -/
def passNs (b p : Buf) : Nat :=
  let l := (passShards b p).filter (·.owns)
  let cycles := ceilDiv (l.map (·.elems)).sum 256 + (l.map (Pass.ofBuf p).matCycles).sum
  755 + ceilDiv (10 * cycles) 17

/-- UPDATE_STALL_US of a pass that has run and completes now (R230). -/
def State.countStall (s : State) (j : Job) (die i : Nat) : State :=
  let p := imgPass j.image (imgEntry j.image i).arg
  let outer := (Pass.ofBuf p).rule = 4
  let (_, mode, ready, step) := s.applyRec j.image die (passFragment j.image p)
  let ran := (s.com.decision.any fun d => decide (d.decision = Decision.finite)) &&
    (!outer || (mode ≠ 0 && ready && step = j.step))
  match s.ent i with
  | .running t =>
    if ran then s.onDie die fun d => { d with stallUs := satAdd 32 d.stallUs ((s.jt - t - passNs j.image p) / 1000) } else s
  | _ => s

/-- PASS_COMPLETE (R229): the last state is written and SIG_SO is signalled. The last OUTER pass of a fragment closes the
round that it applied; the last pass of the step leaves its committed state. -/
def State.passComplete (s : State) (die : Nat) : State :=
  match s.job, (s.die die).pass with
  | some j, some (i, step, _) =>
    let s := if step = j.step then s.countStall j die i else s
    let s := s.onDie die fun d => { d with pass := none }
    let s := s.completeEntry i step
    let p := imgPass j.image (imgEntry j.image i).arg
    let f := passFragment j.image p
    let isOuter (q : Buf) : Bool := (Pass.ofBuf q).rule = 4 && passFragment j.image q = f
    let finite := match s.com.decision with | some d => decide (d.decision = Decision.finite) | none => false
    let s := if (Pass.ofBuf p).rule = 4 && finite && s.passesDone j.image isOuter then s.closeAfterPasses j f else s
    if s.passesDone j.image (fun _ => true) then s.afterPasses j else s
  | _, _ => s

@[inherit_doc State.passComplete]
def execPassComplete (at_ die : Nat) (s : State) : Res := .next ((s.tick at_).passComplete die)

/-! ### Records (R324) -/

/-- The round status record of a fragment (R324). -/
def Fragment.record (x : Fragment) : Buf :=
  packBuf 32 [(32, (x.closed + 2 ^ 32 - 1) % 2 ^ 32 % (if x.closed = 0 then 1 else 2 ^ 32)), (3, x.out.length), (2, x.jstate),
    (5, x.active), (22, 0), (32, x.snapDeferred), (32, x.carriedN), (32, x.staleDropped), (16, x.takeovers), (16, x.conflicts),
    (16, x.anchorOnly), (16, x.mismatches), (32, x.lagSteps)]

end Sys2Proof.Machine
end

