-- ==== Sys2Proof/Machine/Gradient.lean ====
section
/-! DEFINITION. The gradient buffers of a step (R186 to R188, R192, R193, R200, R249, R250, R256): where a kernel's accesses to
them go, the AFX blocks formed from them, direct reduction, the carry buffer and its fold, and the start and end of the kernels
that use them. -/

namespace Sys2Proof.Machine

/-! ### Micro-batches (R248) -/

/-- MB_COUNT of the commit parameter block (R244). -/
def comMbCount (p : Buf) : Nat := p.fld 192 8

/-- A micro-batch entry (R248). -/
structure MbEntry where
  doneSo  : Nat
  count   : Nat
  cutoff  : Nat
  carrySo : Nat
  planLen : Nat
  deriving DecidableEq, Repr

/-- The micro-batch table. -/
def imgMbs (b : Buf) : List MbEntry :=
  let p := imgCommit b
  ((b.drop (p.fld 256 32)).recs 16 (comMbCount p)).map fun e =>
    ⟨e.fld 0 16, e.fld 16 32, e.fld 48 40, e.fld 88 16, e.fld 104 16⟩

/-! ### Places -/

/-- Bytes of a slice's gradient buffer: 16 bits an element, none for a direct-reduce tensor (R182, R200). -/
def Shard.gradBytes (t : Shard) : Nat := if t.direct then 0 else 512 * t.sliceSubs

/-- An Oasis address lies in the gradient buffer of a slice. -/
def Shard.holdsGrad (t : Shard) (a : Nat) : Bool := decide (t.gAddr ≤ a) && decide (a < t.gAddr + t.gradBytes)

/-- Offset of an AFX block's elements in a gradient buffer, and of the block in a direct-reduce region (R180, R200). -/
def Shard.gradOff (t : Shard) (row col sub : Nat) : Nat := 512 * (t.sliceIdx row col * t.lbSubs + sub)

/-- The slices that have a gradient buffer, in G_ADDR order. -/
def gradShards (b : Buf) : List Shard := sortBy (fun x y => x.gAddr ≤ y.gAddr) ((imgShards b).filter fun t => !t.direct)

/-- Slices placed one after another in regions given as (base, bytes): the address of each (log entry 143). -/
def placeIn : List (Nat × Nat) → List Shard → List (Nat × Nat)
  | _, [] => []
  | [], _ => []
  | (a, n) :: l, t :: ts =>
    if t.gradBytes ≤ n then (t.id, a) :: placeIn ((a + t.gradBytes, n - t.gradBytes) :: l) ts
    else match l with
      | (a', n') :: l' => (t.id, a') :: placeIn ((a' + t.gradBytes, n' - t.gradBytes) :: l') ts
      | [] => []

/-- Where the carry buffer holds the slice of a tensor: the ROLE 6 regions of Oasis in address order take the gradient buffers in
G_ADDR order (R250; DESIGN CHOICE, log entry 143). -/
def carryAddr (b : Buf) (tensor : Nat) : Option Nat :=
  let rs := sortBy (fun x y => x.1 ≤ y.1) (((imgRegions b).filter fun r => r.role = 6 && r.space = 1).map fun r => (r.base, r.length))
  ((placeIn rs (gradShards b)).find? fun p => p.1 = tensor).map (·.2)

/-! ### Kernels of a micro-batch (R248, R249) -/

/-- The sync object that an item signals, if any (R84, R94). -/
def itemSignal (b : Buf) : Option Nat :=
  if itemKind b = 0x4D then (let d := Mat.ofBuf b; if d.sigEn then some d.sigSo else none)
  else if itemKind b = 0x44 then (let d := CoreDma.ofBuf b; if d.sigEn then some d.sigSo else none)
  else none

/-- Whether an item from offset `off` of a kernel's code on signals a sync object. -/
def State.codeSignals (s : State) (core : Nat) (k : Kernel) (so : Nat) : Nat → Nat → Bool
  | 0, _ => false
  | fuel + 1, off =>
    let b := s.itemAt core k off
    if itemKind b = 0x45 || k.codeLen ≤ off then false
    else itemSignal b = some so || s.codeSignals core k so fuel (off + b.len)

/-- A main kernel works for a micro-batch: it, or its entry, signals the micro-batch's DONE_SO, as its last gradient write does
(R248; DEDUCED, log entry 144). -/
def State.kernelOfMb (s : State) (j : Job) (core : Nat) (k : Kernel) (m : Nat) : Bool :=
  match (imgMbs j.image)[m]? with
  | none => false
  | some e =>
    let x := imgEntry j.image k.entry
    !k.guest && ((x.sigEn && x.sigSo = e.doneSo) || s.codeSignals core k e.doneSo 4096 (alignUp (32 * k.nprof) 64))

/-- The kernel works for a micro-batch of its step that is deferred and not complete (R249). -/
def State.kernelDeferred (s : State) (j : Job) (core : Nat) (k : Kernel) : Bool :=
  match s.com.carry with
  | some (n, l, _) => n = k.step && l.any fun m => !m.2.2 && s.kernelOfMb j core k m.1
  | none => false

/-- The same dropped. -/
def State.kernelDropped (s : State) (j : Job) (core : Nat) (k : Kernel) : Bool :=
  k.step = j.step && s.com.mbDropped.any fun m => s.kernelOfMb j core k m

/-! ### Accesses to the gradient buffers -/

/-- Where an access to a gradient buffer goes. -/
inductive GradPlace where
  | there             -- where it says
  | carry (a : Nat)   -- to the carry buffer (R249)
  | away              -- nowhere (R188, R249)
  deriving DecidableEq, Repr

/-- Where a core DMA access to a device Oasis address goes. From the start of the kernel that converts a gradient buffer to the
commit point nothing but that kernel reads or writes it (R188); the writes of a deferred micro-batch, and the reads with which it
sums, go to the carry buffer, and those of a dropped one are discarded (R249). -/
def State.gradPlace (s : State) (core a : Nat) (write : Bool) : GradPlace :=
  match s.job, (s.core core).kernel with
  | some j, some k =>
    match (imgShards j.image).find? fun t => t.holdsGrad a with
    | none => .there
    | some t =>
      if k.guest then .there
      else if s.kernelDeferred j core k then
        (match carryAddr j.image t.id with | some c => .carry (c + (a - t.gAddr)) | none => .away)
      else if write && s.kernelDropped j core k then .away
      else if s.com.gradShut.any fun x => x.1 = t.id && x.2 ≠ k.entry then .away
      else .there
  | _, _ => .there

/-! ### Blocks formed (R192, R193, R256) -/

/-- An AFX block's place: its space and core as a block descriptor names them (R270), its address, and the block of a slice that
its header names. -/
structure AfxPlace where
  space : Nat
  core  : Nat
  addr  : Nat
  shard : Shard
  row   : Nat
  col   : Nat
  sub   : Nat
  deriving DecidableEq, Repr

/-- The slice that an AFX header names a block of, in the layout epoch and format of its descriptor (R191). -/
def afxNames (b : Buf) (h : Buf) : Option Shard :=
  match imgShard b (afxTensor h) with
  | none => none
  | some t =>
    if h.fld 19 13 = 0 && h.fld 84 12 = 0 && h.fld 224 32 = 0 && afx32 h = t.afx32 && afxEpoch h = t.epoch &&
        t.hasBlock (afxRow h) (afxCol h) && decide (afxSub h < t.lbSubs) then some t else none

/-- Bytes of a block descriptor's buffer as they stand (R270). -/
def State.placeRead (s : State) (space core a n : Nat) : Nat :=
  if space = 0 then s.scratch.val (scratchKey core a) n else s.oasis.val a n

/-- The AFX blocks that lie one after another from the start of a block descriptor's buffer, by their headers. -/
def State.afxWalk (s : State) (b : Buf) (d : Blk) : Nat → Nat → List AfxPlace
  | 0, _ => []
  | fuel + 1, off =>
    if d.len < off + 1056 || 1 < d.space then []
    else
      let h : Buf := ⟨32, s.placeRead d.space d.core (d.addr + off) 32⟩
      match afxNames b h with
      | none => []
      | some t => ⟨d.space, d.core, d.addr + off, t, afxRow h, afxCol h, afxSub h⟩ :: s.afxWalk b d fuel (off + afxLen t.afx32)

/-- The AFX blocks of the block descriptors that `sel` picks of the entries. -/
def State.afxPlaces (s : State) (b : Buf) (sel : Entry → Blk → Bool) : List AfxPlace :=
  ((imgEntryList b).flatMap fun e =>
    let d := Blk.ofBuf (imgBlock b e.2.arg)
    if (e.2.action = 0x40 || e.2.action = 0x48) && sel e.2 d then s.afxWalk b d (d.len / 1056) 0 else []).dedup

/-- The outgoing AFX blocks of the plan: what planned blocks send, and what an AFX_ADD adds to (R270). -/
def State.outgoing (s : State) (b : Buf) : List AfxPlace := s.afxPlaces b fun e d => e.action = 0x40 || d.rxOp = 1

/-- The tensors with a gradient buffer whose blocks go out once entry `e` has signalled: their buffers are what its kernel converts
(R188; DESIGN CHOICE, log entry 145). -/
def State.converts (s : State) (b : Buf) (e : Entry) : List Nat :=
  if !e.sigEn then []
  else (((s.afxPlaces b fun x _ => x.action = 0x40 && x.preEn && x.preSo = e.sigSo).map (·.shard)).filter fun t => !t.direct).map (·.id) |>.dedup

/-- A converting kernel starts: from here on nothing else touches the buffers that it converts (R188). -/
def State.shutGradients (s : State) (j : Job) (i : Nat) (e : Entry) : State :=
  match (s.converts j.image e).filter fun t => !(s.com.gradShut.any fun x => x.1 = t) with
  | [] => s
  | l => s.onCom fun c => { c with gradShut := c.gradShut ++ l.map fun t => (t, i) }

/-- The anchor that converts and adds a block in the running step: its committed anchor and the job's BIAS (R192). -/
def State.stepAnchor (s : State) (t : Shard) (row col sub : Nat) : Int := s.anchor t row col sub + s.com.hist.bias

/-- The scale of a tensor's gradient in the running step: L + Gₜ (R186). -/
def State.stepScale (s : State) (tensor : Nat) : Int := s.com.stepL + tget 0 s.com.stepG tensor

/-- A new local block from the values of 256 elements at scale 2^e (R192, R193): COUNT is 1. -/
def State.newBlock (s : State) (t : Shard) (row col sub : Nat) (e : Int) (vs : List Fv) : Buf :=
  let a := s.stepAnchor t row col sub
  let els := vs.map fun v => afxOfValue v e a t.afx32
  ({ anchor := a, w32 := t.afx32, nf := els.any (fun x => x.2.1), ovf := els.any (fun x => x.2.2), count := 1, tensor := t.id,
     row, col, sub, epoch := t.epoch, step := s.stepNo } : AfxHdr).block (els.map fun x => x.1)

/-- Nonzero finite elements that convert to 0 counted for the watch slot of their tensor (R193, R256). -/
def State.countLost (s : State) (img : Buf) (t : Shard) (vs : List Fv) (x : Buf) : State :=
  let n := (vs.zip (afxElems x)).countP fun (p : Fv × Int) => p.1.isFin && !p.1.isZero && p.2 = 0
  match if n = 0 then none else slotOfTensor img t.id with
  | none => s
  | some i => s.onCom fun c => { c with ufCount := tset 0 c.ufCount i (satAdd 32 (tget 0 c.ufCount i) n) }

/-- The block of a place converted from a buffer of 16-bit gradients that begins at `base` (R193). -/
def State.convertBlock (s : State) (img : Buf) (p : AfxPlace) (base : Nat) (e : Int) (who : Reader) : Buf × State :=
  let t := p.shard
  let r := s.oasis.readAt (base + t.gradOff p.row p.col p.sub) 512
  let vs := (fields 16 256 r.val).map fun c => (if t.fp16 then fFP16 else fBF16).decode c
  let x := s.newBlock t p.row p.col p.sub e vs
  (x, (s.noteOasis r who).countLost img t vs x)

/-- An AFX block written to its place. -/
def State.putBlock (s : State) (p : AfxPlace) (x : Buf) : State :=
  if p.space = 0 then s.outsideWrite p.core p.addr x.len x.val else s.oasisWrite p.addr x.len x.val

/-- The carry buffer converted for a place and added into its block, with the step's anchors and the recorded scales (R250). -/
def State.foldBlock (s : State) (j : Job) (core : Nat) (p : AfxPlace) : State :=
  match s.com.carry, carryAddr j.image p.shard.id with
  | some (_, _, l), some base =>
    let (x, s) := s.convertBlock j.image p base (l + tget 0 s.com.carryG p.shard.id) (.core core false)
    let old : Buf := ⟨afxLen p.shard.afx32, s.placeRead p.space p.core p.addr (afxLen p.shard.afx32)⟩
    match afxAdd old x with
    | some sum => s.putBlock p sum
    | none => s.fatal Ev.afxMismatch (0x80 + core / 16)
  | _, _ => s

/-- The kernel that converts gradient buffers completes: the outgoing blocks of its tensors are formed, with the carried
contribution where that has been folded (R192, R193, R250; DESIGN CHOICE, log entry 145). -/
def State.formBlocks (s : State) (core : Nat) (k : Kernel) : State :=
  match s.job with
  | none => s
  | some j =>
    if k.step ≠ j.step then s
    else
      let s := s.shutGradients j k.entry (imgEntry j.image k.entry)
      let mine := (s.com.gradShut.filter fun x => x.2 = k.entry && !s.com.formed.contains x.1).map (·.1)
      if mine = [] then s
      else
        let l := (s.outgoing j.image).filter fun p => mine.contains p.shard.id
        let s := l.foldl (fun s p =>
          let (x, s) := s.convertBlock j.image p p.shard.gAddr (s.stepScale p.shard.id) (.core core false)
          let s := s.putBlock p x
          if s.com.folded then s.foldBlock j core p else s) s
        s.onCom fun c => { c with formed := c.formed ++ mine }

/-- The carry fold of the running step has completed: every entry that waits on a CARRY_SO of the carry is done. -/
def State.carryFolded (s : State) (b : Buf) : Bool :=
  match s.com.carry with
  | none => true
  | some (_, l, _) =>
    let folds := (imgEntryList b).filter fun e => e.2.preEn && l.any fun m => m.2.1 = e.2.preSo
    folds ≠ [] && folds.all fun e => s.ent e.1 = .done

/-- A kernel that waits on a CARRY_SO of the carry completes, and with it the fold: the carry buffer is added into every outgoing
block already formed; those formed later take it up then (R250). -/
def State.foldCarry (s : State) (core : Nat) (k : Kernel) : State :=
  match s.job, s.com.carry with
  | some j, some (n, _, _) =>
    if s.com.folded || j.step ≤ n || k.step ≠ j.step || !s.carryFolded j.image then s
    else
      let l := (s.outgoing j.image).filter fun p => s.com.formed.contains p.shard.id
      (l.foldl (fun s p => s.foldBlock j core p) s).onCom fun c => { c with folded := true }
  | _, _ => s

/-- The gradient buffers of every slice emptied: at the commit point, or when the step is skipped, their contents are discarded,
and the sums of the next step begin at zero (R187, R188; DEDUCED, log entry 146). -/
def State.dropGradients (s : State) (b : Buf) : State :=
  { s with oasis := (gradShards b).foldl (fun r t => r.zero t.gAddr t.gradBytes) s.oasis }

/-! ### Direct reduction (R200) -/

/-- The direct-reduce block whose place in its region a device Oasis address is: tensor, row, column and SUB (R200). -/
def directPlace (b : Buf) (a : Nat) : Option AfxPlace :=
  match (imgShards b).find? fun t => t.direct && decide (t.rbAddr ≤ a) && decide (a < t.rbAddr + 2080 * t.sliceSubs) with
  | none => none
  | some t =>
    let i := (a - t.rbAddr) / 2080
    let k := i / t.lbSubs
    if (a - t.rbAddr) % 2080 ≠ 0 then none
    else some ⟨1, 0, a, t, t.slRow + k / t.slNc, t.slCol + k % t.slNc, i % t.lbSubs⟩

/-- A micro-batch contribution of 256 FP32 elements to a direct-reduce block: converted, and added to what the step has put there,
or, as the step's first, written (R193, R194, R200; DESIGN CHOICE, log entry 147). Those of a micro-batch that has overrun are
discarded (R249). -/
def State.directAdd (s : State) (j : Job) (core : Nat) (p : AfxPlace) (v : Nat) (bad : Bool) : State :=
  match (s.core core).kernel with
  | none => s
  | some k =>
    if s.kernelDeferred j core k || s.kernelDropped j core k then s
    else
      let vs := (fields 32 256 v).map dec32
      let x := s.newBlock p.shard p.row p.col p.sub (s.stepScale p.shard.id) vs
      let r := s.oasis.readAt p.addr 2080
      let old : Buf := ⟨2080, r.val⟩
      let s := (s.noteOasis r (.core core k.guest)).countLost j.image p.shard vs x
      let x := if afxStep old = s.stepNo then (afxAdd old x).getD x else x
      s.oasisWrite p.addr 2080 x.val (bad || r.bad ≠ [])

/-! ### Start and end of a main kernel -/

/-- Kernel `idx` of a core started by entry `i`, whose waits may last until `limit` (R60, R73, R76). -/
def State.startKernel (s : State) (j : Job) (i : Nat) (e : Entry) (limit : Nat) : State :=
  let core := e.target
  let ks := imgKernels j.image core
  let idx := promotedKernel j.image s.com.promoted core e.arg
  let r := ks.getD idx default
  let planned := plannedJt j.image j.step (if r.drawEn then r.drawEntry else i)
  let k : Kernel :=
    { index := idx, entry := i, guest := false, base := kernelBase ks idx, nprof := r.nprof, codeLen := 64 * r.len,
      step := j.step, startCc := s.dieCc (core / 16), plannedJt := planned, limitJt := limit,
      pos := alignUp (32 * r.nprof) 64, nextIndex := 0, lastIssue := 0, issuedAny := false, stopped := false,
      ended := false, lastDone := s.dieCc (core / 16), qCount := 0, passed := 0, waitFrom := none, lockFrom := none, vwaitFrom := none }
  let cut := s.kernelDropped j core k
  (s.onCore core fun c => { c with kernel := some k, v := .reset, closing := cut }).shutGradients j i e

/-- KERNEL_START (R60): timetable action 0x01. Vector state is cleared at every kernel start (R122). Where the guest still
holds the core the entry finds it busy, and the guest is stopped at its next tile boundary (R92, R376). -/
def State.kernelStart (s : State) (i : Nat) : State :=
  match s.entry? i with
  | none => s
  | some (j, e) =>
    let s := if e.action = 0x01 && s.judge j i e true ≠ .notYet then s.blameGuest e.target else s
    s.dispatch i 0x01 fun s j e => s.startKernel j i e (j.sn + e.finish)

@[inherit_doc State.kernelStart]
def execKernelStart (at_ entry : Nat) (s : State) : Res := .next ((s.tick at_).kernelStart entry)

/-- KERNEL_COMPLETE (R74, R91): 4 CORE cycles after END and the last item; the core is idle, and the entry of a kernel
that was not stopped completes (R60); the AFX blocks it forms are then in place (R193, R250). Within its bubble a guest goes on to its next kernel (R374).
A kernel of a dropped micro-batch ends at its tile boundary and completes its entry there (R249, log entry 148). -/
def State.kernelComplete (s : State) (core : Nat) : State :=
  let c := s.core core
  match c.kernel with
  | none => s
  | some k =>
    let cc := s.dieCc (core / 16)
    let cut := c.closing && !k.guest && c.tileBoundary false
    if !(k.ended || k.stopped || cut) || !c.drained || cc < k.lastDone + 4 then s
    else
      let s := s.putCore core { c with kernel := none, closing := c.closing && k.guest }
      if k.guest then
        match s.guest with
        | none => s
        | some g =>
          let next := g.nextKernel core k.index
          let s := { s with guest := some { g with done := g.done + 1 } }
          let s := s.onCore core fun c => { c with guest := { c.guest with next } }
          if c.closing then
            let s := s.onCore core fun c => { c with closing := false, overran := false, bubble := none }
            (if c.overran then s.stopGuest 3 core else s).detachGuest
          else
            match s.guestKernel g core next c.bubbleEntry c.bubbleQ with
            | some n => if c.bubble.isSome && !g.stopped then s.onCore core fun c => { c with kernel := some n, v := .reset } else s
            | none => s
      else if k.stopped then s
      else ((s.formBlocks core k).completeEntry k.entry k.step).foldCarry core k

@[inherit_doc State.kernelComplete]
def execKernelComplete (at_ core : Nat) (s : State) : Res := .next ((s.tick at_).kernelComplete core)

end Sys2Proof.Machine
end

