-- ==== Sys2Proof/Machine/Matrix.lean ====
section
/-! DEFINITION. The matrix engine and the core DMA (R77 to R97, R98 to R121): accumulation into Basin tiles, drains through
the output stage, and moves between scratch and Oasis. -/

namespace Sys2Proof.Machine

/-! ### Shapes, rates and times -/

/-- Rows and columns of a tile shape (R77). -/
def shapeDims (shape : Nat) : Nat × Nat :=
  match shape with
  | 0 => (96, 96) | 1 => (48, 192) | 2 => (192, 48) | 3 => (24, 384) | 4 => (384, 24) | _ => (96, 96)

/-- Accumulating cycles of a descriptor at full fetch rate (R80). -/
def Mat.baseCycles (d : Mat) : Nat :=
  let blocks := d.k / 32
  let wide (f : Nat) : Bool := f = 0x7 || f = 0x8
  if wide d.fmtA || wide d.fmtB then 64 * blocks
  else if (d.fmtA = 0x6 && d.fmtB = 0x6) || (d.fmtA = 0xA && d.fmtB = 0xA) then 32 * ceilDiv blocks 2
  else 32 * blocks

/-- The factor by which fetch of an operand with row stride `ld` slows its passes (R82). -/
def fetchFactor (ld : Nat) : Nat :=
  let g := Nat.gcd ld 48
  if g = 1 then 1 else ceilDiv (32 * g) 48

/-- The factor of a descriptor (R82). -/
def Mat.slow (d : Mat) : Nat := Nat.max (fetchFactor d.aLd) (fetchFactor d.bLd)

/-- The tensor exponent T of a descriptor (R107). -/
def Mat.tensorExp (d : Mat) : Int :=
  (if d.scaleA = 1 then (d.tscaleA : Int) - 127 else 0) + (if d.scaleB = 1 then (d.tscaleB : Int) - 127 else 0)

/-- A TSCALE of 0xFF in TENSOR mode (R107). -/
def Mat.nanScale (d : Mat) : Bool := (d.scaleA = 1 && d.tscaleA = 0xFF) || (d.scaleB = 1 && d.tscaleB = 0xFF)

/-! ### Accumulators -/

/-- SPEC combined with what another element or record brings (R111). -/
def specJoin (a b : Nat) : Nat :=
  if a = 3 || b = 3 then 3 else if a = 0 then b else if b = 0 || a = b then a else 3

/-- Field PC of limb `k`, 2 to 9 (R105). -/
def Acc.pcOf (a : Acc) (k : Nat) : Int :=
  match bits a.pc (2 * (k - 2)) 2 with
  | 1 => 1
  | 3 => -1
  | _ => 0

/-- The same set. -/
def Acc.setPc (a : Acc) (k : Nat) (v : Int) : Acc := { a with pc := setBits a.pc (2 * (k - 2)) 2 (wrap 2 v) }

/-- The pending carry into limb `k` folded into the limbs from `k` up (R106). -/
def Acc.fold (a : Acc) (k : Nat) : Acc :=
  ({ a with limbs := wrap 640 ((a.limbs : Int) + a.pcOf k * ((2 ^ (64 * k) : Nat) : Int)) } : Acc).setPc k 0

/-- Every pending carry folded. -/
def Acc.folded (a : Acc) : Acc := (List.range 8).foldl (fun a i => a.fold (i + 2)) a

/-- One limb-pair addition of a signed 128-bit value at limb position `j` (R106). -/
def Acc.addPair (a : Acc) (w : Int) (j : Nat) : Acc :=
  let pair := bits a.limbs (64 * j) 128
  let sum := pair + wrap 128 w
  let a := { a with limbs := setBits a.limbs (64 * j) 128 sum }
  let delta : Int := ((sum / 2 ^ 128 : Nat) : Int) - (if w < 0 then 1 else 0)
  if j = 8 || delta = 0 then a
  else if a.pcOf (j + 2) = 0 then a.setPc (j + 2) delta
  else (a.fold (j + 2)).setPc (j + 2) delta

/-- Number of the lowest set bit of a nonzero integer, below `n`. -/
def lowBit (n : Nat) (v : Int) : Nat := ((List.range n).find? fun i => v % ((2 ^ (i + 1) : Nat) : Int) ≠ 0).getD 0

/-- A block sum in units of 2^-288 as limb-pair additions (R106): each takes the signed 128 bits from the limb of the lowest set
bit up, so that at most five cover the 640 bits, two the span of a block with E5M2 or FP16, and one that of any narrower pair.
Which additions within these bounds is the model's own (log entry 16). -/
def Acc.addBlock : Nat → Acc → Int → Acc
  | 0, a, _ => a
  | fuel + 1, a, v =>
    if v = 0 then a
    else
      let j := Nat.min 8 (lowBit 640 v / 64)
      let unit : Int := ((2 ^ (64 * j) : Nat) : Int)
      let w := sext 128 (wrap 128 (v / unit))
      Acc.addBlock fuel (a.addPair w j) (v - w * unit)

/-- The value of an accumulator as an integer over 2^288, SPEC aside (R105). -/
def Acc.int (a : Acc) : Int := sext 640 a.folded.limbs

/-- The value with SPEC, as the drain sees it. -/
def Acc.value (a : Acc) : Fv :=
  match a.spec with
  | 0 => Fv.ofInt a.int (-288)
  | 1 => .inf false
  | 2 => .inf true
  | _ => .nan

/-- The value that a read of an entry finds: single-symbol errors corrected, none where a word of it is bad (R144, R170). -/
def Acc.read (a : Acc) : Option Fv := if a.badWords = [] then some a.healed.value else none

/-! ### Block sums -/

/-- An operand element: a code of a format read as a value (R98, R102). -/
def opElem (fmt code : Nat) : Fv :=
  if fmtIsInt fmt then Fv.ofInt (sext (fmtBits fmt) code) 0 else (fmtOf fmt).decode code

/-- The power of two of which every element of a format is a multiple. -/
def opQuantum (fmt : Nat) : Int := if fmtIsInt fmt then 0 else (fmtOf fmt).qmin

/-- A finite element as a multiple of its format's quantum. -/
def opUnits (fmt : Nat) (v : Fv) : Int := if v.isZero then 0 else v.num * 2 ^ (v.pow - opQuantum fmt).toNat

/-- One product (R111): the SPEC it brings and its finite part in quanta. -/
def opProduct (fa fb : Nat) (a b : Fv) : Nat × Int :=
  match a, b with
  | .nan, _ => (3, 0)
  | _, .nan => (3, 0)
  | .fin _ _ _, .fin _ _ _ => (0, opUnits fa a * opUnits fb b)
  | _, _ => if a.isZero || b.isZero then (3, 0) else if a.neg? != b.neg? then (2, 0) else (1, 0)

/-- The sum of one block of 32 products: SPEC and finite part in quanta (R103, R111). -/
def blockSum (fa fb : Nat) (as bs : List Nat) : Nat × Int :=
  (as.zip bs).foldl (fun x p =>
    let (sp, v) := opProduct fa fb (opElem fa p.1) (opElem fb p.2)
    (specJoin x.1 sp, x.2 + v)) (0, 0)

/-- One block added to an accumulator with the two block scale bytes (R102, R103). -/
def Acc.addDot (a : Acc) (fa fb sa sb : Nat) (as bs : List Nat) : Acc :=
  if sa = 0xFF || sb = 0xFF then { a with spec := 3 }
  else
    let (sp, v) := blockSum fa fb as bs
    let e := (288 + opQuantum fa + opQuantum fb + ((sa : Int) - 127) + ((sb : Int) - 127)).toNat
    let a := a.addBlock 5 (v * ((2 ^ e : Nat) : Int))
    { a with spec := specJoin a.spec sp }

/-! ### Operands -/

/-- `rows` rows of `len` bytes read from scratch by an engine. -/
def State.scratchRows (s : State) (core : Nat) (x : Span) (who : Reader) : List Nat × State :=
  (List.range x.rows).foldl (fun r i =>
    let (v, s) := r.2.scratchRead core (x.base + i * x.stride) x.len who
    (r.1 ++ [v], s)) ([], s)

/-- Elements `32 b` to `32 b + 31` along K of logical row `r` of an operand (R81): stored along K, or across it. -/
def opBlock (fmt : Nat) (across : Bool) (rows : List Nat) (r b : Nat) : List Nat :=
  let w := fmtBits fmt
  (List.range 32).map fun i =>
    if across then bits (rows.getD (32 * b + i) 0) (w * r) w else bits (rows.getD r 0) (w * (32 * b + i)) w

/-- The scale byte of block `b` of logical row `r` (R79, R83): 2^0 unless the mode is BLOCK. -/
def opScale (mode : Nat) (rows : List Nat) (r b : Nat) : Nat := if mode = 2 then bits (rows.getD r 0) (8 * b) 8 else 127

/-- What a descriptor adds to a tile's accumulators (R80, R86, R103). -/
def accumulate (d : Mat) (as bs sas sbs : List Nat) (t : Tab Acc) : Tab Acc :=
  let nt := (shapeDims d.shape).2
  (List.range d.m).foldl (fun t m =>
    (List.range d.n).foldl (fun t n =>
      let i := m * nt + n
      let a := (List.range (d.k / 32)).foldl (fun (a : Acc) b =>
        a.addDot d.fmtA d.fmtB (opScale d.scaleA sas m b) (opScale d.scaleB sbs n b)
          (opBlock d.fmtA d.transA as m b) (opBlock d.fmtB (!d.transB) bs n b)) (tget Acc.reset t i)
      tset Acc.reset t i a) t) t

/-! ### Tiles -/

/-- A tile after an ORTHO or PRECOND pass holds unpredictable contents (R93): a descriptor that adds to them or drains them
finds free values. -/
def Tile.unpredictable (t : Tile) (ctr : Nat) : Tile :=
  let f (i w : Nat) : Nat := Config.freeValue (ctr + i) % 2 ^ w
  { t with
    acc := ((List.range 9216).map fun i => (i, (⟨f (3 * i) 640, f (3 * i + 1) 16, f (3 * i + 2) 2, 0⟩ : Acc))).filter
      fun e => e.2 ≠ Acc.reset
    open_ := false
    pcount := f 27648 33
    texp := sext 9 (f 27649 9)
    fInvalid := (f 27650 1) = 1
    fOver := (f 27651 1) = 1
    fUnder := (f 27652 1) = 1
    fClip := (f 27653 1) = 1
    lastTag := f 27654 16 }

/-- The tile that a CONT = 1 descriptor, a drain or an ACC_READ meets, its contents free where R93 leaves them unpredictable. -/
def State.settleTile (s : State) (core i : Nat) : State :=
  let t := (s.core core).tile i
  if t.open_ then
    ({ s with freeCtr := s.freeCtr + 27655 } : State).onCore core fun c => c.putTile i (t.unpredictable s.freeCtr)
  else s

/-- A FRESH descriptor clears the tile (R86, R109). -/
def Tile.fresh (t : Tile) : Tile :=
  { t with acc := [], open_ := false, pcount := 0, texp := 0, fInvalid := false, fOver := false, fUnder := false,
           fClip := false }

/-! ### Stopping a kernel at an item (R87, R107, R138) -/

/-- The device does not execute an item or any later item of its kernel: those not yet started leave the queues, and the
kernel's entry has a fault-class miss. -/
def State.stopAt (s : State) (core idx : Nat) (k : Kernel) : State :=
  let keep (l : List Item) : List Item := l.filter fun it => it.index < idx || it.startCc.isSome
  let s := s.onCore core fun c => { c with mq := keep c.mq, dq := keep c.dq, vq := keep c.vq }
  s.kernelFault core k

/-! ### MATRIX_DESCRIPTOR -/

/-- A tile is draining, or its drain waits (R89). -/
def Core.draining (c : Core) (tile : Nat) : Bool :=
  (match c.drain with | some d => d.tile = tile | none => false)
    || c.drainq.any fun x => (Mat.ofBuf x.2.body).tile = tile

/-- An earlier started descriptor will still drain the tile. -/
def drainAhead (l : List Item) (tile : Nat) : Bool :=
  l.any fun it => it.startCc.isSome && (Mat.ofBuf it.body).drain && (Mat.ofBuf it.body).tile = tile

/-- The first item of a list that has not started. -/
def nextItem (l : List Item) : Option Item := l.find? fun it => it.startCc.isNone

/-- The item of an index with its start recorded. -/
def markStart (l : List Item) (idx cc : Nat) : List Item :=
  l.map fun it => if it.index = idx then { it with startCc := some cc } else it

/-- The end of the accumulating phase of a started descriptor and the instant its accumulation is complete (R80, R82, R91). -/
def Mat.accEnd (d : Mat) (start : Nat) : Nat := start + d.baseCycles * d.slow

/-- The descriptor takes up its tile (R86, R107, R109). -/
def Tile.takeUp (t : Tile) (d : Mat) (b : Buf) (guest : Bool) : Tile :=
  let t := if d.cont then t else { t.fresh with texp := if d.nanScale then 0 else d.tensorExp }
  let t := { t with pcount := t.pcount + d.k, lastTag := d.tag, desc := b, guestUse := guest }
  if d.nanScale && !(d.cont && d.k = 0) then
    { t with acc := (List.range 9216).map fun i => (i, { tget Acc.reset t.acc i with spec := 3 }) }
  else t

/-- The accumulators that a descriptor uses: those of the first M rows and N columns (R80). -/
def Mat.uses (d : Mat) (i : Nat) : Bool :=
  let nt := (shapeDims d.shape).2
  i / nt < d.m && i % nt < d.n

/-- MATRIX_DESCRIPTOR (R74, R86, R89, R91): the next descriptor of the queue enters the array, once its first block may
(24 CORE cycles after issue, after the accumulation before it, and after a drain of its tile), and its blocks are added. In a
pass slot the update engine holds the die's matrix engines (R93). A continued accumulation reads its entries first (R144, R170). -/
def State.matrixDescriptor (s : State) (core : Nat) : State :=
  let c := s.core core
  match c.kernel, nextItem c.mq with
  | some k, some it =>
    let d := Mat.ofBuf it.body
    let t := c.tile d.tile
    let free := Nat.max (it.issueCc + 24) c.arrayFree
    let start := Nat.max free t.drainedCc
    if s.dieCc (core / 16) < start || (s.die (core / 16)).pass.isSome || c.draining d.tile || drainAhead c.mq d.tile then s
    else
      let s := if d.cont then s.settleTile core d.tile else s
      let c := s.core core
      let t := c.tile d.tile
      let who := Reader.core core k.guest
      if d.cont && 2 ^ 32 < t.pcount + d.k then
        (s.raise Ev.accLimit core [(16, d.tag)] k.step k.guest).stopAt core it.index k
      else if d.cont && d.k ≠ 0 && !d.nanScale && t.texp ≠ d.tensorExp then
        (s.raise Ev.tscaleMismatch core [(16, d.tag)] k.step k.guest).stopAt core it.index k
      else
        let s := if d.cont && d.k ≠ 0 then (s.noteBasin core d.tile d.uses who).renewBasin core d.tile d.uses else s
        let t := (s.core core).tile d.tile
        let blk := d.k / 32
        let (as, s) := s.scratchRows core
          (if d.transA then ⟨d.aAddr, 64 * d.aLd, d.k, packedBytes d.fmtA d.m⟩
           else ⟨d.aAddr, 64 * d.aLd, d.m, packedBytes d.fmtA d.k⟩) who
        let (bs, s) := s.scratchRows core
          (if d.transB then ⟨d.bAddr, 64 * d.bLd, d.n, packedBytes d.fmtB d.k⟩
           else ⟨d.bAddr, 64 * d.bLd, d.k, packedBytes d.fmtB d.n⟩) who
        let (sas, s) := if d.scaleA = 2 then s.scratchRows core ⟨d.aScale, 64 * d.aSld, d.m, blk⟩ who else ([], s)
        let (sbs, s) := if d.scaleB = 2 then s.scratchRows core ⟨d.bScale, 64 * d.bSld, d.n, blk⟩ who else ([], s)
        let t := t.takeUp d it.body k.guest
        let t := { t with acc := accumulate d as bs sas sbs t.acc }
        s.onCore core fun c =>
          if c.kernel.isNone then c else
          { c.putTile d.tile t with
            mq := markStart c.mq it.index start
            arrayFree := if d.k = 0 then c.arrayFree else d.accEnd start
            busy := satAdd 64 c.busy d.baseCycles
            fetchSlow := satAdd 32 c.fetchSlow (d.baseCycles * (d.slow - 1))
            interlock := satAdd 32 c.interlock (start - free) }
  | _, _ => s

@[inherit_doc State.matrixDescriptor]
def execMatrixDescriptor (at_ : Nat) (row : CoreRow) (s : State) : Res :=
  .next (((s.tick at_).strike row.strikes).matrixDescriptor row.core)

/-! ### ACCUMULATION_COMPLETE -/

/-- A signal of a kernel (R75): it carries the kernel's step and no skip mark. -/
def State.kernelSignal (s : State) (k : Kernel) (en : Bool) (so : Nat) : State := if en then s.signal so k.step else s

/-- ACCUMULATION_COMPLETE (R89, R91): 16 CORE cycles after the last block the descriptor leaves the queue; it goes to its
drain, or, without DRAIN, finishes and signals. -/
def State.accumulationComplete (s : State) (core tile : Nat) : State :=
  let c := s.core core
  match c.kernel, c.mq with
  | some k, it :: rest =>
    let d := Mat.ofBuf it.body
    match it.startCc with
    | none => s
    | some start =>
      let done := d.accEnd start + 16
      if d.tile ≠ tile || s.dieCc (core / 16) < done then s
      else if d.drain then s.putCore core { c with mq := rest, drainq := c.drainq ++ [(done, it)] }
      else
        let s := s.putCore core { c with mq := rest, kernel := some { k with lastDone := Nat.max k.lastDone done } }
        s.kernelSignal k d.sigEn d.sigSo
  | _, _ => s

@[inherit_doc State.accumulationComplete]
def execAccumulationComplete (at_ core tile : Nat) (s : State) : Res := .next ((s.tick at_).accumulationComplete core tile)

/-! ### DRAIN_START -/

/-- One written row: its packed codes, the flags and the zeros written with underflow. -/
structure RowOut where
  codes  : Nat
  scales : Nat
  flags  : NumFlags
  zeros  : Nat
  deriving DecidableEq, Repr

/-- A row with nothing in it yet. -/
def RowOut.none_ : RowOut := ⟨0, 0, NumFlags.none_, 0⟩

/-- The canonical NaN of a destination that is not an MX format (R111). -/
def nanOut (fmt : Nat) : Nat := if fmtIsInt fmt then 0 else (fmtOf fmt).nanCode.getD 0

/-- A row of a destination that is not an MX format (R90, R114, R118, R120). An entry without a value was bad in Basin; it is
written as the canonical NaN, and sets no flag of R112, which R170 does not name (DEDUCED, log entry 136). -/
def rowPlain (p : Profile) (d : Mat) (texp : Int) (vals : List (Option Fv × Fv × Fv)) : RowOut :=
  let w := fmtBits d.fmtD
  (vals.foldl (fun (x : Nat × RowOut) v =>
    let (c, f, z) : Nat × NumFlags × Bool := match v.1 with
      | none => (nanOut d.fmtD, NumFlags.none_, false)
      | some y =>
        if fmtIsInt d.fmtD && p.direct then stageDirect p d.fmtD d.intsat y texp
        else match y with
          | .nan => (nanOut d.fmtD, { invalid := true }, false)
          | _ => stageBack p d.fmtD d.intsat (stageFront p y texp v.2.1 v.2.2)
    (x.1 + 1, ⟨x.2.codes + c <<< (w * x.1), 0, x.2.flags.or f, x.2.zeros + b2n z⟩)) (0, RowOut.none_)).2

/-- One 32-element block of an MX row (R119). Where one element makes the whole block NaN, every other element keeps the flags
that its own conversion sets: the spec does not say (DESIGN CHOICE, log entry 135). -/
def rowBlock (p : Profile) (d : Mat) (texp : Int) (vals : List (Option Fv × Fv × Fv)) : Nat × RowOut :=
  let w := fmtBits d.fmtD
  let fronts := vals.map fun v => match v.1 with
    | none => (0x7FC00000, NumFlags.none_)
    | some y => stageFront p y texp v.2.1 v.2.2
  let (scale, els) := mxBlock d.fmtD p.rtz p.ovfInf (fronts.map (·.1))
  let codes := els.foldr (fun e a => e.1 + a <<< w) 0
  -- an element that ends as NaN through a row that names invalid sets no other flag (R112)
  let flags := NumFlags.orAll ((fronts.zip els).map fun x => if x.1.2.invalid then { invalid := true } else x.1.2.or x.2.2.1)
  let zeros := if scale = 0xFF then 0
    else ((fronts.zip els).filter fun x => (x.1.2.or x.2.2.1).unf && codeIsZero d.fmtD x.2.1).length
  (scale, ⟨codes, 0, flags, zeros⟩)

/-- A row of an MX destination. -/
def rowMx (p : Profile) (d : Mat) (texp : Int) (vals : List (Option Fv × Fv × Fv)) : RowOut :=
  (List.range (d.n / 32)).foldl (fun x b =>
    let (scale, o) := rowBlock p d texp ((vals.drop (32 * b)).take 32)
    ⟨x.codes + o.codes <<< (32 * fmtBits d.fmtD * b), x.scales + scale <<< (8 * b), x.flags.or o.flags, x.zeros + o.zeros⟩)
    RowOut.none_

/-- Scale and bias of column `n` (R113). -/
def colScale (p : Profile) (sArr : Nat) (n : Nat) : Fv := dec32 (if p.sMode = 1 then bits sArr (32 * n) 32 else p.sValue)
@[inherit_doc colScale]
def colBias (p : Profile) (bArr : Nat) (n : Nat) : Fv :=
  if p.bMode = 1 then fBF16.decode (bits bArr (16 * n) 16) else if p.bMode = 2 then dec32 (bits bArr (32 * n) 32) else Fv.zero

/-- What a drain writes, and the flags it sets (R90, R112, R114). -/
def drainOut (p : Profile) (d : Mat) (t : Tile) (sArr bArr : Nat) (it : Item) (doneCc : Nat) : Drain :=
  let nt := (shapeDims d.shape).2
  let rows := (List.range d.m).map fun m =>
    let vals := (List.range d.n).map fun n =>
      ((tget Acc.reset t.acc (m * nt + n)).read, colScale p sArr n, colBias p bArr n)
    (m, if fmtIsMx d.fmtD then rowMx p d t.texp vals else rowPlain p d t.texp vals)
  let f := NumFlags.orAll (rows.map fun r => r.2.flags)
  let elems := rows.map fun r => (d.dAddr + 64 * d.dLd * r.1, r.2.codes, d.n * fmtBits d.fmtD)
  let scales := if fmtIsMx d.fmtD then rows.map fun r => (d.dScale + 64 * d.dSld * r.1, r.2.scales, 8 * (d.n / 32)) else []
  { tile := d.tile, item := it, writes := elems ++ scales, fInvalid := f.invalid, fOver := f.ovf, fUnder := f.unf,
    fClip := f.clip, underflows := rows.foldl (fun a r => a + r.2.zeros) 0, doneCc := doneCc }

/-- DRAIN_START (R89, R90, R91): the output stage takes up the tile whose accumulation completed first. -/
def State.drainStart (s : State) (core tile : Nat) : State :=
  let c := s.core core
  match c.kernel, c.drain, c.drainq with
  | some k, none, (due, it) :: rest =>
    let d := Mat.ofBuf it.body
    let start := Nat.max due (Nat.max c.tile0.drainedCc c.tile1.drainedCc)
    if d.tile ≠ tile || s.dieCc (core / 16) < start then s
    else
      let s := s.settleTile core d.tile
      let s := s.noteBasin core d.tile d.uses (Reader.core core k.guest)
      let p := s.profile core k d.profile
      let who := Reader.core core k.guest
      let (sArr, s) := if p.sMode = 1 && !(fmtIsInt d.fmtD && p.direct) then s.scratchRead core p.sAddr (4 * d.n) who else (0, s)
      let (bArr, s) :=
        if fmtIsInt d.fmtD && p.direct then (0, s)
        else if p.bMode = 1 then s.scratchRead core p.bAddr (2 * d.n) who
        else if p.bMode = 2 then s.scratchRead core p.bAddr (4 * d.n) who
        else (0, s)
      s.onCore core fun c =>
        if c.kernel.isNone then c else
        { c with drainq := rest, drain := some (drainOut p d (c.tile d.tile) sArr bArr it (start + 144)),
                 interlock := satAdd 32 c.interlock (start - due) }
  | _, _, _ => s

@[inherit_doc State.drainStart]
def execDrainStart (at_ : Nat) (row : CoreRow) (tile : Nat) (s : State) : Res :=
  .next (((s.tick at_).strike row.strikes).drainStart row.core tile)

/-! ### DRAIN_COMPLETE -/

/-- Bits written to scratch; the rest of a last byte covered in part keeps its value. -/
def State.writeBits (s : State) (core a v n : Nat) : State :=
  if n % 8 = 0 then s.scratchWrite core a (n / 8) v
  else
    let last := s.scratch.val (scratchKey core (a + n / 8)) 1
    s.scratchWrite core a (n / 8 + 1) (v + ((last >>> (n % 8)) <<< n))

/-- Numeric flags of the core's running kernel: into the step flag record, where an invalid flag is a cause of the verdict,
or into the guest flag record (R88, R124, R234, R235, R374). -/
def State.kernelFlags (s : State) (core : Nat) (k : Kernel) (f : NumFlags) : State :=
  if k.guest then s.onCore core fun c => { c with gflags := c.gflags.raise f }
  else
    let s := s.onCore core fun c => { c with flags := c.flags.raise f }
    if f.invalid then s.cause 2 else s

/-- The seed and job number of a kernel's draws (R140). -/
def State.drawSeed (s : State) (guest : Bool) : Nat :=
  if guest then (match s.guest with | some g => g.seed | none => 0) else (match s.job with | some j => j.seed | none => 0)

/-- The key of a lane of a core (R140). -/
def State.coreLaneKey (s : State) (core lane : Nat) (guest : Bool) : Nat × Nat :=
  let cw := match s.job with | some j => imgCw j.image | none => 0
  laneKey (s.drawSeed guest) lane core (b2n guest) cw

/-- Sampling of a drained descriptor of a watched TAG (R254). -/
def State.sampleTile (s : State) (core : Nat) (k : Kernel) (tag idx : Nat) : State :=
  match s.job with
  | none => s
  | some j =>
    if k.guest || (slotOfTag j.image tag).isNone then s
    else
      let c := coreCycle k.plannedJt + idx
      let (w0, _, _, _) := drawAt (s.coreLaneKey core 0 false) c 1 tag
      if 2 ^ (32 - (imgCommit j.image).fld 216 8) ≤ w0 then s
      else if (s.core core).samples.length < 16 then s.onCore core fun c => { c with samples := c.samples ++ [tag] }
      else s.onCom fun c => { c with cListFull := satAdd 32 c.cListFull 1 }

/-- Elements written as zero counted for the slot of a TAG (R256). -/
def State.countUnderflow (s : State) (k : Kernel) (tag n : Nat) : State :=
  match s.job with
  | none => s
  | some j =>
    if k.guest then s
    else
      match slotOfTag j.image tag with
      | none => s
      | some i => s.onCom fun c => { c with ufCount := tset 0 c.ufCount i (satAdd 32 (tget 0 c.ufCount i) n) }

/-- DRAIN_COMPLETE (R75, R88, R90, R91, R112): the last element is written, the tile's flags are ORed into the step flag
record, and the descriptor finishes and signals. -/
def State.drainComplete (s : State) (core : Nat) : State :=
  let c := s.core core
  match c.kernel, c.drain with
  | some k, some dr =>
    if s.dieCc (core / 16) < dr.doneCc then s
    else
      let d := Mat.ofBuf dr.item.body
      let s := dr.writes.foldl (fun s w => s.writeBits core w.1 w.2.1 w.2.2) s
      let t := (s.core core).tile dr.tile
      let t := { t with fInvalid := t.fInvalid || dr.fInvalid, fOver := t.fOver || dr.fOver,
                        fUnder := t.fUnder || dr.fUnder, fClip := t.fClip || dr.fClip, drainedCc := dr.doneCc }
      let s := s.onCore core fun c =>
        { c.putTile dr.tile t with drain := none, kernel := some { k with lastDone := Nat.max k.lastDone dr.doneCc } }
      let s := s.kernelFlags core k ⟨t.fInvalid, t.fOver, t.fUnder, t.fClip⟩
      let s := s.sampleTile core k d.tag dr.item.index
      let s := s.countUnderflow k d.tag dr.underflows
      s.kernelSignal k d.sigEn d.sigSo
  | _, _ => s

@[inherit_doc State.drainComplete]
def execDrainComplete (at_ core : Nat) (s : State) : Res := .next ((s.tick at_).drainComplete core)

/-! ### Core DMA (R94, R95) -/

/-- Bytes read by a core DMA item: their value, and the parts of them that were bad (R168). A gradient buffer that a conversion has
shut is not read (R188): the value is free. -/
def State.dmaRead (s : State) (core space peer a n : Nat) (who : Reader) : (Nat × List (Nat × Nat)) × State :=
  if space = 1 then
    let at_ (k : Nat) : (Nat × List (Nat × Nat)) × State :=
      let r := s.oasis.readAt k n
      ((r.val, r.badParts k n), s.noteOasis r who)
    match s.gradPlace core (core / 16 * oasisSize + a) false with
    | .there => at_ (core / 16 * oasisSize + a)
    | .carry k => at_ k
    | .away => (((s.free (8 * n)).1, []), (s.free (8 * n)).2)
  else
    let k := if space = 2 then core / 16 * 16 + peer else core
    let r := s.scratch.readAt (scratchKey k a) n
    ((r.val, r.badParts (scratchKey k a) n), s.noteScratch k r who)

/-- Bytes written by a core DMA item, and the words of bad ones stored poisoned (R168); another core's scratch takes them as an
outside write (R95). An item that names its own core as the peer writes its own scratch by the same path: R71 lists no range for
space 2, and the spec says no more (DESIGN CHOICE, log entry 138). -/
def State.dmaWrite (s : State) (core space peer a n v : Nat) (bad : List (Nat × Nat)) : State :=
  if space = 1 then
    let at_ (k : Nat) : State :=
      let s := s.oasisWrite k n v
      if bad = [] then s else { s with oasis := bad.foldl (fun r p => r.spoil (k + p.1) p.2) s.oasis }
    match s.gradPlace core (core / 16 * oasisSize + a) true with
    | .there => at_ (core / 16 * oasisSize + a)
    | .carry k => at_ k
    | .away => s
  else
    let k := if space = 2 then core / 16 * 16 + peer else core
    let s := if space = 2 then s.outsideWrite k a n v else s.scratchWrite core a n v
    if bad = [] then s
    else { s with scratch := bad.foldl (fun r p => r.spoil (scratchKey k a + p.1) p.2) s.scratch }

/-- Whether a part of the bytes from `o` on, `n` of them, is bad. -/
def badIn (bad : List (Nat × Nat)) (o n : Nat) : Bool := bad.any fun p => p.1 < o + n && o < p.1 + p.2

/-- A row written without transposing: one of 256 FP32 elements to a block of a direct-reduce region is a contribution (R200). -/
def State.dmaRow (s : State) (core : Nat) (d : CoreDma) (a v : Nat) (bad : List (Nat × Nat)) : State :=
  match if d.dstSpace = 1 && d.elem = 2 && d.cols = 256 then s.job else none with
  | none => s.dmaWrite core d.dstSpace d.peerDst a (d.cols * d.bytes) v bad
  | some j =>
    match directPlace j.image (core / 16 * oasisSize + a) with
    | some p => s.directAdd j core p v (bad ≠ [])
    | none => s.dmaWrite core d.dstSpace d.peerDst a (d.cols * d.bytes) v bad

/-- The rows of an item moved, element by element where it transposes (R94). Each row is read and written before the next: where
source and destination overlap, the spec gives no order (DESIGN CHOICE, log entry 138). -/
def State.dmaMove (s : State) (core : Nat) (d : CoreDma) (who : Reader) : State :=
  let w := d.bytes
  (List.range d.rows).foldl (fun s r =>
    let ((v, bad), s) := s.dmaRead core d.srcSpace d.peerSrc (d.src + r * d.srcStride) (d.cols * w) who
    if d.transpose then
      (List.range d.cols).foldl (fun s c =>
        s.dmaWrite core d.dstSpace d.peerDst (d.dst + c * d.dstStride + r * w) w (bits v (8 * w * c) (8 * w))
          (if badIn bad (w * c) w then [(0, w)] else [])) s
    else s.dmaRow core d (d.dst + r * d.dstStride) v bad) s

/-- CORE_DMA_DESCRIPTOR (R94, R95): an item starts in the CORE cycle of its issue and moves its data. -/
def State.coreDma (s : State) (core : Nat) : State :=
  let c := s.core core
  match c.kernel, nextItem c.dq with
  | some k, some it =>
    let s := s.putCore core { c with dq := markStart c.dq it.index it.issueCc }
    s.dmaMove core (CoreDma.ofBuf it.body) (Reader.core core k.guest)
  | _, _ => s

@[inherit_doc State.coreDma]
def execCoreDmaDescriptor (at_ : Nat) (row : CoreRow) (s : State) : Res :=
  .next (((s.tick at_).strike row.strikes).coreDma row.core)

/-- CORE cycles from the issue of an item to its finish (R95). -/
def CoreDma.cycles (d : CoreDma) : Nat :=
  let n := d.rows * d.cols * d.bytes
  let oasis := d.srcSpace = 1 || d.dstSpace = 1
  (if oasis then ceilDiv n 200 else ceilDiv n 128) + (if d.srcSpace = 1 then 96 else 0) + (if d.dstSpace = 1 then 96 else 0)

/-- CORE_DMA_FINISH (R75, R95): the last byte of an item is written; it leaves the queue and signals. -/
def State.coreDmaFinish (s : State) (core : Nat) : State :=
  let c := s.core core
  let done (it : Item) : Nat := it.issueCc + (CoreDma.ofBuf it.body).cycles
  match c.kernel, c.dq.find? fun it => it.startCc.isSome && done it ≤ s.dieCc (core / 16) with
  | some k, some it =>
    let d := CoreDma.ofBuf it.body
    let k := { k with lastDone := Nat.max k.lastDone (done it) }
    let s := s.putCore core { c with dq := c.dq.filter fun x => x.index ≠ it.index, kernel := some k }
    s.kernelSignal k d.sigEn d.sigSo
  | _, _ => s

@[inherit_doc State.coreDmaFinish]
def execCoreDmaFinish (at_ core : Nat) (s : State) : Res := .next ((s.tick at_).coreDmaFinish core)

end Sys2Proof.Machine
end

