-- ==== Sys2Proof/Machine/Vector.lean ====
section
/-! DEFINITION. The vector engine and the reduction channels (R122 to R142): one meaning for each instruction, over the
block that runs in the engine. -/

namespace Sys2Proof.Machine

/-! ### Registers -/

/-- Lane `l` of register `r` (R122). -/
def VState.lane (v : VState) (r l : Nat) : Lane := tget 0 v.regs (64 * r + l)

/-- The same written. -/
def VState.setLane (v : VState) (r l : Nat) (x : Lane) : VState := { v with regs := tset 0 v.regs (64 * r + l) x }

/-- A mask register; MK0 reads as all ones (R122). -/
def VState.mask (v : VState) (k : Nat) : BitVec 64 := if k = 0 then BitVec.allOnes 64 else tget 0 v.masks k

/-- A mask register written; writes to MK0 are ignored (R122). -/
def VState.setMask (v : VState) (k : Nat) (x : BitVec 64) : VState :=
  if k = 0 then v else { v with masks := tset 0 v.masks k x }

/-- A lane is enabled under mask `k` (R125). -/
def VState.enabled (v : VState) (k l : Nat) : Bool := (v.mask k).getLsbD l

/-- A reduction channel. -/
def VState.chan (v : VState) (k : Nat) : Channel := tget Channel.reset v.chans k

/-- The same written. -/
def VState.setChan (v : VState) (k : Nat) (x : Channel) : VState := { v with chans := tset Channel.reset v.chans k x }

/-- VFLAGS with more flags (R124). -/
def VState.flag (v : VState) (f : NumFlags) : VState :=
  { v with fInvalid := v.fInvalid || f.invalid, fOver := v.fOver || f.ovf, fUnder := v.fUnder || f.unf,
           fClip := v.fClip || f.clip }

/-- VFLAGS. -/
def VState.flags (v : VState) : NumFlags := ⟨v.fInvalid, v.fOver, v.fUnder, v.fClip⟩

/-! ### Elements of a lane (R123) -/

/-- Two elements of 16 bits in a lane. -/
def packed (ty : Nat) : Bool := ty = 1 || ty = 2 || ty = 4

/-- The elements of a lane, low half first. -/
def elems (ty : Nat) (x : Lane) : List Nat := if packed ty then [bits x.toNat 0 16, bits x.toNat 16 16] else [x.toNat]

/-- A lane from its elements. -/
def ofElems (ty : Nat) (l : List Nat) : Lane :=
  BitVec.ofNat 32 (if packed ty then l.getD 0 0 % 2 ^ 16 + (l.getD 1 0 % 2 ^ 16) <<< 16 else l.getD 0 0)

/-- The value of an element of a floating-point type; FP32 subnormals are flushed (R100, R124). -/
def decTy (ty c : Nat) : Fv := if ty = 0 then dec32 c else if ty = 1 then fBF16.decode c else fFP16.decode c

/-- The format of a floating-point type. -/
def fmtTy (ty : Nat) : Fmt := if ty = 1 then fBF16 else fFP16

/-- One rounding into a floating-point type, overflow to infinity (R124). -/
def encTy (ty : Nat) (v : Fv) : Nat × NumFlags :=
  match v with
  | .inf neg =>
    if ty = 0 then (fFP32.signBit neg + 0x7F800000, NumFlags.none_) else ((fmtTy ty).ovfCode neg true, NumFlags.none_)
  | _ => if ty = 0 then rn32 v true else (fmtTy ty).encode v false true

/-- Width of an integer element. -/
def intWidth (ty : Nat) : Nat := if ty = 3 then 32 else 16

/-! ### Lanewise forms -/

/-- A lanewise operation: each enabled lane of VD takes the elementwise result of VA, VB and VD (R124, R125). -/
def VState.lanewise (v : VState) (f : VFields) (op : Nat → Nat → Nat → Nat × NumFlags) : VState :=
  (List.range 64).foldl (fun w l =>
    if !v.enabled f.msk l then w
    else
      let a := elems f.ty (v.lane f.va l)
      let b := elems f.ty (v.lane f.vb l)
      let c := elems f.ty (v.lane f.vd l)
      let rs := (List.range a.length).map fun i => op (a.getD i 0) (b.getD i 0) (c.getD i 0)
      (w.setLane f.vd l (ofElems f.ty (rs.map (·.1)))).flag (NumFlags.orAll (rs.map (·.2)))) v

/-- A lanewise floating-point operation on values (R124). -/
def VState.fpOp (v : VState) (f : VFields) (op : Fv → Fv → Fv → Fv × Bool) : VState :=
  v.lanewise f fun a b c =>
    let (r, bad) := op (decTy f.ty a) (decTy f.ty b) (decTy f.ty c)
    let (x, fl) := encTy f.ty r
    (x, { fl with invalid := bad })

/-- A lanewise integer operation that wraps (R124). -/
def VState.intOp (v : VState) (f : VFields) (op : Int → Int → Int) : VState :=
  v.lanewise f fun a b _ =>
    let w := intWidth f.ty
    (wrap w (op (sext w a) (sext w b)), NumFlags.none_)

/-- A lanewise operation on the bits of each element. -/
def VState.bitOp (v : VState) (f : VFields) (op : Nat → Nat → Nat) : VState :=
  v.lanewise f fun a b _ => (op a b % 2 ^ (if packed f.ty then 16 else 32), NumFlags.none_)

/-- VMAX and VMIN (R124): floating-point or integer by type. -/
def VState.pick (v : VState) (f : VFields) (max : Bool) : VState :=
  if f.ty = 3 || f.ty = 4 then
    v.intOp f fun a b => if a < b then (if max then b else a) else (if max then a else b)
  else v.fpOp f fun a b _ => (fvPick max a b, false)

/-- A compare into a mask register (R125, R128): enabled lanes take the result, the others keep their bit. -/
def VState.compare (v : VState) (f : VFields) (fp : Fv → Fv → Bool) (int : Int → Int → Bool) : VState :=
  let k := f.vd % 8
  let x := (List.range 64).foldl (fun (m : BitVec 64) l =>
    if !v.enabled f.msk l then m
    else
      let a := (v.lane f.va l).toNat
      let b := (v.lane f.vb l).toNat
      let r := if f.ty = 3 then int (sext 32 a) (sext 32 b) else fp (dec32 a) (dec32 b)
      let one : BitVec 64 := (1 : BitVec 64) <<< l
      if r then m ||| one else m &&& ~~~one) (v.mask k)
  v.setMask k x

/-- A table function (R131, R132): the packed types go through FP32. -/
def VState.tableOp (v : VState) (f : VFields) (fn : Nat → Nat × NumFlags) : VState :=
  v.lanewise f fun a _ _ =>
    if f.ty = 0 then fn a
    else
      let (x, fl) := fn (rnf (decTy f.ty a))
      let (y, g) := encTy f.ty (dec32 x)
      (y, fl.or g)

/-- Lanes of VD from lanes of VA by an index (R128). -/
def VState.shuffle (v : VState) (f : VFields) (idx : Nat → Nat) : VState :=
  (List.range 64).foldl (fun w l => if v.enabled f.msk l then w.setLane f.vd l (v.lane f.va (idx l % 64)) else w) v

/-! ### Conversions (R130) -/

/-- One element converted between types. -/
def convert (src dst : Nat) (rtz : Bool) (c : Nat) : Nat × NumFlags :=
  let intOut (v : Fv) : Nat × NumFlags :=
    match v with
    | .nan => (0, { invalid := true })
    | _ => toInt (intWidth dst) rtz false v
  let v : Fv := if src = 3 || src = 4 then Fv.ofInt (sext (intWidth src) c) 0 else decTy src c
  if dst = 3 || dst = 4 then intOut v
  else if dst = 0 then
    match v with
    | .fin n m e =>
      let (k, q) := roundMag 24 (-100000) rtz m e
      rn32 (.fin n k q) true
    | _ => rn32 v true
  else
    match v with
    | .inf neg => ((fmtTy dst).ovfCode neg true, NumFlags.none_)
    | _ => (fmtTy dst).encode v rtz true

/-- VCVT (R130). From INT32 to a packed type the high half comes from VB, as R130 says for FP32; R128 lists VB as used for that
source type alone and VB is 0 otherwise, so it is V0's lane (DESIGN CHOICE, log entry 139). -/
def VState.vcvt (v : VState) (f : VFields) : VState :=
  let dst := bits f.imm 0 3
  let rtz := f.imm.testBit 3
  let hi := f.imm.testBit 4
  (List.range 64).foldl (fun w l =>
    if !v.enabled f.msk l then w
    else
      let a := elems f.ty (v.lane f.va l)
      let src := if packed dst && !packed f.ty then [a.getD 0 0, (v.lane f.vb l).toNat]
        else if !packed dst && packed f.ty then [a.getD (b2n hi) 0] else a
      let rs := src.map (convert f.ty dst rtz)
      (w.setLane f.vd l (ofElems dst (rs.map (·.1)))).flag (NumFlags.orAll (rs.map (·.2)))) v

/-- VQMX (R130): two MX blocks; elements from lane 0 up, the scale bytes in lane 16, every other bit 0. -/
def VState.vqmx (v : VState) (f : VFields) : VState :=
  let fmt := bits f.imm 0 4
  let rtz := f.imm.testBit 4
  let w := fmtBits fmt
  let block (b : Nat) := mxBlock fmt rtz false ((List.range 32).map fun i => (v.lane f.va (32 * b + i)).toNat)
  let b0 := block 0
  let b1 := block 1
  let codes := (b0.2 ++ b1.2).foldr (fun e a => e.1 + a <<< w) 0
  let img := if 64 * w ≤ 512 then codes + (b0.1 + 256 * b1.1) <<< 512 else 0
  let flags := NumFlags.orAll ((b0.2 ++ b1.2).map fun e => e.2.1)
  ((List.range 64).foldl (fun u l =>
    if v.enabled f.msk l then u.setLane f.vd l (BitVec.ofNat 32 (img >>> (32 * l))) else u) v).flag flags

/-! ### Channels (R135 to R138) -/

/-- An element added to a channel exactly (R135). -/
def Channel.add (c : Channel) (v : Fv) : Channel :=
  match v with
  | .nan => { c with spec := 3, count := c.count + 1 }
  | .inf neg => { c with spec := specJoin c.spec (if neg then 2 else 1), count := c.count + 1 }
  | .fin _ _ _ =>
    let x : Int := if v.isZero then 0 else v.num * 2 ^ (v.pow + 149).toNat
    { c with q := sext 320 (wrap 320 (c.q + x)), count := c.count + 1 }

/-- The elements that RADD and RSQ add: those of the enabled lanes (R125, R135). -/
def VState.sumElems (v : VState) (f : VFields) (square : Bool) : List Fv :=
  ((List.range 64).filter fun l => v.enabled f.msk l).flatMap fun l =>
    (elems f.ty (v.lane f.va l)).map fun c =>
      let x := decTy f.ty c
      if square then dec32 (rn32 (fvMul x x).1 true).1 else x

/-- RGET's result (R136). -/
def Channel.round (c : Channel) : Nat × NumFlags :=
  match c.spec with
  | 0 => if c.q = 0 then (0, NumFlags.none_) else rn32 (Fv.ofInt c.q (-149)) true
  | 1 => (0x7F800000, NumFlags.none_)
  | 2 => (0xFF800000, NumFlags.none_)
  | _ => (0x7FC00000, { invalid := true })

/-- The 48-byte record of a channel (R137). -/
def Channel.record (c : Channel) : Nat := packBits [sf 320 c.q, (2, c.spec), (2, 0), (41, c.count), (19, 0)]

/-- A record read back (R137). -/
def Channel.ofRecord (x : Nat) : Channel := ⟨sext 320 x, bits x 320 2, bits x 324 41⟩

/-- A record added into a channel exactly (R137). -/
def Channel.join (c d : Channel) : Channel :=
  ⟨sext 320 (wrap 320 (c.q + d.q)), specJoin c.spec d.spec, c.count + d.count⟩

/-- The largest count of a channel (R138). -/
def redMax : Nat := 2 ^ 40

/-! ### The block in the engine -/

/-- VECTOR_BLOCK (R126, R133): the engine takes up the next block of its queue. -/
def State.vectorBlock (s : State) (core : Nat) : State :=
  let c := s.core core
  match c.kernel, c.vact, c.vq with
  | some k, none, it :: rest =>
    let it := { it with startCc := some (s.dieCc (core / 16)) }
    s.putCore core { c with vq := rest, vact := some (it, ⟨k.base + it.off, 0, 0⟩) }
  | _, _, _ => s

@[inherit_doc State.vectorBlock]
def execVectorBlock (at_ core : Nat) (s : State) : Res := .next ((s.tick at_).vectorBlock core)

/-- Instructions a block executes over all its repetitions (R126). -/
def vbTotal (b : Buf) : Nat := vbIcount b * (vbRepeat b + 1)

/-- The instruction that the block executes next, where the block has one left. -/
def vbNext (b : Buf) (v : VBlock) : Option Nat :=
  if vbTotal b ≤ v.done then none else some (vbWord b (v.done % vbIcount b))

/-- The factor in cycles of a transposed move: 4, or 4 ceil(16 g / 48) (R129). -/
def transCycles (ts : Nat) : Nat :=
  let g := Nat.gcd ts 48
  if g = 1 then 4 else 4 * ceilDiv (16 * g) 48

/-- Issue cycles of an instruction (R133). -/
def vecCycles (b : Buf) (op : Nat) : Nat := if op = 0x42 || op = 0x43 then transCycles (vbTs b) else 1

/-- What an instruction sees: the core, its kernel, the block and its item. -/
structure VCtx where
  core : Nat
  k    : Kernel
  it   : Item
  blk  : VBlock
  f    : VFields
  deriving DecidableEq, Repr

/-- Address of a memory instruction in the running repetition: AINC adds r × ADV × 64 (R127). -/
def VCtx.addr (x : VCtx) : Nat :=
  let r := x.blk.done / vbIcount x.it.body
  x.f.imm + (if x.f.va % 2 = 1 then r * vbAdv x.it.body * 64 else 0)

/-- One instruction of the block in the engine: it must be the block's next, and `act` is its effect on the state; `none`
leaves it waiting or stops the kernel without it (R127, R128, R133). The added cycles of R129 count in FETCH_SLOW. -/
def State.vecStep (s : State) (core op : Nat) (f : VFields) (act : State → VCtx → State × Bool) : State :=
  let c := s.core core
  match c.kernel, c.vact with
  | some k, some (it, b) =>
    if vbNext it.body b ≠ some (vecWord op f) then s
    else
      let (s, ran) := act s ⟨core, k, it, b, f⟩
      if !ran then s
      else
        let n := vecCycles it.body op
        s.onCore core fun c =>
          match c.kernel, c.vact with
          | some k, some (it, b) =>
            { c with
              kernel := some { k with qCount := k.qCount + n }
              bubbleQ := if k.guest then c.bubbleQ + n else c.bubbleQ
              vact := some (it, { b with done := b.done + 1, issued := b.issued + n })
              fetchSlow := satAdd 32 c.fetchSlow (n - (if op = 0x42 || op = 0x43 then 4 else 1)) }
          | _, _ => c
  | _, _ => s

/-- An instruction that changes only the vector state. -/
def State.vecPure (s : State) (core op : Nat) (f : VFields) (g : VState → VState) : State :=
  s.vecStep core op f fun s x => (s.onCore x.core fun c => { c with v := g c.v }, true)

/-! ### Arithmetic -/

/-- VADD (R128): VD := VA + VB. -/
def execVadd (at_ core : Nat) (f : VFields) (s : State) : Res :=
  .next ((s.tick at_).vecPure core 0x01 f fun v => v.fpOp f fun a b _ => fvAdd a b)

/-- VSUB (R128): VD := VA - VB. -/
def execVsub (at_ core : Nat) (f : VFields) (s : State) : Res :=
  .next ((s.tick at_).vecPure core 0x02 f fun v => v.fpOp f fun a b _ => fvAdd a b.negate)

/-- VMUL (R128): VD := VA × VB. -/
def execVmul (at_ core : Nat) (f : VFields) (s : State) : Res :=
  .next ((s.tick at_).vecPure core 0x03 f fun v => v.fpOp f fun a b _ => fvMul a b)

/-- VFMA (R124, R128): VD := VA × VB + VD, one rounding. -/
def execVfma (at_ core : Nat) (f : VFields) (s : State) : Res :=
  .next ((s.tick at_).vecPure core 0x04 f fun v => v.fpOp f fvFma)

/-- VMAX (R124, R128). -/
def execVmax (at_ core : Nat) (f : VFields) (s : State) : Res :=
  .next ((s.tick at_).vecPure core 0x05 f fun v => v.pick f true)

/-- VMIN (R124, R128). -/
def execVmin (at_ core : Nat) (f : VFields) (s : State) : Res :=
  .next ((s.tick at_).vecPure core 0x06 f fun v => v.pick f false)

/-- VABS (R128): exact. -/
def execVabs (at_ core : Nat) (f : VFields) (s : State) : Res :=
  .next ((s.tick at_).vecPure core 0x07 f fun v => v.fpOp f fun a _ _ => (a.abs, false))

/-- VNEG (R128): exact. -/
def execVneg (at_ core : Nat) (f : VFields) (s : State) : Res :=
  .next ((s.tick at_).vecPure core 0x08 f fun v => v.fpOp f fun a _ _ => (a.negate, false))

/-- VCMPLT (R128). -/
def execVcmplt (at_ core : Nat) (f : VFields) (s : State) : Res :=
  .next ((s.tick at_).vecPure core 0x09 f fun v => v.compare f Fv.lt fun a b => a < b)

/-- VCMPLE (R128). -/
def execVcmple (at_ core : Nat) (f : VFields) (s : State) : Res :=
  .next ((s.tick at_).vecPure core 0x0A f fun v => v.compare f (fun a b => a.lt b || a.eqv b) fun a b => a ≤ b)

/-- VCMPEQ (R128). -/
def execVcmpeq (at_ core : Nat) (f : VFields) (s : State) : Res :=
  .next ((s.tick at_).vecPure core 0x0B f fun v => v.compare f Fv.eqv fun a b => a = b)

/-- VSEL (R125, R128): VA where the mask is set, VB elsewhere. -/
def execVsel (at_ core : Nat) (f : VFields) (s : State) : Res :=
  .next ((s.tick at_).vecPure core 0x0C f fun v =>
    (List.range 64).foldl (fun w l =>
      w.setLane f.vd l (if v.enabled f.msk l then v.lane f.va l else v.lane f.vb l)) v)

/-- VRCP (R131, R132). -/
def execVrcp (at_ core : Nat) (f : VFields) (s : State) : Res :=
  .next ((s.tick at_).vecPure core 0x10 f fun v => v.tableOp f vrcp)

/-- VRSQ (R131, R132). -/
def execVrsq (at_ core : Nat) (f : VFields) (s : State) : Res :=
  .next ((s.tick at_).vecPure core 0x11 f fun v => v.tableOp f vrsq)

/-- VEXP2 (R131, R132). -/
def execVexp2 (at_ core : Nat) (f : VFields) (s : State) : Res :=
  .next ((s.tick at_).vecPure core 0x12 f fun v => v.tableOp f vexp2)

/-- VLOG2 (R131, R132). -/
def execVlog2 (at_ core : Nat) (f : VFields) (s : State) : Res :=
  .next ((s.tick at_).vecPure core 0x13 f fun v => v.tableOp f vlog2)

/-- VCVT (R130). -/
def execVcvt (at_ core : Nat) (f : VFields) (s : State) : Res :=
  .next ((s.tick at_).vecPure core 0x18 f fun v => v.vcvt f)

/-- VQMX (R130). -/
def execVqmx (at_ core : Nat) (f : VFields) (s : State) : Res :=
  .next ((s.tick at_).vecPure core 0x19 f fun v => v.vqmx f)

/-- VIADD (R128): wrapping. -/
def execViadd (at_ core : Nat) (f : VFields) (s : State) : Res :=
  .next ((s.tick at_).vecPure core 0x20 f fun v => v.intOp f (· + ·))

/-- VISUB (R128): wrapping. -/
def execVisub (at_ core : Nat) (f : VFields) (s : State) : Res :=
  .next ((s.tick at_).vecPure core 0x21 f fun v => v.intOp f (· - ·))

/-- VIMUL (R128): the low half. -/
def execVimul (at_ core : Nat) (f : VFields) (s : State) : Res :=
  .next ((s.tick at_).vecPure core 0x22 f fun v => v.intOp f (· * ·))

/-- VAND (R128). -/
def execVand (at_ core : Nat) (f : VFields) (s : State) : Res :=
  .next ((s.tick at_).vecPure core 0x23 f fun v => v.bitOp f (· &&& ·))

/-- VOR (R128). -/
def execVor (at_ core : Nat) (f : VFields) (s : State) : Res :=
  .next ((s.tick at_).vecPure core 0x24 f fun v => v.bitOp f (· ||| ·))

/-- VXOR (R128). -/
def execVxor (at_ core : Nat) (f : VFields) (s : State) : Res :=
  .next ((s.tick at_).vecPure core 0x25 f fun v => v.bitOp f (· ^^^ ·))

/-- The shift count: VB[4:0] for TY 3, VB[3:0] for TY 4 (R128). -/
def shiftCount (ty b : Nat) : Nat := b % (if ty = 3 then 32 else 16)

/-- VSHL (R128). -/
def execVshl (at_ core : Nat) (f : VFields) (s : State) : Res :=
  .next ((s.tick at_).vecPure core 0x26 f fun v => v.bitOp f fun a b => a <<< shiftCount f.ty b)

/-- VSHR (R128): logical. -/
def execVshr (at_ core : Nat) (f : VFields) (s : State) : Res :=
  .next ((s.tick at_).vecPure core 0x27 f fun v => v.bitOp f fun a b => a >>> shiftCount f.ty b)

/-- VSRA (R128): arithmetic. -/
def execVsra (at_ core : Nat) (f : VFields) (s : State) : Res :=
  .next ((s.tick at_).vecPure core 0x28 f fun v => v.bitOp f fun a b =>
    let w := intWidth f.ty
    wrap w (sext w a / ((2 ^ shiftCount f.ty b : Nat) : Int)))

/-- VMOVI (R128): every lane := IMM. -/
def execVmovi (at_ core : Nat) (f : VFields) (s : State) : Res :=
  .next ((s.tick at_).vecPure core 0x29 f fun v =>
    (List.range 64).foldl (fun w l => if v.enabled f.msk l then w.setLane f.vd l (BitVec.ofNat 32 f.imm) else w) v)

/-- VPERM (R128). -/
def execVperm (at_ core : Nat) (f : VFields) (s : State) : Res :=
  .next ((s.tick at_).vecPure core 0x30 f fun v => v.shuffle f fun l => (v.lane f.vb l).toNat)

/-- VROT (R128). -/
def execVrot (at_ core : Nat) (f : VFields) (s : State) : Res :=
  .next ((s.tick at_).vecPure core 0x31 f fun v => v.shuffle f fun l => l + f.imm)

/-- VBCAST (R128). -/
def execVbcast (at_ core : Nat) (f : VFields) (s : State) : Res :=
  .next ((s.tick at_).vecPure core 0x32 f fun v => v.shuffle f fun _ => f.imm)

/-! ### Memory -/

/-- Lanes of a register stored as 4-byte elements at consecutive addresses, those whose mask bit is set; two lanes that share a
64-bit word go there in one write (R125, R144). -/
def State.storeLanes (s : State) (core a : Nat) (v : VState) (f : VFields) : State :=
  (List.range 32).foldl (fun s i =>
    let lo := (v.lane f.vd (2 * i)).toNat
    let hi := (v.lane f.vd (2 * i + 1)).toNat
    match v.enabled f.msk (2 * i), v.enabled f.msk (2 * i + 1) with
    | true, true => s.scratchWrite core (a + 8 * i) 8 (lo + hi <<< 32)
    | true, false => s.scratchWrite core (a + 8 * i) 4 lo
    | false, true => s.scratchWrite core (a + 8 * i + 4) 4 hi
    | false, false => s) s

/-- VLD (R128): 256 bytes from scratch, lane by lane. -/
def execVld (at_ core : Nat) (f : VFields) (s : State) : Res :=
  .next ((s.tick at_).vecStep core 0x40 f fun s x =>
    let (d, s) := s.scratchRead x.core x.addr 256 (.core x.core x.k.guest)
    (s.onCore x.core fun c =>
      { c with v := (List.range 64).foldl (fun w l =>
          if c.v.enabled f.msk l then w.setLane f.vd l (BitVec.ofNat 32 (d >>> (32 * l))) else w) c.v }, true))

/-- VST (R125, R128): the enabled lanes of VD to scratch. VD names the register stored: in memory instructions VA holds AINC
(R127). -/
def execVst (at_ core : Nat) (f : VFields) (s : State) : Res :=
  .next ((s.tick at_).vecStep core 0x41 f fun s x => (s.storeLanes x.core x.addr (s.core x.core).v f, true))

/-- VLDT (R129): 64 rows of 16 bytes; the four words of row l go to lane l of VD to VD + 3. -/
def execVldt (at_ core : Nat) (f : VFields) (s : State) : Res :=
  .next ((s.tick at_).vecStep core 0x42 f fun s x =>
    let (rows, s) := s.scratchRows x.core ⟨x.addr, vbTs x.it.body * 64, 64, 16⟩ (.core x.core x.k.guest)
    (s.onCore x.core fun c =>
      { c with v := (List.range 64).foldl (fun w l =>
          if c.v.enabled f.msk l then
            (List.range 4).foldl (fun w i => w.setLane (f.vd + i) l (BitVec.ofNat 32 (rows.getD l 0 >>> (32 * i)))) w
          else w) c.v }, true))

/-- VSTT (R129): the exact inverse of VLDT, from VD to VD + 3; the 16 bytes of an enabled lane go in one write. -/
def execVstt (at_ core : Nat) (f : VFields) (s : State) : Res :=
  .next ((s.tick at_).vecStep core 0x43 f fun s x =>
    let v := (s.core x.core).v
    ((List.range 64).foldl (fun s l =>
      if v.enabled f.msk l then
        s.scratchWrite x.core (x.addr + l * (vbTs x.it.body * 64)) 16
          ((List.range 4).foldr (fun i a => (v.lane (f.vd + i) l).toNat + a <<< 32) 0)
      else s) s, true))

/-! ### Channels -/

/-- RED_LIMIT (R138): the instruction and all after it are not executed; its offset within the kernel is reported. -/
def State.redLimit (s : State) (x : VCtx) : State :=
  let off := x.it.off + 8 + 8 * (x.blk.done % vbIcount x.it.body)
  let s := s.raise Ev.redLimit x.core [(24, off)] x.k.step x.k.guest
  let s := s.onCore x.core fun c => { c with vact := none }
  s.stopAt x.core x.it.index x.k

/-- A channel changed, unless its count would pass 2^40 (R138). -/
def State.channelOp (s : State) (x : VCtx) (ch : Nat) (g : Channel → Channel) : State × Bool :=
  let c := (s.core x.core).v.chan ch
  let d := g c
  if redMax < d.count then (s.redLimit x, false)
  else (s.onCore x.core fun c => { c with v := c.v.setChan ch d }, true)

/-- RCLR (R128): the channel is cleared. -/
def execRclr (at_ core : Nat) (f : VFields) (s : State) : Res :=
  .next ((s.tick at_).vecPure core 0x50 f fun v => v.setChan (bits f.imm 0 2) Channel.reset)

/-- RADD (R135). -/
def execRadd (at_ core : Nat) (f : VFields) (s : State) : Res :=
  .next ((s.tick at_).vecStep core 0x51 f fun s x =>
    let l := (s.core x.core).v.sumElems f false
    s.channelOp x (bits f.imm 0 2) fun c => l.foldl Channel.add c)

/-- RSQ (R135): the rounded squares, whose rounding sets VFLAGS as any other does (R124). -/
def execRsq (at_ core : Nat) (f : VFields) (s : State) : Res :=
  .next ((s.tick at_).vecStep core 0x52 f fun s x =>
    let v := (s.core x.core).v
    let l := v.sumElems f true
    let fl := NumFlags.orAll ((v.sumElems f false).map fun e => (rn32 (fvMul e e).1 true).2)
    let (s, ran) := s.channelOp x (bits f.imm 0 2) fun c => l.foldl Channel.add c
    (if ran then s.onCore x.core fun c => { c with v := c.v.flag fl } else s, ran))

/-- RGET (R136): the rounded value into every enabled lane; the channel is not cleared. -/
def execRget (at_ core : Nat) (f : VFields) (s : State) : Res :=
  .next ((s.tick at_).vecPure core 0x53 f fun v =>
    let (x, fl) := (v.chan (bits f.imm 0 2)).round
    ((List.range 64).foldl (fun w l =>
      if v.enabled f.msk l then w.setLane f.vd l (BitVec.ofNat 32 x) else w) v).flag fl)

/-- RSTX (R137): the channel record to scratch. IMM[1:0] names the channel, as in every other channel instruction, and the
rest of IMM the 64-byte-aligned address (log entry 26). -/
def execRstx (at_ core : Nat) (f : VFields) (s : State) : Res :=
  .next ((s.tick at_).vecStep core 0x54 f fun s x =>
    (s.scratchWrite x.core (f.imm / 64 * 64) 48 ((s.core x.core).v.chan (bits f.imm 0 2)).record, true))

/-- RLDX (R137): the record at IMM added into the channel. -/
def execRldx (at_ core : Nat) (f : VFields) (s : State) : Res :=
  .next ((s.tick at_).vecStep core 0x55 f fun s x =>
    let (d, s) := s.scratchRead x.core (f.imm / 64 * 64) 48 (.core x.core x.k.guest)
    s.channelOp x (bits f.imm 0 2) fun c => c.join (Channel.ofRecord d))

/-! ### Random numbers, waits, signals -/

/-- VRNG (R141): a word of each lane's draw at the planned counter. -/
def execVrng (at_ core : Nat) (f : VFields) (s : State) : Res :=
  .next ((s.tick at_).vecStep core 0x60 f fun s x =>
    let c := coreCycle x.k.plannedJt + x.k.qCount
    let word (l : Nat) : Nat :=
      let (w0, w1, w2, w3) := drawAt (s.coreLaneKey x.core l x.k.guest) c 0 0
      match bits f.imm 0 2 with
      | 0 => w0 | 1 => w1 | 2 => w2 | _ => w3
    (s.onCore x.core fun c =>
      { c with v := (List.range 64).foldl (fun w l =>
          if c.v.enabled f.msk l then w.setLane f.vd l (BitVec.ofNat 32 (word l)) else w) c.v }, true))

/-- VWAIT (R75, R128): goes on once SO IMM[15:0] holds the kernel's step with count IMM[31:16]; the wait counts. -/
def execVwait (at_ core : Nat) (f : VFields) (s : State) : Res :=
  .next ((s.tick at_).vecStep core 0x70 f fun s x =>
    let cc := s.dieCc (x.core / 16)
    if s.waitMet x.k (bits f.imm 0 16) (bits f.imm 16 16) then
      (s.onCore x.core fun c =>
        { c with waitCycles := satAdd 32 c.waitCycles (cc - x.k.vwaitFrom.getD cc),
                 kernel := c.kernel.map fun k => { k with vwaitFrom := none } }, true)
    else
      (s.onCore x.core fun c =>
        { c with kernel := c.kernel.map fun k => { k with vwaitFrom := some (k.vwaitFrom.getD cc) } }, false))

/-- VSIG (R75, R128): SO IMM[15:0] is signalled once every earlier instruction has completed. -/
def execVsig (at_ core : Nat) (f : VFields) (s : State) : Res :=
  .next ((s.tick at_).vecStep core 0x71 f fun s x => (s.kernelSignal x.k true (bits f.imm 0 16), true))

/-- VNOP (R128). -/
def execVnop (at_ core : Nat) (f : VFields) (s : State) : Res :=
  .next ((s.tick at_).vecStep core 0x7F f fun s _ => (s, true))

/-! ### The end of a block -/

/-- VECTOR_BLOCK_FINISH (R124, R126): after the last instruction of the last repetition VFLAGS is ORed into the step flag
record, and the block finishes. -/
def State.vectorBlockFinish (s : State) (core : Nat) : State :=
  let c := s.core core
  match c.kernel, c.vact with
  | some k, some (it, b) =>
    if (vbNext it.body b).isSome then s
    else
      let k := { k with lastDone := Nat.max k.lastDone (s.dieCc (core / 16)) }
      let s := s.putCore core { c with vact := none, kernel := some k }
      s.kernelFlags core k c.v.flags
  | _, _ => s

@[inherit_doc State.vectorBlockFinish]
def execVectorBlockFinish (at_ core : Nat) (s : State) : Res := .next ((s.tick at_).vectorBlockFinish core)

end Sys2Proof.Machine
end

