-- ==== Sys2Proof/Machine/Commit.lean ====
section
/-! DEFINITION. Step start, the verdict flood, the commit point, the loss-scale controller, micro-batch overruns, the
numerics watches and the scale-history mirror (R50, R205, R232 to R260). -/

namespace Sys2Proof.Machine

/-! ### Parameters (R244, R248, R253) -/

/-- Fields of the commit parameter block (R244), defaults taken. -/
def comLInit (p : Buf) : Int := p.sfld 0 8
@[inherit_doc comLInit] def comLMin (p : Buf) : Int := p.sfld 8 8
@[inherit_doc comLInit] def comLMax (p : Buf) : Int := p.sfld 16 8
@[inherit_doc comLInit] def comGexpMax (p : Buf) : Nat := p.fld 24 8
@[inherit_doc comLInit] def comNexpInit (p : Buf) : Int := p.sfld 32 16
@[inherit_doc comLInit] def comSkipLimit (p : Buf) : Nat := if p.fld 48 16 = 0 then 32 else p.fld 48 16
@[inherit_doc comLInit] def comGrow (p : Buf) : Nat := if p.fld 64 32 = 0 then 2000 else p.fld 64 32
@[inherit_doc comLInit] def comClip (p : Buf) : Nat := p.fld 96 32
@[inherit_doc comLInit] def comOverrun (p : Buf) : Nat := p.fld 128 2
@[inherit_doc comLInit] def comUfSteps (p : Buf) : Nat := if p.fld 144 16 = 0 then 64 else p.fld 144 16
@[inherit_doc comLInit] def comNwSteps (p : Buf) : Nat := if p.fld 160 16 = 0 then 16 else p.fld 160 16
@[inherit_doc comLInit] def comStretchMax (p : Buf) : Nat := p.fld 176 16
@[inherit_doc comLInit] def comWsCount (p : Buf) : Nat := p.fld 200 16
@[inherit_doc comLInit] def comWatchAddr (p : Buf) : Nat := p.fld 320 32

/-- The watch slots with their numbers. -/
def slotList (b : Buf) : List (Nat × Buf) := (imgSlots b).zipIdx.map fun (p : Buf × Nat) => (p.2, p.1)

/-- The shards of a slot's tensors. -/
def slotShards (b : Buf) (x : Buf) : List Shard := (imgShards b).filter fun t => x.fld 0 20 ≤ t.id && t.id ≤ x.fld 20 20

/-! ### STEP_START (R50, R65, R233, R289, R291, R457) -/

/-- S of the step that starts next, and its number. -/
def Job.nextStart (j : Job) : Nat × Nat :=
  if j.fresh then (j.sn, j.step) else (j.sn + imgPeriod j.image + j.xNext, j.step + 1)

/-- The step controller at the start of a step: what belongs to one step is cleared (R88, R233, R254), and causes held
for it enter (R236). -/
def Commit.newStep (c : Commit) : Commit :=
  { c with
    cause := c.causeNext, causeNext := 0, frozen := false, sqnorm := 0, nfBlocks := 0, ovfBlocks := 0, nonzero := 0,
    ufCount := [], promoted := c.hist.promoted, stretch := 0, capReq := 0, flood := none, floodSent := false, result := none, decision := none, shPending := [],
    ufPending := none, nwPending := none, gexpPending := [], mbDeferred := [], mbDropped := [],
    gradShut := [], formed := [], folded := false, mbStarted := 0, afxEvent := false, srEvent := false }

/-- The first `n` micro-batches of the running step have started: DATA_POS has advanced by each (R233). A probe reads no data
(R252). -/
def State.startMbs (s : State) (n : Nat) : State :=
  if s.com.probeNext || n ≤ s.com.mbStarted then s
  else s.onCom fun c => { c with mbStarted := n, dataPos := (c.dataPos + (n - c.mbStarted)) % 2 ^ 64 }

/-- L and every Gₜ of the step, taken from the scale history at its start (R186); a bad word of it is PERSISTENT data (R170). -/
def State.takeScales (s : State) (b : Buf) : State :=
  let s := s.onCom fun c => { c with stepL := c.hist.lexp, stepG := [] }
  (imgShards b).foldl (fun s t =>
    let r := s.oasis.readAt t.shAddr 8
    let g := s.gexp t
    (s.noteOasis r .dma).onCom fun c => { c with stepG := tset 0 c.stepG t.id g }) s

/-- What a step does first: its scales are taken and its first micro-batch starts (R186, R233). -/
def State.enterStep (s : State) : State :=
  match s.job with
  | none => s
  | some j => (s.takeScales j.image).startMbs (Nat.min 1 (comMbCount (imgCommit j.image)))

/-- A core's step flag record and sample list cleared for step `n` (R88, R234, R254). -/
def Core.newStep (n : Nat) (c : Core) : Core :=
  { c with flags := { FlagRec.reset with step := n % 2 ^ 32 }, samples := [] }

/-- Every core's flag record of a new step. -/
def State.clearFlags (s : State) (n : Nat) : State :=
  (List.range 128).foldl (fun s k => s.onCore k (Core.newStep n)) s

/-- The re-layout of its boundary step (R289, R291, R477): the new descriptors from step B on, the old ones dropped after it. -/
def State.relayoutAt (s : State) (n : Nat) : State :=
  match s.job with
  | none => s
  | some j =>
    match j.relayout with
    | some (b, img) =>
      if b ≤ n then
        let s := ({ s with job := some { j with image := img, oldImage := some j.image, relayout := none, drainStep := n } } : State)
        let s := s.loadKernels img false
        let s := (s.measure 4 (imgEpoch img) (Buf.zeros 32)).measure 5 (imgId img) (imageDigest img (imgLen img))
        s.raise Ev.layoutEpoch 0 [(16, imgEpoch img)] n
      else s
    | none => if j.oldImage.isSome && j.drainStep < n then { s with job := some { j with oldImage := none } } else s

/-- The cap that takes force at a step boundary (R457, R459). -/
def State.capAt (s : State) (n : Nat) : State :=
  match s.aon.capNext with
  | none => s
  | some c =>
    let s' := s.onAon fun a => { a with cap := c, capNext := none }
    if c = s.aon.cap then s' else s'.raise Ev.capChanged 0 [(16, c)] n

/-- A used port without a matching neighbour notice (R364). -/
def State.badNeighbour (s : State) (j : Job) : Option Nat :=
  (imgPorts j.image).find? fun p => (s.port p).notice ≠ some (imgJobId j.image, neighbourCw j.image p, j.epoch)

/-- STEP_START (R50): JT has reached the start of the next step. A job that is to stop stops here instead, at the end of
its step (R247, R406, log entry 74). -/
def State.stepStart (s : State) : State :=
  match s.job with
  | none => s
  | some j =>
    let (sn, n) := j.nextStart
    if !(j.runs || j.phase = .armed) || !j.hasEpoch || !s.htValid || s.jtInt < sn then s
    else if j.phase = .stopping then s.stopJob
    else if j.fresh && s.badNeighbour j ≠ none then s.fatal Ev.jobNeighbour ((s.badNeighbour j).getD 0)
    else if j.fresh && (imgPorts j.image).any (fun p => s.tagMismatch p) then s.fatal Ev.htEpochMismatch
    else
      let run := if j.fresh then 0 else if j.missThis then j.sfRun + 1 else 0
      let xPrev := if j.fresh then 0 else j.xNext
      let finite := match s.com.decision with | some d => decide (d.decision = Decision.finite) | none => false
      let s := if finite then s.discardPools fun b => n ≤ afxStep b else s
      let s := { s with
        job := some { j with phase := .running, fresh := false, step := n, sn, xNext := 0, xPrev, sfRun := run, missThis := false },
        ents := [], catchup := [], rxHold := [], com := s.com.newStep
        near := if j.fresh then tmap NearPort.reset (fun n => { n with credits := [], lent := [] }) s.near else s.near }
      let s := (s.clearFlags n).onAon fun a =>
        { a with stepEnergy := a.curEnergy, extEnergy := a.curExt, curEnergy := 0, curExt := 0 }
      ((s.relayoutAt n).capAt n).enterStep

@[inherit_doc State.stepStart]
def execStepStart (at_ : Nat) (s : State) : Res := .next (s.tick at_).stepStart

/-! ### The local contribution (R235 to R238, R255, R256) -/

/-- The final sums that the device holds: the pools, and the Spillway's unconsumed records (R199, R201). -/
def State.finalSums (s : State) : List Buf :=
  s.dies.flatMap (fun d => d.2.pool) ++ (s.spills.filter (·.valid)).map fun x => (s.spillBlock s.spillBase x).1

/-- What the step controller's read of the final sums leads to (R144, R170): a bad word or line of these TRANSIENT blocks is a
deferred-error cause of the contribution that reads them. -/
def State.noteSums (s : State) : State :=
  match s.job with
  | none => s
  | some j =>
    let late := (s.spills.filter (·.valid)).any fun x => (s.spillBlock s.spillBase x).2
    let (bad, s) := (List.range 8).foldl (fun (a : Bool × State) die =>
      let d := a.2.die die
      (d.pool.zip d.poolAt).foldl (fun (a : Bool × State) y =>
        let (bad, s) := a.2.readSlot j.image die y.2 y.1.len .maint
        (a.1 || bad, s)) a) (late, s)
    let s := (s.spills.filter (·.valid)).foldl (fun s x => s.noteSpill s.spillBase .maint x) s
    if bad then s.onCom fun c => { c with cause := c.cause ||| 8 } else s

/-- q of R238 for one element: the exact square of the unscaled gradient, rounded once. -/
def normTerm (i anchor nexp : Int) (w32 : Bool) : Nat :=
  (roundInt (.fin false (i.natAbs * i.natAbs) (2 * (anchor - afxF w32) + 96 - nexp)) false).toNat

/-- A block's contribution to SQNORM (R238): nothing from a block with NF or OVF set. -/
def normOf (b : Buf) (nexp : Int) : Nat :=
  if afxNf b || afxOvf b then 0 else ((afxElems b).map fun i => normTerm i (afxAnchor b) nexp (afx32 b)).sum

/-- Slots in which a final sum holds a nonzero element (R256). -/
def nonzeroOf (img : Buf) (l : List Buf) : Nat :=
  l.foldl (fun a b =>
    match slotOfTensor img (afxTensor b) with
    | some k => if (afxElems b).any fun i => i ≠ 0 then a ||| (1 <<< k) else a
    | none => a) 0

/-- The record of one kind that every core's watch kernel left for slot `k`, combined exactly (R137, R255). A bad word sets DEFERRED
in that core's record, which the same contribution reads (R170, R235). -/
def State.watchSum (s : State) (addr : Nat) : Channel × State :=
  (List.range 128).foldl (fun (a : Channel × State) core =>
    let r := a.2.scratch.readAt (scratchKey core addr) 48
    let s := a.2.noteScratch core r .maint
    let s := if r.bad = [] then s else s.onCore core fun c => { c with flags := { c.flags with deferred := true } }
    (a.1.join (Channel.ofRecord r.val), s)) (Channel.reset, s)

/-- E of a slot in a step: num / den, rounded once; a free value where a channel holds no finite sum (R255, log entry 77). -/
def watchError (step slot : Nat) (num den : Channel) : Nat :=
  if num.spec ≠ 0 || den.spec ≠ 0 then Config.watchOf step slot % 2 ^ 32
  else rnf (quotSticky (num.q < 0) num.q.natAbs den.q.natAbs 420)

/-- The narrow-wide watch evaluated (R255): the pending runs, the last E, and PROMO_REQ. -/
def State.watchEval (s : State) (j : Job) : Nat × State :=
  let p := imgCommit j.image
  let init : Nat × State := (0, s.onCom fun c => { c with nwPending := some c.hist.nwRun })
  (slotList j.image).foldl (fun a k =>
    let base := comWatchAddr p + 96 * k.1
    let (num, s) := a.2.watchSum base
    let (den, s) := s.watchSum (base + 48)
    let promo (run : Nat) : Nat := if p.flag 131 && comNwSteps p ≤ run then a.1 ||| (1 <<< k.1) else a.1
    if den.spec = 0 && den.q ≤ 0 then (promo (tget 0 s.com.hist.nwRun k.1), s)
    else
      let e := watchError j.step k.1 num den
      let over_ := (dec32 (k.2.fld 160 32)).lt (dec32 e)
      let run := if over_ then Nat.min (tget 0 s.com.hist.nwRun k.1 + 1) 65535 else 0
      let s := s.onCom fun c =>
        { c with wErr := tset 0 c.wErr k.1 e, nwPending := c.nwPending.map fun t => tset 0 t k.1 run }
      (promo run, s)) init

/-- The flags of every core as causes (R235). -/
def State.flagCauses (s : State) : State :=
  let s := if s.cores.any fun c => c.2.flags.invalid then s.onCom fun c => { c with cause := c.cause ||| 4 } else s
  if s.site.minority || s.cores.any fun c => c.2.flags.deferred then s.onCom fun c => { c with cause := c.cause ||| 8 } else s

/-- The capping request of R458 in units of 3,900 ns: `c` in W, `period` and `ext` in ns, energies in pJ. -/
def capRequest (c period ext stepPj extPj : Nat) : Nat :=
  if c = 0 then 0
  else
    let e := if ext = 0 then 450000 else extPj
    let x := if ext = 0 then 1 else ext
    -- I = e / x in mW
    if 1000 * c * x ≤ e then 65535
    else Nat.min (ceilDiv ((stepPj - 1000 * c * period) * x) ((1000 * c * x - e) * 3900)) 65535

/-- The capping request of the step, with CAP_LIMIT (R458). -/
def State.capFreeze (s : State) (j : Job) : State :=
  let a := s.aon
  let x := capRequest a.cap (imgPeriod j.image) j.xPrev a.stepEnergy a.extEnergy
  let s := s.onCom fun c => { c with capReq := x }
  if x = 65535 && a.capEvStep ≠ some j.step then
    (s.raise Ev.capLimit 0 [] j.step).onAon fun a => { a with capEvStep := some j.step }
  else s

/-- The pending amax of every tensor (R204): the spec does not give what it is the maximum of, so each is a free value of step and
tensor, the same in matching runs (R25, log entry 72). -/
def State.drawAmax (s : State) (b : Buf) (step : Nat) : State :=
  (imgShards b).foldl (fun s t => s.onCom fun c =>
    { c with shPending := tset 0 c.shPending t.id (Config.amaxOf step t.id % 2 ^ 32) }) s

/-- The 1,152 bytes of a flood record (R237). -/
def floodRecord (step epoch cause stretch sq nf ovf nonzero promo : Nat) (uf : Tab Nat) : Buf :=
  packBuf 1152 [(64, step), (16, epoch), (16, cause), (16, stretch), (16, 0), (128, sq), (32, nf), (32, ovf), (192, 0),
    (256, nonzero), (256, promo), (8192, tabBits 32 uf)]

/-- Two flood records combined; `none` where STEP or EPOCH differ (R237). -/
def floodJoin (a b : Buf) : Option Buf :=
  if a.fld 0 80 ≠ b.fld 0 80 then none
  else
    let sq := a.fld 128 128 + b.fld 128 128
    let cause := a.fld 80 16 ||| b.fld 80 16 ||| (if 2 ^ 128 ≤ sq then 32 else 0)
    let uf := packFields 32 (((fields 32 256 (a.fld 1024 8192)).zip (fields 32 256 (b.fld 1024 8192))).map
      fun (p : Nat × Nat) => satAdd 32 p.1 p.2)
    some (packBuf 1152 [(80, a.fld 0 80), (16, cause), (16, Nat.max (a.fld 96 16) (b.fld 96 16)), (16, 0),
      (128, Nat.min sq (2 ^ 128 - 1)), (32, satAdd 32 (a.fld 256 32) (b.fld 256 32)),
      (32, satAdd 32 (a.fld 288 32) (b.fld 288 32)), (192, 0), (256, a.fld 512 256 ||| b.fld 512 256),
      (256, a.fld 768 256 ||| b.fld 768 256), (8192, uf)])

/-- The local contribution frozen at the 0x60 instant (R235 to R238), and combined with what hops have brought already
(R237). -/
def State.freeze (s : State) (j : Job) : State :=
  let b := j.image
  let p := imgCommit b
  let s := s.startMbs (comMbCount p)
  let (promo, s) := s.watchEval j
  let s := s.noteSums.flagCauses
  let s := if s.com.mirrorDue.isSome then s.onCom fun c => { c with cause := c.cause ||| 64 } else s
  let sums := s.finalSums
  let sq := if p.flag 130 then (sums.map fun x => normOf x s.com.hist.nexp).sum else 0
  let s := if 2 ^ 128 ≤ sq then s.onCom fun c => { c with cause := c.cause ||| 32 } else s
  let s := (s.capFreeze j).drawAmax b j.step
  let s := s.onCom fun c =>
    { c with sqnorm := Nat.min sq (2 ^ 128 - 1), nfBlocks := sums.countP (fun x => afxNf x),
             ovfBlocks := sums.countP (fun x => afxOvf x), nonzero := nonzeroOf b sums }
  let c := s.com
  let own := floodRecord j.step (imgEpoch b) c.cause (Nat.max c.stretch c.capReq) c.sqnorm c.nfBlocks c.ovfBlocks
    c.nonzero promo c.ufCount
  let s := s.onCom fun c => { c with frozen := true }
  match c.flood with
  | none => s.onCom fun c => { c with flood := some own }
  | some r =>
    match floodJoin own r with
    | some x => s.onCom fun c => { c with flood := some x }
    | none => s.fatal Ev.floodFault

/-- A replica comparison of step n - 2 whose messages have not all come (R493). -/
def State.replicaTimeouts (s : State) (n : Nat) : State :=
  if s.site.ownCd.any fun o => o.1 + 2 ≤ n then
    (s.onSite fun x => { x with ownCd := x.ownCd.filter fun o => n < o.1 + 2 }).fatal Ev.replicaTimeout
  else s

/-- The verdict flood starts; the round owner decides the modes of R313 at the same instant (R239). -/
def State.floodNow (s : State) (j : Job) (i : Nat) : State :=
  (((s.freeze j).decideModes j).completeEntry i j.step).replicaTimeouts j.step

/-- START_VERDICT_FLOOD (R239): timetable action 0x60. -/
def State.startFlood (s : State) (i : Nat) : State := s.dispatch i 0x60 fun s j _ => s.floodNow j i

@[inherit_doc State.startFlood]
def execStartVerdictFlood (at_ entry : Nat) (s : State) : Res := .next ((s.tick at_).startFlood entry)

/-! ### FLOOD_RESULT (R239, R241, R257, R459) -/

/-- The underflow watch of one slot (R257). -/
def State.ufEval (s : State) (j : Job) (r : Buf) (k : Nat × Buf) : State :=
  let p := imgCommit j.image
  let sum := r.fld (1024 + 32 * k.1) 32
  let over_ := k.2.fld 72 16 * k.2.fld 96 48 < sum * 65536 || !r.flag (512 + k.1)
  let run := if over_ then Nat.min (tget 0 s.com.hist.ufRun k.1 + 1) 65535 else 0
  let hit := over_ && run % comUfSteps p = 0
  let s := s.onCom fun c =>
    { c with
      wUfLast := tset 0 c.wUfLast k.1 sum
      ufPending := c.ufPending.map fun t => tset 0 t k.1 (if hit && p.flag 132 then 0 else run)
      gexpPending := if hit && p.flag 132 then c.gexpPending ++ [k.1] else c.gexpPending
      wSilent := if hit then tset 0 c.wSilent k.1 (satAdd 16 (tget 0 c.wSilent k.1) 1) else c.wSilent }
  if hit then s.raise Ev.silentLayer k.1 [] j.step else s

/-- The 0x61 entry of the image. -/
def imgCommitEntry (b : Buf) : Option (Nat × Entry) := (imgEntryList b).find? fun e => e.2.action = 0x61

/-- FLOOD_RESULT (R239): the result reaches the step controller, X of the step is fixed, and FLOOD_SO is signalled. A
result of another step or epoch is FLOOD_FAULT (R237, R241). -/
def State.floodResult (s : State) (r : Buf) : State :=
  match s.job with
  | none => s
  | some j =>
    if !j.runs || !s.com.frozen || s.com.result.isSome then s
    else if r.fld 0 64 ≠ j.step || r.fld 64 16 ≠ imgEpoch j.image then s.fatal Ev.floodFault
    else
      let x := 3900 * r.fld 96 16
      let s := { s with job := some { j with xNext := x } }
      let s := s.onCom fun c =>
        { c with result := some r, ufPending := some c.hist.ufRun, wNonzero := r.fld 512 256,
                 cStretchSteps := if x = 0 then c.cStretchSteps else satAdd 32 c.cStretchSteps 1 }
      let s := if x ≠ 0 && s.com.capReq ≠ 0 then s.onAon fun a => { a with cappedSteps := satAdd 32 a.cappedSteps 1 } else s
      let s := (slotList j.image).foldl (fun s k => s.ufEval j r k) s
      match imgCommitEntry j.image with
      | some e => s.signal e.2.preSo j.step
      | none => s

@[inherit_doc State.floodResult]
def execFloodResult (at_ : Nat) (record : Buf) (s : State) : Res := .next ((s.tick at_).floodResult record)

/-! ### The loss-scale controller (R243, R246, R252) -/

/-- The clip factor κ (R243). -/
def clipFactor (clip sq : Nat) (nexp : Int) : Nat :=
  let n2 := rnf (.fin false sq (nexp - 96))
  if (dec32 clip).isZero || !(dec32 (rnf ((dec32 clip).mulFin (dec32 clip)))).lt (dec32 n2) then one32
  else rnf ((dec32 clip).mulFin (dec32 (vrsq n2).1))

/-- bitlen(SQNORM) - 96 added to NEXP. -/
def nexpTarget (nexp : Int) (sq : Nat) : Int := nexp + (bitLen sq : Int) - 96

/-- The controller at a FINITE decision (R246). -/
def ScaleHist.finite (h : ScaleHist) (p : Buf) (sq step : Nat) : ScaleHist :=
  let nexp := if sq = 0 then h.nexp else clampI (h.nexp - 16) (h.nexp + 16) (nexpTarget h.nexp sq)
  let h := { h with commits := h.commits + 1, skipRun := 0, bias := 0, nexp := clampI (-224) 95 nexp, lastStep := step }
  if 0 < h.probeLeft then { h with probeLeft := h.probeLeft - 1 }
  else
    let g := h.goodRun + 1
    if g = comGrow p then { h with goodRun := 0, lexp := if h.lexp < comLMax p then h.lexp + 1 else h.lexp }
    else { h with goodRun := g }

/-- The controller at a SKIP decision (R246), and whether LEXP stood at L_MIN. -/
def ScaleHist.skip (h : ScaleHist) (p : Buf) (cause step : Nat) : ScaleHist × Bool :=
  let floor := h.probeLeft = 0 && !(comLMin p < h.lexp)
  ({ h with
     skips := h.skips + 1, skipRun := h.skipRun + 1, goodRun := 0
     lexp := if h.probeLeft = 0 && comLMin p < h.lexp then h.lexp - 1 else h.lexp
     probeLeft := h.probeLeft - 1
     bias := if cause.testBit 1 then Nat.min (h.bias + 8) 64 else h.bias
     nexp := clampI (-224) 95 (if cause.testBit 5 then h.nexp + 16 else h.nexp)
     lastStep := step }, floor)

/-- The probe exponent (R252). -/
def probeExp (p : Buf) : Int := min (max 15 (comLMin p)) (comLMax p)

/-- The controller at a PROBE decision (R252, log entry 76). -/
def ScaleHist.probe (h : ScaleHist) (p : Buf) (cause sq step : Nat) : ScaleHist :=
  let fails := cause.testBit 1 || cause.testBit 5
  let nexp := if fails then h.nexp + 16 else if sq = 0 then h.nexp else nexpTarget h.nexp sq
  { h with lexp := probeExp p, bias := if fails then Nat.min (h.bias + 16) 64 else 0, nexp := clampI (-224) 95 nexp,
           probeLeft := 16, lastStep := step }

/-! ### COMMIT_POINT (R233, R242 to R247, R252) -/

/-- Pending watch state and amax entries committed (R204, R233, R255, R257). -/
def State.commitPending (s : State) (j : Job) (r : Buf) : State :=
  let c := s.com
  let promo := r.fld 768 256
  let s := s.onCom fun c =>
    { c with hist := { c.hist with ufRun := c.ufPending.getD c.hist.ufRun, nwRun := c.nwPending.getD c.hist.nwRun,
                                   promoted := c.hist.promoted ||| promo } }
  let s := (onesOf 256 promo).foldl (fun s k =>
    if c.hist.promoted.testBit k then s else s.raise Ev.nwPromoted k [] j.step) s
  let max_ : Int := comGexpMax (imgCommit j.image)
  let s := c.gexpPending.foldl (fun s k =>
    match (imgSlots j.image)[k]? with
    | some x => (slotShards j.image x).foldl (fun s t =>
        if s.gexp t < max_ then s.setGexp t (s.gexp t + 1) else s) s
    | none => s) s
  (imgShards j.image).foldl (fun s t => s.pushAmax t (tget 0 c.shPending t.id) j.step) s

/-- What a skipped step counts and raises (R246, R250, R258). -/
def State.skipStep (s : State) (j : Job) (cause : Nat) : State :=
  let p := imgCommit j.image
  let (h, floor) := s.com.hist.skip p cause j.step
  let one (b : Bool) (n : Nat) : Nat := if b then satAdd 32 n 1 else n
  let lost := match s.com.carry with | some (n, _) => n < j.step | none => false
  let s := s.onCom fun c =>
    { c with
      hist := h, cSkips := satAdd 32 c.cSkips 1
      cNonfinite := one (cause.testBit 0 || cause.testBit 2) c.cNonfinite
      cRange := one (cause.testBit 1 || cause.testBit 5) c.cRange
      cFault := one (cause.testBit 3 || cause.testBit 4 || cause.testBit 6) c.cFault
      cFloor := one floor c.cFloor
      cCarryLost := one lost c.cCarryLost
      carry := if lost then none else c.carry }
  let s := s.raise Ev.stepSkipped 0 [(16, cause)] j.step
  let s := s.discardPools fun b => j.step < afxStep b
  if h.skipRun = comSkipLimit p then
    (s.raise Ev.stepSkipLimit 0 [] j.step).onJob fun j => { j with phase := .stopping }
  else s

/-- The anchors of a probe, without the ±4 clamp (R252): the sums of R218 stay unconsumed and are then discarded. -/
def State.probeAnchors (s : State) (j : Job) : State :=
  s.finalSums.foldl (fun s b =>
    match imgShard j.image (afxTensor b) with
    | some t =>
      let m := (afxElems b).foldl (fun x i => Nat.max x i.natAbs) 0
      let n := if afxCount b = 0 then 1 else afxCount b
      let a := if m = 0 then afxAnchor b
        else clampI (-32768) 32767 (afxAnchor b + (bitLen m : Int) - afxF (afx32 b) - log2Nat n + 1)
      s.setAnchor t (afxRow b) (afxCol b) (afxSub b) a
    | none => s) s

/-- The commit point of a probe (R252). -/
def State.probeStep (s : State) (j : Job) (r : Buf) : State :=
  let p := imgCommit j.image
  let cause := r.fld 80 16
  let fails := cause.testBit 1 || cause.testBit 5
  let s := s.probeAnchors j
  let s := (imgShards j.image).foldl (fun s t =>
    let v := setBits (setBits (s.oasis.val t.shAddr 16) 20 10 1) 32 11 1
    (s.oasisWrite t.shAddr 16 (setBits v 64 64 j.step)).oasisWrite (t.shAddr + 64) 4 (tget 0 s.com.shPending t.id)) s
  let s := s.onCom fun c =>
    { c with hist := c.hist.probe p cause (r.fld 128 128) j.step, cProbes := satAdd 32 c.cProbes 1, probeNext := fails, mirrored := none,
             probeFails := if fails then c.probeFails + 1 else 0 }
  let s := s.discardPools fun b => j.step < afxStep b
  if fails && s.com.probeFails = 4 then
    ((s.raise Ev.scaleProbeFail 0 [] j.step).onCom fun c => { c with probeNext := false }).onJob fun j => { j with phase := .stopping }
  else s

/-- Checkpoints that are due at this commit point: their commands complete (R409). -/
def State.takeCheckpoints (s : State) (j : Job) : State :=
  let due (n : Nat) : Bool := n = 0 || n = j.step
  let s := match s.com.ckptLocal with
    | some (n, mb) =>
      if due n then
        let s := ((s.copyResid j.image).onCom fun c => { c with ckptLocal := none, ckptTail := some (true, (c.ckptTail.bind (·.2))) }).raise
          Ev.ckptTaken 0 [(1, 0)] j.step
        match mb with | some m => s.finishWaiting m 0 | none => s
      else s
    | none => s
  match s.com.ckptExport with
  | some (n, sess, id, mb) =>
    if due n then
      let s := ((s.copyResid j.image).onCom fun c =>
        { c with ckptExport := none, ckptTail := some ((c.ckptTail.map (·.1)).getD false, some (sess, id)) }).raise
          Ev.ckptTaken 0 [(1, 1)] j.step
      match mb with | some m => s.finishWaiting m 0 | none => s
    else s
  | none => s

/-- The decision record of the step (R242). -/
def State.decideStep (s : State) (j : Job) (r : Buf) : DecisionRec :=
  let cause := r.fld 80 16
  { step := j.step, decision := if s.com.probeNext then .probe else if cause = 0 then .finite else .skip, cause,
    kappa := clipFactor (comClip (imgCommit j.image)) (r.fld 128 128) s.com.hist.nexp }

/-- The commit point of the running step: the decision and all it does at once (R242). -/
def State.commitNow (s : State) (j : Job) (i : Nat) (e : Entry) : State :=
  match s.com.result with
  | none => s.faultMiss i e
  | some r =>
    let d := s.decideStep j r
    let s := s.onCom fun c => { c with decision := some d }
    let s := match d.decision with
      | .finite =>
        let s := s.commitPending j r
        let s := if s.site.lastStep.any (· < j.step) then s.onSite fun x => { x with lastStep := none, repeats := 0 } else s
        s.onCom fun c =>
          { c with hist := c.hist.finite (imgCommit j.image) (r.fld 128 128) j.step, cCommits := satAdd 64 c.cCommits 1,
                   mirrorDue := some j.step, lastFinite := j.step,
                   carry := c.carry.filter fun x => j.step ≤ x.1 }
      | .skip => s.skipStep j d.cause
      | .probe => s.probeStep j r
    let s := s.dropGradients j.image
    let s := (List.range 32).foldl (fun s ch => s.applyRetire ch) s
    let s := s.installRepair
    let s := s.outerCommit j
    let s := s.takeCheckpoints j
    let s := s.completeEntry i j.step
    if s.passesDone j.image (fun _ => true) then s.afterPasses j else s

/-- COMMIT_POINT (R242): timetable action 0x61. -/
def State.commitPoint (s : State) (i : Nat) : State := s.dispatch i 0x61 fun s j e => s.commitNow j i e

@[inherit_doc State.commitPoint]
def execCommitPoint (at_ entry : Nat) (s : State) : Res := .next ((s.tick at_).commitPoint entry)

/-! ### Micro-batches (R248 to R250) -/

/-- Direct-reduce tensors of the image. -/
def imgDirect (b : Buf) : Nat := (imgShards b).countP fun t => t.direct

/-- A micro-batch deferred (R249): its gradient writes go to the carry buffer, which the step's first deferral empties and which
records L and every Gₜ (R250). -/
def State.deferMb (s : State) (j : Job) (m : Nat) (e : MbEntry) (stretch : Bool) : State :=
  let older := match s.com.carry with | some (n, _) => n < j.step | none => false
  let s := if older && !s.com.folded then s.dropCarry else s
  let held := match s.com.carry with | some (n, l, _) => if n = j.step then l else [] | none => []
  let s := if held ≠ [] then s
    else { s with oasis := (gradShards j.image).foldl (fun r t =>
      match carryAddr j.image t.id with | some a => r.zero a t.gradBytes | none => r) s.oasis }
  s.onCom fun c =>
    { c with
      mbDeferred := c.mbDeferred ++ [m], cDeferred := satAdd 32 c.cDeferred 1
      cDropped := satAdd 32 c.cDropped (imgDirect j.image)
      cStretched := if stretch then satAdd 32 c.cStretched 1 else c.cStretched
      stretch := if stretch then Nat.min e.planLen (comStretchMax (imgCommit j.image)) else c.stretch
      carryG := c.stepG, carry := some (j.step, held ++ [(m, e.carrySo, false)], c.stepL) }

/-- A micro-batch dropped (R249): its kernels stop at their next tile boundary (R92). -/
def State.dropMb (s : State) (j : Job) (m : Nat) : State :=
  let s := s.onCom fun c => { c with mbDropped := c.mbDropped ++ [m], cDropped := satAdd 32 c.cDropped 1 }
  (List.range 128).foldl (fun s core =>
    match (s.core core).kernel with
    | some k => if k.step = j.step && s.kernelOfMb j core k m then s.onCore core fun c => { c with closing := true } else s
    | none => s) s

/-- MB_CUTOFF (R249): at S(n) + CUTOFF a micro-batch that is not complete overruns. Complete or not, the one after it has now
started (R233). -/
def State.mbCutoff (s : State) (m : Nat) : State :=
  match s.job with
  | none => s
  | some j =>
    match (imgMbs j.image)[m]? with
    | none => s
    | some e =>
      if !j.runs || j.fresh || s.jtInt < j.sn + e.cutoff || s.com.frozen then s
      else
        let s := s.startMbs (Nat.min (m + 2) (comMbCount (imgCommit j.image)))
        if (s.so e.doneSo).reached j.step e.count || s.com.mbDeferred.contains m || s.com.mbDropped.contains m then s
        else
          let o := comOverrun (imgCommit j.image)
          let s := s.raise Ev.mbOverrun 0 [(8, m), (2, o)] j.step
          if o = 2 then s.dropMb j m else s.deferMb j m e (o = 1)

@[inherit_doc State.mbCutoff]
def execMbCutoff (at_ mbatch : Nat) (s : State) : Res := .next ((s.tick at_).mbCutoff mbatch)

/-- CARRY_COMPLETE (R250): a deferred micro-batch completes; CARRY_SO is signalled with the step after its own. -/
def State.carryComplete (s : State) (m : Nat) : State :=
  match s.com.carry with
  | none => s
  | some (n, l, lexp) =>
    match l.find? fun x => x.1 = m && !x.2.2 with
    | none => s
    | some x =>
      let l := l.map fun y => if y.1 = m then (y.1, y.2.1, true) else y
      (s.onCom fun c => { c with carry := some (n, l, lexp) }).signal x.2.1 (n + 1)

@[inherit_doc State.carryComplete]
def execCarryComplete (at_ mbatch : Nat) (s : State) : Res := .next ((s.tick at_).carryComplete mbatch)

/-! ### The mirror (R205) -/

/-- The scale history as the mirror holds it: the tensor records in table order, the anchor tables, the job record, each
at a multiple of 64 bytes (log entry 75). -/
def State.mirrorImage (s : State) (b : Buf) : Buf :=
  let pad (x : Buf) : Buf := ⟨alignUp x.len 64, x.val⟩
  Buf.cat (((imgShards b).map fun t => pad ⟨4160, s.oasis.val t.shAddr 4160⟩) ++
    ((imgShards b).map fun t => pad ⟨2 * t.sliceSubs, s.oasis.val t.anAddr (2 * t.sliceSubs)⟩) ++ [pad s.com.hist.record])

/-- MIRROR_COPY_COMPLETE (R205): the copy to the mirror region in Erg completes. It copies what the passes of the commit's step have
left, so it is not complete before they are; a bad word that it reads is PERSISTENT data (R170). -/
def State.mirrorDone (s : State) : State :=
  match s.job, s.com.mirrorDue with
  | some j, some n =>
    if j.runs && n = j.step && !s.passesDone j.image (fun _ => true) then s
    else
      let s := s.onCom fun c => { c with mirrorDue := none }
      match imgRole j.image 4 with
      | some r =>
        let m := s.mirrorImage j.image
        let s := (imgShards j.image).foldl (fun s t =>
          (s.noteOasis (s.oasis.readAt t.shAddr 4160) .maint).noteOasis (s.oasis.readAt t.anAddr (2 * t.sliceSubs)) .maint) s
        if !s.keepsCkpt then s
        else
          ((s.ergWrite r.base (Nat.min m.len r.length) (m.val % 256 ^ (Nat.min m.len r.length))).onCom fun c =>
            { c with mirrored := some n }).ckptMirrored j.image
      | none => s
  | _, _ => s

@[inherit_doc State.mirrorDone]
def execMirrorCopyComplete (at_ : Nat) (s : State) : Res := .next (s.tick at_).mirrorDone

/-! ### Records (R258, R259) -/

/-- The commit status record (R258). -/
def Commit.record (c : Commit) : Buf :=
  packBuf 64 [(64, c.cCommits), (32, c.cSkips), (32, c.cNonfinite), (32, c.cRange), (32, c.cFault), (32, c.cFloor),
    (32, c.cDeferred), (32, c.cDropped), (32, c.cStretched), (32, c.cCarryLost), (32, c.cStretchSteps), (32, c.cListFull),
    (32, c.cProbes)]

/-- The watch record of slot `k` (R259). -/
def State.watchRecord (s : State) (b : Buf) (k : Nat) (x : Buf) : Buf :=
  let c := s.com
  let g := (slotShards b x).foldl (fun a t => Nat.max a (s.gexp t).toNat) 0
  packBuf 16 [(32, tget 0 c.wUfLast k), (16, tget 0 c.hist.ufRun k), (16, tget 0 c.wSilent k), (32, tget 0 c.wErr k),
    (16, tget 0 c.hist.nwRun k), (1, b2n (c.hist.promoted.testBit k)), (1, b2n (c.wNonzero.testBit k)), (6, g)]

end Sys2Proof.Machine
end

