-- ==== Sys2Proof/Machine/NearPort.lean ====
section
/-! DEFINITION. Near ports: link states and training (R263, R264, R437 to R439), flits (R266 to R269), planned blocks
(R270 to R279), open windows (R280 to R285), neighbour notices (R364) and the status record (R293). -/

namespace Sys2Proof.Machine

/-! ### Flits (R267, R268) -/

/-- The trailer's CRC over bytes 0 to 251 put in place (R267). -/
def sealFlit (f : Buf) : Buf := ⟨256, setBits f.val 2016 32 (crc32c f 252)⟩

/-- A flit from its fields (R267). -/
def mkFlit (type : Nat) (last resend : Bool) (tag fidx len aux payload epoch : Nat) : Buf :=
  sealFlit (packBuf 256 [(4, type), (1, b2n last), (1, b2n resend), (1, 0), (1, 0), (24, tag), (16, fidx), (8, len), (8, aux),
    (1920, payload), (16, epoch), (16, 0), (32, 0)])

/-- The flit is not lost for its own bytes: its CRC holds and no reserved encoding appears in it (R267, R269). -/
def flitGood (f : Buf) : Bool :=
  f.len = 256 && f.fld 2016 32 = crc32c f 252 && decide (flitType f ≤ 5) &&
    ((flitType f ≠ 1 && flitType f ≠ 2) || (1 ≤ flitLen f && flitLen f ≤ 240))

/-- The NAK entries in use of a control flit (R268). -/
def flitNaks (f : Buf) : List (Nat × Nat) :=
  ((List.range 40).map fun e => (f.fld (256 + 40 * e) 24, f.fld (280 + 40 * e) 16)).filter fun (n : Nat × Nat) => n.1 ≠ 0xFFFFFF

/-- The payload of a control flit (R268). -/
def ctrlPayload (credits : List Nat) (ackBlock ackFidx : Nat) (naks : List (Nat × Nat)) (lanes : Nat) : Nat :=
  let l := naks.take 40 ++ List.replicate (40 - naks.length) (0xFFFFFF, 0)
  packBits (credits.map (fun c => (16, c)) ++ [(24, ackBlock), (16, ackFidx), (24, 0)] ++
    l.flatMap (fun (n : Nat × Nat) => [(24, n.1), (16, n.2)]) ++ [(8, lanes), (120, 0)])

/-- Flits of a block (R271). -/
def Blk.flits (d : Blk) : Nat := ceilDiv d.len 240

/-- Bytes of a block read at an offset: core scratch, Oasis or the flood record, which is the result once it is known (R239,
R270). -/
def State.blkRead (s : State) (d : Blk) (off n : Nat) : Nat × State :=
  if d.space = 0 then s.scratchRead d.core (d.addr + off) n .dma
  else if d.space = 1 then s.oasisRead (d.addr + off) n .dma
  else (((s.com.result.getD (s.com.flood.getD (Buf.zeros 1152))).slice off n).val, s)

/-- Bytes of a block written: core scratch as an outside writer (R72, R270), or Oasis. -/
def State.blkWrite (s : State) (d : Blk) (off n v : Nat) : State :=
  if d.space = 0 then s.outsideWrite d.core (d.addr + off) n v
  else if d.space = 1 then s.oasisWrite (d.addr + off) n v
  else s

/-- The first catch-up entry on the target of an entry at or after the end of its footprint: the receive hold of a
receive entry (R273), the resend slot of a send entry (R278). -/
def holdOf (b : Buf) (e : Entry) : Option (Nat × Entry) :=
  (imgEntryList b).foldl (fun (a : Option (Nat × Entry)) (x : Nat × Entry) =>
    if x.2.action = 0xF0 && x.2.target = e.target && e.finish ≤ x.2.offset then
      match a with
      | none => some x
      | some y => if x.2.offset < y.2.offset then some x else a
    else a) none

/-- A fault-class miss of entry `i` of the armed image. -/
def State.missEntry (s : State) (i : Nat) : State :=
  match s.job with
  | none => s
  | some j => s.faultMiss i (imgEntry j.image i)

/-! ### Sending planned blocks (R271, R274, R277, R287) -/

/-- End of flit `k`, in ns from the first: one slot of 1.28 ns at 8 lanes, and a link slot after every 74 data flits
(R263, R266, R271). -/
def flitEnd (width k : Nat) : Nat := ceilDiv (128 * 8 * (k + k / 74 + 1)) (100 * Nat.max width 1)

/-- The first slot that begins at or after an HT, counted over the link frames: 400 slots of a frame for each lane (R263, R266). -/
def slotFrom (width ht : Nat) : Nat := ht / 4096 * (400 * width) + ceilDiv (100 * width * (ht % 4096)) 1024

/-- A slot is a data slot: its index in the frame is no multiple of 75 (R266). -/
def dataSlot (width k : Nat) : Bool := k % (400 * width) % 75 ≠ 0

/-- A link slot for a control flit begins at an HT: every 75th slot but slot 0 (R266). -/
def linkSlotAt (width ht : Nat) : Bool := ht % 4096 ≠ 0 && ht % 4096 % (768 / Nat.max width 1) = 0

/-- The version tag of a tensor's shard (R287); before any round is applied ROUND is all ones (log entry 101). -/
def State.versionTag (s : State) (j : Job) (x : Shard) : Nat :=
  packBits [(64, s.com.lastFinite), (32, lastRound (s.frag x.fragment).applied), (16, x.epoch), (16, 0),
    (128, s.shardDigest (imgJobId j.image) x)]

/-- Where a block's source is AFX blocks: it lies in a reduction buffer region of the memory plan (R198, R370). -/
def Blk.isAfx (b : Buf) (d : Blk) : Bool :=
  d.space = 1 && (imgRegions b).any fun r => r.role = 1 && r.holds 1 0 d.addr

/-- Some AFX block of a byte string has NF set. -/
def anyNf : Nat → Buf → Bool
  | 0, _ => false
  | n + 1, b => if b.len < 32 then false else afxNf b || anyNf n (b.drop (afxLen (afx32 b)))

/-- Flits of a direction in its replay buffer at the present instant: sent and not acknowledged (R277). -/
def NearPort.replayUsed (p : NearPort) (ht : Nat) : Nat :=
  (p.sent.map fun x => x.flits.countP fun f => x.start + flitEnd p.width (flitIdx f) ≤ ht).sum

/-- The replay buffer holds 1 MiB, 4,096 flits; what does not fit is not kept (R277). -/
def State.replayCheck (s : State) (p : Nat) : State :=
  let n := s.port p
  if n.replayUsed s.htNow ≤ 4096 then s
  else
    match n.sent.getLast? with
    | none => s
    | some x =>
      let s := s.putPort p { n with sent := n.sent.dropLast ++ [{ x with flits := x.flits.take (x.flits.length - (n.replayUsed s.htNow - 4096)) }] }
      (s.raise Ev.linkHeldFull p [(24, x.block)] x.step).missEntry x.entry

/-- The flits of a block (R271). -/
def blockFlits (d : Blk) (step v : Nat) : List Buf :=
  (List.range d.flits).map fun k =>
    let n := Nat.min 240 (d.len - 240 * k)
    mkFlit 1 (k + 1 = d.flits) false d.block k n (step % 256) (bits v (1920 * k) (8 * n)) d.epoch

/-- The committed data that a record names, from the layout of image `b` (R206, R290). -/
def State.recPayload (s : State) (b : Buf) (r : Rec) : Option Buf :=
  match imgShard b r.tensor with
  | none => none
  | some t =>
    if r.kind = 0x10 then some ⟨4160, s.oasis.val t.shAddr 4160⟩
    else if !t.ownsBlock r.row r.col then none
    else if r.kind = 0x11 then some (s.anchorPay t r.row r.col)
    else if r.kind = 7 then (if t.snaps = 0 then none else some (s.blockPay t (.snapshot (r.round % t.snaps)) r.row r.col))
    else (t.kinds.find? fun k => k.1 = r.kind).map fun k => s.blockPay t k.2 r.row r.col

/-- The records of a block of committed state (R290): the block's source names them by their headers, and the owner puts in their
payloads and DIGESTs (log entry 151). -/
def State.formRecords (s : State) (b src : Buf) : Nat → Nat → Nat
  | 0, _ => src.val
  | fuel + 1, off =>
    let h := src.slice off 96
    if src.len < off + 96 || h.fld 0 32 ≠ 0x52534C4F || h.fld 32 16 ≠ 3 then src.val
    else
      let r : Rec := ⟨h.fld 48 8, h.fld 64 20, h.fld 96 16, h.fld 112 16, h.fld 128 16, h.fld 144 16, h.fld 160 16, h.fld 192 64,
        h.fld 256 32, Buf.empty⟩
      match s.recPayload b r with
      | none => src.val
      | some pay =>
        let x := { r with payload := pay }.bytes
        if src.len < off + x.len then src.val
        else s.formRecords b ⟨src.len, setBits src.val (8 * off) (8 * x.len) x.val⟩ fuel (off + x.len)

/-- The image whose owners' state the blocks of epoch E + 1 move: the running one before B, the older one in step B (R290). -/
def Job.movesFrom (j : Job) (epoch : Nat) : Option Buf :=
  match j.relayout, j.oldImage with
  | some (_, img), _ => if epoch = imgEpoch img then some j.image else none
  | none, some o => if epoch = imgEpoch j.image && j.drainStep = j.step then some o else none
  | none, none => none

/-- The image whose places the records of a block of epoch E + 1 take, up to their first use in step B (R290). -/
def Job.movesTo (j : Job) (epoch : Nat) : Option Buf :=
  match j.relayout, j.oldImage with
  | some (_, img), _ => if epoch = imgEpoch img then some img else none
  | none, some _ => if epoch = imgEpoch j.image && j.drainStep = j.step then some j.image else none
  | none, none => none

/-- A planned block sent from now on; `fin` is the end of the footprint in JT. Where every flit ends by then the action
completes; FOOTPRINT_END cuts it otherwise (R64). -/
def State.sendBlock (s : State) (j : Job) (i : Nat) (e : Entry) (fin : Nat) (gather : Option Nat) : State :=
  let p := e.target - 0xB0
  let d := Blk.ofBuf (imgBlock j.image e.arg)
  let (v, s) := s.blkRead d 0 d.len
  let s := if d.space = 2 then s.onCom fun c => { c with floodSent := true } else s
  let v := match j.movesFrom d.epoch with
    | some b => s.formRecords b ⟨d.len, v⟩ (d.len / 96 + 1) 0
    | none => v
  let v := match gather.bind (imgShard j.image) with
    | some x => setBits v 0 256 (s.versionTag j x)
    | none => v
  let s := if d.isAfx j.image && anyNf (d.len / 1056 + 1) ⟨d.len, v⟩ then s.cause 0 else s
  let n := s.port p
  let fits := (blockFlits d j.step v).filter fun f => s.jt + flitEnd n.width (flitIdx f) ≤ fin
  let s := fits.foldl (fun s f => s.emit (.flit p f)) s
  let s := s.onPort p fun n =>
    { n with sent := n.sent ++ [⟨i, d.block, j.step, s.htNow, fits, [], false⟩]
             txBusy := if fits = [] then n.txBusy else s.htNow + flitEnd n.width (fits.length - 1) }
  let s := s.replayCheck p
  if fits.length = d.flits && s.ent i ≠ .faulted then s.completeEntry i j.step else s

/-- A send entry that has just been skipped sends a single SKIP flit (R274); `was` is what it was before. -/
def State.skipSent (t : State) (j : Job) (i : Nat) (e : Entry) (was : EntryState) : State :=
  if e.action = 0x40 && was ≠ .skipped && t.ent i = .skipped then
    let d := Blk.ofBuf (imgBlock j.image e.arg)
    t.emit (.flit (e.target - 0xB0) (mkFlit 5 true false d.block 0 1 (j.step % 256) 0 d.epoch))
  else t

/-- The fragment whose sum region a planned block of the round owner carries (R314). -/
def Blk.sumOf (b : Buf) (d : Blk) : Option Nat :=
  if d.space ≠ 1 || !imgNormEn b then none
  else (imgFrags b).find? fun f => (outerPasses b f).any fun p => sumAddr b p.1 f = d.addr

/-- A send of a sum region whose fragment's mode of the step is NONE: the round owner skips it (R314). -/
def State.sumIdle (s : State) (j : Job) (e : Entry) : Bool :=
  ((Blk.ofBuf (imgBlock j.image e.arg)).sumOf j.image).any fun f => (s.frag f).sumMode = 0 || (s.frag f).sumStep ≠ j.step

/-- A send entry starts: its block is sent, or the round owner skips it (R271, R314). -/
def State.startSend (s : State) (j : Job) (i : Nat) (e : Entry) (fin : Nat) (gather : Option Nat) : State :=
  if s.sumIdle j e then s.skipEntry i e else s.sendBlock j i e fin gather

/-- SEND_PLANNED_BLOCK (R271): timetable action 0x40. -/
def State.sendPlanned (s : State) (i : Nat) (gather : Option Nat) : State :=
  match s.entry? i with
  | none => s
  | some (j, e) =>
    (s.dispatch i 0x40 fun s j e => s.startSend j i e (j.sn + e.finish) gather).skipSent j i e (s.ent i)

@[inherit_doc State.sendPlanned]
def execSendPlannedBlock (at_ entry : Nat) (gather : Option Nat) (s : State) : Res :=
  .next ((s.tick at_).sendPlanned entry gather)

/-! ### Receiving planned blocks (R273, R274, R276, R287, R291) -/

/-- JT at which the footprint of an entry's receive hold ends (R273). -/
def Job.holdFin (j : Job) (e : Entry) : Nat :=
  j.sn + match holdOf j.image e with | some (_, h) => h.finish | none => e.finish

/-- Two blocks' buffers overlap. -/
def Blk.overlaps (d x : Blk) : Bool :=
  d.space = x.space && d.core = x.core && decide (d.addr < x.addr + x.len) && decide (x.addr < d.addr + d.len)

/-- Receive entries whose buffer a new block reuses while a Spillway write of theirs is not complete (R202). -/
def State.unspilled (s : State) (j : Job) (d : Blk) : List Nat :=
  (s.spills.filterMap fun x => if x.present then none else x.entry).dedup.filter fun i =>
    (Blk.ofBuf (imgBlock j.image (imgEntry j.image i).arg)).overlaps d

/-- A receive entry binds its block until its receive hold ends (R273). A buffer reused before a Spillway write from it is complete
is a fault-class miss of the entry that the write came through (R202). -/
def State.bindBlock (s : State) (j : Job) (i : Nat) (e : Entry) : State :=
  let b := imgBlock j.image e.arg
  let s := (s.unspilled j (Blk.ofBuf b)).foldl (fun s k => s.missEntry k) s
  s.onPort (e.target - 0xB8) fun n =>
    { n with binds := (n.binds.filter fun x => !x.done || decide (s.jt < x.fin)) ++
      [⟨i, b, j.step, [], [], (Blk.ofBuf b).flits, [], [], 0, false, false, j.holdFin e⟩] }

/-- RECEIVE_PLANNED_BLOCK (R273): timetable action 0x48. -/
def State.receivePlanned (s : State) (i : Nat) : State := s.dispatch i 0x48 fun s j e => s.bindBlock j i e

@[inherit_doc State.receivePlanned]
def execReceivePlannedBlock (at_ entry : Nat) (s : State) : Res := .next ((s.tick at_).receivePlanned entry)

/-- Binding `k` of a direction changed. -/
def State.onBind (s : State) (p k : Nat) (f : Bind → Bind) : State :=
  s.onPort p fun n => { n with binds := n.binds.modify k f }

/-- A block that has taken a place in its receive hold gives it back. -/
def State.freeHold (s : State) (x : Bind) : State :=
  match s.job with
  | some j =>
    if x.holdOver then
      match holdOf j.image (imgEntry j.image x.entry) with
      | some (h, _) => { s with rxHold := tset 0 s.rxHold h (tget 0 s.rxHold h - 1) }
      | none => s
    else s
  | none => s

/-- Binding `k` ends; its place in the receive hold, if it took one, is free again. -/
def State.unbind (s : State) (p k : Nat) : State :=
  match (s.port p).binds[k]? with
  | some x => (s.onPort p fun n => { n with binds := n.binds.eraseIdx k }).freeHold x
  | none => s

/-- The block of binding `k` is complete: it stays bound until its receive hold ends, and takes no place there (R273, log entry
152). -/
def State.bindDone (s : State) (p k : Nat) : State :=
  match (s.port p).binds[k]? with
  | some x => (s.onBind p k fun x => { x with done := true, holdOver := false }).freeHold x
  | none => s

/-- From the step after B of a re-layout, a flit or an AFX block of the older epoch is EPOCH_STRAY (R291). -/
def Job.oldEpoch (j : Job) (epoch : Nat) : Bool :=
  j.drainStep ≠ 0 && j.drainStep < j.step && epoch + 1 = imgEpoch j.image

/-- A stray flit: discarded, counted, and raised at most once per step (R273, R291, R294). -/
def State.strayFlit (s : State) (p : Nat) (f : Buf) : State :=
  let n := s.port p
  let s := s.putPort p { n with strays := satAdd 32 n.strays 1 }
  let s := if n.strayStep = some s.stepNo then s
    else (s.raise Ev.linkStray p [(24, flitBlock f)] s.stepNo).onPort p fun n => { n with strayStep := some s.stepNo }
  match s.job with
  | some j => if j.oldEpoch (flitEpoch f) then s.fatal Ev.epochStray p [(24, flitBlock f)] else s
  | none => s

/-- The binding that accepts a flit at JT `jt`: its BLOCK is bound, and EPOCH and step match (R273). -/
def NearPort.bound (n : NearPort) (jt : Nat) (f : Buf) : Option Nat :=
  n.binds.findIdx? fun x =>
    (Blk.ofBuf x.desc).block = flitBlock f && (Blk.ofBuf x.desc).epoch = flitEpoch f && x.step % 256 = flitStep f &&
      (!x.done || decide (jt < x.fin))

/-- The binding that takes a SCHED or SKIP flit now: none from the step after B of a re-layout on for a flit of the older epoch
(R273, R291). -/
def State.boundNow (s : State) (p : Nat) (f : Buf) : Option Nat :=
  match s.job with
  | some j => if j.oldEpoch (flitEpoch f) then none else (s.port p).bound s.jt f
  | none => none

/-- Whether every byte of a range of a block has arrived. -/
def Bind.has (x : Bind) (off n : Nat) : Bool :=
  (List.range ((off + n - 1) / 240 - off / 240 + 1)).all fun k => x.got.contains (off / 240 + k)

/-- An AFX block of epoch E that arrives in step B is given epoch E + 1 before it is added (R291). -/
def Job.drained (j : Job) (b : Buf) : Buf :=
  match j.oldImage with
  | some o => if afxEpoch b = imgEpoch o then ⟨b.len, setBits b.val 144 16 (imgEpoch j.image)⟩ else b
  | none => b

/-- A complete AFX block at offset `off` of a received block (R194, R199, R270). -/
def State.takeAfx (s : State) (j : Job) (p : Nat) (x : Bind) (off : Nat) (b : Buf) : State :=
  if j.oldEpoch (afxEpoch b) then
    (s.onPort p fun n => { n with strays := satAdd 32 n.strays 1 }).fatal Ev.epochStray p [(24, (Blk.ofBuf x.desc).block)]
  else
    let d := Blk.ofBuf x.desc
    let b := j.drained b
    if d.rxOp = 2 then
      s.finalSum b (some x.entry)
    else
      let (old, s) := s.blkRead d off b.len
      match afxAdd ⟨b.len, old⟩ b with
      | some sum => s.blkWrite d off b.len sum.val
      | none => s.fatal Ev.afxMismatch (0x80 + (if d.space = 0 then d.core / 16 else d.addr / oasisSize))

/-- AFX blocks that have become complete, from offset `off` on, up to the first whose header has not arrived. -/
def State.sweepAfx (s : State) (j : Job) (p k off : Nat) : Nat → State
  | 0 => s
  | fuel + 1 =>
    match (s.port p).binds[k]? with
    | none => s
    | some x =>
      let d := Blk.ofBuf x.desc
      if d.len < off + 32 || !x.has off 32 then s
      else
        let n := afxLen (bit x.data (8 * off + 16))
        let s :=
          if d.len < off + n || x.afxDone.contains off || !x.has off n then s
          else
            let s := s.onBind p k fun x => { x with afxDone := x.afxDone ++ [off] }
            s.takeAfx j p x off ⟨n, bits x.data (8 * off) (8 * n)⟩
        s.sweepAfx j p k (off + n) fuel

/-- A flit accepted into binding `k`: its bytes are written, complete AFX blocks are added, and lower flits that have
not come are named missing (R270, R276). -/
def State.acceptFlit (s : State) (j : Job) (p k : Nat) (f : Buf) : State :=
  match (s.port p).binds[k]? with
  | none => s
  | some x =>
    let d := Blk.ofBuf x.desc
    let i := flitIdx f
    let off := 240 * i
    if x.got.contains i || d.len ≤ off then s
    else
      let n := Nat.min (flitLen f) (d.len - off)
      let v := flitPayload f % 256 ^ n
      let got := x.got ++ [i]
      let gap := (List.range i).filter fun m => !got.contains m && !x.missing.contains m
      let s := s.onBind p k fun x =>
        { x with got, data := x.data + v <<< (8 * off), missing := (x.missing ++ gap).filter (· ≠ i),
                 resent := if flitResend f then x.resent ++ [i] else x.resent }
      let s := s.onPort p fun m => { m with acks := (m.acks.filter fun a => a.1 ≠ d.block) ++ [(d.block, got.foldl Nat.max 0)] }
      if d.rxOp = 1 || d.rxOp = 2 then s.sweepAfx j p k 0 (d.len / 1056 + 1)
      else s.blkWrite d off n v

/-- A flit lost on a direction: discarded and counted (R269, R293). -/
def State.loseFlit (s : State) (p : Nat) : State := s.onPort p fun n => { n with lost := satAdd 32 n.lost 1 }

/-- The codewords of a flit: those of `bad` lanes are uncorrectable, and count; on every other lane the run of R264 ends. -/
def State.codewords (s : State) (p : Nat) (bad : List Nat) : State :=
  s.onPort p fun n =>
    { n with fecUncorr := satAdd 32 n.fecUncorr bad.length
             fecRun := bad.foldl (fun t k => tset 0 t k (tget 0 n.fecRun k + 1)) [] }

/-- An active lane has had 64 consecutive uncorrectable codewords (R264). -/
def NearPort.fecBroken (n : NearPort) : Bool := (List.range 8).any fun k => n.lanes.testBit k && decide (64 ≤ tget 0 n.fecRun k)

/-- LINK_DOWN (R264): an exit from UP to retraining; fault class where the armed main job uses the port. -/
def State.linkDown (s : State) (p : Nat) : State :=
  let n := s.port p
  if n.state ≠ .up then s
  else
    let s := s.putPort p { n with
      state := .training, width := 0, lanes := 0, fecRun := [], trainAt := s.now, wasUp := true, retrains := satAdd 16 n.retrains 1
      peerSeen := false }
    let s := if s.ht.source = p then s.sourceLost else s
    match s.job with
    | some j =>
      if j.live && imgWidth j.image p ≠ 0 then s.fatal Ev.linkDown p else s.raise { Ev.linkDown with sev := 1 } p
    | none => s.raise { Ev.linkDown with sev := 1 } p

/-- FLIT_LOST (R269): a flit whose codewords on `lanes` are uncorrectable, or, with no such lane, whose CRC failed or which held a
reserved encoding. The 64th uncorrectable codeword in a row of an active lane takes the port from UP (R264). -/
def State.flitLost (s : State) (p : Nat) (lanes : List Nat) (f : Buf) : State :=
  if (s.port p).state ≠ .up || (lanes = [] && flitGood f) then s
  else
    let s := (s.loseFlit p).codewords p lanes
    if (s.port p).fecBroken then s.linkDown p else s

@[inherit_doc State.flitLost]
def execFlitLost (at_ port : Nat) (lanes : List Nat) (flit : Buf) (s : State) : Res :=
  .next ((s.tick at_).flitLost port lanes flit)

/-- A flit that arrives on a port: where its link is not UP it does not exist, where it is bad it is lost (R269), and
where it is not of the given type the row does not apply. -/
def State.flitIn (s : State) (p type : Nat) (f : Buf) (act : State → State) : State :=
  if (s.port p).state ≠ .up then s
  else if !flitGood f then (s.loseFlit p).codewords p []
  else if flitType f ≠ type then s
  else act (s.codewords p [])

/-- SCHED_FLIT_RX (R273): accepted into its bound block, or stray. -/
def State.schedRx (s : State) (p : Nat) (f : Buf) : State :=
  s.flitIn p 1 f fun s =>
    match s.boundNow p f, s.job with
    | some k, some j => s.acceptFlit j p k f
    | _, _ => s.strayFlit p f

@[inherit_doc State.schedRx]
def execSchedFlitRx (at_ port : Nat) (flit : Buf) (s : State) : Res := .next ((s.tick at_).schedRx port flit)

/-- SKIP_FLIT_RX (R274): the block completes without data and signals SIG_SO with the skip mark. -/
def State.skipRx (s : State) (p : Nat) (f : Buf) : State :=
  s.flitIn p 5 f fun s =>
    match s.boundNow p f, s.job with
    | some k, some j =>
      match (s.port p).binds[k]? with
      | some x =>
        if x.done then s
        else
        let e := imgEntry j.image x.entry
        let s := s.bindDone p k
        let s := if x.step = j.step then s.putEnt x.entry .done else s
        if e.sigEn then s.signal e.sigSo x.step true else s
      | none => s
    | _, _ => s.strayFlit p f

@[inherit_doc State.skipRx]
def execSkipFlitRx (at_ port : Nat) (flit : Buf) (s : State) : Res := .next ((s.tick at_).skipRx port flit)

/-- The flood record of a hop (R237, R239, R270): combined into the step controller's until a hop has taken that on; from then on
it is the result on its way back (log entry 153). -/
def State.floodIn (s : State) (r : Buf) : State :=
  if s.com.floodSent then s.floodResult r
  else
  match s.com.flood with
  | none => s.onCom fun c => { c with flood := some r }
  | some own =>
    match floodJoin own r with
    | some x => s.onCom fun c => { c with flood := some x }
    | none => s.fatal Ev.floodFault

/-- The records of a block, placed by their logical coordinates (R206, R290). -/
def State.placeRecords (b data : Buf) : Nat → Nat → State → State
  | 0, _, s => s
  | fuel + 1, off, s =>
    match recAt data off with
    | none => s
    | some r => State.placeRecords b data fuel (off + recLen r.payload.len) (s.placeRec b r)

/-- RECEIVE_BLOCK_COMPLETE (R273): every byte of a bound block has arrived. The flood record is combined, or taken as the result
(R237, R239), a GATHER_CHECK compares the version tags (R287), and SIG_SO is signalled with the step of the entry. A stored block
of epoch E + 1 that comes before its first use carries records of its owner's new state (R290). -/
def State.blockComplete (s : State) (p block : Nat) : State :=
  let n := s.port p
  match n.binds.findIdx? fun x => (Blk.ofBuf x.desc).block = block && x.got.length = x.total && !x.done with
  | none => s
  | some k =>
    match n.binds[k]? with
    | none => s
    | some x =>
      let d := Blk.ofBuf x.desc
      let s := s.bindDone p k
      let s := if d.rxOp = 3 then s.floodIn ⟨d.len, x.data⟩ else if d.space = 2 then s.floodResult ⟨d.len, x.data⟩ else s
      let s := match s.job.bind fun j => j.movesTo d.epoch with
        | some img => if d.rxOp = 0 then State.placeRecords img ⟨d.len, x.data⟩ (d.len / 96 + 1) 0 s else s
        | none => s
      if d.rxOp = 5 then
        let (tag, s) := s.blkRead { d with addr := d.check } 0 32
        if tag ≠ x.data % 2 ^ 256 then s.fatal Ev.gatherVersion p [(24, block)] else s.completeEntry x.entry x.step
      else s.completeEntry x.entry x.step

@[inherit_doc State.blockComplete]
def execReceiveBlockComplete (at_ port block : Nat) (s : State) : Res := .next ((s.tick at_).blockComplete port block)

/-- RECEIVE_HOLD_END (R273, R279): the footprint of the receive hold ends with a block incomplete: a fault-class miss of
its receive entry, with LINK_RESEND_FAULT where a flit named missing has not come again. On a hop of the verdict flood it
is FLOOD_FAULT instead (R241). -/
def State.holdEnd (s : State) (p block : Nat) : State :=
  match s.job with
  | none => s
  | some _ =>
    let n := s.port p
    match n.binds.findIdx? fun x => (Blk.ofBuf x.desc).block = block && x.got.length ≠ x.total && !x.done with
    | none => s
    | some k =>
      match n.binds[k]? with
      | none => s
      | some x =>
        if s.jtInt < x.fin then s
        else
          let s := s.unbind p k
          let d := Blk.ofBuf x.desc
          if d.rxOp = 3 || d.space = 2 then
            (s.raise Ev.linkBlockIncomplete p [(24, block)] x.step).fatal Ev.floodFault p [(24, block)]
          else
            let s := if x.missing ≠ [] then s.raise Ev.linkResendFault p [(24, block)] x.step else s
            (s.raise Ev.linkBlockIncomplete p [(24, block)] x.step).missEntry x.entry

@[inherit_doc State.holdEnd]
def execReceiveHoldEnd (at_ port block : Nat) (s : State) : Res := .next ((s.tick at_).holdEnd port block)

/-! ### Open windows (R280 to R285) -/

/-- The continuous open window runs: no main job is armed, or its first step has not started (R285). -/
def State.continuous (s : State) : Bool :=
  match s.job with
  | none => true
  | some j => j.fresh || j.phase = .stopped || j.phase = .restarting

/-- Credits of a VC-lane in force on a receive direction: half of the VC's credits (R281, R285). -/
def State.allotment (s : State) (p lane : Nat) : Nat :=
  let v := lane / 2
  if s.continuous then (if v = 0 || v = 2 then 256 else 0)
  else
    match s.job, (s.port p).rxProfile with
    | some j, some k => (imgRec j.image 0x05 0 16 k).fld (10 * v) 10 / 2
    | _, _ => 0

/-- A window opens on a transmit direction until `fin` in JT (R281). -/
def State.startTx (s : State) (i : Nat) (e : Entry) (fin : Nat) : State :=
  s.onPort (e.target - 0xB0) fun n => { n with txWindow := some (i, e.arg, fin), txGuest := 0 }

/-- OPEN_TX_WINDOW (R281): timetable action 0x41 opens a window for its footprint. -/
def State.openTx (s : State) (i : Nat) : State := s.dispatch i 0x41 fun s j e => s.startTx i e (j.sn + e.finish)

@[inherit_doc State.openTx]
def execOpenTxWindow (at_ entry : Nat) (s : State) : Res := .next ((s.tick at_).openTx entry)

/-- A credit profile comes into force until the next (R281). -/
def State.startRx (s : State) (j : Job) (i : Nat) (e : Entry) : State :=
  (s.onPort (e.target - 0xB8) fun n => { n with rxProfile := some e.arg }).completeEntry i j.step

/-- OPEN_RX_WINDOW (R281): timetable action 0x49. -/
def State.openRx (s : State) (i : Nat) : State := s.dispatch i 0x49 fun s j e => s.startRx j i e

@[inherit_doc State.openRx]
def execOpenRxWindow (at_ entry : Nat) (s : State) : Res := .next ((s.tick at_).openRx entry)

/-- The port and wrap lane of the next hop of an OPEN flit, in dimension order and the shorter way round, + on a tie;
`none` where it has arrived (R283). `in_` is the port it came by and `lane` its lane there. -/
def nextHop (b : Buf) (f : Buf) (in_ lane : Nat) : Option (Nat × Nat) :=
  let dest (a : Nat) : Nat := f.fld (8 + 6 * a) 6
  let own (a : Nat) : Nat := cwCoord (imgCw b) a
  match (List.range 4).find? fun a => dest a ≠ own a with
  | none => none
  | some a =>
    let n := imgSize b a
    let up := (dest a + n - own a) % n
    let down := (own a + n - dest a) % n
    let port := if up ≤ down then 2 * a else 2 * a + 1
    let crossed := if in_ % 2 = 0 then own a + 1 = n else own a = 0
    some (port, if in_ / 2 = a && (lane = 1 || crossed) then 1 else 0)

/-- Flits that lie in the open buffer of a receive direction (R281). -/
def NearPort.openHeld (n : NearPort) : Nat := ((List.range 8).map fun k => tget 0 n.rxHeld k).sum

/-- A message cut off by the loss of a flit can no longer be delivered in FIDX order: its flits leave the open buffer (R282, log entry
154). -/
def NearPort.dropMessage (n : NearPort) (v id : Nat) : NearPort :=
  let k := tget 0 n.rxMsgs (64 * v + id)
  let r := n.inbox.reverse.foldl (fun (a : Nat × List (Nat × Buf) × Tab Nat) y =>
    if a.1 ≠ 0 && y.1 = v && flitMsg y.2 = id then
      (let l := 2 * v + flitWrap y.2
       (a.1 - 1, a.2.1, tset 0 a.2.2 l (tget 0 a.2.2 l - 1)))
    else (a.1, y :: a.2.1, a.2.2)) (k, [], n.rxHeld)
  { n with inbox := r.2.1, rxHeld := r.2.2, rxMsgs := tset 0 n.rxMsgs (64 * v + id) 0 }

/-- A flit of a message for this device: delivered in FIDX order (R282). On VC 1 and VC 3 its bytes go to the memory the message
names and its place is free at once; on VC 0 and VC 2 it keeps its place until the message is taken (R280). -/
def NearPort.deliverOpen (n : NearPort) (f : Buf) : NearPort :=
  let v := flitVc f
  let lane := 2 * v + flitWrap f
  let key := 64 * v + flitMsg f
  let n := if flitIdx f = tget 0 n.rxMsgs key then n else n.dropMessage v (flitMsg f)
  if flitIdx f ≠ tget 0 n.rxMsgs key then n
  else
    let n := { n with rxMsgs := tset 0 n.rxMsgs key (if flitLast f then 0 else flitIdx f + 1) }
    if v % 2 = 1 then n
    else { n with inbox := n.inbox ++ [(v, f)], rxHeld := tset 0 n.rxHeld lane (tget 0 n.rxHeld lane + 1) }

/-- OPEN_FLIT_RX (R283): delivered here, or held in the open buffer for its next hop. A credit the peer used is gone. A flit
that finds all 1,024 places taken, which no credit allows, is discarded (R281, log entry 154). -/
def State.openFlitIn (s : State) (p : Nat) (f : Buf) : State :=
  s.flitIn p 2 f fun s =>
    let v := flitVc f
    let lane := 2 * v + flitWrap f
    let s := s.onPort p fun n => { n with lent := tset 0 n.lent lane (tget 0 n.lent lane - 1) }
    if 1024 ≤ (s.port p).openHeld then s
    else
      let hop := match s.job with
        | some j => nextHop j.image f p (flitWrap f)
        | none => none
      match hop with
      | some (q, w) =>
        let out := 2 * v + w
        let f := sealFlit ⟨256, setBits f.val 6 1 w⟩
        let s := s.onPort p fun n => { n with rxHeld := tset 0 n.rxHeld lane (tget 0 n.rxHeld lane + 1) }
        s.onPort q fun n =>
          ({ n with txq := tset [] n.txq out (tget [] n.txq out ++ [(8 * p + lane, f)]) } : NearPort).settle s.now
      | none => s.onPort p fun n => n.deliverOpen f

@[inherit_doc State.openFlitIn]
def execOpenFlitRx (at_ port : Nat) (flit : Buf) (s : State) : Res := .next ((s.tick at_).openFlitIn port flit)

/-- An OPEN flit may be sent on a VC now: in the continuous window, or within an open window whose TXMAX_GUEST it keeps
(R281, R285). -/
def State.windowOpen (s : State) (p v : Nat) : Bool :=
  s.continuous ||
    match s.job, (s.port p).txWindow with
    | some j, some (_, prof, fin) =>
      let most := (imgRec j.image 0x05 0 16 prof).fld 64 16
      s.jt < fin && (v ≠ 1 || most = 0 || (s.port p).txGuest < most)
    | _, _ => false

/-- OPEN_FLIT_SEND (R281): the oldest flit queued on a VC-lane is sent in a data slot (R266), once it holds a credit within an open
window; a held producer goes on into the place that its queue then has (R284). -/
def State.openSend (s : State) (p v w : Nat) : State :=
  let lane := 2 * v + w
  let n := (s.port p).settle s.now
  let s := s.putPort p n
  let slot := slotFrom n.width s.htNow
  match tget [] n.txq lane with
  | [] => s
  | (from_, f) :: rest =>
    if n.state ≠ .up || tget 0 n.credits lane = 0 || !s.windowOpen p v || !dataSlot n.width slot || slot < n.openSlot then s
    else
      let s := s.emit (.flit p (sealFlit f))
      let s := s.putPort p ((({ n with
        txq := tset [] n.txq lane rest, credits := tset 0 n.credits lane (tget 0 n.credits lane - 1), openSlot := slot + 1
        txGuest := if v = 1 then n.txGuest + 1 else n.txGuest } : NearPort).refill).settle s.now)
      if from_ < 64 then
        s.onPort (from_ / 8) fun m => { m with rxHeld := tset 0 m.rxHeld (from_ % 8) (tget 0 m.rxHeld (from_ % 8) - 1) }
      else s

@[inherit_doc State.openSend]
def execOpenFlitSend (at_ port vc lane : Nat) (s : State) : Res := .next ((s.tick at_).openSend port vc lane)

/-! ### Link slots (R266, R268, R276 to R278) -/

/-- LINK_FRAME_START (R266): a frame starts at each HT that is a multiple of 4,096 ns. `fixed` FEC codewords have been corrected on
the port's receive direction since the frame before (R293, log entry 155). -/
def State.linkFrame (s : State) (p fixed : Nat) : State :=
  let n := s.port p
  let t := s.htNow
  if n.state ≠ .up || !s.htValid || t % 4096 ≠ 0 || (n.frames ≠ 0 && n.frameHt = t) then s
  else s.putPort p { n with frames := n.frames + 1, frameHt := t, fecCorr := satAdd 32 n.fecCorr fixed }

@[inherit_doc State.linkFrame]
def execLinkFrameStart (at_ : Nat) (row : FramePort) (s : State) : Res := .next ((s.tick at_).linkFrame row.port row.fixed)

/-- Credits that a receive direction returns on a VC-lane: what its allotment leaves over flits held and credits already
granted (R281). -/
def State.toLend (s : State) (p lane : Nat) : Nat :=
  let n := s.port p
  s.allotment p lane - tget 0 n.rxHeld lane - tget 0 n.lent lane

/-- What the next control flit acknowledges: the oldest block with arrivals not yet acknowledged, or again the last one
(R268, R276). -/
def NearPort.nextAck (n : NearPort) : Nat × Nat := n.acks.headD (n.ackBlock, n.ackFidx)

/-- The NAK entries a direction has to send, those of the block it acknowledges first (R276). -/
def NearPort.naks (n : NearPort) : List (Nat × Nat) :=
  let l := n.binds.flatMap fun x => x.missing.map fun m => ((Blk.ofBuf x.desc).block, m)
  (l.filter fun (m : Nat × Nat) => m.1 = n.nextAck.1) ++ (l.filter fun (m : Nat × Nat) => m.1 ≠ n.nextAck.1)

/-- The acknowledgement, held below the first missing flit that finds no NAK entry (R268). -/
def NearPort.ackUpTo (n : NearPort) : Nat :=
  match ((n.naks.filter fun (m : Nat × Nat) => m.1 = n.nextAck.1).map (fun (m : Nat × Nat) => m.2)).drop 40 with
  | m :: _ => Nat.min n.nextAck.2 (m - 1)
  | [] => n.nextAck.2

/-- CONTROL_SLOT (R266, R268, R276): at a link slot, a control flit with credits, an acknowledgement and the NAKs. -/
def State.controlSlot (s : State) (p : Nat) : State :=
  let n := s.port p
  if n.state ≠ .up || !linkSlotAt n.width s.htNow || n.ctlHt = s.htNow + 1 then s
  else
    let lend := (List.range 8).map fun k => s.toLend p k
    let payload := ctrlPayload lend n.nextAck.1 n.ackUpTo n.naks n.lanesOk
    let s := s.emit (.flit p (mkFlit 3 false false 0 0 240 0 payload 0))
    s.putPort p { n with
      lent := (List.range 8).foldl (fun t k => tset 0 t k (tget 0 t k + s.toLend p k)) n.lent
      ackBlock := n.nextAck.1, ackFidx := n.nextAck.2, acks := n.acks.tail, ctlHt := s.htNow + 1 }

@[inherit_doc State.controlSlot]
def execControlSlot (at_ port : Nat) (s : State) : Res := .next ((s.tick at_).controlSlot port)

/-- The block sent that a NAK or an acknowledgement of a block id means: the last sent under it. -/
def NearPort.sentOf (n : NearPort) (block : Nat) : Option Nat :=
  match (n.sent.reverse.findIdx? fun x => x.block = block) with
  | some k => some (n.sent.length - 1 - k)
  | none => none

/-- A flit named in a NAK moves to the held store (R277, R278): at most 256 flits a port and 16 a block; the first of a
block takes a place in its resend slot. -/
def State.nakFlit (s : State) (j : Job) (p : Nat) (nak : Nat × Nat) : State :=
  let n := s.port p
  match n.sentOf nak.1 with
  | none => s
  | some k =>
    match n.sent[k]? with
    | none => s
    | some x =>
      match x.flits.find? fun f => flitIdx f = nak.2 with
      | none => s
      | some f =>
        let x' := { x with flits := x.flits.filter fun g => flitIdx g ≠ nak.2 }
        let s := s.putPort p { n with sent := n.sent.set k x' }
        let held := (n.sent.map fun y => y.held.length).sum
        let e := imgEntry j.image x.entry
        if x.late then s
        else if 256 ≤ held then (s.raise Ev.linkHeldFull p [(24, x.block)] x.step).missEntry x.entry
        else if x.held.length = 16 then s.missEntry x.entry
        else
          match x.held, holdOf j.image e with
          | [], some (h, c) =>
            if c.capacity ≤ s.heldPlaces h then
              let s := s.noteMiss e.target fun r => { r with catchupFull := satAdd 32 r.catchupFull 1 }
              let s := s.putPort p { n with sent := n.sent.set k { x' with late := true } }
              (s.raise Ev.catchupFull e.target [(20, x.entry)] x.step).missEntry x.entry
            else
              let s := { s with rxHold := tset 0 s.rxHold h (tget 0 s.rxHold h + 1) }
              s.putPort p { n with sent := n.sent.set k { x' with held := [f] } }
          | l, _ => s.putPort p { n with sent := n.sent.set k { x' with held := l ++ [f] } }

/-- CTRL_FLIT_RX (R268): credits come back, NAKed flits move to the held store, acknowledged flits leave the replay
buffer. -/
def State.ctrlRx (s : State) (p : Nat) (f : Buf) : State :=
  s.flitIn p 3 f fun s =>
    let s := s.onPort p fun n =>
      let n := n.settle s.now
      ({ n with credits := (List.range 8).foldl (fun t k => tset 0 t k (tget 0 t k + f.fld (64 + 16 * k) 16)) n.credits } : NearPort).settle s.now
    let s := s.replayCheck p
    let s := match s.job with
      | some j => (flitNaks f).foldl (fun (s : State) (n : Nat × Nat) => s.nakFlit j p n) s
      | none => s
    let n := s.port p
    match n.sentOf (f.fld 192 24) with
    | none => s
    | some k =>
      let go (x : Sent) : Sent := { x with flits := x.flits.filter fun g => f.fld 216 16 < flitIdx g }
      s.putPort p { n with sent := (n.sent.modify k go).filter fun x => x.flits ≠ [] || x.held ≠ [] }

@[inherit_doc State.ctrlRx]
def execCtrlFlitRx (at_ port : Nat) (flit : Buf) (s : State) : Res := .next ((s.tick at_).ctrlRx port flit)

/-! ### Link states and training (R263, R264, R437 to R439) -/

/-- READY of the own device: it holds a chain address and time lock (R437). -/
def State.ready (s : State) : Bool := s.aon.chainAddr ≠ 0 && s.ht.state = .locked

/-- The port falls to DOWN: no timing symbol comes any more (R264); its upstream is lost (R45). -/
def State.portDown (s : State) (p : Nat) : State :=
  let s := s.onPort p fun n => { n with state := .down, width := 0, lanes := 0, fecRun := [], peerSeen := false, peerReady := false }
  if s.ht.source = p then s.sourceLost else s

/-- LINK_SIGNAL_DETECT (R264): a signal appears; once option loading is complete the port enters QUIET (R427, R436). -/
def State.signalDetect (s : State) (p : Nat) : State :=
  let n := s.port p
  if n.state = .down then s.putPort p { n with signal := true, state := if s.aon.optsDone then .quiet else .down } else s

@[inherit_doc State.signalDetect]
def execLinkSignalDetect (at_ port : Nat) (s : State) : Res := .next ((s.tick at_).signalDetect port)

/-- LINK_SIGNAL_LOSS (R264): the signal disappears in QUIET or TRAINING. -/
def State.signalLoss (s : State) (p : Nat) : State :=
  let n := s.port p
  if n.state = .quiet || n.state = .training then (s.putPort p { n with signal := false }).portDown p
  else if n.state = .down then s.putPort p { n with signal := false }
  else s

@[inherit_doc State.signalLoss]
def execLinkSignalLoss (at_ port : Nat) (s : State) : Res := .next ((s.tick at_).signalLoss port)

/-- Training starts (R264). -/
def State.startTraining (s : State) (p : Nat) : State :=
  s.onPort p fun n => { n with state := .training, trainAt := s.now, wasUp := false }

/-- LINK_TRAIN_SLOT (R438): at its stagger slot a port with both READY bits set initiates training. -/
def State.trainSlot (s : State) (p : Nat) : State :=
  let slot := s.aon.chainAddr % 64 * 250000 + p * 1000
  if (s.port p).state = .quiet && s.ready && (s.port p).peerReady && s.htNow % 16000000 = slot then s.startTraining p else s

@[inherit_doc State.trainSlot]
def execLinkTrainSlot (at_ port : Nat) (s : State) : Res := .next ((s.tick at_).trainSlot port)

/-- LINK_TRAIN_REQUEST (R438): a port with both READY bits set answers its peer's training at once (R437). -/
def State.trainRequest (s : State) (p : Nat) : State :=
  if (s.port p).state = .quiet && s.ready && (s.port p).peerReady then s.startTraining p else s

@[inherit_doc State.trainRequest]
def execLinkTrainRequest (at_ port : Nat) (s : State) : Res := .next ((s.tick at_).trainRequest port)

/-- The widest aligned group of healthy lanes, the lowest of its width: its width, and its lanes as a map (R263). -/
def laneGroup (lanes : Nat) : Nat × Nat :=
  let at_ (w : Nat) : Option (Nat × Nat) :=
    ((List.range (8 / w)).find? fun g => bits lanes (w * g) w = 2 ^ w - 1).map fun g => (w, (2 ^ w - 1) <<< (w * g))
  ([8, 4, 2, 1].findSome? at_).getD (0, 0)

/-- The width of that group (R263). -/
def bestWidth (lanes : Nat) : Nat := (laneGroup lanes).1

/-- LINK_TRAINING_DONE (R263): the port enters UP at its widest healthy width, with an empty open buffer. A retraining that has
taken more than 100 ms ends in DOWN instead (R264). -/
def State.trainingDone (s : State) (p lanes : Nat) : State :=
  let n := s.port p
  let w := bestWidth lanes
  if n.state ≠ .training then s
  else if n.wasUp && n.trainAt + 100 * oneMs < s.now then s.portDown p
  else if w = 0 then (if n.wasUp then s else s.putPort p { n with state := .quiet, lanesOk := lanes % 256 })
  else
    let s := s.putPort p { n with
      state := .up, width := w, lanes := (laneGroup lanes).2, fecRun := [], lanesOk := lanes % 256, wasUp := false
      credits := [], lent := [], rxHeld := [], inbox := [], rxMsgs := [], acks := [], paused := [] }
    let s := s.raise Ev.linkUp p
    if w < 8 then s.raise Ev.linkDegraded p [(8, lanes)] else s

@[inherit_doc State.trainingDone]
def execLinkTrainingDone (at_ port lanes : Nat) (s : State) : Res := .next ((s.tick at_).trainingDone port lanes)

/-- LINK_TRAINING_FAILED (R438): the port returns to QUIET until its next slot; a retraining goes on until its 100 ms
are over (R264). -/
def State.trainingFailed (s : State) (p : Nat) : State :=
  let n := s.port p
  if n.state = .training && !n.wasUp then s.putPort p { n with state := .quiet } else s

@[inherit_doc State.trainingFailed]
def execLinkTrainingFailed (at_ port : Nat) (s : State) : Res := .next ((s.tick at_).trainingFailed port)

@[inherit_doc State.linkDown]
def execLinkDown (at_ port : Nat) (s : State) : Res := .next ((s.tick at_).linkDown port)

/-- LINK_RETRAIN_TIMEOUT (R264): a retraining that has lasted 100 ms ends in DOWN. -/
def State.retrainTimeout (s : State) (p : Nat) : State :=
  let n := s.port p
  if n.state = .training && n.wasUp && n.trainAt + 100 * oneMs ≤ s.now then s.portDown p else s

@[inherit_doc State.retrainTimeout]
def execLinkRetrainTimeout (at_ port : Nat) (s : State) : Res := .next ((s.tick at_).retrainTimeout port)

/-- Ports that are not UP, one bit each. -/
def State.portsNotUp (s : State) : Nat :=
  (List.range 8).foldl (fun m p => if (s.port p).state = .up then m else m ||| (1 <<< p)) 0

/-- LINKS_LATE (R439): a port still not UP 800 ms after reset release. -/
def State.linksLate (s : State) (p : Nat) : State :=
  let n := s.port p
  if n.state = .up || n.lateRaised || s.now < s.aon.releasedAt + 800 * oneMs || !s.aon.optsDone then s
  else (s.putPort p { n with lateRaised := true }).raise Ev.linksLate p [(8, s.portsNotUp)]

@[inherit_doc State.linksLate]
def execLinksLate (at_ port : Nat) (s : State) : Res := .next ((s.tick at_).linksLate port)

/-! ### Neighbour notices (R364) -/

/-- The own neighbour notice sent on every used port, as a message of VC 0 (R364): JOB_ID, CW and E. -/
def State.sendNeighbourNotices (s : State) : State :=
  match s.job with
  | none => s
  | some j =>
    let b : Buf := packBuf 20 [(64, imgJobId j.image), (32, imgCw j.image), sf 64 j.epoch]
    (imgPorts j.image).foldl (fun s p => s.sendMessage p 0 (neighbourCw j.image p) b) s

/-- NEIGHBOUR_NOTICE (R364): kept for the check before the first step; a peer of the same job with another epoch tag is
HT_EPOCH_MISMATCH (R49). -/
def State.neighbour (s : State) (p jobId cw : Nat) (epoch : Int) : State :=
  if (s.port p).state ≠ .up then s
  else
    let s := (s.takeMessage p 0).onPort p fun n => { n with notice := some (jobId, cw, epoch) }
    if s.tagMismatch p then s.fatal Ev.htEpochMismatch p else s

@[inherit_doc State.neighbour]
def execNeighbourNotice (at_ port jobId cw : Nat) (epoch : Int) (s : State) : Res :=
  .next ((s.tick at_).neighbour port jobId cw epoch)

/-! ### Status (R293) -/

/-- R264. -/
def LinkState.code : LinkState → Nat
  | .down => 0 | .quiet => 1 | .training => 2 | .up => 3

/-- The 32-byte record of a port (R293). -/
def NearPort.record (n : NearPort) : Buf :=
  packBuf 32 [(2, n.state.code), (4, n.width), (2, 0), (8, n.lanesOk), (16, n.retrains), (32, n.delayPs.getD 0xFFFFFFFF),
    (32, n.fecCorr), (32, n.fecUncorr), (32, n.resends), (32, n.strays), (32, n.pauseUs), (32, n.lost)]

/-- The counters of R293 cleared. -/
def NearPort.clearCounters (n : NearPort) : NearPort :=
  { n with retrains := 0, fecCorr := 0, fecUncorr := 0, resends := 0, strays := 0, pauseUs := 0, lost := 0 }

end Sys2Proof.Machine
end

