-- ==== Sys2Proof/Machine/CheckJob.lean ====
section
/-! DEFINITION. What an arm checks of an image, part one: the container (R360, R361, R513), the timetable (R57) and the
kernels (R85, R113, R126 to R130, R133, R368). Every check answers the failures it finds, the first first. -/

namespace Sys2Proof.Machine

/-- A failed check: its status, FAIL_INDEX and FAIL_UNIT (R402, R407). -/
structure Fail where
  status : Nat
  index  : Nat
  unit   : Nat
  deriving DecidableEq, Repr

/-- A check that must hold. -/
def need (ok : Bool) (status : Nat) (index : Nat := 0xFFFFFFFF) (unit : Nat := 0xFFFF) : List Fail :=
  if ok then [] else [⟨status, index, unit⟩]

/-- Status codes of the checks (R402). -/
def stTtFormat : Nat := 0x0120
@[inherit_doc stTtFormat] def stTtAlign : Nat := 0x0121
@[inherit_doc stTtFormat] def stEpochPast : Nat := 0x0122
@[inherit_doc stTtFormat] def stTtOverlap : Nat := 0x0123
@[inherit_doc stTtFormat] def stTtRefresh : Nat := 0x0124
@[inherit_doc stTtFormat] def stTtCatchup : Nat := 0x0125
@[inherit_doc stTtFormat] def stTtGuest : Nat := 0x0126
@[inherit_doc stTtFormat] def stKernel : Nat := 0x0127
@[inherit_doc stTtFormat] def stState : Nat := 0x0128
@[inherit_doc stTtFormat] def stUpdate : Nat := 0x0129
@[inherit_doc stTtFormat] def stJobFormat : Nat := 0x012A
@[inherit_doc stTtFormat] def stErgPlan : Nat := 0x0141
@[inherit_doc stTtFormat] def stAcrixPlan : Nat := 0x0160

/-! ### The container (R360, R361, R513) -/

/-- Whether the records of a section fit its LENGTH (R513). -/
def sectFits (ty : Nat) (x : Sect) : Bool :=
  match ty with
  | 0x01 | 0x0A => 64 + 32 * x.count ≤ x.len
  | 0x02 | 0x05 | 0x07 | 0x0B => 16 * x.count ≤ x.len
  | 0x04 | 0x06 | 0x08 | 0x09 => 64 * x.count ≤ x.len
  | 0x0C => 64 ≤ x.len
  | 0x0D => 32 * x.count ≤ x.len
  | 0x0E => x.count = 8 && 64 ≤ x.len
  | _ => true

/-- No two of a list of (start, length) ranges overlap. -/
def disjoint : List (Nat × Nat) → Bool
  | [] => true
  | r :: l => l.all (fun (q : Nat × Nat) => r.1 + r.2 ≤ q.1 || q.1 + q.2 ≤ r.1 || r.2 = 0 || q.2 = 0) && disjoint l

/-- Section types an image must have and may have (R361). -/
def sectRequired (guest : Bool) : List Nat := if guest then [2, 3] else [1, 2, 3, 9, 0xC, 0xD, 0xE]
@[inherit_doc sectRequired]
def sectAllowed (guest : Bool) : List Nat := if guest then [2, 3, 7] else (List.range 16).drop 1

/-- The directory of an image is well formed (R360, R361, R513). -/
def dirOk (b : Buf) (guest : Bool) : Bool :=
  let types := (imgDir b).map fun d => d.fld 0 16
  let ranges := (imgDir b).map fun d => (d.fld 32 32, d.fld 64 32)
  types.dedup.length = types.length && types.all (fun t => (sectAllowed guest).contains t) &&
    (sectRequired guest).all (fun t => types.contains t) &&
    (imgDir b).all (fun d => d.fld 16 16 = 0 && d.fld 32 32 % 64 = 0 && d.fld 32 32 + d.fld 64 32 ≤ imgLen b &&
      sectFits (d.fld 0 16) ⟨d.fld 32 32, d.fld 64 32, d.fld 96 32⟩) &&
    disjoint ((0, 64 + 16 * imgSections b) :: ranges)

/-- Check 2 of R362: the header, the directory, the sizes and the coordinates. -/
def checkFormat (b : Buf) (guest : Bool) : List Fail :=
  let axes := (List.range 4).all fun a => 1 ≤ imgSize b a && imgSize b a ≤ 64 && cwCoord (imgCw b) a < imgSize b a
  need (b.fld 0 32 = 0x424A4C4F && b.fld 32 16 = 3 && 1 ≤ imgSections b && imgSections b ≤ 32 && b.flag 56 = guest &&
    b.fld 57 7 = 0 && b.fld 288 224 = 0 && dirOk b guest) stJobFormat ++
  need (guest || (axes && imgSizeT b * imgSizeP b * imgSizeD b * imgSizeS b ≤ 65536 &&
    (imgBytes b 1).fld 192 64 = imgId b && imgCount b 1 = imgEntries b)) stJobFormat

/-! ### The timetable (R57) -/

/-- The class of a target (R55): 0 core, 1 update engine, 2 DMA engine, 3 Erg channel, 4 near transmit, 5 near receive,
6 Acrix slice, 7 step controller, 8 reserved. -/
def targetClass (t : Nat) : Nat :=
  if t < 0x80 then 0 else if t < 0x88 then 1 else if t < 0x90 then 2 else if t < 0xB0 then 3 else if t < 0xB8 then 4
  else if t < 0xC0 then 5 else if t < 0xC4 then 6 else if t = 0xD0 then 7 else 8

/-- Actions of a target class (R56). -/
def classActions (c : Nat) : List Nat :=
  match c with
  | 0 => [0x01, 0x02, 0x03, 0xF0]
  | 1 => [0x10, 0xF0]
  | 2 => [0x20, 0xF0]
  | 3 => [0x30, 0x31, 0x32, 0xF0]
  | 4 => [0x40, 0x41, 0xF0]
  | 5 => [0x48, 0x49, 0xF0]
  | 6 => [0x50, 0xF0]
  | 7 => [0x60, 0x61, 0xF0]
  | _ => []

/-- An entry's encodings and reserved fields (R54 to R56, R240). -/
def entryFormat (period : Nat) (raw : Buf) (e : Entry) : Bool :=
  decide (e.policy ≤ 3) && (classActions (targetClass e.target)).contains e.action && raw.fld 118 10 = 0 &&
    raw.fld 176 16 = 0 && raw.fld 212 12 = 0 && decide (1 ≤ e.duration) && decide (e.offset < period) &&
    (e.preEn || e.preSo = 0) && (e.policy = 1 || e.catchup = 0) &&
    (!([0x31, 0x32, 0x60, 0x61].contains e.action) || e.arg = 0) && (e.action ≠ 0xF0 || e.arg < 4) &&
    (e.action ≠ 0x61 || (e.preEn && e.preCount = 1 && (e.policy = 0 || e.policy = 3)))

/-- Each of a list with the earlier ones of its target: offsets rise and footprints do not overlap. -/
def eachTarget (l : List (Nat × Entry)) (p : Entry → Entry → Bool) : List (Nat × Entry) :=
  l.filter fun x => !(l.all fun y => y.2.target ≠ x.2.target || x.1 ≤ y.1 || p y.2 x.2)

/-- DURATION of a refresh entry by the density of the DRAM devices in Gb (R161). -/
def refreshNs (density : Nat) : Nat := if density = 16 then 320 else 430

/-- The refresh entries of one channel stand exactly where R57 asks for them: a failure names the entry at fault, where one
is there. -/
def refreshBad (l : List (Nat × Entry)) (period dur ch : Nat) : List Fail :=
  let at_ (act : Nat) := l.filter fun x => x.2.target = 0x90 + ch && x.2.action = act
  let fine (x : Nat × Entry) : Bool :=
    x.2.duration = dur && x.2.guard = 0 && !x.2.preEn && !x.2.sigEn && x.2.policy = 3 &&
      x.2.offset % 3900 = (if x.2.action = 0x31 then 0 else 1950)
  match (at_ 0x31 ++ at_ 0x32).find? fun x => !fine x with
  | some x => [⟨stTtRefresh, x.1, 0x90 + ch⟩]
  | none =>
    need ((at_ 0x31).map (·.2.offset) = (List.range (period / 3900)).map (fun k => 3900 * k) &&
      (at_ 0x32).map (·.2.offset) = (List.range (period / 3900)).map (fun k => 3900 * k + 1950)) stTtRefresh 0xFFFFFFFF (0x90 + ch)

/-- ARG names a record of its table (R56, R57, R513). -/
def argOk (b : Buf) (e : Entry) : Bool :=
  match e.action with
  | 0x01 => e.arg < (imgKernels b e.target).length
  | 0x10 => e.arg < imgCount b 0x08
  | 0x20 => e.arg.testBit 31 || e.arg < imgCount b 0x07
  | 0x30 => e.arg < imgCount b 0x06
  | 0x40 | 0x48 => e.arg < imgCount b 0x04
  | 0x41 | 0x49 => e.arg < imgCount b 0x05
  | 0x50 => e.arg < imgCount b 0x0B
  | _ => true

/-- CATCHUP_IDX and the catch-up entries themselves (R57). -/
def catchupOk (b : Buf) (e : Entry) : Bool :=
  (e.policy ≠ 1 || (e.catchup < imgEntries b &&
    let c := imgEntry b e.catchup
    c.action = 0xF0 && c.target = e.target && e.finish ≤ c.offset)) &&
    (e.action ≠ 0xF0 || (!e.preEn && e.policy = 3))

/-- A sync object lies in the guest range of the timetable header (R53). -/
def guestSo (b : Buf) (so : Nat) : Bool := imgGuestSoBase b ≤ so && so < imgGuestSoBase b + imgGuestSoCount b

/-- The bubble entries of a core in OFFSET order pair 0x02, 0x03 with one ARG, no index twice, nothing of the main job
between (R57, R373): the index of the entry at fault. `l` is every entry of the core. -/
def bubbleBad : List (Nat × Entry) → List Nat → Option (Nat × Nat) → Option Nat
  | [], _, open_ => open_.map (·.1)
  | (i, e) :: l, seen, none =>
    if e.action = 0x02 then (if seen.contains e.arg then some i else bubbleBad l (e.arg :: seen) (some (i, e.arg)))
    else if e.action = 0x03 then some i
    else bubbleBad l seen none
  | (i, e) :: l, seen, some k => if e.action = 0x03 && e.arg = k.2 then bubbleBad l seen none else some i

/-- Entries of one target in OFFSET order, with their indices. -/
def entriesAt (l : List (Nat × Entry)) (target : Nat) : List (Nat × Entry) :=
  sortBy (fun x y => x.2.offset ≤ y.2.offset) (l.filter fun x => x.2.target = target)

/-- Entries of one target in OFFSET order. -/
def entriesOf (l : List (Nat × Entry)) (target : Nat) : List Entry := (entriesAt l target).map (·.2)

/-- Check 5 of R362, in the order of R57's table. `density` is that of the installed DRAM devices. -/
def checkTimetable (b : Buf) (density : Nat) : List Fail :=
  let h := imgBytes b 0x01
  let p := imgPeriod b
  let l := imgEntryList b
  let bad (q : Nat × Entry → Bool) (st : Nat) : List Fail :=
    match l.find? fun x => !q x with
    | some x => [⟨st, x.1, x.2.target⟩]
    | none => []
  let first (f : List (Nat × Entry)) (st : Nat) : List Fail :=
    match f with
    | x :: _ => [⟨st, x.1, x.2.target⟩]
    | [] => []
  need (h.fld 0 32 = 0x54544C4F && h.fld 32 16 = 3 && h.fld 104 24 = 0 && h.fld 149 11 = 0 && 1 ≤ imgEntries b &&
    imgEntries b ≤ 1048576 && h.fld 256 256 = revBytes 32 (sha256 (h.slice 64 (32 * imgEntries b)))) stTtFormat ++
  bad (fun x => entryFormat p (imgRec b 0x01 64 32 x.1) x.2) stTtFormat ++
  first (eachTarget l fun y x => y.offset < x.offset) stTtFormat ++
  need (p % 3900 = 0 && 3900 ≤ p && p < 2 ^ 40) stTtAlign ++
  bad (fun x => x.2.finish ≤ p) stTtFormat ++
  first (eachTarget l fun y x => y.finish ≤ x.offset || x.finish ≤ y.offset) stTtOverlap ++
  ((List.range 32).flatMap fun ch => refreshBad l p (refreshNs density) ch) ++
  bad (fun x => argOk b x.2) stTtFormat ++
  bad (fun x => catchupOk b x.2) stTtCatchup ++
  bad (fun x => x.2.policy ≠ 3 || x.2.action = 0xF0 || x.2.guard = 0) stTtFormat ++
  bad (fun x => !x.2.isGuest || ((!x.2.preEn || guestSo b x.2.preSo) && (!x.2.sigEn || guestSo b x.2.sigSo))) stTtGuest ++
  ((List.range 128).flatMap fun c => 
    match bubbleBad (entriesAt l c) [] none with | some i => [⟨stTtGuest, i, c⟩] | none => [])

/-! ### Kernels (R85, R113, R126 to R130, R368) -/

/-- What a kernel may name: its core, the scratch of its partition, its sync objects, Oasis ranges, and the scratch of
the other cores. -/
structure KCtx where
  core    : Nat
  base    : Nat                      -- first scratch byte of the partition
  limit   : Nat                      -- first scratch byte above it
  so      : Nat → Bool
  oasis   : Nat → Nat → Bool         -- device Oasis address and length
  peer    : Nat → Nat × Nat          -- the partition of another core

/-- A span lies inside the partition. -/
def KCtx.inside (x : KCtx) (r : Nat × Nat) (s : Span) : Bool :=
  s.rows = 0 || s.len = 0 || (r.1 ≤ s.base && s.base + (s.rows - 1) * s.stride + s.len ≤ r.2 && decide (x.core < 128))

/-- The reserved fields of a matrix descriptor are zero (R84). -/
def matRsvd (b : Buf) : Bool :=
  b.fld 56 8 = 0 && b.fld 74 6 = 0 && b.fld 90 6 = 0 && b.fld 124 4 = 0 && b.fld 496 16 = 0

/-- R79: operand formats, scale modes and INTSAT. -/
def Mat.formatsOk (d : Mat) : Bool :=
  let scale (f mode ts : Nat) : Bool :=
    (if fmtIsMx f then mode = 2 else if fmtIsInt f then mode = 0 else mode ≤ 1) && (mode = 1 || ts = 0)
  decide (d.fmtA ≤ 0xA) && decide (d.fmtB ≤ 0xA) && decide (d.fmtD ≤ 0xC) && fmtIsInt d.fmtA = fmtIsInt d.fmtB &&
    scale d.fmtA d.scaleA d.tscaleA && scale d.fmtB d.scaleB d.tscaleB &&
    (if fmtIsInt d.fmtD then decide (d.intsat ≤ 1) else d.intsat = 0)

/-- A matrix descriptor passes R85. -/
def matOk (x : KCtx) (prof : Nat → Buf) (nprof : Nat) (b : Buf) : Bool :=
  let d := Mat.ofBuf b
  let (mt, nt) := shapeDims d.shape
  let al (a : Nat) : Bool := a % 64 = 0
  matRsvd b && d.formatsOk && decide (d.shape ≤ 4) && 1 ≤ d.m && d.m ≤ mt && 1 ≤ d.n && d.n ≤ nt && d.k % 32 = 0 &&
    (d.k ≠ 0 || d.drain) && al d.aAddr && al d.bAddr && al d.aScale && al d.bScale && al d.dAddr && al d.dScale &&
    (d.scaleA = 2 || d.aScale = 0) && (d.scaleB = 2 || d.bScale = 0) && (d.drain || d.dAddr = 0) &&
    (fmtIsMx d.fmtD || d.dScale = 0) && (!fmtIsMx d.fmtD || d.n % 32 = 0) && (!d.drain || d.profile < nprof) &&
    (!d.sigEn || x.so d.sigSo) && (!d.waitEn || x.so d.waitSo) &&
    (d.inSpans ++ d.profSpans (profileOf (prof d.profile)) ++ d.outSpans).all fun s => x.inside (x.base, x.limit) s

/-- A core DMA descriptor passes R85. -/
def dmaOk (x : KCtx) (b : Buf) : Bool :=
  let d := CoreDma.ofBuf b
  let src : Span := ⟨d.src, d.srcStride, d.rows, d.cols * d.bytes⟩
  let dst : Span := if d.transpose then ⟨d.dst, d.dstStride, d.cols, d.rows * d.bytes⟩ else ⟨d.dst, d.dstStride, d.rows, d.cols * d.bytes⟩
  let ok (space peer : Nat) (s : Span) : Bool :=
    if space = 0 then x.inside (x.base, x.limit) s
    else if space = 1 then
      decide (s.base + (s.rows - 1) * s.stride + s.len ≤ oasisSize) &&
        x.oasis (x.core / 16 * oasisSize + s.base) ((s.rows - 1) * s.stride + s.len)
    else x.inside (x.peer (x.core / 16 * 16 + peer)) s
  decide (d.srcSpace ≤ 2) && decide (d.dstSpace ≤ 2) && decide (d.elem ≤ 2) && b.fld 25 7 = 0 && b.fld 152 8 = 0 &&
    b.fld 184 8 = 0 && b.fld 272 240 = 0 && (d.srcSpace = 2 || d.peerSrc = 0) && (d.dstSpace = 2 || d.peerDst = 0) &&
    1 ≤ d.rows && 1 ≤ d.cols && (!d.sigEn || x.so d.sigSo) && (!d.waitEn || x.so d.waitSo) &&
    ok d.srcSpace d.peerSrc src && ok d.dstSpace d.peerDst dst

/-- Types an opcode is defined for (R128). -/
def opTypes (op : Nat) : List Nat :=
  if (1 ≤ op && op ≤ 4) || op = 7 || op = 8 || (0x10 ≤ op && op ≤ 0x13) || op = 0x51 || op = 0x52 then [0, 1, 2]
  else if op = 5 || op = 6 || op = 0x0C || op = 0x18 || op = 0x42 || op = 0x43 then [0, 1, 2, 3, 4]
  else if 9 ≤ op && op ≤ 0x0B then [0, 3]
  else if op = 0x19 || op = 0x50 || (0x53 ≤ op && op ≤ 0x55) then [0]
  else if (0x20 ≤ op && op ≤ 0x22) || (0x26 ≤ op && op ≤ 0x28) then [3, 4]
  else if (0x23 ≤ op && op ≤ 0x25) || op = 0x29 || (0x30 ≤ op && op ≤ 0x32) || op = 0x40 || op = 0x41 || op = 0x60 ||
    op = 0x70 || op = 0x71 || op = 0x7F then [3]
  else []

/-- Which of VD, VA, VB, MK and which bits of IMM an opcode uses (R127, R128). -/
def opUses (op : Nat) (f : VFields) : Bool × Bool × Bool × Bool × Nat :=
  if op = 0x18 then
    let t := f.imm % 8
    let pack := f.ty = 0 && (t = 1 || t = 2 || t = 4)
    let unpack := (f.ty = 1 || f.ty = 2 || f.ty = 4) && t = 0
    (true, true, pack, true, if unpack then 0x1F else 0xF)
  else if op = 0x19 then (true, true, false, true, 0x1F)
  else if op = 7 || op = 8 || (0x10 ≤ op && op ≤ 0x13) then (true, true, false, true, 0)
  else if op = 0x29 then (true, false, false, true, 0xFFFFFFFF)
  else if op = 0x31 || op = 0x32 then (true, true, false, true, 0xFFFFFFFF)
  else if 0x40 ≤ op && op ≤ 0x43 then (true, true, false, true, 0xFFFFFFFF)
  else if op = 0x50 then (false, false, false, false, 3)
  else if op = 0x51 || op = 0x52 then (false, true, false, true, 3)
  else if op = 0x53 || op = 0x60 then (true, false, false, true, 3)
  else if op = 0x54 || op = 0x55 then (false, false, false, false, 0xFFFFFFC3)
  else if op = 0x70 then (false, false, false, false, 0xFFFFFFFF)
  else if op = 0x71 then (false, false, false, false, 0xFFFF)
  else if op = 0x7F then (false, false, false, false, 0)
  else (true, true, true, true, 0)

/-- A vector instruction passes R127 to R130 and its sync object is the job's own. -/
def vecOk (x : KCtx) (w : Nat) : Bool :=
  let (op, f) := vecFields w
  let (d, a, v, m, imm) := opUses op f
  bits w 29 3 = 0 && (opTypes op).contains f.ty && (d || f.vd = 0) && (a || f.va = 0) && (v || f.vb = 0) &&
    (m || f.msk = 0) && f.imm &&& (0xFFFFFFFF - imm) = 0 && (!(9 ≤ op && op ≤ 0x0B) || f.vd < 8) &&
    (!(0x40 ≤ op && op ≤ 0x43) || f.va < 2) && (!(op = 0x40 || op = 0x41) || f.imm % 64 = 0) &&
    (!(op = 0x42 || op = 0x43) || (f.imm % 16 = 0 && f.vd % 4 = 0)) && (op ≠ 0x18 || f.imm % 8 ≤ 4) &&
    (op ≠ 0x19 || (2 ≤ f.imm % 16 && f.imm % 16 ≤ 6)) && (!(op = 0x70 || op = 0x71) || x.so (f.imm % 2 ^ 16))

/-- A vector block passes R126 to R130 and R133. -/
def blockOk (x : KCtx) (b : Buf) : Bool :=
  let ws := (List.range (vbIcount b)).map (vbWord b)
  let trans := ws.any fun w => bits w 0 8 = 0x42 || bits w 0 8 = 0x43
  1 ≤ vbIcount b && (trans = decide (vbTs b ≠ 0)) && ws.all (vecOk x) && (b.drop (8 + 8 * vbIcount b)).val = 0 &&
    (vecSpans b).all fun s => x.inside (x.base, x.limit) s.2

/-- A profile passes R113. -/
def profileOk (b : Buf) : Bool :=
  let p := profileOf b
  let nan (v : Nat) : Bool := decide (0x7F800000 < v % 2 ^ 31)
  decide (p.act ≤ 4) && decide (p.sMode ≤ 1) && decide (p.bMode ≤ 2) && b.fld 10 22 = 0 && b.fld 192 64 = 0 &&
    (p.sMode = 0 || p.sValue = 0) && (p.sMode = 1 || p.sAddr = 0) && p.sAddr % 64 = 0 && (p.bMode ≠ 0 || p.bAddr = 0) &&
    p.bAddr % 64 = 0 && !nan p.clipLo && !nan p.clipHi

/-- The items of a kernel from offset `off` on: the offset of the first that fails, from the first byte of the kernel's code with
its profile block, or `none`; the last must be END (R73, R85, R368; the base of the offset is a DESIGN CHOICE, log entry 132). -/
def badItem (x : KCtx) (code : Buf) (nprof : Nat) : Nat → Nat → Option Nat
  | 0, off => some off
  | fuel + 1, off =>
    if code.len < off + 64 then some off
    else
      let h := code.slice off 64
      let prof (i : Nat) : Buf := code.slice (32 * i) 32
      if itemKind h = 0x4D then
        if matOk x prof nprof h then badItem x code nprof fuel (off + 64) else some off
      else if itemKind h = 0x44 then
        if dmaOk x h then badItem x code nprof fuel (off + 64) else some off
      else if itemKind h = 0x56 then
        let n := vbLen h
        if off + n ≤ code.len && blockOk x (code.slice off n) then badItem x code nprof fuel (off + n) else some off
      else if h.val = 0x45 && off + 64 = code.len then none
      else some off

/-- One kernel of an image (R368): where it fails, the offset of the item in the kernel-code section, CODE_OFF and all. R85 has the
core, the kernel index and the item offset reported, and the response (R407) has room for a core and one offset: this offset
names the kernel, whose code it lies in, with the item (DESIGN CHOICE, log entry 132). -/
def badKernel (b : Buf) (x : KCtx) (raw : Buf) (guest : Bool) : Option Nat :=
  let k := KernelRec.ofBuf raw
  let codeSect := imgBytes b 0x03
  let e := imgEntry b k.drawEntry
  let head := raw.fld 53 11 = 0 && raw.fld 85 11 = 0 && raw.fld 103 25 = 0 && k.codeOff % 64 = 0 && 1 ≤ k.len &&
    k.len ≤ 4096 && k.nprof ≤ 16 && k.codeOff + 64 * k.len ≤ codeSect.len && (k.drawEn || k.drawEntry = 0) &&
    (!k.drawEn || (!guest && k.drawEntry < imgEntries b && e.action = 0x01 && e.target = k.core))
  if !head then some k.codeOff
  else
    let code := codeSect.slice k.codeOff (64 * k.len)
    if !((List.range k.nprof).all fun i => profileOk (code.slice (32 * i) 32)) then some k.codeOff
    else (badItem x code k.nprof (k.len + 1) (alignUp (32 * k.nprof) 64)).map (k.codeOff + ·)

/-- A range meets a GUEST region of Erg or Oasis. -/
def meetsGuest (b : Buf) (space a n : Nat) : Bool :=
  (imgRegions b).any fun r => r.cls = 4 && r.space = space && a < r.base + r.length && r.base < a + n

/-- A range lies inside a GUEST region of Erg or Oasis. -/
def insideGuest (b : Buf) (space a n : Nat) : Bool :=
  (imgRegions b).any fun r => r.cls = 4 && r.space = space && r.base ≤ a && a + n ≤ r.base + r.length

/-- What the main job's kernels on a core may name (R85, R375). -/
def mainCtx (b : Buf) (core : Nat) : KCtx :=
  { core, base := 0, limit := (guestScratch b core).1, so := fun k => !guestSo b k, oasis := fun a n => !meetsGuest b 1 a n,
    peer := fun c => (0, (guestScratch b c).1) }

/-- What a guest's kernels may name: the partitions and sync objects the main image gives it (R372, R375). -/
def guestCtx (main : Buf) (core : Nat) : KCtx :=
  let g (c : Nat) : Nat × Nat := ((guestScratch main c).1, (guestScratch main c).1 + (guestScratch main c).2)
  { core, base := (g core).1, limit := (g core).2, so := guestSo main, oasis := insideGuest main 1, peer := g }

/-- The kernels of an image: each passes, and those of a core fit its kernel store (R70, R85, R368). -/
def checkKernels (b : Buf) (ctx : Nat → KCtx) (guest : Bool) (status : Nat) : List Fail :=
  ((List.range (imgCount b 0x02)).flatMap fun i =>
    let raw := imgRec b 0x02 0 16 i
    match badKernel b (ctx (raw.fld 96 7)) raw guest with
    | some off => [⟨status, off, raw.fld 96 7⟩]
    | none => []) ++
  ((List.range 128).flatMap fun c =>
    let ks := imgKernels b c
    need (ks.length ≤ 1024 && (ks.map fun k => 64 * k.len).sum ≤ (if guest then 2 ^ 16 else 2 ^ 18)) status 0xFFFFFFFF c)

end Sys2Proof.Machine
end

