-- ==== Sys2Proof/Machine/CheckPlan.lean ====
section
/-! DEFINITION. What an arm checks of an image, part two: the memory plan, the Erg windows and the transfer lists (check 7
of R362), the shard descriptors and the commit data (check 8). -/

namespace Sys2Proof.Machine

/-! ### The memory plan (R147, R152, R198, R341, R370) -/

/-- A multiple. -/
def mult (n m : Nat) : Bool := n % m = 0

/-- The fields and the bounds of a region of the main plan. Roles 2 to 5 and 7 are Erg regions (R201, R205, R341, R371,
R485), role 1 an Oasis region (R198). -/
def regionOk (erg initLen : Nat) (raw : Buf) (r : Region) : Bool :=
  decide (r.space ≤ 2) && decide (r.cls ≤ 4) && decide (r.role ≤ 7) && raw.fld 24 8 = 0 && raw.fld 192 64 = 0 &&
    (r.space = 2 || r.core = 0) && (if r.initEn then decide (r.initOff + r.length ≤ initLen) else r.initOff = 0) &&
    (match r.space with
     | 0 => mult r.base (2 ^ 21) && mult r.length (2 ^ 21) && decide (r.base + r.length ≤ erg)
     | 1 => mult r.base 64 && mult r.length 64 && decide (r.base + r.length ≤ 8 * oasisSize)
     | _ => mult r.base 64 && mult r.length 64 && decide (r.base + r.length ≤ scratchSize)) &&
    (match r.role with
     | 0 => true
     | 1 => r.space = 1 && r.cls = 1
     | 2 | 7 => r.space = 0 && r.cls = 1
     | 3 => r.space = 0 && r.cls = 2 && decide (2 ^ 30 ≤ r.length) && decide (r.length ≤ 2 ^ 36)
     | 4 => r.space = 0
     | 5 => r.space = 0 && r.cls = 3
     | _ => r.cls = 1)

/-- A guest partition keeps its bounds: 64 KiB to 3 MiB at the top of a core's scratch, one per core, and at most 96 MiB
from a 2 MiB boundary on each die, in one range (R147, R370). -/
def guestRegionOk (l : List Region) (r : Region) : Bool :=
  let twins := l.filter fun x => x.cls = 4 && x.space = r.space &&
    (if r.space = 2 then x.core = r.core else x.base / oasisSize = r.base / oasisSize)
  r.cls ≠ 4 ||
    (match r.space with
     | 2 => mult r.length 65536 && decide (65536 ≤ r.length) && decide (r.length ≤ 3 * 2 ^ 20) &&
        decide (r.base + r.length = scratchSize) && decide (twins.length = 1)
     | 1 => mult r.base (2 ^ 21) && decide (r.length ≤ 96 * 2 ^ 20) && decide (twins.length = 1) &&
        decide (r.base % oasisSize + r.length ≤ oasisSize)
     | _ => true)

/-- No region overlaps an earlier one of its space (of its core, in scratch), and roles 2 to 5 appear at most once (R370):
the first that breaks this. -/
def regionClash (l : List Region) : Option Nat :=
  let meets (x y : Region) : Bool :=
    x.space = y.space && (x.space ≠ 2 || x.core = y.core) && x.base < y.base + y.length && y.base < x.base + x.length
  (l.zipIdx.find? fun x => (l.take x.2).any fun y =>
    meets x.1 y || (x.1.role = y.role && 2 ≤ y.role && decide (y.role ≤ 5))).map (·.2)

/-- Exactly one reduction buffer of 16 MiB to 96 MiB in the Oasis of die `d` (R198). -/
def rbOk (l : List Region) (d : Nat) : Bool :=
  match l.filter fun r => r.role = 1 && r.base / oasisSize = d with
  | [r] => mult r.length (2 ^ 21) && decide (2 ^ 24 ≤ r.length) && decide (r.length ≤ 96 * 2 ^ 20) &&
      decide (r.base % oasisSize + r.length ≤ oasisSize)
  | _ => false

/-! ### Windows (R153 to R157, R171) -/

/-- Sum of a window's shares. -/
def shareSum (w : Buf) : Nat := ((List.range (w.fld 8 4)).map fun k => w.fld (72 + 32 * k) 7).sum

/-- A window descriptor passes R154, R156 and R157 at the running rate. -/
def windowOk (rate : Nat) (w : Buf) : Bool :=
  let n := w.fld 8 4
  let users := (List.range n).map fun k => w.fld (64 + 32 * k) 4
  1 ≤ w.fld 0 8 && decide (w.fld 0 8 ≤ 3) && 1 ≤ n && decide (n ≤ 8) && w.fld 12 52 = 0 && w.fld 320 192 = 0 &&
    ((List.range 8).all fun k =>
      if k < n then w.fld (64 + 32 * k) 4 ≤ 7 && w.fld (68 + 32 * k) 4 = 0 && w.fld (79 + 32 * k) 17 = 0 &&
        1 ≤ w.fld (72 + 32 * k) 7 && w.fld (72 + 32 * k) 7 ≤ 64
      else w.fld (64 + 32 * k) 32 = 0) &&
    users.dedup.length = users.length && decide (shareSum w ≤ usableSlots (w.fld 0 8) rate) &&
    (w.fld 0 8 ≠ 1 || !users.contains 3) && (w.fld 0 8 ≠ 2 || !users.contains 4)

/-- The windows of channel `ch`, with their descriptors. -/
def channelWindows (b : Buf) (l : List (Nat × Entry)) (ch : Nat) : List (Entry × Buf) :=
  (l.filter fun x => x.2.target = 0x90 + ch && x.2.action = 0x30).map fun x => (x.2, imgWindow b x.2.arg)

/-- Groups of 40 ns in the intervals outside the windows and refresh footprints of one step, taken in OFFSET order from
`at_` on (R159). -/
def gapGroups (period : Nat) : List Entry → Nat → Nat
  | [], at_ => (period - at_) / 40
  | e :: l, at_ => (e.offset - at_) / 40 + gapGroups period l (Nat.max at_ e.finish)

/-- Twice the scrub slots of one step period of a channel (R171): MAINT slots in full, open-class read slots by half. -/
def scrubSlots2 (b : Buf) (l : List (Nat × Entry)) (rate ch : Nat) : Nat :=
  let ws := (channelWindows b l ch).filter fun x => x.2.fld 0 8 ≠ 2
  let inWindows := (ws.map fun x =>
    let n := x.1.duration / 40
    2 * (n * windowSlots x.2 7) + n * (usableSlots (x.2.fld 0 8) rate - shareSum x.2)).sum
  let busy := (entriesOf l (0x90 + ch)).filter fun e => e.action = 0x30 || e.action = 0x31 || e.action = 0x32
  inWindows + gapGroups (imgPeriod b) busy 0 * usableSlots 3 rate

/-- The scrub capacity of a day is at least twice the channel's lines, spares included (R171). -/
def scrubOk (b : Buf) (l : List (Nat × Entry)) (e : Erg) (ch : Nat) : Bool :=
  decide (4 * (e.frames * 32768) * imgPeriod b ≤ scrubSlots2 b l e.rate ch * (86400 * oneS))

/-- Channels that hold a page of the Spillway region (R156, R201). -/
def spillChannels (b : Buf) : List Nat :=
  match imgRole b 2 with
  | none => []
  | some r => (List.range 32).filter fun c => (List.range (Nat.min 32 (r.length / 2 ^ 21))).any fun i =>
      elaChannel (r.base + i * 2 ^ 21) = c

/-- A channel has SPILL shares for reads and for writes (R156). -/
def spillShares (b : Buf) (l : List (Nat × Entry)) (ch : Nat) : Bool :=
  let ws := channelWindows b l ch
  (ws.any fun x => windowCarries x.2 false && windowSlots x.2 2 ≠ 0) && ws.any fun x => windowCarries x.2 true && windowSlots x.2 2 ≠ 0

/-! ### Transfer lists (R152, R369) -/

/-- Items that a transfer-list section holds (R513). -/
def imgItems (b : Buf) : Nat :=
  match imgSect b 0x07 with
  | none => 0
  | some x => (x.len - alignUp (16 * x.count) 64) / 32

/-- A list record passes R369. -/
def listOk (b : Buf) (i : Nat) : Bool :=
  let (first, n) := imgList b i
  (imgRec b 0x07 0 16 i).fld 48 80 = 0 && 1 ≤ n && decide (first + n ≤ imgItems b)

/-- An item passes R369 with Erg of `erg` bytes. -/
def itemOk (erg : Nat) (x : Buf) : Bool :=
  let len := x.fld 32 32
  let side (space core addr : Nat) : Bool :=
    mult addr 64 && decide (space ≤ 2) && (space = 2 || core = 0) &&
      decide (addr + len ≤ if space = 0 then erg else if space = 1 then 8 * oasisSize else scratchSize)
  mult len 64 && x.fld 19 13 = 0 && x.fld 192 64 = 0 && side (x.fld 0 2) (x.fld 5 7) (x.fld 64 64) &&
    side (x.fld 2 2) (x.fld 12 7) (x.fld 128 64)

/-- Items of a list. -/
def listItems (b : Buf) (i : Nat) : List Buf := (List.range (imgList b i).2).map fun k => imgItem b ((imgList b i).1 + k)

/-! ### The local checkpoint (R209, R485) -/

/-- Bytes of the records that R209 gives for the job's descriptors, with every snapshot slot in use (R207, log entry 92). -/
def ckptNeed (b : Buf) : Nat :=
  let blk (t : Shard) : Nat :=
    (t.kinds.map fun k => recLen (k.2.width * t.lbElems)).sum + t.snaps * recLen (2 * t.lbElems) + recLen (2 * t.lbSubs)
  recLen 64 + recLen 1120 + recLen (64 * imgFcount b) + recLen 40 +
    ((imgShards b).map fun t => recLen 4160 + t.owNr * t.owNc * blk t).sum

/-! ### Check 7 of R362 -/

/-- The memory plan, the windows and the Erg addresses. -/
def checkPlan (b : Buf) (e : Erg) : List Fail :=
  let l := imgEntryList b
  let rs := imgRegions b
  let raw := (imgRecs b 0x0D 0 32).zip rs
  let init := (imgBytes b 0x0F).len
  let at_ (p : Buf × Region → Bool) (st : Nat) : List Fail :=
    match raw.findIdx? fun x => !p x with
    | some i => [⟨st, i, 0xFFFF⟩]
    | none => []
  at_ (fun x => regionOk e.bytes init x.1 x.2) stErgPlan ++
  at_ (fun x => guestRegionOk rs x.2) stTtGuest ++
  (match regionClash rs with | some i => [⟨stErgPlan, i, 0xFFFF⟩] | none => []) ++
  ((List.range 8).flatMap fun d => need (rbOk rs d) stErgPlan 0xFFFFFFFF d) ++
  ((List.range (imgCount b 0x06)).flatMap fun i => need (windowOk e.rate (imgWindow b i)) stErgPlan i) ++
  (l.flatMap fun x => need (x.2.action ≠ 0x30 || (x.2.duration % 40 = 0 && x.2.guard = 0)) stErgPlan x.1 x.2.target) ++
  ((spillChannels b).flatMap fun ch => need (spillShares b l ch) stErgPlan 0xFFFFFFFF ch) ++
  ((List.range 32).flatMap fun ch => need (scrubOk b l e ch) stErgPlan 0xFFFFFFFF ch) ++
  ((List.range (imgCount b 0x07)).flatMap fun i =>
    need (listOk b i && (listItems b i).all fun x => itemOk e.bytes x) stErgPlan i) ++
  ((imgShards b).zipIdx.flatMap fun (t : Shard × Nat) => need (!t.1.owns || t.1.stateEla + t.1.runLen ≤ e.bytes) stErgPlan t.2) ++
  need ((imgRole b 5).isNone || ckptNeed b ≤ ckptHalfLen b) stErgPlan

/-! ### Check 8 of R362: shard descriptors (R180 to R184, R190) -/

/-- A range lies in one region of a space and class. -/
def inRegion (b : Buf) (space cls a n : Nat) : Bool :=
  (imgRegions b).any fun r => r.space = space && r.cls = cls && r.base ≤ a && a + n ≤ r.base + r.length

/-- Devices whose contributions one final block sums (R190). -/
def Shard.participants (t : Shard) (b : Buf) : Nat :=
  (List.range 4).foldl (fun n a => if t.raxes.testBit a then n * imgSize b a else n) 1

/-- The fields of a shard descriptor are in range (R180, R182, R190). -/
def shardFields (b raw : Buf) (t : Shard) : Bool :=
  raw.fld 31 1 = 0 && raw.fld 39 9 = 0 && raw.fld 267 21 = 0 && raw.fld 448 64 = 0 && 1 ≤ t.snaps && decide (t.snaps ≤ 4) &&
    mult t.stateEla (2 ^ 21) && mult t.wOasis 64 && mult t.gAddr 64 && mult t.anAddr 64 && mult t.shAddr 64 &&
    mult t.rbAddr 64 && (!t.wErg || t.wOasis = 0) && (!t.direct || t.gAddr = 0) && (t.direct || t.rbAddr = 0) &&
    1 ≤ t.slNr && 1 ≤ t.slNc && decide (t.slRow + t.slNr ≤ 65536) && decide (t.slCol + t.slNc ≤ 65536) &&
    (if t.owns then 1 ≤ t.owNc && t.slRow ≤ t.owRow && t.owRow + t.owNr ≤ t.slRow + t.slNr && t.slCol ≤ t.owCol &&
        t.owCol + t.owNc ≤ t.slCol + t.slNc
     else t.owNc = 0) &&
    1 ≤ t.lbElems && mult t.lbCols 32 && mult t.lbElems 256 && decide (t.lbElems ≤ 16777216) &&
    (!t.afx32 || (t.participants b ≤ 128 && !t.direct))

/-- The Oasis regions of a descriptor: working weight, gradient buffer, anchor table, scale history and direct-reduce
region, each with its length. -/
def shardOasis (t : Shard) : List (Nat × Nat) :=
  (if t.owns && !t.wErg then [(t.wOasis, 2 * t.elems)] else []) ++
    (if t.direct then [(t.rbAddr, 2080 * t.sliceSubs)] else [(t.gAddr, 2 * t.slNr * t.slNc * t.lbElems)]) ++
    [(t.anAddr, 2 * t.sliceSubs), (t.shAddr, 4160)]

/-- An Oasis range lies in the device's Oasis and in no guest partition (R145, R147, R184). -/
def oasisRange (b : Buf) (x : Nat × Nat) : Bool :=
  decide (x.1 + x.2 ≤ 8 * oasisSize) && (imgRegions b).all fun r =>
    r.space ≠ 1 || r.cls ≠ 4 || decide (x.1 + x.2 ≤ r.base) || decide (r.base + r.length ≤ x.1)

/-- The parts of a descriptor lie where R184 puts them: their Oasis ranges outside every guest partition, and the runs in regions of
its classes. -/
def shardPlaced (b : Buf) (t : Shard) : Bool :=
  (shardOasis t).all (oasisRange b) && (!t.owns || inRegion b 0 0 t.stateEla t.runLen) && inRegion b 1 0 t.anAddr (2 * t.sliceSubs) &&
    (if t.direct then inRegion b 1 1 t.rbAddr (2080 * t.sliceSubs)
     else inRegion b 1 1 t.gAddr (2 * t.slNr * t.slNc * t.lbElems))

/-- The direct-reduce regions of a die take at most 1/16 of its reduction buffer (R190). -/
def directOk (b : Buf) (d : Nat) : Bool :=
  match (imgRegions b).find? fun r => r.role = 1 && r.space = 1 && r.base / oasisSize = d with
  | some r => decide (16 * directBytes b d ≤ r.length)
  | none => directBytes b d = 0

/-! ### Check 8 of R362: commit data (R244, R248, R253) -/

/-- A finite FP32 code that is not negative. -/
def finiteNonneg (v : Nat) : Bool := v < 0x7F800000 || v = 0x80000000

/-- The commit parameter block is in range and its tables lie inside the section (R244, R513). -/
def commitParams (b : Buf) : Bool :=
  let p := imgCommit b
  match imgSect b 0x0C with
  | none => false
  | some x =>
    let inside (off n : Nat) : Bool := x.off ≤ off && off + n ≤ x.off + x.len
    decide (-64 ≤ comLMin p) && decide (comLMin p ≤ comLMax p) && decide (comLMax p ≤ 63) &&
      decide (comLMin p ≤ comLInit p) && decide (comLInit p ≤ comLMax p) && decide (comGexpMax p ≤ 15) &&
      decide (-224 ≤ comNexpInit p) && decide (comNexpInit p ≤ 95) && finiteNonneg (comClip p) && decide (comOverrun p ≤ 2) &&
      p.fld 133 11 = 0 && 1 ≤ comStretchMax p && 1 ≤ comMbCount p && 1 ≤ comWsCount p && decide (comWsCount p ≤ 256) &&
      decide (p.fld 216 8 ≤ 16) && p.fld 224 32 = 0 && p.fld 352 160 = 0 && mult (comWatchAddr p) 64 &&
      decide (comWatchAddr p + 24576 ≤ scratchSize) && inside (p.fld 256 32) (16 * comMbCount p) &&
      inside (p.fld 288 32) (32 * comWsCount p)

/-- A micro-batch ends before the verdict flood (R248). -/
def mbOk (b : Buf) (raw : Buf) (m : MbEntry) : Bool :=
  raw.fld 120 8 = 0 && (imgEntryList b).all fun x => x.2.action ≠ 0x60 || m.cutoff < x.2.offset

/-- A watch slot's reserved fields and its part of the promotion map (R253, R513). -/
def slotOk (b : Buf) (x : Buf) : Bool :=
  match imgSect b 0x0C with
  | none => false
  | some sec =>
    let map := (imgCommit b).fld 288 32 + 32 * comWsCount (imgCommit b)
    let first := x.fld 192 20
    let n := x.fld 212 12
    x.fld 88 8 = 0 && x.fld 144 16 = 0 && x.fld 224 32 = 0 && map + 8 * (first + n) ≤ sec.off + sec.len &&
      (List.range n).all fun i => (b.slice (map + 8 * (first + i)) 8).fld 27 37 = 0

/-- TAG ranges of two slots do not overlap; an empty one overlaps nothing (R253). -/
def tagsApart (l : List Buf) : Bool :=
  disjoint ((l.filter fun x => x.fld 40 16 ≤ x.fld 56 16).map fun x => (x.fld 40 16, x.fld 56 16 + 1 - x.fld 40 16))

/-- The shard descriptors and the commit data. -/
def checkState (b : Buf) : List Fail :=
  let ts := imgShards b
  let raw := (imgRecs b 0x09 0 64).zip ts
  let at_ (p : Buf × Shard → Bool) : List Fail :=
    match raw.findIdx? fun x => !p x with
    | some i => [⟨stState, i, 0xFFFF⟩]
    | none => []
  let ids := ts.map fun t => (t.id, t.epoch)
  let slots := imgSlots b
  at_ (fun x => shardFields b x.1 x.2) ++
  need (ids.dedup.length = ids.length && (ts.map (·.id)).dedup.length = ts.length) stState ++
  need (disjoint ((ts.filter (·.owns)).map fun t => (t.stateEla, t.runLen)) && disjoint (ts.flatMap shardOasis)) stState ++
  at_ (fun x => shardPlaced b x.2) ++
  need ((ts.filter (·.direct)).length ≤ 64) stState ++
  ((List.range 8).flatMap fun d => need (directOk b d) stState 0xFFFFFFFF d) ++
  need (commitParams b) stState ++
  (if commitParams b then
    (((b.drop ((imgCommit b).fld 256 32)).recs 16 (comMbCount (imgCommit b))).zip (imgMbs b)).zipIdx.flatMap
      (fun (x : (Buf × MbEntry) × Nat) => need (mbOk b x.1.1 x.1.2) stState x.2) ++
    (slots.zipIdx.flatMap fun (x : Buf × Nat) => need (slotOk b x.1) stState x.2) ++
    need (ts.all fun t => (slots.filter fun x => x.fld 0 20 ≤ t.id && t.id ≤ x.fld 20 20).length = 1) stState ++
    need (tagsApart slots) stState
   else [])

end Sys2Proof.Machine
end

