-- ==== Sys2Proof/Machine/CheckRest.lean ====
section
/-! DEFINITION. What an arm checks of an image, part three: the update passes (check 9 of R362), the links (check 10), the
fragments, sums and slices (check 11) and the epoch (check 12). -/

namespace Sys2Proof.Machine

/-- Status codes of the link checks (R402). -/
def stLinkWidth : Nat := 0x0150
@[inherit_doc stLinkWidth] def stLinkDelay : Nat := 0x0151
@[inherit_doc stLinkWidth] def stLinkPlan : Nat := 0x0152

/-! ### Check 9 of R362: passes (R213, R215, R216, R220, R221, R223, R226) -/

/-- A finite FP32 code. -/
def finite32 (v : Nat) : Bool := v % 2 ^ 31 < 0x7F800000

/-- Entries of the pass tensor list that the section holds (R513). -/
def passListLen (b : Buf) : Nat :=
  match imgSect b 0x08 with
  | none => 0
  | some x => (x.len - 64 * x.count) / 4

/-- A pass descriptor's encodings: reserved fields, fields its rule does not use, and its FP32 values (R216). -/
def passFormat (raw : Buf) (p : Pass) : Bool :=
  let uses (rules : List Nat) (v : Nat) : Bool := rules.contains p.rule || v = 0
  decide (p.rule ≤ 4) && (p.rule ≠ 4 || (!p.clip && !p.wd)) && (!p.nest || p.rule = 0 || p.rule = 2) && (!p.bc || p.rule = 1) &&
    (p.rule = 2 || (!p.nsBlock && p.nsIter = 0)) && (p.rule = 3 || (p.pcIter = 0 && !p.pcRoot)) && raw.fld 17 15 = 0 &&
    raw.fld 480 32 = 0 && 1 ≤ raw.fld 52 12 &&
    [p.lr, p.beta1, p.beta2, p.eps, p.lambda, p.gscale, p.oscale, p.nsA, p.nsB, p.nsC].all finite32 &&
    uses [1, 3] p.beta2 && uses [1, 2, 3] p.eps && (p.wd || p.lambda = 0) && uses [0, 1, 2, 3] p.gscale &&
    uses [2, 3] p.oscale && uses [2] p.nsA && uses [2] p.nsB && uses [2] p.nsC &&
    (!([1, 2, 3].contains p.rule) || (0 < p.eps && p.eps < 0x7F800000))

/-- Staging bytes that a pass needs for one tensor (R220, R221). -/
def Pass.stageNeed (p : Pass) (t : Shard) : Nat :=
  let need_ (a b : Nat) : Nat := 6 * (Nat.min a b * Nat.max a b) + 12 * (Nat.min a b) ^ 2
  if p.rule = 2 then (if p.nsBlock then need_ p.nsBr p.nsBc else need_ (t.owNr * t.lbRows) (t.owNc * t.lbCols))
  else if p.rule = 3 then 28 * t.lbRows ^ 2
  else 0

/-- One tensor of a pass: RULE and ADAM agree and the limits of R220 and R221 hold. A shard covers its tensor when it is the
whole slice (log entry 90). -/
def Pass.tensorOk (p : Pass) (raw : Buf) (t : Shard) : Bool :=
  let rows := t.owNr * t.lbRows
  let cols := t.owNc * t.lbCols
  (if p.rule = 1 || p.rule = 3 then t.adam else p.rule = 4 || !t.adam) &&
    (p.rule ≠ 2 || !t.owns ||
      (if p.nsBlock then
        1 ≤ p.nsBr && 1 ≤ p.nsBc && mult p.nsBr 32 && mult p.nsBc 32 && p.nsBr ≤ 4096 && p.nsBc ≤ 4096 &&
          mult p.nsBr t.lbRows && mult p.nsBc t.lbCols && mult rows p.nsBr && mult cols p.nsBc
       else t.owRow = t.slRow && t.owCol = t.slCol && t.owNr = t.slNr && t.owNc = t.slNc)) &&
    (p.rule ≠ 3 || (t.lbRows = t.lbCols && mult t.lbRows 32 && decide (t.lbRows ≤ 2048))) &&
    (!t.owns || decide (p.stageNeed t ≤ raw.fld 448 32))

/-- A pass descriptor passes on its own. -/
def passOk (b raw : Buf) : Bool :=
  let p := Pass.ofBuf raw
  let ts := passShards b raw
  passFormat raw p && raw.fld 32 20 + raw.fld 52 12 ≤ passListLen b && ts.length = raw.fld 52 12 &&
    ts.all (p.tensorOk raw) && (p.rule ≠ 4 || ts.all fun t => t.fragment = passFragment b raw) &&
    mult (raw.fld 416 32) 64 && mult (raw.fld 448 32) 64

/-- The staging range of a pass that die `d` runs is a TRANSIENT Oasis range of that die; a pass that needs none names
none (R215, R216). -/
def stageOk (b raw : Buf) (d : Nat) : Bool :=
  let a := raw.fld 416 32
  let n := raw.fld 448 32
  if (passShards b raw).all fun t => (Pass.ofBuf raw).stageNeed t = 0 then a = 0
  else inRegion b 1 1 a n && a / oasisSize = d && decide (a % oasisSize + n ≤ oasisSize)

/-- The draw counters that a pass entry takes, from step start: first and length (R226). -/
def drawRange (b : Buf) (e : Entry) : Nat × Nat :=
  let n := (((passShards b (imgPass b e.arg)).filter (·.owns)).map (·.elems)).sum
  (coreCycle e.offset, 8 * ceilDiv n 2048)

/-- The entries of the update passes. -/
def passEntries (b : Buf) : List (Nat × Entry) := (imgEntryList b).filter fun x => x.2.action = 0x10

/-- An OUTER entry waits for the inner pass of every tensor the two share (R223). -/
def outerWaits (b : Buf) (e : Entry) : Bool :=
  let raw := imgPass b e.arg
  (Pass.ofBuf raw).rule ≠ 4 || (passEntries b).all fun x =>
    (Pass.ofBuf (imgPass b x.2.arg)).rule = 4 ||
      !((passShards b (imgPass b x.2.arg)).any fun t => (passShards b raw).any fun u => u.id = t.id) ||
      (x.2.sigEn && e.preEn && e.preSo = x.2.sigSo)

/-- Every entry of the pass tensor list names a shard descriptor (R215). -/
def passListOk (b : Buf) : Bool :=
  match imgSect b 0x08 with
  | none => true
  | some x => (List.range (passListLen b)).all fun k =>
      decide ((b.slice (x.off + 64 * x.count + 4 * k) 4).fld 0 32 < (imgShards b).length)

/-- The passes. A tensor that the device owns is in one inner pass, which one entry runs (R199, R215). -/
def checkPasses (b : Buf) : List Fail :=
  let ps := (List.range (imgCount b 0x08)).map fun i => imgPass b i
  let l := passEntries b
  let lists (inner : Bool) (t : Shard) : Nat :=
    ((ps.filter fun p => decide (p.fld 0 4 < 4) = inner).map fun p => (passShards b p).countP fun x => x.id = t.id).sum
  let runs (inner : Bool) (t : Shard) : Nat :=
    ((l.filter fun x => decide ((imgPass b x.2.arg).fld 0 4 < 4) = inner).map fun x =>
      (passShards b (imgPass b x.2.arg)).countP fun y => y.id = t.id).sum
  let commitEnd := match imgCommitEntry b with | some x => x.2.finish | none => 0
  (ps.zipIdx.flatMap fun (p : Buf × Nat) => need (passOk b p.1) stUpdate p.2) ++
  ((imgShards b).zipIdx.flatMap fun (t : Shard × Nat) =>
    need (!t.1.owns || (lists true t.1 = 1 && lists false t.1 ≤ 1 && runs true t.1 = 1 && runs false t.1 ≤ 1)) stUpdate t.2) ++
  need (passListOk b) stUpdate ++
  (l.flatMap fun x => need (x.2.policy ≠ 2 && commitEnd ≤ x.2.offset && stageOk b (imgPass b x.2.arg) (x.2.target - 0x80) &&
    outerWaits b x.2) stUpdate x.1 x.2.target) ++
  ((List.range 8).flatMap fun d =>
    need (disjoint ((l.filter fun x => x.2.target = 0x80 + d).map fun x => drawRange b x.2)) stUpdate 0xFFFFFFFF (0x80 + d))

/-! ### Check 10 of R362: links (R265, R270, R271, R273, R275, R278, R281, R367) -/

/-- A block descriptor passes R270. -/
def blockDescOk (raw : Buf) (d : Blk) : Bool :=
  raw.fld 31 1 = 0 && raw.fld 39 9 = 0 && raw.fld 120 8 = 0 && raw.fld 160 352 = 0 && decide (d.rxOp ≤ 5) && decide (d.space ≤ 2) &&
    (d.space = 0 || d.core = 0) && mult d.addr 64 && (d.space ≠ 2 || d.addr = 0) && 1 ≤ d.len && decide (d.len ≤ 15728640) &&
    (d.dir = 1 || d.rxOp = 0) && (d.rxOp = 5 || d.check = 0)

/-- Least DURATION of a send entry at a port's width (R263, R271). -/
def sendNs (flits width : Nat) : Nat := ceilDiv (128 * 8 * (flits + ceilDiv flits 74 + 2)) (100 * Nat.max width 1)

/-- A send or receive entry passes R271, R273 and R278. -/
def linkEntryOk (b : Buf) (e : Entry) : Bool :=
  if e.action = 0x40 then
    let d := Blk.ofBuf (imgBlock b e.arg)
    d.dir = 0 && decide (sendNs d.flits (imgWidth b (e.target - 0xB0)) ≤ e.duration) && (holdOf b e).isSome
  else if e.action = 0x48 then
    (Blk.ofBuf (imgBlock b e.arg)).dir = 1 && e.policy = 3 && e.guard = 0 && (holdOf b e).isSome
  else true

/-- The bindings of one BLOCK on one receive target: where each starts and how long it lasts (R273). -/
def bindRanges (b : Buf) (l : List (Nat × Entry)) (target block : Nat) : List (Nat × Nat) :=
  (l.filter fun x => x.2.target = target && x.2.action = 0x48 && (Blk.ofBuf (imgBlock b x.2.arg)).block = block).map fun x =>
    (x.2.offset, (match holdOf b x.2 with | some h => h.2.finish | none => x.2.finish) - x.2.offset)

/-- A credit profile passes R281. -/
def profileLimits (raw : Buf) : Bool :=
  let c := raw.fld 0 10
  let rest := [raw.fld 10 10, raw.fld 20 10, raw.fld 30 10]
  decide (16 ≤ c) && mult c 2 && rest.all (fun x => mult x 2 && decide (x ≤ 1008)) && decide (c + rest.sum ≤ 1024) &&
    raw.fld 40 24 = 0 && raw.fld 80 48 = 0

/-- The links. -/
def checkLinks (b : Buf) (s : State) : List Fail :=
  let l := imgEntryList b
  let decl (p : Nat) : Buf := imgRec b 0x0E 0 8 p
  ((imgPorts b).flatMap fun p => need ((s.port p).state = .up && imgWidth b p ≤ (s.port p).width) stLinkWidth p p) ++
  ((imgPorts b).flatMap fun p =>
    need (match (s.port p).delayPs with | some d => decide (ceilDiv d 1000 ≤ imgMaxDelay b p) | none => true) stLinkDelay p p) ++
  ((List.range 8).flatMap fun p =>
    need ([0, 1, 2, 4, 8].contains (imgWidth b p) && (decl p).fld 4 4 = 0 && (decl p).fld 32 32 = 0) stLinkPlan p p) ++
  (l.flatMap fun x =>
    need (!(targetClass x.2.target = 4 || targetClass x.2.target = 5) || imgWidth b (x.2.target % 8) ≠ 0) stLinkPlan x.1 x.2.target) ++
  ((List.range (imgCount b 0x04)).flatMap fun i => need (blockDescOk (imgBlock b i) (Blk.ofBuf (imgBlock b i))) stLinkPlan i) ++
  (l.flatMap fun x => need (linkEntryOk b x.2) stLinkPlan x.1 x.2.target) ++
  (l.flatMap fun x =>
    need (x.2.action ≠ 0x48 || disjoint (bindRanges b l x.2.target (Blk.ofBuf (imgBlock b x.2.arg)).block)) stLinkPlan x.1 x.2.target) ++
  ((List.range (imgCount b 0x05)).flatMap fun i => need (profileLimits (imgRec b 0x05 0 16 i)) stLinkPlan i)

/-! ### Check 11 of R362: fragments, sums and slices (R295, R311, R354) -/

/-- The fragment table's header (R295). -/
def fragHeader (h : Buf) : Bool :=
  decide (h.fld 0 3 ≤ 4) && h.fld 3 5 = 0 && h.fld 13 3 = 0 && h.fld 23 489 = 0 && (h.fld 8 5).testBit (h.fld 0 3) &&
    1 ≤ h.fld 16 7 && decide (h.fld 16 7 ≤ 64)

/-- A fragment entry (R295). -/
def fragEntry (b raw : Buf) (f : Nat) : Bool :=
  let snaps := ((imgShards b).filter fun t => t.fragment = f).map (·.snaps)
  1 ≤ raw.fld 0 16 && raw.fld 16 16 < raw.fld 0 16 && 1 ≤ raw.fld 32 13 && decide (raw.fld 32 13 ≤ 4096) && raw.fld 45 3 = 0 &&
    raw.fld 32 13 ≤ raw.fld 48 16 && raw.fld 64 16 < raw.fld 32 13 && 1 ≤ raw.fld 80 3 && snaps.all (fun n => raw.fld 80 3 ≤ n) &&
    raw.fld 84 4 = 0 && raw.fld 112 16 = 0 && raw.fld 192 64 = 0 && mult (raw.fld 128 32) 64

/-- The sum region of a fragment on a die holds the blocks of the OUTER pass there (R311). -/
def sumOk (b : Buf) (e : Entry) : Bool :=
  let p := imgPass b e.arg
  let f := passFragment b p
  let d := e.target - 0x80
  let blocks := ((outerShards b p).map fun t => t.elems / 256).sum
  let len := (imgFrag b f).fld 160 32
  p.fld 0 4 ≠ 4 || (decide (64 + 2080 * blocks ≤ len) && decide ((imgFrag b f).fld 128 32 + len ≤ oasisSize) &&
    inRegion b 1 1 (sumAddr b d f) len)

/-- Largest distance between due instants of a rising list that repeats every `period` ns. -/
def largestGap (period : Nat) : List Nat → Nat
  | [] => period
  | x :: l => Nat.max (go x l) (period + x - (x :: l).getLast?.getD x)
where
  /-- Between neighbours of the list. -/
  go : Nat → List Nat → Nat
    | _, [] => 0
    | x, y :: l => Nat.max (y - x) (go y l)

/-- A far port in use has a slice due at least every 250 us (R354). A port is in use where a configured partner of the job's
sites is reached through it, or a slice names it (log entry 93). -/
def slicesOk (b : Buf) (s : State) (k : Nat) : Bool :=
  let due := (entriesOf (imgEntryList b) (0xC0 + k)).filter fun e => e.action = 0x50
  let used := (List.range 5).any fun j => (imgSites b).testBit j && (s.partner j).used && (s.partner j).port = k
  (due.isEmpty && !used) || (!due.isEmpty && largestGap (imgPeriod b) (due.map (·.offset)) ≤ 250000)

/-- The fragments, sums and slices. With no fragment table there is one site (R361) and no OUTER pass to give a round to. -/
def checkAcrix (b : Buf) (s : State) : List Fail :=
  let outers := (passEntries b).filter fun x => (imgPass b x.2.arg).fld 0 4 = 4
  (match imgSect b 0x0A with
   | none => need outers.isEmpty stAcrixPlan
   | some _ =>
     need (fragHeader (imgBytes b 0x0A) && imgFcount b = imgCount b 0x0A) stAcrixPlan ++
     ((List.range (imgFcount b)).flatMap fun f => need (fragEntry b (imgFrag b f) f) stAcrixPlan f) ++
     ((imgShards b).zipIdx.flatMap fun (t : Shard × Nat) => need (t.1.fragment < imgFcount b) stAcrixPlan t.2)) ++
  (outers.flatMap fun x => need (sumOk b x.2) stAcrixPlan x.1 x.2.target) ++
  ((List.range (imgCount b 0x0B)).flatMap fun i => need ((imgRec b 0x0B 0 16 i).fld 6 122 = 0) stAcrixPlan i) ++
  ((List.range 4).flatMap fun k => need (slicesOk b s k) stAcrixPlan 0xFFFFFFFF k)

/-! ### Check 12 of R362: the epoch (R49) -/

/-- E is a multiple of 3,900 ns and at least 10 ms later than the HT at which the command completes. -/
def checkEpoch (s : State) (epoch : Int) : List Fail :=
  need (epoch % 3900 = 0) stTtAlign ++ need ((s.htNow : Int) + 10 * oneMs ≤ epoch) stEpochPast

/-- Checks 3 to 11 of R362 and 10 to 11 of a restore: everything of a main image but its signature and its epoch. -/
def checkImage (s : State) (b : Buf) : List Fail :=
  need (s.ht.state = .locked && !s.ht.far) 0x0110 ++
  need s.erg.ready 0x0140 ++
  checkTimetable b s.erg.density ++
  checkKernels b (mainCtx b) false stKernel ++
  checkPlan b s.erg ++
  checkState b ++
  checkPasses b ++
  checkLinks b s ++
  checkAcrix b s

/-- The first failure of the checks 2 to 12 of an arm, in their order (R362). -/
def armFailure (s : State) (b : Buf) (epoch : Option Int) : Option Fail :=
  match checkFormat b false with
  | f :: _ => some f
  | [] => (checkImage s b ++ (match epoch with | some e => checkEpoch s e | none => [])).head?

end Sys2Proof.Machine
end

