-- ==== Sys2Proof/Machine/Pcie.lean ====
section
/-! DEFINITION. The PCIe control path (R378 to R396): BAR0 registers, mailboxes, the fetch and the start of commands, host
buffers, completions and the event ring's interrupts. -/

namespace Sys2Proof.Machine

/-! ### Identity and status registers (R384) -/

/-- RILSETI_READY. -/
def State.rilsetiReady (s : State) : Bool := s.aon.phase = .up

/-- DEV_ID: the firmware version is that of the running image, loaded when RILSETI_READY sets. -/
def State.devId (s : State) : Nat :=
  packBits [(16, 0x1600), (8, 0xA2), (8, 0), (32, if s.rilsetiReady then s.isl.fwRunning.fld 32 32 else 0)]

/-- DEV_STATUS. STEP is that of the last decision (R242, R245). -/
def State.devStatus (s : State) : Nat :=
  packBits [(1, b2n s.rilsetiReady), (3, if s.aon.power = .hold then 1 else 0), (3, s.ht.state.code), (1, 0), (12, s.aon.chainAddr),
    (1, b2n s.erg.ready), (1, b2n s.job.isSome), (1, b2n s.guest.isSome), (9, 0), (32, s.com.hist.lastStep)]

/-! ### Mailbox registers (R385, R386) -/

/-- STATE of MB_STATUS. -/
def MbState.code : MbState → Nat
  | .closed => 0 | .open_ => 1 | .closing => 2 | .stopped => 3

/-- MB_STATUS (R386): PENDING counts the commands fetched and not yet completed. -/
def Mailbox.status (m : Mailbox) : Nat :=
  packBits [(7, m.cmds.length), (1, 0), (2, m.state.code), (2, 0), (3, m.role), (1, 0), (16, m.cmdHead), (16, m.cplTail), (16, 0)]

/-- Completions that the host has not consumed. -/
def Mailbox.unread (m : Mailbox) : Nat := (m.cplTail + 2 ^ 16 - m.cplHead) % 2 ^ 16

/-- A completion slot is free (R388). -/
def Mailbox.slotFree (m : Mailbox) : Bool := decide (m.unread < 64)

/-- Commands posted and not fetched (R387). -/
def Mailbox.posted (m : Mailbox) : Nat := (m.cmdTail + 2 ^ 16 - m.cmdHead) % 2 ^ 16

/-- A mailbox as it is once it is CLOSED: role, nonce and rings gone; what the host wrote stays (R385, R389). -/
def Mailbox.shut (m : Mailbox) : Mailbox :=
  { m with state := .closed, role := 0, roleJob := 0, actor := 0, actorKey := 0, nonce := none, cmds := [], busy := [] }

/-- CLOSING ends when nothing waits for its completion (R385). -/
def Mailbox.settle (m : Mailbox) : Mailbox :=
  if m.state = .closing && m.cmds.isEmpty && m.busy.isEmpty then m.shut else m

/-- ENABLE cleared (R385): commands fetched but not started complete with ABORTED, the running one normally. -/
def Mailbox.close (m : Mailbox) (ht : Nat) : Mailbox :=
  let m := { m with enable := false }
  if m.state = .open_ || m.state = .stopped then
    Mailbox.settle { m with
      state := .closing
      cmds := m.cmds.map fun c => if c.phase = .waiting then { c with phase := .finished, status := 2, ht } else c }
  else m

/-- ENABLE set (R385): a CLOSED mailbox with both bases nonzero opens while RILSETI_READY is 1. The host's counts start at 0
with the device's (log entry 97). -/
def State.openMb (s : State) (k : Nat) : State :=
  s.onMbox k fun m =>
    let m := { m with enable := true }
    if m.state = .closed && s.rilsetiReady && m.cmdBase ≠ 0 && m.cplBase ≠ 0 then
      { m with state := .open_, cmdTail := 0, cplHead := 0, cmdHead := 0, cplTail := 0, role := 0, roleJob := 0, actor := 0,
               actorKey := 0, nonce := none, cmds := [], busy := [] }
    else m

/-- What a host access does, where BAR0 answers; an access shows that the link is up (log entry 112). -/
def State.host (s : State) (f : State → State) : State :=
  if s.barUp then f (s.onPcie fun p => { p with linkUp := true }) else s

/-- MB_ENABLE_SET (R385). -/
def execMbEnableSet (at_ mb : Nat) (s : State) : Res := .next ((s.tick at_).host fun s => s.openMb mb)

/-- The mailbox closed by its ENABLE bit. -/
def State.closeMb (s : State) (k : Nat) : State := s.onMbox k fun m => m.close s.htStamp

/-- MB_ENABLE_CLEAR (R385). -/
def execMbEnableClear (at_ mb : Nat) (s : State) : Res := .next ((s.tick at_).host fun s => s.closeMb mb)

/-- Error bit `k` at 0x24 set, with its NOC cycle (R13, R386). -/
def Mailbox.setErr (m : Mailbox) (k noc : Nat) : Mailbox :=
  { m with errs := m.errs ||| (1 <<< k), errsAt := noteSet m.errsAt 0 (1 <<< k) noc }

/-- A doorbell (R387, R440): the latest CMD_TAIL is kept, over-fast writes are counted, and a count more than 64 ahead
stops an open mailbox. -/
def State.doorbell (s : State) (k tail : Nat) : State :=
  let m := s.mbox k
  let fast := match m.dbAt with | some t => decide (s.now < t + 64) | none => false
  let s := if fast then s.onAon fun a => { a with dbOver := satAdd 32 a.dbOver 1 } else s
  s.onMbox k fun m =>
    let m := { m with dbAt := some s.now, dbFast := if fast then some (m.dbFast.getD s.now) else none, dbStuck := m.dbStuck && fast }
    if m.state = .closed then m.setErr 0 s.nocNow
    else
      let m := { m with cmdTail := tail % 2 ^ 16 }
      if m.state = .open_ && 64 < m.posted then { m.setErr 1 s.nocNow with state := .stopped } else m

@[inherit_doc State.doorbell]
def execMbDoorbell (at_ mb tail : Nat) (s : State) : Res := .next ((s.tick at_).host fun s => s.doorbell mb tail)

/-- DOORBELL_STUCK (R440): writes at the over-fast rate for 10 ms, once per episode. -/
def State.doorbellStuck (s : State) (k : Nat) : State :=
  match (s.mbox k).dbFast with
  | none => s
  | some t =>
    if (s.mbox k).dbStuck || s.now < t + 10 * oneMs then s
    else
      ((s.onMbox k fun m => { m with dbStuck := true }).onAon fun a => { a with dbStuck := satAdd 16 a.dbStuck 1 }).raise
        Ev.doorbellStuck k [(4, k)]

@[inherit_doc State.doorbellStuck]
def execDoorbellStuck (at_ mb : Nat) (s : State) : Res := .next ((s.tick at_).doorbellStuck mb)

/-- MB_CPL_HEAD (R388): completions consumed by the host. -/
def State.cplHead (s : State) (k head : Nat) : State := s.onMbox k fun m => { m with cplHead := head % 2 ^ 16 }

@[inherit_doc State.cplHead]
def execMbCplHead (at_ mb head : Nat) (s : State) : Res := .next ((s.tick at_).host fun s => s.cplHead mb head)

/-! ### The event ring's registers (R394, R441) -/

/-- EV_CTRL written: setting ENABLE zeroes the counts and, the first time after a reset, writes the held DEVICE_RESET. No
chapter says what a write of the reserved SIZE values 9 to 15 does: they are stored, with a ring of 2^(SIZE+8) entries (DESIGN
CHOICE, log entry 129). -/
def State.evControl (s : State) (v : Nat) : State :=
  let on := bit v 0
  let fresh := on && !s.pcie.evEnable
  let s := s.onPcie fun p =>
    { p with evEnable := on, evSize := bits v 1 4, evVector := bits v 5 4, evIrqEn := bit v 9, evHold := bits v 16 16 }
  if fresh then
    let s := s.onPcie fun p => { p with evTail := 0, evHead := 0, evLost := 0 }
    let s :=
      if s.pcie.heldReset then
        (s.onPcie fun p => { p with heldReset := false }).raise Ev.deviceReset 0 [(9, s.aon.resetCause), (5, s.aon.wakeCause)]
      else s
    match s.aon.railRec with
    | some (rail, status) => (s.onAon fun a => { a with railRec := none }).raise Ev.railFault rail [(8, rail), (16, status)]
    | none => s
  else s

/-- EV_RING_ENABLE (R394): EV_CTRL written with ENABLE 1. -/
def execEvRingEnable (at_ value : Nat) (s : State) : Res := .next ((s.tick at_).host fun s => s.evControl (value ||| 1))

/-- EVENT_IRQ_HOLDOFF (R394): the interrupt for entries written during the holdoff. -/
def State.irqHoldoff (s : State) : State := if s.pcie.evIrqDue then s.evInterrupt else s

@[inherit_doc State.irqHoldoff]
def execEventIrqHoldoff (at_ : Nat) (s : State) : Res := .next (s.tick at_).irqHoldoff

/-! ### HT_SNAP (R384) -/

/-- HT_SNAP_TRIGGER: HT and the time state are captured; HT is free while it is not valid (R44, log entry 98). -/
def State.htSnap (s : State) : State :=
  let (v, s) := if s.htValid then (s.htNow, s) else s.free 64
  s.onHt fun h => { h with snapHt := v, snapState := h.state.code, snapValid := true }

@[inherit_doc State.htSnap]
def execHtSnapTrigger (at_ : Nat) (s : State) : Res := .next ((s.tick at_).host State.htSnap)

/-! ### BAR0 accesses (R12, R379, R383) -/

/-- An access that R379 admits. -/
def barAligned (off width : Nat) : Bool := (width = 4 || width = 8) && off % width = 0 && off < 65536

/-- An MSI-X table word written; unmasking a vector sends what it holds pending (R378). -/
def State.msixWrite (s : State) (word v : Nat) : State :=
  let k := word / 4
  let s := s.onPcie fun p => { p with msix := tset 0 p.msix k (setBits (tget 0 p.msix k) (32 * (word % 4)) 32 v) }
  if s.pcie.pba.testBit k && !(tget 0 s.pcie.msix k).testBit 96 then
    (s.onPcie fun p => { p with pba := p.pba ^^^ (1 <<< k) }).emit (.msix k)
  else s

/-- A 32-bit word of a mailbox's registers written. -/
def State.mbWrite (s : State) (k off v : Nat) : State :=
  let base (hi : Bool) (old : Nat) : Nat := setBits old (if hi then 32 else 0) 32 v
  match off with
  | 0x00 => s.onMbox k fun m => if m.state = .closed then { m with cmdBase := base false m.cmdBase } else m
  | 0x04 => s.onMbox k fun m => if m.state = .closed then { m with cmdBase := base true m.cmdBase } else m
  | 0x08 => s.onMbox k fun m => if m.state = .closed then { m with cplBase := base false m.cplBase } else m
  | 0x0C => s.onMbox k fun m => if m.state = .closed then { m with cplBase := base true m.cplBase } else m
  | 0x10 => s.doorbell k v
  | 0x14 => s.cplHead k v
  | 0x20 =>
    let s := s.onMbox k fun m => { m with vectorX := bits v 0 4 ^^^ k, irqEn := bit v 4 }
    if bit v 5 then s.openMb k else s.closeMb k
  | 0x24 => s.onMbox k fun m => { m with errs := w1c 4 m.errs v 0 s.nocNow m.errsAt }
  | _ => s

/-- A 32-bit word of BAR0 written, by its access code (R12). -/
def State.barWrite32 (s : State) (off v : Nat) : State :=
  match off with
  | 0x0010 => s.onAon fun a => { a with resetCause := w1c 9 a.resetCause v 0 s.nocNow a.causeAt }
  | 0x0014 => s.onAon fun a => { a with wakeCause := w1c 5 a.wakeCause v 16 s.nocNow a.causeAt }
  | 0x0018 => if bit v 0 then s.htSnap else s
  | 0x0100 => s.onPcie fun p => if p.evEnable then p else { p with evBase := setBits p.evBase 0 32 v }
  | 0x0104 => s.onPcie fun p => if p.evEnable then p else { p with evBase := setBits p.evBase 32 32 v }
  | 0x0108 => s.evControl v
  | 0x010C => s.onPcie fun p => { p with evHead := v % 2 ^ 32 }
  | _ =>
    if 0x1000 ≤ off && off < 0x1400 then s.mbWrite ((off - 0x1000) / 64) (off % 64) v
    else if 0x8000 ≤ off && off < 0x8100 then s.msixWrite ((off - 0x8000) / 4) v
    else s

/-- REGISTER_WRITE (R12, R379): a 64-bit access writes both its words. -/
def State.barWrite (s : State) (off width v : Nat) : State :=
  if !barAligned off width then s
  else if width = 8 then (s.barWrite32 off (v % 2 ^ 32)).barWrite32 (off + 4) (bits v 32 32)
  else s.barWrite32 off (v % 2 ^ 32)

@[inherit_doc State.barWrite]
def execRegisterWrite (at_ off width value : Nat) (s : State) : Res := .next ((s.tick at_).host fun s => s.barWrite off width value)

/-- The 64-bit register that holds an offset, as a host read sees it (R383, R384, R386, R394); reading changes nothing. -/
def State.barRead64 (s : State) (off : Nat) : Nat :=
  match off with
  | 0x0000 => s.devId
  | 0x0008 => s.devStatus
  | 0x0010 => s.aon.resetCause + s.aon.wakeCause <<< 32
  | 0x0020 => s.ht.snapHt
  | 0x0028 => s.ht.snapState + b2n s.ht.snapValid <<< 3
  | 0x0100 => s.pcie.evBase
  | 0x0108 =>
    packBits [(1, b2n s.pcie.evEnable), (4, s.pcie.evSize), (4, s.pcie.evVector), (1, b2n s.pcie.evIrqEn), (6, 0), (16, s.pcie.evHold),
      (32, s.pcie.evHead)]
  | 0x0110 => s.pcie.evTail + s.pcie.evLost <<< 32
  | 0x9000 => s.pcie.pba
  | _ =>
    if 0x1000 ≤ off && off < 0x1400 then
      let k := (off - 0x1000) / 64
      let m := s.mbox k
      match off % 64 with
      | 0x00 => m.cmdBase
      | 0x08 => m.cplBase
      | 0x18 => m.status
      | 0x20 => (m.vectorX ^^^ k) + b2n m.irqEn <<< 4 + b2n m.enable <<< 5 + m.errs <<< 32
      | _ => 0
    else if 0x8000 ≤ off && off < 0x8100 then bits (tget 0 s.pcie.msix ((off - 0x8000) / 16)) (8 * (off % 16)) 64
    else 0

/-- A host read (R379): an access that is not naturally aligned reads zero. -/
def State.barRead (s : State) (off width : Nat) : Nat :=
  if !barAligned off width then 0
  else if width = 8 then s.barRead64 off
  else bits (s.barRead64 (off - off % 8)) (8 * (off % 8)) 32

/-! ### What closes every mailbox (R380, R400) -/

/-- No command waits for the answer of mailbox `mb` any more: what it started goes on without a completion. -/
def State.forgetWaiter (s : State) (mb : Nat) : State :=
  let gone (o : Option Nat) : Option Nat := if o = some mb then none else o
  let s := s.onJob fun j => { j with stopMb := gone j.stopMb }
  let s := s.onCom fun c =>
    { c with ckptLocal := c.ckptLocal.map fun x => (x.1, gone x.2)
             ckptExport := c.ckptExport.map fun x => (x.1, x.2.1, x.2.2.1, gone x.2.2.2) }
  let s := s.onAcx fun a => { a with sess := a.sess.map fun e => (e.1, { e.2 with waitMb := gone e.2.waitMb }) }
  { s with guest := s.guest.map fun g => { g with leaveMb := gone g.leaveMb } }

/-- The background commands of host mailboxes stop at their next line: their waiting lines go, and what a command held goes
with its mailbox, a firmware image not yet stored in full among it (R400, R420). -/
def State.stopBackground (s : State) : State :=
  let mine (b : Nat × Nat × Nat) : Bool := decide (b.2.1 < 16)
  let host (r : ErgReq) : Bool := match r.dest with | .host mb _ => decide (mb < 16) | _ => false
  let s := s.onErg fun e =>
    { e with chans := tmap ErgChannel.reset (fun c => { c with queue := c.queue.filter fun r => !host r }) e.chans }
  let s := if s.pcie.bg.any fun b => mine b && b.1 = 0x0B01 then s.onAon fun a => { a with chainLoop := false } else s
  s.onPcie fun p => { p with bg := p.bg.filter fun b => !mine b }

/-- Every host mailbox closed with no completion written, and the event ring disabled (R380). -/
def State.hostGone (s : State) : State :=
  let s := (List.range 16).foldl (fun s k => (s.forgetWaiter k).onMbox k fun m => { m.shut with enable := false }) s.stopBackground
  s.onPcie fun p =>
    { p with evEnable := false, evIrqDue := false
             running := match p.running with | some k => if k < 16 then none else some k | none => none }

/-- FUNCTION_LEVEL_RESET (R380): the BAR0 registers and the MSI-X table also return to their reset values, but for
RESET_CAUSE and WAKE_CAUSE. -/
def State.flr (s : State) : State :=
  let s := s.hostGone
  let s := s.onHt fun h => { h with snapHt := 0, snapState := 0, snapValid := false }
  s.onPcie fun p =>
    { p with mboxes := p.mboxes.filter fun m => m.1 = 16
             evBase := 0, evSize := 0, evVector := 0, evIrqEn := false, evHold := 0, evHead := 0, evTail := 0, evLost := 0
             msix := [], pba := 0 }

@[inherit_doc State.flr]
def execFunctionLevelReset (at_ : Nat) (s : State) : Res := .next (s.tick at_).flr

/-- D3HOT_ENTRY (R380). -/
def execD3hotEntry (at_ : Nat) (s : State) : Res := .next (s.tick at_).hostGone

/-- BUS_MASTER_CLEAR (R380). -/
def execBusMasterClear (at_ : Nat) (s : State) : Res := .next (s.tick at_).hostGone

/-- PCIE_LINK_LOSS (R380): the link no longer answers, and the same follows. -/
def State.pcieLost (s : State) : State := s.hostGone.onPcie fun p => { p with linkUp := false }

@[inherit_doc State.pcieLost]
def execPcieLinkLoss (at_ : Nat) (s : State) : Res := .next (s.tick at_).pcieLost

/-! ### Command entries (R390, R391, R397) -/

/-- What the tables of R403 to R418 fix of a command's form: its opcode, PLEN where stated, its named parameter bits as
(first, width), and the direction of BUF0 and BUF1 where it uses them (true: the device writes). -/
structure CmdForm where
  opcode : Nat
  plen   : Option Nat
  named  : List (Nat × Nat)
  b0     : Option Bool
  b1     : Option Bool

/-- The commands of areas 0x01 to 0x05. -/
def formsLow : List CmdForm :=
  [⟨0x0101, some 0, [], none, none⟩, ⟨0x0102, none, [], none, none⟩, ⟨0x0103, some 16, [(0, 3), (64, 64)], some false, none⟩,
   ⟨0x0104, none, [], none, none⟩, ⟨0x0201, none, [], none, none⟩, ⟨0x0202, some 8, [(0, 64)], none, none⟩,
   ⟨0x0203, some 32, [(0, 4), (32, 32), (64, 16), (128, 128)], none, none⟩, ⟨0x0204, some 1, [(0, 1)], some true, none⟩,
   ⟨0x0301, none, [], some true, none⟩, ⟨0x0302, some 12, [(0, 43), (64, 32)], some true, none⟩,
   ⟨0x0303, some 12, [(0, 43), (64, 32)], some false, none⟩, ⟨0x0304, some 1, [(0, 5)], none, none⟩,
   ⟨0x0401, some 28, [(0, 204)], some false, none⟩, ⟨0x0402, none, [], none, none⟩,
   ⟨0x0403, some 24, [(0, 71), (96, 16), (128, 32)], some false, some false⟩,
   ⟨0x0404, some 16, [(0, 65), (80, 48)], none, none⟩, ⟨0x0405, some 8, [(0, 64)], some false, none⟩,
   ⟨0x0406, none, [], none, none⟩, ⟨0x0407, some 1, [(0, 2)], some true, none⟩,
   ⟨0x0501, some 16, [(0, 128)], some false, some false⟩, ⟨0x0502, none, [], none, none⟩, ⟨0x0503, none, [], none, none⟩]

/-- The commands of areas 0x06 to 0x0C. -/
def formsHigh : List CmdForm :=
  [⟨0x0601, some 40, [(0, 3), (16, 48), (64, 96), (192, 128)], none, none⟩,
   ⟨0x0602, some 100, [(0, 6), (32, 86), (128, 16), (192, 555), (768, 8)], none, none⟩,
   ⟨0x0603, some 1, [(0, 4)], some false, none⟩, ⟨0x0604, some 1, [(0, 3), (4, 2)], none, none⟩,
   ⟨0x0605, some 8, [(0, 16), (32, 32)], none, none⟩, ⟨0x0606, none, [], some true, none⟩, ⟨0x0607, none, [], some true, none⟩,
   ⟨0x0608, none, [], none, none⟩, ⟨0x0609, some 1, [(0, 1)], some true, none⟩, ⟨0x0701, none, [], some true, none⟩,
   ⟨0x0702, some 3, [(0, 21)], some true, none⟩, ⟨0x0801, some 1, [(0, 2)], none, none⟩,
   ⟨0x0802, some 6, [(0, 25), (32, 16)], none, none⟩, ⟨0x0803, some 2, [(0, 16)], none, none⟩, ⟨0x0804, none, [], none, none⟩,
   ⟨0x0901, some 4, [(0, 32)], some true, none⟩, ⟨0x0902, some 32, [(0, 256)], some true, none⟩,
   ⟨0x0903, none, [], some false, none⟩, ⟨0x0904, none, [], some false, none⟩, ⟨0x0905, some 1, [(0, 2)], none, none⟩,
   ⟨0x0A01, none, [], some false, none⟩, ⟨0x0A02, some 8, [(0, 36)], some true, none⟩, ⟨0x0A03, none, [], none, none⟩,
   ⟨0x0B01, some 6, [(0, 10), (16, 32)], none, none⟩, ⟨0x0B02, some 2, [(0, 10)], some true, none⟩,
   ⟨0x0C01, some 2, [(0, 16)], some false, none⟩, ⟨0x0C02, none, [], some true, none⟩]

/-- Every command of the reference (R403 to R418). -/
def cmdForms : List CmdForm := formsLow ++ formsHigh

/-- A buffer descriptor keeps R391, and where the command uses it, its direction. -/
def descOk (d : Buf) (dir : Option Bool) : Bool :=
  let len := d.fld 64 32
  d.fld 98 30 = 0 &&
    (if len = 0 then d.fld 0 64 = 0
     else if d.flag 97 then d.fld 0 64 % 16 = 0 && decide (len ≤ 65536)
     else d.fld 0 64 % 64 = 0) &&
    (match dir with | some w => len = 0 || d.flag 96 = w | none => true)

/-- The named bits of a command's parameters. -/
def namedMask : List (Nat × Nat) → Nat
  | [] => 0
  | x :: l => ((2 ^ x.2 - 1) <<< x.1) ||| namedMask l

/-- The status with which an entry completes without being run: BAD_OPCODE, BAD_PARAM, or none (R391, R393, R397). -/
def entryStatus (e : Buf) : Option Nat :=
  match cmdForms.find? fun f => f.opcode = e.fld 0 16 with
  | none => some 3
  | some f =>
    let params := e.fld 512 1536
    let plen := e.fld 64 8
    if e.fld 33 31 = 0 && e.fld 72 56 = 0 && e.fld 384 128 = 0 && plen ≤ 192 && (f.plen.isNone || f.plen = some plen) &&
        params &&& namedMask f.named = params && descOk (e.slice 16 16) f.b0 && descOk (e.slice 32 16) f.b1 then none
    else some 5

/-- A command as it is fetched. -/
def Cmd.fetched (e : Buf) (ht : Nat) : Cmd :=
  match entryStatus e with
  | some st => ⟨e, .finished, st, .empty, 0, ht, .empty, .empty⟩
  | none => ⟨e, .waiting, 0, .empty, 0, 0, .empty, .empty⟩

/-- MB_FETCH (R382, R388): an open mailbox with a command posted and a completion slot free fetches an entry. `none` is a
read of host memory that failed. -/
def State.fetch (s : State) (k : Nat) (entry : Option Buf) : State :=
  let m := s.mbox k
  if !(decide (k < 16) && m.state = .open_ && m.posted ≠ 0 && m.slotFree) then s
  else
    match entry with
    | none => s.onMbox k fun m => { m.setErr 2 s.nocNow with state := .stopped }
    | some e =>
      s.onMbox k fun m =>
        let m := { m with cmdHead := (m.cmdHead + 1) % 2 ^ 16 }
        if 64 ≤ m.cmds.length then { m with busy := m.busy ++ [⟨e, .finished, 1, .empty, 0, s.htStamp, .empty, .empty⟩] }
        else { m with cmds := m.cmds ++ [Cmd.fetched (e.slice 0 256) s.htStamp] }

@[inherit_doc State.fetch]
def execMbFetch (at_ mb : Nat) (entry : Option Buf) (s : State) : Res := .next ((s.tick at_).fetch mb entry)

/-! ### The start of a command (R388, R389, R399) -/

/-- A command being run: its mailbox, its entry, and what the reads of host memory gave for BUF0 and BUF1: the extent list
where LIST is 1, then the data where DIR is 0; `none` where a read failed (log entry 96). -/
structure Call where
  mb    : Nat
  entry : Buf
  b0    : Option Buf
  b1    : Option Buf

/-- A parameter field. -/
def Call.par (c : Call) (lsb w : Nat) : Nat := c.entry.fld (512 + lsb) w

/-- The parameter bytes as given. -/
def Call.params (c : Call) : Buf := c.entry.slice 64 (c.entry.fld 64 8)

/-- A host buffer: its extents as (address, length), and the bytes read from it. -/
structure HostBuf where
  exts : List (Nat × Nat)
  data : Buf

/-- Bytes of a buffer. -/
def HostBuf.size (h : HostBuf) : Nat := (h.exts.map (·.2)).sum

/-- An extent list keeps R391. -/
def extentsOk (l : List Buf) : Bool :=
  l.all (fun e => e.fld 0 64 % 64 = 0 && e.fld 96 32 = 0) && l.dropLast.all fun e => e.fld 64 32 % 64 = 0

/-- The buffer of a descriptor: the status with which the command ends, BAD_PARAM or BUF_FAULT, or the buffer. -/
def hostBuf (d : Buf) (raw : Option Buf) : Nat × HostBuf :=
  let len := d.fld 64 32
  if len = 0 then (0, ⟨[], .empty⟩)
  else if d.flag 97 then
    match raw with
    | none => (6, ⟨[], .empty⟩)
    | some r =>
      let l := r.recs 16 len
      let size := (l.map fun e => e.fld 64 32).sum
      (if extentsOk l then 0 else 5, ⟨l.map fun e => (e.fld 0 64, e.fld 64 32), (r.drop (16 * len)).slice 0 (if d.flag 96 then 0 else size)⟩)
  else if d.flag 96 then (0, ⟨[(d.fld 0 64, len)], .empty⟩)
  else
    match raw with
    | none => (6, ⟨[], .empty⟩)
    | some r => (0, ⟨[(d.fld 0 64, len)], r.slice 0 len⟩)

/-- BUF0 and BUF1 of a command. -/
def Call.buf0 (c : Call) : HostBuf := (hostBuf (c.entry.slice 16 16) c.b0).2
@[inherit_doc Call.buf0] def Call.buf1 (c : Call) : HostBuf := (hostBuf (c.entry.slice 32 16) c.b1).2

/-- The status of a command's buffers before it does anything: that of the first that is wrong. -/
def Call.bufStatus (c : Call) : Nat :=
  let x := (hostBuf (c.entry.slice 16 16) c.b0).1
  if x ≠ 0 then x else (hostBuf (c.entry.slice 32 16) c.b1).1

/-- Data written to a buffer, extent by extent (R381, R391). -/
def State.writeHost (s : State) : List (Nat × Nat) → Buf → State
  | [], _ => s
  | (a, n) :: l, b =>
    if b.len = 0 then s
    else (s.emit (.hostWrite a (b.slice 0 (Nat.min n b.len)))).writeHost l (b.drop (Nat.min n b.len))

/-- Host address of byte `off` of a buffer. -/
def extAddr : List (Nat × Nat) → Nat → Nat
  | [], off => off
  | (a, n) :: l, off => if off < n then a + off else extAddr l (off - n)

/-- The first command of a mailbox that has not ended and is not in the background. -/
def Mailbox.head (m : Mailbox) : Option Cmd := m.cmds.find? fun c => c.phase = .waiting || c.phase = .running

/-- The command that mailbox `k` would start: its first, not yet started; the chain mailbox is always open (R431). -/
def State.startable (s : State) (k : Nat) : Option Cmd :=
  let m := s.mbox k
  if k = 16 || m.state = .open_ then
    match m.head with
    | some c => if c.phase = .waiting then some c else none
    | none => none
  else none

/-- It is mailbox `k`'s turn in the rotation, and no command runs (R388, R399). -/
def State.turn (s : State) (k : Nat) : Bool :=
  s.pcie.running.isNone &&
    (((List.range 17).map fun i => (s.pcie.rotor + 1 + i) % 17).find? fun i => (s.startable i).isSome) = some k

/-- The role of a mailbox; the chain mailbox holds Operator (R389, R431). -/
def State.roleOf (s : State) (k : Nat) : Nat := if k = 16 then 3 else (s.mbox k).role

/-- Replaces the first command in phase `p` of a mailbox. -/
def Mailbox.onFirst (m : Mailbox) (p : CmdPhase) (f : Cmd → Cmd) : Mailbox := { m with cmds := go m.cmds }
where
  /-- The list with its first command in the phase changed. -/
  go : List Cmd → List Cmd
    | [] => []
    | c :: l => if c.phase = p then f c :: l else c :: go l

/-- The running command of mailbox `mb` ends: its completion waits to be written and the processor is free. -/
def State.finish (s : State) (mb status : Nat) (resp : Buf := Buf.empty) (xfer : Nat := 0) : State :=
  (s.onMbox mb fun m => m.finish .running status resp (Nat.min xfer (2 ^ 32 - 1)) s.htStamp).onPcie fun p => { p with running := none }

/-- The running command goes on in the background (R399). -/
def State.toBackground (s : State) (c : Call) : State :=
  (s.onMbox c.mb fun m => m.onFirst .running fun x => { x with phase := .background, in0 := c.buf0.data, in1 := c.buf1.data }).onPcie fun p =>
    { p with running := none, bg := p.bg ++ [(c.entry.fld 0 16, c.mb, 0)] }

/-- A background command of the opcode runs (R399). -/
def State.inBackground (s : State) (opcode : Nat) : Bool := s.pcie.bg.any fun b => b.1 = opcode

/-- Ends a command whose response lies in BUF0: BUF_SHORT where it does not fit, else the data is written. -/
def State.answerBuf (s : State) (c : Call) (b : Buf) (resp : Buf := Buf.empty) : State :=
  if c.buf0.size < b.len then s.finish c.mb 7 else (s.writeHost c.buf0.exts b).finish c.mb 0 resp b.len

/-- A command that cannot do without a buffer; a CMD frame has none (R431). -/
def needsBuffer (e : Buf) : Bool :=
  match e.fld 0 16 with
  | 0x0903 => false
  | 0x0403 => e.fld 576 2 = 1 || e.flag 578
  | op => match cmdForms.find? fun f => f.opcode = op with | some f => f.b0.isSome || f.b1.isSome | none => false

/-- The commands that need a unit that HOLD stops (R445). -/
def wakesHold : List Nat := [0x0401, 0x0403, 0x0302, 0x0303, 0x0604, 0x0A02, 0x0B01, 0x0B02]

/-- HOLD left for RUN (R445). -/
def State.leaveHold (s : State) : State :=
  if s.aon.power = .hold then (s.onAon fun a => { a with power := .run }).raise Ev.powerRun else s

/-- The first waiting command of mailbox `mb` becomes the running one (R388, R399). -/
def State.begun (s : State) (mb : Nat) : State :=
  (s.onMbox mb fun m => m.onFirst .waiting fun y => { y with phase := .running }).onPcie fun p =>
    { p with running := some mb, rotor := mb }

/-- A Rilseti command of mailbox `mb` run: it starts when it is the mailbox's turn and the entry's opcode is its own; a role
that it does not admit completes it with ROLE_DENIED, a buffer that a CMD frame cannot have with BUF_SHORT, a bad buffer
with BAD_PARAM or BUF_FAULT (R382, R389, R391, R399, R431). -/
def State.command (s : State) (opcode mb : Nat) (b0 b1 : Option Buf) (allow : State → Call → Bool) (body : State → Call → State) :
    State :=
  match s.startable mb with
  | none => s
  | some x =>
    if x.entry.fld 0 16 ≠ opcode || !s.turn mb || !(s.rilsetiReady || (mb = 16 && opcode = 0x0903 && s.aon.phase = .recovery)) then s
    else
      let c : Call := ⟨mb, x.entry, b0, b1⟩
      let s := s.begun mb
      if !allow s c then s.finish mb 4
      else if mb = 16 && needsBuffer x.entry then s.finish mb 7
      else if c.bufStatus ≠ 0 then s.finish mb c.bufStatus
      else body (if wakesHold.contains opcode then s.leaveHold else s) c

/-! ### Completions (R385, R388, R392) -/

/-- A completion entry of 256 bytes; `n` is its number (R392). -/
def Cmd.completion (c : Cmd) (n : Nat) : Buf :=
  packBuf 256 [(16, c.entry.fld 16 16), (16, c.entry.fld 0 16), (16, c.status), (15, 0), (1, 1 - n / 64 % 2), (8, c.resp.len), (24, 0),
    (32, c.xfer), (64, c.ht), (64, 0), (1792, c.resp.val)]

/-- The next completion of a mailbox: a BUSY one first, else that of its first command once it is finished; with the
mailbox without it. -/
def Mailbox.nextDone (m : Mailbox) : Option (Cmd × Mailbox) :=
  match m.busy with
  | c :: l => some (c, { m with busy := l })
  | [] =>
    match m.cmds with
    | c :: l => if c.phase = .finished then some (c, { m with cmds := l }) else none
    | [] => none

/-- A completion written to the ring, with its MSI-X message; with no slot free it waits and CPL_STALL is set, or, in
CLOSING, is discarded. -/
def State.complete (s : State) (k : Nat) : State :=
  let m := s.mbox k
  if m.state = .closed || m.state = .stopped then s
  else
    match m.nextDone with
    | none => s.onMbox k fun m => m.settle
    | some (c, m') =>
      if m.slotFree then
        let s := s.emit (.hostWrite (m.cplBase + 256 * (m.cplTail % 64)) (c.completion m.cplTail))
        let s := s.putMbox k { m' with cplTail := (m.cplTail + 1) % 2 ^ 16 }
        let s := if c.entry.flag 32 && m.irqEn then s.sendMsix (m.vectorX ^^^ k) else s
        s.onMbox k fun m => m.settle
      else if m.state = .closing then s.putMbox k m'.settle
      else s.onMbox k fun m => m.setErr 3 s.nocNow

end Sys2Proof.Machine
end

