-- ==== Sys2Proof/Machine/Arm.lean ====
section
/-! DEFINITION. Arming a job (R362, R363, R407, R485), restoring it (R52, R210, R251, R408), and the replay of manifest logs
(R317, R414). -/

namespace Sys2Proof.Machine

/-! ### Arm (R363) -/

/-- A core as an arm leaves it: nothing running, Basin zero, the counters of R96 cleared. -/
def Core.armed (c : Core) : Core :=
  { c.halt with tile0 := .reset, tile1 := .reset, flags := .reset, busy := 0, interlock := 0, fetchSlow := 0, conflicts := 0, waitCycles := 0 }

/-- A die as an arm leaves it: its pool empty, the counters of R211 and R230 cleared. -/
def Die.armed (d : Die) : Die :=
  { d.halt with pool := [], poolAt := [], rbPeak := 0, spillBlocks := 0, spillPeak := 0, nfBlocks := 0, ovfBlocks := 0, anchorClamps := 0,
                passesRun := 0, passesIdle := 0, elements := 0, srSat := 0, outerFull := 0, outerOnly := 0, stallUs := 0 }

/-- The initial data of one region copied into it (R363, R370). -/
def State.initRegion (s : State) (b : Buf) (r : Region) : State :=
  if !r.initEn then s
  else
    let v := (imgBytes b 0x0F).le r.initOff r.length
    match r.space with
    | 0 => s.ergWrite r.base r.length v
    | 1 => s.oasisWrite r.base r.length v
    | _ => s.scratchWrite r.core r.base r.length v

/-- An event code masked. -/
def addMask (l : List Nat) (c : Nat) : List Nat := if l.contains c then l else sortBy (fun x y => x ≤ y) (c :: l)

/-- The step controller of a fresh job (R245, R258, R259). -/
def Commit.armed (b : Buf) : Commit :=
  { Commit.reset with
    hist := { ScaleHist.reset with lexp := comLInit (imgCommit b), nexp := comNexpInit (imgCommit b) } }

/-- The fragments of a fresh job: ACTIVE with A(0) = SITES, or in BOOTSTRAP with the join option (R318). -/
def State.armFrags (s : State) (b : Buf) (join : Option (Option Nat)) : State :=
  let s := s.onAcx fun a => { a with frags := [] }
  (imgFrags b).foldl (fun s f =>
    let s := (s.putFrag f { Fragment.reset with jstate := 3, active := imgSites b }).putApply b f 0 0 false 0
    match join with
    | some d => s.enterBootstrap b f d
    | none => s) s

/-- The parameters of R407 as they are stored with the image. -/
def armParams (epoch : Int) (seed sfl : Nat) (join : Option (Option Nat)) : Buf :=
  packBuf 28 [sf 64 epoch, (128, seed), (8, sfl), (1, b2n join.isSome), (3, (join.bind id).getD 7), (20, 0)]

/-- The copy of image and parameters at the start of the CHECKPOINT region (R485). -/
def State.storeCopy (s : State) (b params : Buf) : State :=
  match imgRole b 5 with
  | none => s
  | some r => s.ergWrite r.base (ckptCopyLen b) (b.app params).val

/-- The lower-indexed site of each pair initiates the partner session (R334). -/
def State.callPartners (s : State) (b : Buf) : State :=
  let own := imgSite b
  ((onesOf 5 (imgSites b)).filter fun k => own < k && (s.partner k).used).foldl (fun s k =>
    match s.partnerPlace k with
    | some p => if (s.sess p).state = .closed then (s.initSession k (s.partner k).port false none).1 else s
    | none => (s.initSession k (s.partner k).port false none).1) s

/-- The arm (R363): every effect, in order; every scratch word becomes zero with valid check symbols (R144). With no epoch
(R487) E is set later. -/
def State.armJob (s : State) (b : Buf) (epoch : Option Int) (seed sfl : Nat) (join : Option (Option Nat)) : State :=
  let j : Job :=
    { image := b, epoch := epoch.getD 0, hasEpoch := epoch.isSome, seed, sfLimit := sfl, phase := .armed, fresh := true, step := 0,
      sn := 0, xNext := 0, xPrev := 0, sfRun := 0, missThis := false, relayout := none, oldImage := none, drainStep := 0,
      stopMb := none }
  let s := s.halt.loadKernels b false
  let s := { s with
    scratch := ⟨[], []⟩
    job := some j, cores := tmap Core.reset Core.armed s.cores, dies := tmap Die.reset Die.armed s.dies
    sos := [], soStart := -1, soStale := 0, miss := [], spills := [], spillOff := 0, com := Commit.armed b
    near := tmap NearPort.reset (fun n => { n with notice := none }) s.near }
  let s := (imgRegions b).foldl (fun s r => s.initRegion b r) s
  let s := s.onPcie fun p => { p with masks := maskedAtArm.foldl addMask p.masks }
  let s := (s.armFrags b join).storeCopy b (armParams (epoch.getD 0) seed sfl join)
  let s := s.measure 2 (imgId b) (imageDigest b (imgLen b))
  let s := if epoch.isSome then s.sendNeighbourNotices else s
  (s.callPartners b).raise Ev.jobArmed

/-- The response of an arm (R407). -/
def armResp (b : Buf) (f : Option Fail) : Buf :=
  packBuf 16 [(64, imgId b), (32, match f with | some x => x.index | none => 0xFFFFFFFF),
    (16, match f with | some x => x.unit | none => 0xFFFF), (16, 0)]

/-- The certificate that signs a main image (R468). -/
def mainSigner (b : Buf) (c : Buf) : Bool := certRole c = 3 || (certRole c = 4 && certJob c = imgJobId b)

/-- The join option of a command: DONOR 7 lets the device choose (R407). -/
def joinOf (en : Bool) (donor : Nat) : Option (Option Nat) :=
  if en then some (if donor = 7 then none else some donor) else none

/-- JOB_ARM (R362, R407). -/
def State.jobArm (s : State) (c : Call) : State :=
  let raw := c.buf0.data
  let sfl := c.par 192 8
  if s.job.isSome then s.finish c.mb 0x012B
  else if raw.len < 64 || raw.len < signedLen (imgLen raw) then s.finish c.mb 7
  else if 64 < sfl then s.finish c.mb 5
  else
    let b := raw.slice 0 (imgLen raw)
    if !s.imageGood raw (imgLen raw) (mainSigner raw) then
      (s.raise Ev.imageRejected 0x0401).finish c.mb 0x0190 (armResp b none)
    else
      let epoch := sext 64 (c.par 0 64)
      match armFailure s b (some epoch) with
      | some f => s.finish c.mb f.status (armResp b (some f))
      | none =>
        let sfl := if sfl = 0 then 4 else sfl
        let s := s.armJob b (some epoch) (c.par 64 128) sfl (joinOf (c.par 200 1 = 1) (c.par 201 3))
        (s.onSite fun x => { x with copy := some (raw, c.par 64 128, sfl) }).finish c.mb 0 (armResp b none)

/-! ### Replay of a manifest log (R317, R323, R414) -/

/-- A log entry: step, mode, and the manifest as a little-endian record where it has one. -/
structure LogItem where
  step : Nat
  mode : Nat
  man  : Option Buf

/-- The log entries of a manifest log from offset `off` on. -/
def logItems (b : Buf) : Nat → Nat → List LogItem
  | 0, _ => []
  | fuel + 1, off =>
    if b.len < off + 16 then []
    else
      let h := b.slice off 16
      if h.fld 64 2 = 3 then ⟨h.fld 0 64, 3, none⟩ :: logItems b fuel (off + 16)
      else
        let n := 32 + 32 * (b.slice (off + 16) 32).fld 64 4
        ⟨h.fld 0 64, h.fld 64 2, some (manSwap (b.slice (off + 16) n))⟩ :: logItems b fuel (off + 16 + n)

/-- The manifest log of a checkpoint's records, without its fragment records. -/
def logOf (b : Buf) (l : List Rec) : List LogItem :=
  match l.find? fun r => r.kind = 0x22 with
  | some r => logItems r.payload (r.payload.len / 16 + 1) (64 * imgFcount b)
  | none => []

/-- A Caravan supplied for a listed contribution: fragment, site, round and chunk payloads. -/
structure Supplied where
  frag   : Nat
  site   : Nat
  round  : Nat
  chunks : List Buf

/-- The chunk payloads of a Caravan of fragment `f` from offset `off` of a buffer. -/
def chunksAt (b data : Buf) (f off : Nat) : List Buf × Nat :=
  let g := groupLen (imgFragCfg b f).twoBit
  (chunkPlan b f).foldl (fun (a : List Buf × Nat) c =>
    let n := 32 + c.groups * g
    (a.1 ++ [data.slice a.2 n], a.2 + n)) ([], off)

/-- The Caravans of BUF1 for the contributions that the log lists, in its order, or `none` where one is absent or does not
match (R414). -/
def supplied (b data : Buf) : List (Nat × Nat × Bool × Nat × Nat × Nat) → Nat → Option (List Supplied)
  | [], _ => some []
  | (f, site, _, round, n, digest) :: l, off =>
    let h := data.slice off 16
    let (cs, next) := chunksAt b data f (off + 16)
    if data.len < next || h.val ≠ packBits [(6, f), (3, site), (23, 0), (32, round), (32, n), (32, 0)] || cs.length ≠ n ||
        ((sha256Buf (Buf.cat cs)).slice 0 16).val ≠ digest then none
    else (supplied b data l next).map fun r => ⟨f, site, round, cs⟩ :: r

/-- Every listed contribution of the log, in log order and then in manifest entry order (R414). -/
def logListed (l : List LogItem) : List (Nat × Nat × Bool × Nat × Nat × Nat) :=
  l.flatMap fun i => match i.man with | some m => (manEntries m).map fun e => (manFrag m, e) | none => []

/-- The fragment that a deferred snapshot of the log belongs to: its entry names none, and entries stand in fragment order and, within a
fragment, in step order (log entry 160). `last` is the fragment and step of the manifest entry before it. -/
def snapFrag (last : Nat × Nat) (step : Nat) (rest : List LogItem) : Nat :=
  if last.2 ≤ step then last.1
  else match rest.findSome? (·.man) with
    | some m => manFrag m
    | none => last.1

/-- The logged rounds from step `n` on prepared for replay (R317): their manifests adopted, their Caravans held, and their
applications, closings and deferred snapshots due at their logged steps. -/
def State.replayItems (n : Nat) : Nat × Nat → List LogItem → State → State
  | _, [], s => s
  | last, i :: l, s =>
    match i.man with
    | none =>
      let f := snapFrag last i.step l
      State.replayItems n last l (if i.step < n then s else s.onFrag f fun x => { x with snapLater := x.snapLater ++ [i.step] })
    | some m =>
      let f := manFrag m
      let s := if i.step < n then s
        else
          let s := s.onFrag f fun x => { x with applyLater := x.applyLater ++ [(manRound m, i.step, i.mode)] }
          if (s.frag f).nextAdopt = manRound m then s.adopt f m else s
      State.replayItems n (f, i.step) l s

@[inherit_doc State.replayItems]
def State.replayLog (s : State) (n : Nat) (l : List LogItem) (cs : List Supplied) : State :=
  let s := cs.foldl (fun s (c : Supplied) => s.onFrag c.frag fun x =>
    let k := carKey c.round c.site
    { x with caravans := tset [] x.caravans k (c.chunks.zipIdx.map fun p => (p.2, p.1)), chunksOf := tset 0 x.chunksOf k c.chunks.length }) s
  State.replayItems n ((l.findSome? (·.man)).elim 0 manFrag, 0) l s

/-! ### Restore (R52, R210, R251, R408) -/

/-- The step controller after a restore: its counters and watch values stay, the controller fields are the restored ones. -/
def Commit.restored (c : Commit) (h : ScaleHist) (dataPos n : Nat) (probe : Bool) : Commit :=
  { c.newStep with
    cause := 0, hist := h, probeFails := 0, probeNext := probe, mirrorDue := none, dataPos, lastFinite := n - 1, carry := none,
    ckptLocal := none, ckptExport := none, ckptTail := none, ckptResid := [], ckptWait := none, mirrored := none, ckptWriting := none }

/-- A fragment restored from its record (R209, R323): the rounds whose snapshot records are there stay outstanding, and those
later than the residual's ROUND are encoded again. -/
def State.restoreFrag (s : State) (b : Buf) (l : List Rec) (log : Buf) (f : Nat) : State :=
  let ts := fragShards b f
  let resid := ((l.find? fun r => r.kind = 6 && ts.any fun t => t.id = r.tensor).map fun r => (r.round + 1) % 2 ^ 32).getD 0
  let there (q : Nat) : Bool := ts.all fun t => t.blocks.all fun rc =>
    l.any fun r => r.kind = 7 && r.tensor = t.id && r.row = rc.1 && r.col = rc.2 && r.round = q
  let x := (s.frag f).restore (log.slice (64 * f) 64)
  let anchor := ((l.find? fun r => r.kind = 4 && ts.any fun t => t.id = r.tensor).map fun r => (r.round + 1) % 2 ^ 32).getD 0
  let out := (x.out.filter fun r => there r.round).map fun (r : Round) => { r with encoded := decide (r.round < resid) }
  let x := { x with residRound := resid, applied := anchor, out
                    snapSteps := out.foldl (fun t (r : Round) => tset 0 t r.round (r.snapStep + 1)) [] }
  s.putFrag f { x with encoding := x.nextEncode }

/-- The anchors taken from the memory plan, and GEXP and FILL zero in every tensor record (R251). -/
def State.noScale (s : State) (b : Buf) : State :=
  let ts := imgShards b
  let s := ((imgRegions b).filter fun r => r.space = 1 && ts.any fun t => r.holds 1 0 t.anAddr).foldl
    (fun s r => s.initRegion b r) s
  ts.foldl (fun s t => s.oasisWrite t.shAddr 8 (setBits (setBits (s.oasis.val t.shAddr 8) 32 11 0) 48 8 0)) s

/-- The records of a checkpoint installed (R210, R251; a carry buffer held across a site job restart is lost, R233): state, step, controller and fragments; the job waits for the first
step, whose epoch follows from RESUME_HT where one is given. -/
def State.restoreRecs (s : State) (j : Job) (l : List Rec) (resume : Option Int) (join : Option (Option Nat)) : State :=
  let b := j.image
  let jr := ((l.find? fun r => r.kind = 0x20).map (·.payload)).getD Buf.empty
  let n := jr.fld 0 64
  let sn := jr.fld 64 64
  let scale := hasScale b l
  let h := match l.find? fun r => r.kind = 0x21 with
    | some r => ScaleHist.ofBuf r.payload
    | none => s.com.hist
  let h := if scale then { h with shAbsent := false }
    else { h with shAbsent := true, promoted := 0, ufRun := [], nwRun := [], nexp := comNexpInit (imgCommit b), bias := 16 }
  let s := if j.phase = .restarting && s.com.carry.isSome then s.onCom fun c => { c with cCarryLost := satAdd 32 c.cCarryLost 1 } else s
  let s := l.foldl (fun s r => s.placeRec b r) ((s.halt.loadKernels b false).dropGradients b)
  let s := if scale then s else s.noScale b
  let s := { s with
    job := some { j with phase := .armed, fresh := true, step := n, sn, hasEpoch := resume.isSome,
                         epoch := match resume with | some e => e - sn | none => j.epoch
                         xNext := 0, xPrev := 0, sfRun := 0, missThis := false, oldImage := none, stopMb := none }
    sos := [], soStart := (n : Int) - 1, spills := [], spillOff := 0
    dies := tmap Die.reset (fun d => { d with pool := [], poolAt := [] }) s.dies
    cores := tmap Core.reset (fun c => { c with flags := .reset }) s.cores
    com := s.com.restored h (jr.fld 192 64) n (!scale) }
  let s := match l.find? fun r => r.kind = 0x22 with
    | some r => (imgFrags b).foldl (fun s f => s.restoreFrag b l r.payload f) s
    | none => (imgFrags b).foldl (fun s f => s.onFrag f fun x => { x with active := imgSites b }) s
  let s := (imgFrags b).foldl (fun s f =>
    let s := s.putApply b f 0 0 false 0
    match join with
    | some d => s.enterBootstrap b f d
    | none => if (s.frag f).jstate = 1 then s.enterBootstrap b f none else s) s
  if scale then s else s.raise Ev.scaleHistoryAbsent 0 [] n

/-- The response of a restore (R408). -/
def State.restoreResp (s : State) : Buf :=
  packBuf 16 [(64, match s.job with | some j => j.step | none => 0), (1, b2n s.com.hist.shAbsent), (63, 0)]

/-- The status of a restore's RESUME_HT for a step that starts at `sn` (R52). -/
def State.resumeStatus (s : State) (h : Int) (sn : Nat) : Option Nat :=
  if h % 3900 ≠ 0 then some 0x0121
  else if h < s.htNow + 10 * oneMs || sext 64 sn < 0 then some 0x0122
  else none

/-- A restore of the job from records, as a command's entry and BUF1 ask for it: the status, and the state. -/
def State.restoreFrom (s : State) (e : Buf) (in1 : Buf) (recs : Option (List Rec)) : Nat × State :=
  match s.job with
  | none => (0x012C, s)
  | some j =>
    match recs with
    | none => (0x0130, s)
    | some l =>
      match importStatus j.image l with
      | some st => (st, s)
      | none =>
        let jr := ((l.find? fun r => r.kind = 0x20).map (·.payload)).getD Buf.empty
        match s.resumeStatus (sext 64 (e.fld 512 64)) (jr.fld 64 64) with
        | some st => (st, s)
        | none =>
          let replay := e.flag 578
          let log := if replay then logOf j.image l else []
          match supplied j.image in1 (logListed log) 0 with
          | none => (0x0135, s)
          | some cs =>
            let s := s.restoreRecs j l (some (sext 64 (e.fld 512 64))) (joinOf (e.flag 579) (e.fld 580 3))
            let s := if replay then s.replayLog (jr.fld 0 64) log cs else s
            (0, (s.sendNeighbourNotices.callPartners j.image).raise Ev.jobRestored 0 [] (jr.fld 0 64))

/-- A checkpoint is pending or being written (R402, R420). -/
def Commit.ckptPending (c : Commit) : Bool :=
  c.ckptLocal.isSome || c.ckptExport.isSome || c.ckptTail.isSome || c.ckptWait.isSome || c.ckptWriting.isSome

/-- JOB_RESTORE (R408). From a buffer it goes on in the background; from a bulk session it waits for the records, which it
asks for by a BULK datagram that names EXPORT_ID. -/
def State.jobRestore (s : State) (c : Call) : State :=
  match s.job with
  | none => s.finish c.mb 0x012C
  | some j =>
    if !(j.phase = .stopped || (j.phase = .armed && j.fresh)) then s.finish c.mb 0x012D
    else if s.com.ckptPending || s.inBackground 0x0403 then s.finish c.mb 0x0136
    else
      match c.par 64 2 with
      | 0 =>
        match s.newestHalf j.image with
        | none => s.finish c.mb 0x0134
        | some h =>
          let (st, s) := s.restoreFrom c.entry c.buf1.data (s.halfRecs j.image h)
          s.finish c.mb st (if st = 0 then s.restoreResp else .empty)
      | 1 => s.toBackground c
      | 2 =>
        match s.places.find? fun k => (s.sess k).localId = c.par 96 16 && (s.sess k).bulk && (s.sess k).state = .open_ with
        | none => s.finish c.mb 0x0165
        | some k =>
          let s := s.onMbox c.mb fun m => m.onFirst .running fun x => { x with in1 := c.buf1.data }
          (s.onSess k fun x => { x with inStream := [], inLast := none }).offer k [newDatagram 8 (c.par 128 32) 0 0 true .empty]
      | _ => s.finish c.mb 5

/-- The work of a JOB_RESTORE from a buffer is done (R408). -/
def State.restoreDone (s : State) (x : Cmd) : Nat × State := s.restoreFrom x.entry x.in1 (recordsOf x.in0)

/-- A record stream that a waiting JOB_RESTORE has received in full (R408). -/
def State.restorePulled (s : State) (k : Nat) (st : Buf) : State :=
  match s.pullCmd (s.sess k).localId with
  | none => s
  | some (mb, x) =>
    let (status, s) := s.restoreFrom x.entry x.in1 (recordsOf st)
    let s := s.onSess k fun y => { y with inStream := [], inLast := none }
    s.finishWaiting mb status (if status = 0 then s.restoreResp else .empty)

/-- BULK_RX (R355): a datagram taken in, and a restore's records installed once the stream is complete. -/
def State.bulkIn (s : State) (port route : Nat) (dg : Buf) : State :=
  let s := s.bulkRx port route dg
  match s.places.find? fun k => (s.sess k).bulk && (s.sess k).stream.isSome && (s.pullCmd (s.sess k).localId).isSome with
  | none => s
  | some k =>
    match (s.sess k).stream with
    | some st => s.restorePulled k st
    | none => s

@[inherit_doc State.bulkIn]
def execBulkRx (at_ port route : Nat) (dg : Buf) (s : State) : Res := .next ((s.tick at_).bulkIn port route dg)

/-! ### Re-layout, stop and checkpoint (R289, R406, R409) -/

/-- RELAYOUT (R289 to R291, R406). -/
def State.relayout (s : State) (c : Call) : State :=
  match s.job with
  | none => s.finish c.mb 0x012C
  | some j =>
    let raw := c.buf0.data
    let b := raw.slice 0 (imgLen raw)
    if j.relayout.isSome || j.oldImage.isSome then s.finish c.mb 0x012E
    else if raw.len < 64 || raw.len < signedLen (imgLen raw) then s.finish c.mb 7
    else if c.par 0 64 ≤ (if j.fresh && j.phase = .armed then j.step - 1 else j.step) then s.finish c.mb 0x012F
    else if !s.imageGood raw (imgLen raw) (mainSigner raw) then
      (s.raise Ev.imageRejected 0x0405).finish c.mb 0x0190
    else
      let same := imgJobId b = imgJobId j.image && imgCw b = imgCw j.image && (List.range 4).all fun a => imgSize b a = imgSize j.image a
      let fails := (checkFormat b false ++ need same 0x012A)
      let first := match fails with
        | f :: _ => some f
        | [] => (relayoutChecks b).head?
      match first with
      | some f => s.finish c.mb f.status
      | none =>
        if imgEpoch b ≠ imgEpoch j.image + 1 || !((imgShards b).all fun t => t.epoch = imgEpoch b) then s.finish c.mb 0x0128
        else (s.onJob fun j => { j with relayout := some (c.par 0 64, b) }).finish c.mb 0
where
  /-- Checks 5 to 11 of R362. -/
  relayoutChecks (b : Buf) : List Fail :=
    checkTimetable b s.erg.density ++ checkKernels b (mainCtx b) false stKernel ++ checkPlan b s.erg ++ checkState b ++ checkPasses b ++
      checkLinks b s ++ checkAcrix b s

/-- JOB_STOP (R406, R420): at the end of the running step; a job that no step has started stops at once. -/
def State.jobStop (s : State) (c : Call) : State :=
  match s.job with
  | none => s.finish c.mb 0x012C
  | some j =>
    match j.phase with
    | .stopped => s.finish c.mb 0
    | .restarting => (s.onJob fun j => { j with stopMb := some c.mb }).onSite fun x => { x with stopReq := true }
    | .armed => (s.onJob fun j => { j with stopMb := some c.mb }).stopJob
    | _ => s.onJob fun j => { j with phase := .stopping, stopMb := some c.mb }

/-- JOB_CHECKPOINT (R409): it waits for the commit point of its step. -/
def State.jobCheckpoint (s : State) (c : Call) : State :=
  match s.job with
  | none => s.finish c.mb 0x012C
  | some j =>
    let step := c.par 0 64
    let past := step ≠ 0 && (step < j.step || (step = j.step && !j.fresh))
    let exp_ := c.par 64 1 = 1
    let busy := if exp_ then s.com.ckptExport.isSome || !s.com.exports.isEmpty
      else s.com.ckptLocal.isSome || s.com.ckptWait.isSome || s.com.ckptWriting.isSome || (s.com.ckptTail.any fun t => t.1)
    let sess := s.places.any fun k => (s.sess k).localId = c.par 80 16 && (s.sess k).bulk && (s.sess k).state = .open_
    if busy then s.finish c.mb 0x0136
    else if past then s.finish c.mb 0x012F
    else if exp_ && !sess then s.finish c.mb 0x0165
    else if exp_ then s.onCom fun x => { x with ckptExport := some (step, c.par 80 16, c.par 96 32, some c.mb) }
    else s.onCom fun x => { x with ckptLocal := some (step, some c.mb) }

end Sys2Proof.Machine
end

