-- ==== Sys2Proof/Machine/Boot.lean ====
section
/-! DEFINITION. Resets and boot: the reset sources and classes (R422 to R426), power-on reset (R450, R506), the
option-loading phase and the boot ROM (R427, R428, R463, R470), bring-up (R436), and boundary scan (R497). -/

namespace Sys2Proof.Machine

/-! ### Die sensors and HOT_N (R509, R510) -/

/-- Sensor `k` of the ten: C0 to C7, L0, L1. -/
def State.temp (s : State) (k : Nat) : Int := if k < 8 then (s.die k).temp else tget 0 s.aon.temps9 k

/-- A sensor's new reading. -/
def State.setTemp (s : State) (k : Nat) (t : Int) : State :=
  if k < 8 then s.onDie k fun d => { d with temp := t }
  else s.onAon fun a => { a with temps9 := tset 0 a.temps9 k t }

/-- The ten readings. -/
def State.temps (s : State) : List Int := (List.range 10).map s.temp

/-- HOT_N driven low or released. -/
def State.driveHot (s : State) (low : Bool) : State :=
  if s.aon.hotN = low then s else (s.onAon fun a => { a with hotN := low }).emit (.drive 1 !low)

/-! ### What a reset clears (R423) -/

/-- The far side after a cold reset: the configuration of the secure store, every route DOWN, every session CLOSED. -/
def Acrix.cold (a : Acrix) : Acrix :=
  { Acrix.reset with
    ports := tmap FarPort.reset (fun p =>
      { FarPort.reset with routeA := { p.routeA with linkUp := false }, routeB := { p.routeB with linkUp := false }, partner := p.partner })
      a.ports
    partners := tmap Partner.reset (fun p => { p with budgets := [] }) a.partners
    cistEla := a.cistEla
    cistLen := a.cistLen }

/-- The AON domain after a cold reset: what R442 and R444 say outlasts it, the sensors and the rails stay. -/
def Aon.cold (a : Aon) : Aon :=
  { Aon.reset with
    phase := a.phase, resetCause := a.resetCause, wakeCause := a.wakeCause, causeAt := a.causeAt, glitches := a.glitches, releasedAt := a.releasedAt
    tripHeld := a.tripHeld, rstLow := a.rstLow, rstDrive := a.rstDrive, resetAt := a.resetAt, straps := a.straps
    railsOrder := a.railsOrder, refused := a.refused, aborted := a.aborted, railRec := a.railRec, dozePeriod := a.dozePeriod
    dozeEnable := a.dozeEnable, dozeMask := a.dozeMask, dozeHi := a.dozeHi, dozeLo := a.dozeLo, temps9 := a.temps9 }

/-- The island after a cold reset: the secure store stays; identity is to be reconstructed, the measurement log is empty
and debug mode has ended (R463, R473, R477). -/
def Island.cold (x : Island) : Island :=
  { x with idOk := false, debug := false, fwRunning := .empty, logDigest := 0, logKept := [], logCount := 0 }

/-- A cold reset. Memory contents are not promised (log entry 108). -/
def State.coldClear (s : State) : State :=
  { State.reset with
    pending := s.pending, now := s.now, freeCtr := s.freeCtr, out := s.out
    ht := { HtUnit.reset with root := s.ht.root }
    dies := tmap Die.reset (fun d => { Die.reset with temp := d.temp }) s.dies
    near := tmap NearPort.reset (fun p => { NearPort.reset with signal := p.signal }) s.near
    acx := s.acx.cold, aon := s.aon.cold, isl := s.isl.cold }

/-- The hall-time unit after a warm reset in which HALL runs on: kept but for the BAR0 capture and a value that waits for its
marker (R44). The spec does not say that such a value goes: DESIGN CHOICE, log entry 8. -/
def HtUnit.warm (h : HtUnit) : HtUnit := { h with pendingSet := none, snapHt := 0, snapState := 0, snapValid := false }

/-- The hall-time unit after a warm reset that restarts HALL: UNSET, a transition like any other (R44, R67), with the HT_IN
counters kept (R48). -/
def HtUnit.restarted (h : HtUnit) (ht : Nat) : HtUnit :=
  { HtUnit.reset with
    root := h.root, inOverruns := h.inOverruns, inInvalid := h.inInvalid
    lastChange := if h.state = .unset then h.lastChange else ht }

/-- Erg after a warm or host reset finds its engines stopped: a retirement copy is abandoned (R424). -/
def ErgChannel.stopped (c : ErgChannel) : ErgChannel := { c with window := none, queue := [], retire := none, retireNext := [] }

/-- The AON domain after a warm reset: what Rilseti holds there is cleared. -/
def Aon.warm (a : Aon) : Aon :=
  { a with chainLoop := false, cmdsHeld := [], cmdSeqs := [], attnAt := none, attnFast := none, attnAside := false,
           power := .run, entering := none, walkAt := none, optsDone := false }

/-- The site's part after a warm reset: a restart goes on only through its own warm reset (R487, log entry 109). -/
def Site.warm (x : Site) (ofRestart : Bool) : Site :=
  if ofRestart then x
  else { x with phase := .idle, seen := [], ckpts := [], readies := [], digests := [], ownCd := [], minority := false, source := none, asks := 0, pulled := [] }

/-- The step controller after a warm reset: every pending checkpoint command is discarded (R401). -/
def Commit.warm (c : Commit) : Commit :=
  { c with ckptLocal := none, ckptExport := none, ckptTail := none, ckptResid := [], ckptWait := none, ckptWriting := none, exports := [] }

/-- A warm reset. `full` restarts HALL; `ofRestart` is the mailbox warm reset of a site job restart, whose job goes on in it. -/
def State.warmClear (s : State) (full ofRestart : Bool) : State :=
  let live : Bool := match s.job with | some j => j.phase ≠ .stopped && !(ofRestart && j.phase = .restarting) | none => false
  let s := s.halt
  { s with
    ht := if full then s.ht.restarted s.htNow else s.ht.warm
    sos := [], job := s.job.map fun j =>
      { j with phase := if ofRestart && j.phase = .restarting then .restarting else .stopped, stopMb := none }
    guest := none, cores := [], kstore := [], gstore := [], scratch := ⟨[], []⟩, oasis := ⟨[], []⟩, spills := [], spillOff := 0
    erg := { s.erg with chans := tmap ErgChannel.reset ErgChannel.stopped s.erg.chans }
    dies := tmap Die.reset (fun d => { d with pool := [], poolAt := [], oasisWriteback := [] }) s.dies
    near := tmap NearPort.reset NearPort.clearInbox s.near
    com := s.com.warm
    acx := { s.acx with sess := [], ports := tmap FarPort.reset (fun p => { p with staged := 0 }) s.acx.ports }
    pcie := { Pcie.reset with linkUp := s.pcie.linkUp, masks := s.pcie.masks, heldStop := live || s.pcie.heldStop }
    aon := s.aon.warm
    site := s.site.warm ofRestart }

/-! ### Entering reset (R422, R424, R425) -/

/-- An AON cycle and the stretch of 250 of them, in ns. -/
def aonNs : Nat := 40
@[inherit_doc aonNs] def stretchNs : Nat := 10000

/-- The staging area is cleared by every reset (R432), and HOLD is left (R442, R445). -/
def State.resetCommon (s : State) : State :=
  s.leaveHold.onAon fun a => { a with stage := [], stageLen := 0, stageGot := [] }

/-- A host reset of a device that is out of reset: as a Function Level Reset, with DEVICE_RESET held again (R423, R441). -/
def State.hostReset (s : State) (bit_ : Nat) : State :=
  let s := s.resetCommon.flr
  let s := { s with erg := { s.erg with chans := tmap ErgChannel.reset (fun c => { c with retire := none, retireNext := [] }) s.erg.chans } }
  (s.onPcie fun p => { p with heldReset := true }).onAon fun a =>
    { a with resetCause := a.resetCause ||| bit_, causeAt := noteSet a.causeAt 0 bit_ s.nocNow }

/-- Class of the stretch that runs, with its end and whether HALL restarts. -/
def BootPhase.stretch : BootPhase → Option (ResetClass × Nat × Bool)
  | .inReset c e f => some (c, e, f)
  | _ => none

/-- Rails that are down begin their up sequence (R450). -/
def State.startRails (s : State) : State :=
  if s.aon.phase = .powerOff then (s.onAon fun a => { a with power := .run }).emit (.rails 1 true) else s

/-- RST_N driven low. -/
def State.driveRst (s : State) : State :=
  if s.aon.rstDrive then s else (s.onAon fun a => { a with rstDrive := true }).emit (.drive 0 false)

/-- A cold or warm reset from source `k` of R422: what is cleared, RESET_CAUSE, and the stretch. -/
def State.intoReset (s : State) (k : Nat) (cls : ResetClass) (full ofRestart : Bool) : State :=
  let run := s.aon.phase.stretch
  let same := run.isSome && s.aon.resetAt / aonNs = s.now / aonNs
  let cold0 := match run with | some (.cold, _, _) => true | _ => false
  let cause := if cls = .cold && !same then 1 <<< k else s.aon.resetCause ||| (1 <<< k)
  let cls' := if cls = .cold || cold0 then ResetClass.cold else if cls = .warm then .warm else match run with | some (c, _, _) => c | none => cls
  let end_ := match run with | some (_, e, _) => Nat.max e (s.now + stretchNs) | none => s.now + stretchNs
  let full' := match run with | some (_, _, f) => f || full | none => full
  let s := s.startRails.resetCommon
  let s := if cls = .host then s else s.driveHot false
  let s := match cls with
    | .cold => s.coldClear
    | .warm => if cold0 then s else s.warmClear full ofRestart
    | .host => s
  s.onAon fun a =>
    { a with phase := .inReset cls' end_ full', resetCause := cause, causeAt := noteSet a.causeAt 0 (1 <<< k) s.nocNow
             resetAt := s.now, optsDone := false
             wakeCause := if cls = .cold && !same then 0 else a.wakeCause }

/-- A reset from source `k`. In DOZE and OFF only cold sources act, and none where VAON is not valid (R442, R506); pins that
boundary scan has taken come back only with a cold reset (R497); a host reset of a running device repeats no option
loading (R423). -/
def State.reset_ (s : State) (k : Nat) (cls : ResetClass) (full : Bool := false) (ofRestart : Bool := false) : State :=
  match s.aon.phase with
  | .powerOff => if cls = .cold && s.aon.railsOrder ≠ 0 then s.intoReset k cls full ofRestart else s
  | .taken => if cls = .cold then s.intoReset k cls full ofRestart else s.onAon fun a =>
      { a with resetCause := a.resetCause ||| (1 <<< k), causeAt := noteSet a.causeAt 0 (1 <<< k) s.nocNow }
  | .inReset _ _ _ | .loading _ _ => s.intoReset k cls full ofRestart
  | .booting _ | .recovery | .up => if cls = .host then s.hostReset (1 <<< k) else s.intoReset k cls full ofRestart

/-- A pulse below 1 µs is a glitch: ignored and counted (R425). -/
def State.glitch (s : State) : State := s.onAon fun a => { a with glitches := a.glitches + 1 }

/-- RST_N low for `low` ns: a cold reset that drives RST_N; `high` says whether the input is high again (R422, R425). -/
def State.rstPulse (s : State) (low : Nat) (high : Bool) : State :=
  if s.aon.railsOrder = 0 then s
  else if low < 1000 then s.glitch
  else (s.reset_ 1 .cold).driveRst.onAon fun a => { a with rstLow := !high }

@[inherit_doc State.rstPulse]
def execRstN (at_ lowNs : Nat) (high : Bool) (s : State) : Res := .next ((s.tick at_).rstPulse lowNs high)

/-- PERST_N low for `low` ns: a host reset (R422, R425). -/
def State.perstPulse (s : State) (low : Nat) : State :=
  if s.aon.phase = .powerOff then s else if low < 1000 then s.glitch else s.reset_ 2 .host

@[inherit_doc State.perstPulse]
def execPerstN (at_ lowNs : Nat) (s : State) : Res := .next ((s.tick at_).perstPulse lowNs)

/-- The watchdog (R422): a warm reset of a device whose Rilseti runs. -/
def State.watchdogBites (s : State) : State :=
  match s.aon.phase with
  | .up | .booting _ | .recovery => s.reset_ 6 .warm
  | _ => s

@[inherit_doc State.watchdogBites]
def execWatchdog (at_ : Nat) (s : State) : Res := .next (s.tick at_).watchdogBites

/-- The thermal trip (R422, R424, R509): a sensor at 115 °C or more holds the device in cold reset. -/
def State.trip (s : State) (k : Nat) (t : Int) : State :=
  let s := s.setTemp k t
  if t < 115 || s.aon.phase = .powerOff then s
  else (s.reset_ 7 .cold).onAon fun a => { a with tripHeld := true }

@[inherit_doc State.trip]
def execThermalTrip (at_ die : Nat) (temp : Int) (s : State) : Res := .next ((s.tick at_).trip die temp)

/-! ### Power-on reset and rails (R450, R506) -/

/-- VAON or REFCLK_25M lost: everything is lost but the secure store. -/
def State.powerLost (s : State) : State :=
  { State.reset with pending := s.pending, now := s.now, freeCtr := s.freeCtr, out := s.out, acx := s.acx.cold, isl := s.isl.cold }

/-- POWER_ON_RESET: with both valid the source fires and the rails of order 1 are enabled; with one invalid the device is at
once in power-on reset and stays there. -/
def State.powerOn (s : State) (valid : Bool) : State :=
  if !valid then s.powerLost
  else if s.aon.railsOrder ≠ 0 then s
  else ((s.onAon fun a => { a with railsOrder := 1 }).reset_ 0 .cold).driveRst

@[inherit_doc State.powerOn]
def execPowerOnReset (at_ : Nat) (valid : Bool) (s : State) : Res := .next ((s.tick at_).powerOn valid)

/-- RAIL_POWER_GOOD: the rails of the order that was enabled last are good, and the next order is enabled. -/
def State.railGood (s : State) (order : Nat) : State :=
  if s.aon.phase.stretch.isNone || order = 0 || 6 < order || s.aon.railsOrder ≠ order then s
  else
    let s := s.onAon fun a => { a with railsOrder := order + 1 }
    if order < 6 then s.emit (.rails (order + 1) true) else s

@[inherit_doc State.railGood]
def execRailPowerGood (at_ order : Nat) (s : State) : Res := .next ((s.tick at_).railGood order)

/-- Every rail but VAON sequenced down (R450): the device is in DOZE or OFF, and what R442 keeps there is kept. Erg
contents are lost with their power (R446). -/
def State.railsDown (s : State) (goal : PowerState) : State :=
  let c := (s.coldClear.onAon fun a =>
    { a with chainAddr := s.aon.chainAddr, chainErrs := s.aon.chainErrs, attnOver := s.aon.attnOver, attnStuck := s.aon.attnStuck,
             dbStuck := s.aon.dbStuck, dbOver := s.aon.dbOver, phase := .powerOff, power := goal, railsOrder := 1, rstDrive := false })
  { c with out := c.out ++ [.rails 6 false, .rails 5 false, .rails 4 false, .rails 3 false, .rails 2 false, .rails 1 false] }

/-! ### The boot ROM (R463, R468 to R470) -/

/-- Bytes of a firmware image before its trailer. -/
def fwLen (b : Buf) : Nat := 64 + b.fld 96 32

/-- ARB of a firmware image. -/
def fwArb (b : Buf) : Nat := b.fld 64 16

/-- The header of a firmware image stands, and its reserved bits are zero (R469). -/
def fwHeadOk (b : Buf) : Bool := b.fld 0 32 = 0x57464C4F && b.fld 80 16 = 0 && b.fld 128 384 = 0

/-- A firmware image passes R468. -/
def State.fwVerifies (s : State) (b : Buf) : Bool :=
  fwHeadOk b && signedLen (fwLen b) ≤ b.len && s.imageGood b (fwLen b) fun c => certRole c = 1

/-- A slot. -/
def Island.slot (x : Island) (b : Bool) : FwSlot := if b then x.slotB else x.slotA

/-- The slot that holds no running image is B. -/
def Island.idle (x : Island) : Bool := !x.lastB

/-- A slot may start: its image verifies and its ARB is not below the counter. -/
def State.slotOk (s : State) (b : Bool) : Bool :=
  (s.isl.slot b).present && s.isl.arb ≤ fwArb (s.isl.slot b).image && s.fwVerifies (s.isl.slot b).image

/-- Slot `b` started: a pending image becomes active, its counter and ledger entry one change; the log is extended. -/
def State.startSlot (s : State) (b : Bool) : State :=
  let img := (s.isl.slot b).image
  let act := s.isl.pendingFw && b ≠ s.isl.lastB
  let s := s.onIsl fun x =>
    { x with lastB := b, fwRunning := img, pendingFw := x.pendingFw && !act, arb := if act then fwArb img else x.arb }
  let s := if act then s.deviceLedger 0x0011 (fwArb img) else s
  s.measure 1 (fwArb img) (imageDigest img (fwLen img))

/-- Steps 3 to 5 of R470. -/
def State.bootSlots (s : State) (cold : Bool) : State :=
  let first := if cold && s.isl.pendingFw then !s.isl.lastB else s.isl.lastB
  if s.slotOk first then s.startSlot first
  else
    let s := s.raise Ev.fwFallback
    if s.slotOk !first then s.startSlot !first
    else (s.onIsl fun x => { x with fwRunning := .empty }).raise Ev.fwRecovery

/-- Identity at a cold reset (R463): made at the first power-up, else reconstructed, where the PUF gives its key. -/
def State.identity (s : State) (pufOk : Bool) : State :=
  if !s.isl.hasId && s.isl.lifecycle ≠ 2 then
    let s := s.onIsl fun x => { x with hasId := true, idOk := true, idModulus := Config.identityModulus }
    (s.deviceLedger 0x0001).raise Ev.identityCreated
  else if s.isl.hasId && pufOk then s.onIsl fun x => { x with idOk := true }
  else s.raise Ev.identityFail

/-- The boot ROM (R470). The recovery loader is where no image has been started. -/
def State.bootRom (s : State) (cold strap pufOk : Bool) : State :=
  let s := s.onIsl fun x => { x with fwRunning := .empty }
  if strap then s
  else
    let s := if cold then s.identity pufOk else s
    if s.isl.idOk then s.bootSlots cold else s

/-! ### Release and option loading (R425, R427, R428, R436) -/

/-- RESET_RELEASE: once the stretch has ended with every rail good, no trip held and RST_N high, the straps are sampled and
the option-loading phase begins. -/
def State.release (s : State) (rstHigh boot timeRoot chainHead pufOk : Bool) : State :=
  match s.aon.phase with
  | .inReset cls end_ _ =>
    if s.now < end_ || s.aon.railsOrder ≠ 7 || (s.aon.tripHeld && s.temps.any fun t => 100 < t) then s
    else
      let s := if s.aon.rstDrive then (s.onAon fun a => { a with rstDrive := false }).emit (.drive 0 true) else s
      if !rstHigh then s.onAon fun a => { a with rstLow := true }
      else
        let s := s.onAon fun a =>
          { a with phase := .loading s.now cls, tripHeld := false, rstLow := false, releasedAt := s.now, optsDone := false
                   straps := b2n boot + 2 * b2n timeRoot + 4 * b2n chainHead }
        (s.onHt fun h => { h with root := timeRoot }).bootRom (cls = .cold) boot pufOk
  | _ => s

@[inherit_doc State.release]
def execResetRelease (at_ : Nat) (rstHigh boot timeRoot chainHead pufOk : Bool) (s : State) : Res :=
  .next ((s.tick at_).release rstHigh boot timeRoot chainHead pufOk)

/-- OPTION_LOADING_COMPLETE: ports with signal enter QUIET, Erg training starts, ENUM is accepted, and the head of its own
chain takes address 1. -/
def State.optionsLoaded (s : State) : State :=
  match s.aon.phase with
  | .loading _ cls =>
    let head := s.aon.straps.testBit 2
    let s := s.onAon fun a =>
      { a with phase := if s.isl.fwRunning.len = 0 then .recovery else .booting cls, optsDone := true
               chainAddr := if head then 1 else a.chainAddr, headWalk := head }
    let s := { s with near := tmap NearPort.reset (fun p => if p.signal && p.state = LinkState.down then { p with state := .quiet } else p) s.near }
    let s := s.onErg fun e => { e with training := !e.ready }
    let s := s.onPcie fun p => { p with linkUp := true }
    s.driveHot (s.temps.any fun t => 105 ≤ t)
  | _ => s

@[inherit_doc State.optionsLoaded]
def execOptionLoadingComplete (at_ : Nat) (s : State) : Res := .next (s.tick at_).optionsLoaded

/-- RILSETI_READY: mailboxes may be opened, DEVICE_RESET is held for the ring, and a job that a warm reset stopped is
reported (R423, R436, R441). -/
def State.booted (s : State) : State :=
  match s.aon.phase with
  | .booting _ =>
    let s := s.onAon fun a => { a with phase := .up }
    let held := s.pcie.heldStop
    let s := s.onPcie fun p => { p with heldReset := true, heldStop := false }
    if held then s.raise Ev.jobStopped 0 [] (match s.job with | some j => j.step | none => 0) else s
  | _ => s

@[inherit_doc State.booted]
def execRilsetiReady (at_ : Nat) (s : State) : Res := .next (s.tick at_).booted

/-! ### Boundary scan (R497) -/

/-- The instructions that take the pins from the device. -/
def takesPins : BscanIns → Bool
  | .extest | .clamp | .highz | .extestPulse | .extestTrain => true
  | .bypass | .idcode | .samplePreload => false

/-- A boundary-scan instruction loaded: one that takes the pins stops an armed job without a restart, and the device resumes
only after a cold reset. -/
def State.bscan (s : State) (i : BscanIns) : State :=
  if !takesPins i || s.aon.bscan || s.aon.phase = .powerOff then s
  else
    let running : Bool := match s.job with | some j => j.phase ≠ .stopped | none => false
    let s := if running then s.stopJob else s
    let s := s.onSite fun x => x.warm false
    let s := (s.raise Ev.bscanTakeover).hostGone
    let s := { s with near := tmap NearPort.reset (fun p => { p.halt with state := .down, width := 0 }) s.near }
    let s := s.onAcx fun a =>
      { a with ports := tmap FarPort.reset (fun p =>
          { p with routeA := { p.routeA with linkUp := false }, routeB := { p.routeB with linkUp := false } }) a.ports }
    s.onAon fun a => { a with phase := .taken, bscan := true, optsDone := false }

@[inherit_doc State.bscan]
def execBscanInstruction (at_ : Nat) (ins : BscanIns) (s : State) : Res := .next ((s.tick at_).bscan ins)

end Sys2Proof.Machine
end

