-- ==== Sys2Proof/Machine/Catchup.lean ====
section
/-! DEFINITION. Guard bands and catch-up entries (R62 to R64), the single resend of lost flits (R278), and the ends of
footprints (R64, R276). -/

namespace Sys2Proof.Machine

/-! ### Guard bands (R62) -/

/-- The idleness that an action's precondition asks of its target (R59): a pass also needs the cores of its die (R214), and
closing a bubble nothing (R92). -/
def State.idleFor (s : State) (e : Entry) : Bool :=
  if e.action = 0x03 then true
  else if e.action = 0x10 then s.targetIdle e.target && s.coresIdle (e.target - 0x80)
  else s.targetIdle e.target

/-- A main entry that finds its core, or a core of its die, held by the guest (R92, R376). -/
def State.blameFor (s : State) (e : Entry) : State :=
  if e.action = 0x01 then s.blameGuest e.target
  else if e.action = 0x10 then (List.range 16).foldl (fun s k => s.blameGuest (16 * (e.target - 0x80) + k)) s
  else s

/-! ### Catch-up entries (R63) -/

/-- A deferred action starts with the footprint of its catch-up entry, which ends at `fin` in JT. It keeps its planned JT. -/
def State.startAction (s : State) (j : Job) (i : Nat) (e : Entry) (fin : Nat) (gathers : List (Nat × Nat)) : State :=
  match e.action with
  | 0x01 => s.startKernel j i e fin
  | 0x02 => s.startBubble j i e
  | 0x03 => s.startClose j i e
  | 0x10 => s.runPass j i e fin
  | 0x20 => s.startList j i e
  | 0x30 => s.startWindow i e fin
  | 0x40 => (s.startSend j i e fin ((gathers.find? fun g => g.1 = i).map (·.2))).skipSent j i e (s.ent i)
  | 0x41 => s.startTx i e fin
  | 0x48 => s.bindBlock j i e
  | 0x49 => s.startRx j i e
  | 0x50 => s.startSlice j i e
  | 0x60 => s.floodNow j i
  | 0x61 => s.commitNow j i e
  | _ => s

/-- The port of a transmit direction. -/
def txPort (target : Nat) : Option Nat := if 0xB0 ≤ target && target < 0xB8 then some (target - 0xB0) else none

/-- The blocks that wait for their resend in catch-up entry `k` (R278). -/
def State.resendsOf (s : State) (j : Job) (k : Nat) (c : Entry) : List Sent :=
  match txPort c.target with
  | none => []
  | some p => (s.port p).sent.filter fun x =>
      x.step = j.step && x.held ≠ [] && (holdOf j.image (imgEntry j.image x.entry)).any fun h => h.1 = k

/-- Whose turn it is in a catch-up entry: the deferred action or the resend (`true`) of the entry with the lowest original
OFFSET, and of those the lowest index (R63, R278). -/
def State.catchupTurn (s : State) (j : Job) (k : Nat) (c : Entry) : Option (Nat × Bool) :=
  let l := ((tget [] s.catchup k).map fun i => (i, false)) ++ (s.resendsOf j k c).map fun x => (x.entry, true)
  let off (x : Nat × Bool) : Nat := (imgEntry j.image x.1).offset
  l.foldl (fun a x =>
    match a with
    | none => some x
    | some y => if off x < off y || (off x = off y && x.1 < y.1) then some x else a) none

/-- A deferred action leaves its catch-up entry. -/
def State.leaveCatchup (s : State) (k i : Nat) : State :=
  { s with catchup := tset [] s.catchup k ((tget [] s.catchup k).filter (· ≠ i)) }

/-- The held flits of a block leave the held store, and its place in the slot is free. -/
def State.dropHeld (s : State) (k p : Nat) (x : Sent) : State :=
  let s := s.onPort p fun n =>
    { n with sent := (n.sent.map fun y => if y = x then { y with held := [], late := true } else y).filter fun y => y.flits ≠ [] || y.held ≠ [] }
  { s with rxHold := tset 0 s.rxHold k (tget 0 s.rxHold k - 1) }

/-- A flit put among others in FIDX order. -/
def insertFlit (f : Buf) : List Buf → List Buf
  | [] => [f]
  | g :: l => if flitIdx f ≤ flitIdx g then f :: g :: l else g :: insertFlit f l

/-- The held flits of a block resent once, in FIDX order, with RESEND set; what does not fit into the footprint is cut, and
the miss of the send entry is fault class (R64, R278). -/
def State.resendBlock (s : State) (j : Job) (k p : Nat) (c : Entry) (i : Nat) : State :=
  match (s.resendsOf j k c).find? fun x => x.entry = i with
  | none => s
  | some x =>
    let n := s.port p
    let l := x.held.foldr insertFlit []
    let fits := (l.zipIdx.filter fun f => s.jt + flitEnd n.width f.2 ≤ j.sn + c.finish).map fun f =>
      sealFlit ⟨256, setBits f.1.val 5 1 1⟩
    let s := fits.foldl (fun s f => s.emit (.flit p f)) (s.dropHeld k p x)
    let s := s.onPort p fun n =>
      { n with resends := satAdd 32 n.resends fits.length
               txBusy := if fits = [] then n.txBusy else s.htNow + flitEnd n.width (fits.length - 1) }
    let s := s.raise Ev.linkResent p [(24, x.block)] x.step
    if fits.length = l.length then s else s.missEntry x.entry

/-- A catch-up entry at work: what it holds runs one after another, each once its turn has come and its own precondition is
met; one that is not met by the end of the guard band, counted from the catch-up due instant, is a fault-class miss (R63). -/
def State.catchupRun (s : State) (j : Job) (k : Nat) (c : Entry) (gathers : List (Nat × Nat)) : Nat → State
  | 0 => s
  | fuel + 1 =>
    if !s.targetIdle c.target then s
    else
      match s.catchupTurn j k c with
      | none => s.completeEntry k j.step
      | some (i, true) =>
        match txPort c.target with
        | some p => (s.resendBlock j k p c i).catchupRun j k c gathers fuel
        | none => s
      | some (i, false) =>
        let e := imgEntry j.image i
        if s.preSkipped j e then ((s.leaveCatchup k i).faultMiss i e).catchupRun j k c gathers fuel
        else if s.metPre j e (s.idleFor e) then
          let s := ((s.leaveCatchup k i).putEnt i (.running s.jt)).noteMiss e.target fun r =>
            { r with maxLateNs := Nat.max r.maxLateNs (s.jt - (j.sn + e.offset)) }
          (s.startAction j i e (j.sn + c.finish) gathers).catchupRun j k c gathers fuel
        else if j.sn + c.offset + c.guard ≤ s.jt then ((s.leaveCatchup k i).faultMiss i e).catchupRun j k c gathers fuel
        else s

/-- Every action that a catch-up entry still holds is a fault-class miss, and its resends are never made (R63, R64). -/
def State.catchupLost (s : State) (j : Job) (k : Nat) (c : Entry) : State :=
  let s := (tget [] s.catchup k).foldl (fun s i => (s.leaveCatchup k i).faultMiss i (imgEntry j.image i)) s
  match txPort c.target with
  | some p => (s.resendsOf j k c).foldl (fun s x => (s.dropHeld k p x).missEntry x.entry) s
  | none => s

/-- From the due instant of a resend slot on, a flit named missing comes too late for it (R278). -/
def State.closeResends (s : State) (j : Job) (k : Nat) (c : Entry) : State :=
  match txPort c.target with
  | none => s
  | some p => s.onPort p fun n =>
      { n with sent := n.sent.map fun x =>
          if (holdOf j.image (imgEntry j.image x.entry)).any fun h => h.1 = k then { x with late := true } else x }

/-- CATCHUP_SLOT (R63): timetable action 0xF0. At its due instant a busy target is a miss of the entry and of all it
holds; otherwise its actions run in turn, this row standing for the instants at which the next may start (log entry 124). -/
def State.catchupSlot (s : State) (k : Nat) (gathers : List (Nat × Nat)) : State :=
  match s.entry? k with
  | none => s
  | some (j, c) =>
    let fuel := s.heldPlaces k + 1
    if c.action ≠ 0xF0 then s
    else
      match s.ent k with
      | .running _ => s.catchupRun j k c gathers fuel
      | .idle | .waiting =>
        if s.jtInt < j.sn + c.offset then s
        else
          let s := s.closeResends j k c
          let s := if c.target < 128 then s.blameGuest c.target else s
          if s.targetIdle c.target then (s.putEnt k (.running s.jt)).catchupRun j k c gathers fuel
          else (s.faultMiss k c).catchupLost j k c
      | _ => s

@[inherit_doc State.catchupSlot]
def execCatchupSlot (at_ entry : Nat) (gathers : List (Nat × Nat)) (s : State) : Res := .next ((s.tick at_).catchupSlot entry gathers)

/-- GUARD_BAND_EXPIRY (R62): the guard band of an entry is over with its precondition unmet, and its policy resolves the
miss; that of a catch-up entry ends the waits of what it holds (R63). -/
def State.guardExpiry (s : State) (i : Nat) : State :=
  match s.entry? i with
  | none => s
  | some (j, e) =>
    if e.action = 0xF0 then (match s.ent i with | .running _ => s.catchupSlot i [] | _ => s)
    else
      let s := if s.judge j i e true ≠ .notYet then s.blameFor e else s
      (s.notStarted j i e (s.judge j i e (s.idleFor e))).skipSent j i e (s.ent i)

@[inherit_doc State.guardExpiry]
def execGuardBandExpiry (at_ entry : Nat) (s : State) : Res := .next ((s.tick at_).guardExpiry entry)

/-! ### Ends of footprints (R64, R273, R276, R281, R354) -/

/-- The footprint that holds a running action ends at `fin` in JT: a port transfer, an open
window or an Erg window that has not run its DURATION is cut and a fault-class miss, one that has completes, and a kernel, pass or transfer list runs on. -/
def State.cutEntry (s : State) (i : Nat) (e : Entry) (fin : Nat) : State :=
  match e.action with
  | 0x30 => s.windowEnd (e.target - 0x90)
  | 0x40 => s.faultMiss i e
  | 0x41 =>
    if (s.port (e.target - 0xB0)).txWindow.any fun w => w.1 = i then
      let t := s.onPort (e.target - 0xB0) fun n => { n with txWindow := none }
      match s.ent i with
      | .running since => if fin < since + e.duration then t.faultMiss i e else t.completeEntry i s.stepNo
      | _ => t
    else s
  | 0x50 =>
    match (s.farPort (e.target - 0xC0)).slice with
    | some (tag, _, end_) =>
      if tag ≠ i + 1 then s
      else
        let t := s.onFarPort (e.target - 0xC0) fun p => { p with slice := none }
        if s.now + fin < end_ + s.jt then t.faultMiss i e else t.completeEntry i s.stepNo
    | none => s
  | _ => s

/-- A receive entry's footprint ends with its block incomplete (R273, R276): every flit not received is named missing, and
the block is kept into the receive hold, where there is a place for it. -/
def State.rxFootprintEnd (s : State) (j : Job) (i : Nat) (e : Entry) : State :=
  let p := e.target - 0xB8
  match (s.port p).binds.findIdx? fun x => x.entry = i && x.step = j.step && x.got.length ≠ x.total && !x.holdOver && !x.done with
  | none => s
  | some k =>
    let s := s.onBind p k fun x => { x with missing := (List.range x.total).filter fun m => !x.got.contains m }
    match holdOf j.image e with
    | none => s
    | some (h, c) =>
      if c.capacity ≤ s.heldPlaces h then
        let s := s.noteMiss e.target fun r => { r with catchupFull := satAdd 32 r.catchupFull 1 }
        ((s.raise Ev.catchupFull e.target [(20, i)] j.step).unbind p k).missEntry i
      else
        ({ s with rxHold := tset 0 s.rxHold h (tget 0 s.rxHold h + 1) } : State).onBind p k fun x => { x with holdOver := true }

/-- The footprint of a catch-up entry ends: what it started is cut or runs on as R64 says, and what never had its turn is
lost. -/
def State.catchupEnd (s : State) (j : Job) (k : Nat) (c : Entry) : State :=
  let mine (s : State) (i : Nat) (e : Entry) : Bool :=
    e.policy = 1 && e.catchup = k && (match s.ent i with | .running t => decide (j.sn + c.offset ≤ t) | _ => false)
  let s := (imgEntryList j.image).foldl (fun s x =>
    if !mine s x.1 x.2 then s
    else if x.2.action = 0x48 then s.rxFootprintEnd j x.1 x.2
    else s.cutEntry x.1 x.2 (j.sn + c.finish)) s
  let s := s.catchupLost j k c
  match s.ent k with
  | .running _ => s.completeEntry k j.step
  | _ => s

/-- FOOTPRINT_END (R64, R276). -/
def State.footprintEnd (s : State) (i : Nat) : State :=
  match s.entry? i with
  | none => s
  | some (j, e) =>
    if s.jtInt < j.sn + e.finish then s
    else if e.action = 0xF0 then s.catchupEnd j i e
    else
      match s.ent i with
      | .running t =>
        if j.sn + e.finish ≤ t then s
        else if e.action = 0x48 then s.rxFootprintEnd j i e
        else s.cutEntry i e (j.sn + e.finish)
      | _ => s

@[inherit_doc State.footprintEnd]
def execFootprintEnd (at_ entry : Nat) (s : State) : Res := .next ((s.tick at_).footprintEnd entry)

end Sys2Proof.Machine
end

