-- ==== Sys2Proof/Machine/Chain.lean ====
section
/-! DEFINITION. The management chain (R428 to R435, R440): frames, forwarding, the address walk, the chain mailbox, the
staging area of firmware images and telemetry. -/

namespace Sys2Proof.Machine

/-! ### Frames (R430, R431) -/

/-- Header fields. -/
def frDest (f : Buf) : Nat := f.fld 0 12
@[inherit_doc frDest] def frSrc (f : Buf) : Nat := f.fld 12 12
@[inherit_doc frDest] def frType (f : Buf) : Nat := f.fld 24 8
@[inherit_doc frDest] def frBcast (f : Buf) : Bool := f.flag 32
@[inherit_doc frDest] def frLen (f : Buf) : Nat := f.fld 48 16
@[inherit_doc frDest] def frHops (f : Buf) : Nat := f.fld 64 12
@[inherit_doc frDest] def frSeq (f : Buf) : Nat := f.fld 96 32

/-- The payload. -/
def frPayload (f : Buf) : Buf := f.slice 16 (frLen f)

/-- The CRC-32C put at the end of a header and its payload, least significant byte first. -/
def frSeal (b : Buf) : Buf := b.app (Buf.ofLe 4 (crc32c b b.len))

/-- A frame is whole and its CRC holds. -/
def frOk (f : Buf) : Bool :=
  frLen f ≤ 512 && f.len = 20 + frLen f && f.le (16 + frLen f) 4 = crc32c f (16 + frLen f)

/-- A frame of this device. -/
def chainFrame (dest src type : Nat) (bcast : Bool) (seq : Nat) (payload : Buf) : Buf :=
  frSeal ((packBuf 16 [(12, dest), (12, src), (8, type), (1, b2n bcast), (15, 0), (16, payload.len), (12, 0), (20, 0), (32, seq)]).app payload)

/-! ### Reception (R433) -/

/-- A frame counted as an error (R431 to R433, R435). -/
def State.chainError (s : State) : State := s.onAon fun a => { a with chainErrs := satAdd 32 a.chainErrs 1 }

/-- A frame that fails its check: dropped, counted and reported. -/
def State.chainBad (s : State) : State :=
  let (s, e) := (s.chainError).raiseOnce s.aon.chainEvAt Ev.chainFrameError 0x10
  s.onAon fun a => { a with chainEvAt := e }

/-- The chain runs: in every state but OFF and power-on reset, unless boundary scan holds its pins (R433, R497). -/
def State.chainRuns (s : State) : Bool :=
  s.aon.railsOrder ≠ 0 && s.aon.power ≠ .off && s.aon.phase ≠ .taken &&
    !(s.aon.resetCause.testBit 0 && (match s.aon.phase.stretch with | some (.cold, _, _) => true | _ => false))

/-- The device acts on frames: option loading is complete (R433), and it is not in DOZE. -/
def State.chainActs (s : State) : Bool := s.aon.optsDone

/-- The device is in DOZE. -/
def State.dozing (s : State) : Bool := s.aon.power = .doze

/-- It is its own head (R428). -/
def State.ownHead (s : State) : Bool := s.aon.optsDone && s.aon.straps.testBit 2

/-- A frame is this device's to act on: a unicast to its address, or a broadcast. -/
def State.frMine (s : State) (f : Buf) : Bool := !frBcast f && s.aon.chainAddr ≠ 0 && frDest f = s.aon.chainAddr
@[inherit_doc State.frMine] def State.frForMe (s : State) (f : Buf) : Bool := frBcast f || s.frMine f

/-- A frame forwarded with HOPS + 1 and this payload; a head removes what returns to it. -/
def State.passFrame (s : State) (f : Buf) (payload : Buf) : State :=
  if s.ownHead || 4096 ≤ frHops f + 1 then s
  else s.emit (.chain (frSeal (((f.slice 0 16).put 8 2 (f.le 8 2 + 1)).app payload)))

@[inherit_doc State.passFrame]
def State.forward (s : State) (f : Buf) : State := s.passFrame f (frPayload f)

/-- A frame of one of the row's types received: a frame that fails its check is dropped; one that is not this device's, or
comes while it acts on none, is forwarded; a broadcast is forwarded and acted on. -/
def State.chainRx (s : State) (f : Buf) (type : Nat) (acts : State → Bool) (act : State → State) : State :=
  if !s.chainRuns then s
  else if s.aon.chainLoop then s.chainError
  else if !frOk f then s.chainBad
  else if frType f ≠ type then s
  else if !(s.frForMe f) || !(s.chainActs || s.dozing) then s.forward f
  else
    let s := if frBcast f then s.forward f else s
    if acts s then act s else s

/-- In DOZE a WARM, ATTN or CMD frame is latched as a wake source (R447). -/
def State.dozeLatch (s : State) : State := s.onAon fun a => { a with dozeChain := true }

/-- CHAIN_FORWARD (R431, R433): a frame that this device does not act on. A reserved TYPE is counted; in DOZE so is a frame
for this device that it does not act on there (R447). -/
def State.passing (s : State) (f : Buf) : State :=
  if !s.chainRuns then s
  else if s.aon.chainLoop then s.chainError
  else if !frOk f then s.chainBad
  else if frType f = 0 || 10 < frType f then (s.forward f).chainError
  else if !(s.frForMe f) || !(s.chainActs || s.dozing) then s.forward f
  else if s.frMine f && (frType f = 6 || frType f = 8) then if s.dozing then s.chainError else s
  else s

@[inherit_doc State.passing]
def execChainForward (at_ : Nat) (frame : Buf) (s : State) : Res := .next ((s.tick at_).passing frame)

/-! ### The address walk (R428, R434) -/

/-- NEXT with its flags. -/
def enumPayload (next : Nat) (incomplete overflow : Bool) : Buf := packBuf 4 [(16, next), (1, b2n incomplete), (1, b2n overflow)]

/-- An address taken from a walk. -/
def State.takeAddr (s : State) (a : Nat) : State :=
  let old := s.aon.chainAddr
  let s := s.onAon fun x => { x with chainAddr := a }
  if old = 0 then s.raise Ev.chainAddressed 0x10 [(12, a)]
  else if old ≠ a then s.raise Ev.chainAddrChanged 0x10 [(12, old), (12, a)]
  else s

/-- ENUM_FRAME: a device that has loaded its options takes NEXT, or sets OVERFLOW; one in reset or option loading sets
INCOMPLETE. At its own head the walk returns, and is complete with both flags clear. -/
def State.enum (s : State) (f : Buf) : State :=
  let p := frPayload f
  let next := p.fld 0 16
  if !s.chainRuns then s
  else if s.aon.chainLoop then s.chainError
  else if !frOk f then s.chainBad
  else if frType f ≠ 1 then s
  else if s.ownHead then s.onAon fun a => { a with headWalk := a.headWalk && (p.flag 16 || p.flag 17) }
  else if s.dozing then s.forward f
  else if !s.chainActs then s.passFrame f (enumPayload next true (p.flag 17))
  else if next = 0 then s.forward f
  else if 4095 < next then s.passFrame f (enumPayload next (p.flag 16) true)
  else (s.takeAddr next).passFrame f (enumPayload (next + 1) (p.flag 16) (p.flag 17))

@[inherit_doc State.enum]
def execEnumFrame (at_ : Nat) (frame : Buf) (s : State) : Res := .next ((s.tick at_).enum frame)

/-- ENUM_WALK_TIMER: the walk of a device that heads its own chain, every 25 ms until one returns complete. -/
def State.walk (s : State) : State :=
  if s.ownHead && s.aon.headWalk && s.due s.aon.walkAt (25 * oneMs) then
    let s' := s.onAon fun a => { a with walkAt := some s.now, walkSeq := (a.walkSeq + 1) % 2 ^ 32 }
    s'.emit (.chain (chainFrame 0 0 1 true s.aon.walkSeq (enumPayload 2 false false)))
  else s

@[inherit_doc State.walk]
def execEnumWalkTimer (at_ : Nat) (s : State) : Res := .next (s.tick at_).walk

/-! ### COLD and WARM (R431) -/

/-- COLD: a chain cold reset, also in DOZE, and in OFF after a rail fault (R442, R447). -/
def State.coldFrame (s : State) (f : Buf) : State :=
  if s.aon.power = .off && s.aon.railsOrder ≠ 0 then
    if frOk f && frType f = 2 && s.frForMe f then s.reset_ 3 .cold else s
  else s.chainRx f 2 (fun _ => true) fun s => s.reset_ 3 .cold

@[inherit_doc State.coldFrame]
def execCold (at_ : Nat) (frame : Buf) (s : State) : Res := .next ((s.tick at_).coldFrame frame)

/-- WARM: a chain warm reset, HALL restarting with FULL_CLOCK. -/
def State.warmFrame (s : State) (f : Buf) : State :=
  s.chainRx f 3 (fun _ => true) fun s => if s.dozing then s.dozeLatch else s.reset_ 4 .warm ((frPayload f).flag 0)

@[inherit_doc State.warmFrame]
def execWarm (at_ : Nat) (frame : Buf) (s : State) : Res := .next ((s.tick at_).warmFrame frame)

/-! ### The chain mailbox (R431, R440) -/

/-- A CMD frame's command as Rilseti fetches it: a buffer with LEN other than 0 is BAD_PARAM (R391, R431). -/
def chainCmd (entry : Buf) (ht : Nat) : Cmd :=
  if entry.fld 192 32 ≠ 0 || entry.fld 320 32 ≠ 0 then ⟨entry, .finished, 5, .empty, 0, ht, .empty, .empty⟩ else Cmd.fetched entry ht

/-- A CMD frame that meets 64 commands does not run: its completion, BUSY, leaves at once, ahead of the others (R22, R23, R388). -/
def State.chainBusy (s : State) (f : Buf) : State :=
  let c : Cmd := ⟨frPayload f, .finished, 1, .empty, 0, s.htStamp, .empty, .empty⟩
  let out := chainFrame 0 s.aon.chainAddr 6 false (frSeq f) (c.completion (s.mbox 16).cplTail)
  (s.onMbox 16 fun m => { m with cplTail := (m.cplTail + 1) % 2 ^ 16 }).emit (.chain out)

/-- One CMD frame fetched into the chain mailbox. -/
def State.fetchFrame (s : State) (f : Buf) : State :=
  if 64 ≤ (s.mbox 16).cmds.length then s.chainBusy f
  else
    (s.onMbox 16 fun m => { m with state := .open_, cmds := m.cmds ++ [chainCmd (frPayload f) s.htStamp] }).onAon fun a =>
      { a with cmdSeqs := a.cmdSeqs ++ [frSeq f] }

/-- The CMD frames that wait are fetched, in the order they came (log entry 110). -/
def State.fetchChain (s : State) : State :=
  (s.aon.cmdsHeld.foldl State.fetchFrame s).onAon fun a => { a with cmdsHeld := [] }

/-- CMD: a command for the chain mailbox; the recovery loader takes only FW_UPDATE (R432). While Rilseti does not fetch, at
most 64 frames wait and one more is answered BUSY (R23, log entry 110). -/
def State.cmdFrame (s : State) (f : Buf) : State :=
  s.chainRx f 5 (fun _ => true) fun s =>
    if s.dozing then s.dozeLatch
    else if frLen f ≠ 256 then s.chainError
    else if s.aon.phase = .recovery && (frPayload f).fld 0 16 ≠ 0x0903 then s
    else if s.rilsetiReady || s.aon.phase = .recovery then s.fetchChain.fetchFrame f
    else if 64 ≤ s.aon.cmdsHeld.length then s.chainBusy f
    else s.onAon fun a => { a with cmdsHeld := a.cmdsHeld ++ [f] }

@[inherit_doc State.cmdFrame]
def execCmd (at_ : Nat) (frame : Buf) (s : State) : Res := .next ((s.tick at_).cmdFrame frame)

/-- ATTN: Rilseti fetches the CMD frames that wait. Repeats within 10 µs are coalesced and counted; one set aside is ignored
until 10 ms have passed without one (R440). -/
def State.attnFrame (s : State) (f : Buf) : State :=
  s.chainRx f 4 (fun s => s.dozing || s.aon.phase ≠ .recovery) fun s =>
    if s.dozing then s.dozeLatch
    else
      let gap (n : Nat) : Bool := s.due s.aon.attnAt n
      if s.aon.attnAside && !gap (10 * oneMs) then s.onAon fun a => { a with attnAt := some s.now }
      else if !gap (10 * oneUs) then
        s.onAon fun a => { a with attnAt := some s.now, attnOver := satAdd 32 a.attnOver 1, attnFast := some (a.attnFast.getD s.now) }
      else
        let s := s.onAon fun a => { a with attnAt := some s.now, attnFast := none, attnAside := false }
        if s.rilsetiReady then s.fetchChain else s

@[inherit_doc State.attnFrame]
def execAttn (at_ : Nat) (frame : Buf) (s : State) : Res := .next ((s.tick at_).attnFrame frame)

/-- CHAIN_ATTN_STUCK (R440): ATTN at the over-fast rate for 100 ms is set aside. -/
def State.attnStuck (s : State) : State :=
  match s.aon.attnFast with
  | none => s
  | some t =>
    if s.aon.attnAside || s.now < t + 100 * oneMs then s
    else
      (s.onAon fun a => { a with attnAside := true, attnFast := none, attnStuck := satAdd 16 a.attnStuck 1 }).raise Ev.chainAttnStuck 0x10

@[inherit_doc State.attnStuck]
def execChainAttnStuck (at_ : Nat) (s : State) : Res := .next (s.tick at_).attnStuck

/-- The next completion of the chain mailbox, in a CPL frame (R431). -/
def State.chainComplete (s : State) : State :=
  match (s.mbox 16).nextDone, s.aon.cmdSeqs with
  | some (c, m), seq :: l =>
    let f := chainFrame 0 s.aon.chainAddr 6 false seq (c.completion m.cplTail)
    ((s.putMbox 16 { m with cplTail := (m.cplTail + 1) % 2 ^ 16 }).onAon fun a => { a with cmdSeqs := l }).emit (.chain f)
  | _, _ => s

/-! ### Telemetry (R435) -/

/-- Package power in W, the mean over the polls of the last 1 ms (R415, R454). -/
def Aon.watts (a : Aon) : Nat := a.samples.sum / (1000 * Nat.max 1 a.samples.length)

/-- The 20 bytes of POWER_READ (R415). -/
def State.powerRead (s : State) : Buf :=
  packBuf 20 ([(16, s.aon.watts), (16, s.aon.cap)] ++ (s.temps.map fun t => sf 8 t) ++ [(16, 0), (32, s.aon.cappedSteps)])

/-- The telemetry record. -/
def State.telemetry (s : State) : Buf :=
  let a := s.aon
  packBuf 64 [(64, s.devStatus), (32, a.resetCause), (32, a.wakeCause), (160, s.powerRead.val), (32, a.chainErrs), (32, a.attnOver),
    (16, a.attnStuck), (16, a.dbStuck), (32, a.dbOver)]

/-- TELEM_REQ answered with a TELEM frame. -/
def State.telemFrame (s : State) (f : Buf) : State :=
  s.chainRx f 7 (fun _ => true) fun s => s.emit (.chain (chainFrame 0 s.aon.chainAddr 8 false (frSeq f) s.telemetry))

@[inherit_doc State.telemFrame]
def execTelemReq (at_ : Nat) (frame : Buf) (s : State) : Res := .next ((s.tick at_).telemFrame frame)

/-! ### DOZE_CFG (R415, R431) -/

/-- The six parameter bytes name a valid configuration. -/
def dozeOk (p : Buf) : Bool := 1 ≤ p.fld 0 16 && p.fld 0 16 ≤ 1000

/-- The doze configuration replaced. -/
def State.setDoze (s : State) (p : Buf) : State :=
  s.onAon fun a =>
    { a with dozePeriod := p.fld 0 16, dozeEnable := p.fld 16 5, dozeMask := p.fld 21 4, dozeHi := p.sfld 32 8, dozeLo := p.sfld 40 8 }

/-- DOZE_CFG: the configuration replaced; one that DOZE_CONFIG would refuse is ignored (log entry 111). -/
def State.dozeCfgFrame (s : State) (f : Buf) : State :=
  s.chainRx f 9 (fun s => s.dozing || s.aon.phase ≠ .recovery) fun s => if dozeOk (frPayload f) then s.setDoze (frPayload f) else s

@[inherit_doc State.dozeCfgFrame]
def execDozeCfg (at_ : Nat) (frame : Buf) (s : State) : Res := .next ((s.tick at_).dozeCfgFrame frame)

/-! ### The staging area (R432) -/

/-- A byte range [a, b) added to a list of disjoint rising ones. -/
def addRange (l : List (Nat × Nat)) (a b : Nat) : List (Nat × Nat) :=
  let near (r : Nat × Nat) : Bool := r.1 ≤ b && a ≤ r.2
  let t := l.filter near
  let lo := t.foldl (fun x (r : Nat × Nat) => Nat.min x r.1) a
  let hi := t.foldl (fun x (r : Nat × Nat) => Nat.max x r.2) b
  l.filter (fun r => !near r && r.2 < lo) ++ [(lo, hi)] ++ l.filter (fun r => !near r && hi < r.1)

/-- The staging area cleared. -/
def State.clearStage (s : State) : State := s.onAon fun a => { a with stage := [], stageLen := 0, stageGot := [] }

/-- The staged image, once every byte of it is there. -/
def State.stagedImage (s : State) : Option Buf :=
  if s.aon.stageLen ≠ 0 && s.aon.stageGot = [(0, s.aon.stageLen)] then
    some (Buf.ofLe s.aon.stageLen (s.aon.stage.load 0 s.aon.stageLen))
  else none

/-- FWDATA: bytes copied into the staging area. A TOTAL other than that of the image being staged starts a new image; data
that would pass TOTAL, or a header or length outside R432, is dropped and counted. -/
def State.fwdataFrame (s : State) (f : Buf) : State :=
  s.chainRx f 10 (fun _ => true) fun s =>
    if s.dozing then s.chainError
    else
      let p := frPayload f
      let off := p.fld 0 32
      let total := p.fld 32 32
      let n := frLen f - 8
      if frLen f ≤ 8 || total = 0 || 0x1000000 < total || total < off + n then s.chainError
      else
        let s := if s.aon.stageLen = total then s else s.clearStage
        s.onAon fun a =>
          { a with stageLen := total, stage := a.stage.store off n ((p.drop 8).le 0 n), stageGot := addRange a.stageGot off (off + n) }

@[inherit_doc State.fwdataFrame]
def execFwdata (at_ : Nat) (frame : Buf) (s : State) : Res := .next ((s.tick at_).fwdataFrame frame)

end Sys2Proof.Machine
end

