-- ==== Sys2Proof/Machine/Power.lean ====
section
/-! DEFINITION. Power states, doze, rails, droop, capping and the power commands (R415, R442 to R460, R510). -/

namespace Sys2Proof.Machine

/-! ### Refusers (R443, R444) -/

/-- Commands of every mailbox not yet completed (R386, R443). -/
def State.pendingCmds (s : State) : Nat :=
  ((List.range 17).map fun k => (s.mbox k).cmds.length + (s.mbox k).busy.length).sum

/-- A FW_UPDATE is pending on a mailbox. -/
def State.fwPending (s : State) : Bool :=
  (List.range 17).any fun k => (s.mbox k).cmds.any fun c => c.entry.fld 0 16 = 0x0903 && c.phase ≠ .finished

/-- A near port's peer is LOCKED and shows the hop count that it has with this device as its upstream (R39, log entry 113). -/
def State.upstreamOf (s : State) : Bool :=
  s.near.any fun p => p.2.peerSeen && p.2.peerState = 2 && p.2.peerHops = s.ht.hops + 1

/-- The refusers of a target, 1 HOLD or 2 DOZE, as bits TT, ACX, ERG, SEC, MBX, LINK, HT. `own` counts the commands that are
the POWER_STATE itself. -/
def State.refusers (s : State) (target own : Nat) : Nat :=
  let doze := target = 2
  let tt := match s.job with | some j => doze || j.phase ≠ .stopped | none => false
  let acx := s.acx.sess.any fun x => x.2.state ≠ SessState.closed || (doze && !x.2.flight.isEmpty)
  let erg := s.erg.training || (s.erg.chans.any fun c => c.2.retire.isSome) || s.inBackground 0x0302 || s.inBackground 0x0303
  let mbx := decide (own < s.pendingCmds)
  let link := s.near.any fun p => p.2.state = .training
  let ht := s.ht.state = .acquiring || (doze && s.upstreamOf)
  packBits [(1, b2n tt), (1, b2n acx), (1, b2n erg), (1, b2n s.fwPending), (1, b2n mbx), (1, b2n link), (1, b2n ht)]

/-- Each refuser of a set counted, as refused or as aborted, and reported with the target and its two counts. -/
def State.countRefusers (s : State) (set target : Nat) (abort : Bool) : State :=
  (onesOf 7 set).foldl (fun s k =>
    let s := s.onAon fun a =>
      if abort then { a with aborted := tset 0 a.aborted k (satAdd 16 (tget 0 a.aborted k) 1) }
      else { a with refused := tset 0 a.refused k (satAdd 16 (tget 0 a.refused k) 1) }
    s.raise (if abort then Ev.powerAborted else Ev.powerRefused) 0
      [(3, k), (2, target), (16, tget 0 s.aon.refused k), (16, tget 0 s.aon.aborted k)]) s

/-- The 1-byte response of POWER_STATE. -/
def refuserResp (set : Nat) : Buf := Buf.ofLe 1 set

/-- POWER_STATE (R443 to R445): RUN is taken at once; HOLD or DOZE is refused, or its entry begins. -/
def State.powerState (s : State) (c : Call) : State :=
  let target := c.par 0 2
  if target = 3 then s.finish c.mb 5
  else if target = 0 || (target = 1 && s.aon.power = .hold) then
    (if target = 0 then s.leaveHold else s).finish c.mb 0 (refuserResp 0)
  else
    let r := s.refusers target 1
    if r ≠ 0 then (s.countRefusers r target false).finish c.mb 0x0180 (refuserResp r)
    else s.onAon fun a => { a with entering := some (target, c.mb, s.now) }

/-- DOZE entered (R446): the completion written, mailboxes and event ring closed, clocks and rails down. -/
def State.enterDoze (s : State) (mb : Nat) : State :=
  let s := s.finishWaiting mb 0 (refuserResp 0)
  let s := (if mb = 16 then s.chainComplete else s.complete mb).hostGone
  (s.railsDown .doze).onAon fun a => { a with dozeAt := s.now, dozeFirst := true }

/-- POWER_ENTRY_COMPLETE (R444, R445): the state is entered unless a refuser has arisen, which aborts the entry. -/
def State.powerEntry (s : State) : State :=
  match s.aon.entering with
  | none => s
  | some (target, mb, _) =>
    let s := s.onAon fun a => { a with entering := none }
    let r := s.refusers target (if (s.mbox mb).cmds.isEmpty then 0 else 1)
    if r ≠ 0 then (s.countRefusers r target true).finishWaiting mb 0x0180 (refuserResp r)
    else if target = 1 then
      (((s.onAon fun a => { a with power := .hold }).raise Ev.powerHold).finishWaiting mb 0 (refuserResp 0))
    else s.enterDoze mb

@[inherit_doc State.powerEntry]
def execPowerEntryComplete (at_ : Nat) (s : State) : Res := .next (s.tick at_).powerEntry

/-! ### DOZE (R447, R448) -/

/-- A HT_IN pulse that counts at a sample: one of R33's high times, at least 0.5 ms after the one before. -/
def dozePulses : Option Nat → List (Nat × Nat) → Nat
  | _, [] => 0
  | last, (t, high) :: l =>
    let early := match last with | some u => decide (t < u + 500000) | none => false
    if early then dozePulses last l
    else
      let valid := (8000 ≤ high && high ≤ 12000) || (80000 ≤ high && high ≤ 120000)
      b2n valid + dozePulses (some t) l

/-- The sources that match at a sample, in WAKE_CAUSE order. -/
def Aon.dozeMatch (a : Aon) (i : DozeInputs) : Nat :=
  let far := i.farSignal &&& a.dozeMask ≠ 0
  let out := i.dieTemps.any fun t => a.dozeHi < t || t < a.dozeLo
  let ht := !(i.htPulses.any fun p => 2000000 < p.2) && 2 ≤ dozePulses none i.htPulses
  packBits [(1, b2n a.dozeChain), (1, b2n (far && a.dozeFar)), (1, b2n ht), (1, b2n (out && a.dozeTemp)), (1, b2n a.dozeFirst)] &&& a.dozeEnable

/-- DOZE_SAMPLE: a match wakes through a cold reset with WAKE_CAUSE (R448); else what needs two samples is remembered. -/
def State.dozeSample (s : State) (i : DozeInputs) : State :=
  let a := s.aon
  if a.power ≠ .doze || s.now < a.dozeAt + a.dozePeriod * oneMs then s
  else
    let m := a.dozeMatch i
    if m ≠ 0 then (s.reset_ 8 .cold).onAon fun a => { a with wakeCause := m, causeAt := noteSet a.causeAt 16 m s.nocNow }
    else
      s.onAon fun a =>
        { a with dozeAt := s.now, dozeFirst := false, dozeChain := false, dozeFar := i.farSignal &&& a.dozeMask ≠ 0
                 dozeTemp := i.dieTemps.any fun t => a.dozeHi < t || t < a.dozeLo }

@[inherit_doc State.dozeSample]
def execDozeSample (at_ : Nat) (inp : DozeInputs) (s : State) : Res := .next ((s.tick at_).dozeSample inp)

/-- DOZE_CONFIG (R415). -/
def State.dozeConfig (s : State) (c : Call) : State :=
  if dozeOk c.params then (s.setDoze c.params).finish c.mb 0 else s.finish c.mb 5

/-! ### Rails and alerts (R451 to R453) -/

/-- Entry `j` of the regulator map: VALID, and the first rail of its mask (R472). -/
def Island.regulator (x : Island) (j : Nat) : Option Nat :=
  let e := bits x.regmap (32 * j) 32
  if e.testBit 7 then some (((onesOf 6 (e >>> 8)).head?).getD 0) else none

/-- STATUS_WORD shows an overcurrent or undervoltage fault: PMBus bits 4 and 3 (log entry 114). -/
def statusFault (w : Nat) : Bool := w.testBit 4 || w.testBit 3

/-- PM_ALERT (R453): the configured regulators' STATUS_WORDs, by map entry. A fault takes every rail but VAON down, into
OFF; any other status is a warning. Alerts within 1 ms are coalesced, and one set aside waits for 10 ms of quiet. -/
def State.pmAlert (s : State) (statuses : List (Nat × Nat)) : State :=
  if s.aon.phase = .powerOff then s
  else if (s.aon.alertAside && !s.due s.aon.alertAt (10 * oneMs)) || !s.due s.aon.alertAt oneMs then
    s.onAon fun a => { a with alertAt := some s.now }
  else
    let s := s.onAon fun a => { a with alertAt := some s.now, alertSince := some s.now, alertAside := false }
    let found := statuses.filterMap fun x => (s.isl.regulator x.1).map fun r => (r, x.2)
    match found.find? fun x => statusFault x.2 with
    | some x => (s.onAon fun a => { a with railRec := some x }).railsDown .off
    | none => (found.filter fun x => x.2 ≠ 0).foldl (fun s x => s.raise Ev.railWarning x.1 [(8, x.1), (16, x.2)]) s

@[inherit_doc State.pmAlert]
def execPmAlert (at_ : Nat) (statuses : List (Nat × Nat)) (s : State) : Res := .next ((s.tick at_).pmAlert statuses)

/-- RAIL_ALERT_STUCK (R453): an alert held beyond 100 ms is set aside. -/
def State.alertStuck (s : State) : State :=
  match s.aon.alertSince with
  | none => s
  | some t =>
    if s.aon.alertAside || s.now ≤ t + 100 * oneMs then s
    else (s.onAon fun a => { a with alertAside := true, alertSince := none, alertAt := some s.now }).raise Ev.railAlertStuck

@[inherit_doc State.alertStuck]
def execRailAlertStuck (at_ : Nat) (s : State) : Res := .next (s.tick at_).alertStuck

/-- AVS_UPDATE (R452): a new VCORE target, at most every 10 ms. -/
def State.avsUpdate (s : State) (die mv : Nat) : State :=
  if s.aon.railsOrder ≠ 7 || !s.due (s.die die).avsAt (10 * oneMs) then s
  else (s.onDie die fun d => { d with coreMv := mv, avsAt := some s.now }).emit (.avs die mv)

@[inherit_doc State.avsUpdate]
def execAvsUpdate (at_ die millivolts : Nat) (s : State) : Res := .next ((s.tick at_).avsUpdate die millivolts)

/-! ### Power samples (R454, R458) -/

/-- The 100 µs before a poll, shared among the step's compiled period, its extension and the step before, in ns. -/
def Job.shares (j : Job) (jt : Nat) : Nat × Nat × Nat × Nat :=
  let lo := jt - 100000
  let over_ (a b : Nat) : Nat := Nat.min b jt - Nat.max a lo
  let p := imgPeriod j.image
  let before := Nat.min j.sn jt - lo
  let ext := Nat.min before j.xPrev
  (over_ j.sn (j.sn + p), jt - Nat.max (j.sn + p) lo, before - ext, ext)

/-- POWER_SAMPLE: a poll of package power. 1 mW over 1 ns is 1 pJ. -/
def State.powerSample (s : State) (mw : Nat) : State :=
  let s := s.onAon fun a => { a with samples := (a.samples ++ [mw]).drop (a.samples.length + 1 - 10) }
  match s.job with
  | some j =>
    if j.phase ≠ .running && j.phase ≠ .stopping then s
    else
      let (p, x, p0, x0) := j.shares s.jt
      s.onAon fun a =>
        { a with curEnergy := a.curEnergy + mw * p, curExt := a.curExt + mw * x
                 stepEnergy := a.stepEnergy + mw * p0, extEnergy := a.extEnergy + mw * x0 }
  | none => s

@[inherit_doc State.powerSample]
def execPowerSample (at_ milliwatts : Nat) (s : State) : Res := .next ((s.tick at_).powerSample milliwatts)

/-- POWER_CAP (R415, R457): in force from the next step boundary; with no main job running it is only recorded. -/
def State.powerCap (s : State) (c : Call) : State :=
  let w := c.par 0 16
  if w ≠ 0 && (w < 600 || 1850 < w) then s.finish c.mb 5
  else
    let live : Bool := match s.job with | some j => j.phase = .running || j.phase = .stopping || j.phase = .armed | none => false
    let s := s.onAon fun a => if live then { a with capNext := some w } else { a with cap := w, capNext := none }
    s.finish c.mb 0

/-- POWER_READ (R415). -/
def State.powerReadCmd (s : State) (c : Call) : State := s.finish c.mb 0 s.powerRead

/-! ### Droop (R455, R456) -/

/-- CORE cycles between two instants. -/
def coresBetween (a b : Nat) : Nat := coreCycle b - coreCycle a

/-- DROOP_DETECT: gating begins, no sooner than 8 ungated cycles after the last gated run. -/
def State.droop (s : State) (die : Nat) : State :=
  let d := s.die die
  if d.gateOn || (d.gateEnd ≠ 0 && coresBetween d.gateEnd s.now < 8) then s
  else s.putDie die { d with gateOn := true, gateStart := s.now }

@[inherit_doc State.droop]
def execDroopDetect (at_ die : Nat) (s : State) : Res := .next ((s.tick at_).droop die)

/-- DROOP_RECOVER: gating ends, after 8 gated cycles at the latest; POWER_DROOP at most once per second per die. -/
def State.droopEnd (s : State) (die : Nat) : State :=
  let d := s.die die
  if !d.gateOn then s
  else
    let n := Nat.min 8 (coresBetween d.gateStart s.now)
    let d := { d with gateOn := false, gateEnd := Nat.min s.now (d.gateStart + ceilDiv (8 * 10) 17), gated := d.gated + n }
    if s.due d.droopEvAt oneS then
      (s.putDie die { d with gatedRep := d.gated, droopEvAt := some s.now }).raise Ev.powerDroop die
        [(3, die), (16, Nat.min (d.gated - d.gatedRep) 65535)]
    else s.putDie die d

@[inherit_doc State.droopEnd]
def execDroopRecover (at_ die : Nat) (s : State) : Res := .next ((s.tick at_).droopEnd die)

/-! ### Die temperatures (R510) -/

/-- DIE_TEMPERATURE_CHANGE: HOT_N driven low at 105 °C, released with every sensor below 100 °C, never driven in reset. -/
def State.tempChange (s : State) (k : Nat) (t : Int) : State :=
  let s := s.setTemp k t
  if !s.aon.optsDone then s
  else if s.temps.any fun t => 105 ≤ t then s.driveHot true
  else if s.temps.all fun t => t < 100 then s.driveHot false
  else s

@[inherit_doc State.tempChange]
def execDieTemperatureChange (at_ die : Nat) (temp : Int) (s : State) : Res := .next ((s.tick at_).tempChange die temp)

end Sys2Proof.Machine
end

