-- ==== Sys2Proof/Machine/Restart.lean ====
section
/-! DEFINITION. The site job restart (R484 to R489), the DIGEST notices and the replica repair (R493 to R495). -/

namespace Sys2Proof.Machine

/-! ### Notices (R486) -/

/-- Fields of a notice. -/
def ntKind (b : Buf) : Nat := b.fld 0 8
@[inherit_doc ntKind] def ntEpoch (b : Buf) : Nat := b.fld 16 16
@[inherit_doc ntKind] def ntCw (b : Buf) : Nat := b.fld 32 32
@[inherit_doc ntKind] def ntJob (b : Buf) : Nat := b.fld 64 64
@[inherit_doc ntKind] def ntHtx (b : Buf) : Nat := b.fld 128 64
@[inherit_doc ntKind] def ntStep (b : Buf) : Nat := b.fld 192 64
@[inherit_doc ntKind] def ntStepOld (b : Buf) : Nat := b.fld 256 64
@[inherit_doc ntKind] def ntDigest (b : Buf) : Nat := b.fld 320 128
@[inherit_doc ntKind] def ntDesc (b : Buf) : Nat := b.fld 448 64

/-- "None" in STEP and STEP_OLD. -/
def noStep : Nat := 2 ^ 64 - 1

/-- Devices of the site (R487). -/
def siteSize (b : Buf) : Nat := imgSizeT b * imgSizeP b * imgSizeD b * imgSizeS b

/-- A notice of a kind that the device's own job concerns. -/
def State.noticeMine (s : State) (b : Buf) (kind : Nat) : Bool :=
  match s.job with
  | some j => ntKind b = kind && ntJob b = imgJobId j.image
  | none => false

/-- A notice forwarded, once per sender and KIND. -/
def State.passNotice (s : State) (port : Nat) (b : Buf) : State :=
  let key := (ntKind b, ntCw b)
  if s.site.seen.contains key then s
  else (s.onSite fun x => { x with seen := key :: x.seen }).sendNotice (b.slice 0 64) (some port)

/-! ### Steps of a restart (R487, R488) -/

/-- A restart that fails: the job stays stopped, Erg kept (R488). -/
def State.failRestart (s : State) (e : Ev) : State :=
  ((s.raise e).onSite fun x => { x with phase := .idle, stopReq := false }).stopJob

/-- A JOB_STOP that came during the restart abandons it at its next step (R420); else the step is taken. -/
def State.unlessStopped (s : State) (f : State → State) : State :=
  if s.site.stopReq then (s.onSite fun x => { x with phase := .idle, stopReq := false }).stopJob else f s

/-- RESTART: the notice is passed on, and the job of this device stops for the restart (step 1). -/
def State.restartNotice (s : State) (port : Nat) (b : Buf) : State :=
  let s := s.takeMessage port 2
  if !s.noticeMine b 1 then s else (s.restart (ntHtx b)).passNotice port b

@[inherit_doc State.restartNotice]
def execRestart (at_ port : Nat) (notice : Buf) (s : State) : Res := .next ((s.tick at_).restartNotice port notice)

/-- RESTART_WARM_RESET: 100 µs after the restart began (step 2). -/
def State.restartReset (s : State) : State :=
  match s.site.phase with
  | .fault t =>
    if s.now < t + 100 * oneUs then s
    else s.unlessStopped fun s => (s.onSite fun x => { x with phase := .warm s.now }).reset_ 5 .warm false true
  | _ => s

@[inherit_doc State.restartReset]
def execRestartWarmReset (at_ : Nat) (s : State) : Res := .next (s.tick at_).restartReset

/-- The largest step that every CKPT notice names. -/
def commonStep : List (Nat × Nat × Nat) → Option Nat
  | [] => none
  | (cw, x, y) :: l =>
    let all := (cw, x, y) :: l
    let ok := ([x, y].filter fun n => n ≠ noStep && all.all fun c => c.2.1 = n || c.2.2 = n)
    ok.foldl (fun a n => match a with | some m => some (Nat.max m n) | none => some n) none

/-- Step 4, once every device's CKPT is held: the step chosen, or the restart ends for want of one or as the third to it. -/
def State.chooseStep (s : State) : State :=
  match s.job, s.site.phase with
  | some j, .ckpt _ =>
    if s.site.ckpts.length < siteSize j.image then s
    else
      match commonStep s.site.ckpts with
      | none => s.failRestart Ev.restartFailed
      | some n =>
        let r := if s.site.lastStep = some n then s.site.repeats + 1 else 1
        let s := s.onSite fun x => { x with step := n, lastStep := some n, repeats := r, phase := .loading s.now }
        if 3 ≤ r then s.failRestart Ev.restartLimit else s
  | _, _ => s

/-- The join option of a re-arm: JOIN_EN 1 and DONOR 7, where there is another site (R487, log entry 99). -/
def rejoin (b : Buf) : Option (Option Nat) := if 1 < popCount 5 (imgSites b) then some none else none

/-- RESTART_REARM (step 3): re-armed from the stored copy, with no epoch, and CKPT sent. -/
def State.rearm (s : State) : State :=
  match s.site.phase, s.site.copy with
  | .warm _, some (raw, seed, sfl) =>
    if !s.rilsetiReady || s.ht.state ≠ .locked then s
    else
      s.unlessStopped fun s =>
        let b := raw.slice 0 (imgLen raw)
        if !s.imageGood raw (imgLen raw) (mainSigner raw) || (armFailure s b none).isSome then s.failRestart Ev.restartFailed
        else
          let s := (s.armJob b none seed sfl (rejoin b)).onJob fun j => { j with phase := .restarting }
          let h := s.newestHalf b
          let new := (h.bind fun x => s.halfStep b x).getD noStep
          let old := (h.bind fun x => s.halfStep b (1 - x)).getD noStep
          let own := (imgCw b, new, old)
          let s := s.onSite fun x =>
            { x with phase := .ckpt s.now, ckpts := own :: x.ckpts.filter fun c => c.1 ≠ own.1, seen := (2, own.1) :: x.seen }
          (s.sendNotice (siteNotice 2 0 own.1 (imgJobId b) s.site.htx new old 0 0) none).chooseStep
  | _, _ => s

@[inherit_doc State.rearm]
def execRestartRearm (at_ : Nat) (s : State) : Res := .next (s.tick at_).rearm

/-- CKPT: passed on and, while a restart goes on, held. -/
def State.ckptNotice (s : State) (port : Nat) (b : Buf) : State :=
  let s := s.takeMessage port 2
  if !s.noticeMine b 2 then s
  else
    let s := s.passNotice port b
    if s.site.phase = .idle || s.site.ckpts.any fun c => c.1 = ntCw b then s
    else (s.onSite fun x => { x with ckpts := x.ckpts ++ [(ntCw b, ntStep b, ntStepOld b)] }).unlessStopped State.chooseStep

@[inherit_doc State.ckptNotice]
def execCkpt (at_ port : Nat) (notice : Buf) (s : State) : Res := .next ((s.tick at_).ckptNotice port notice)

/-- The instant H of step 5. -/
def resumeAt (maxHtx : Nat) : Nat := 3900 * ceilDiv (maxHtx + 100000000) 3900

/-- Step 5, once every device's READY is held: E set, and the job runs from its step. -/
def State.resumeAll (s : State) : State :=
  match s.job, s.site.phase with
  | some j, .ready _ =>
    if s.site.readies.length < siteSize j.image then s
    else
      let h := resumeAt (s.site.readies.foldl (fun a x => Nat.max a x.2) 0)
      if h < s.site.ownReady + 10 * oneMs then s.failRestart Ev.restartFailed
      else
        let s := s.onJob fun j => { j with phase := .armed, fresh := true, epoch := (h : Int) - j.sn, hasEpoch := true }
        let s := s.onSite fun x => { x with phase := .idle, seen := [], ckpts := [], readies := [] }
        s.sendNeighbourNotices.raise Ev.jobRestored 0 [] j.step
  | _, _ => s

/-- RESTART_LOAD_DONE: the chosen half's records are installed (step 4), and READY is sent (step 5). -/
def State.loadDone (s : State) : State :=
  match s.job, s.site.phase with
  | some j, .loading _ =>
    s.unlessStopped fun s =>
      let b := j.image
      let half := if s.halfStep b 0 = some s.site.step then 0 else 1
      match s.halfRecs b half with
      | none => s.failRestart Ev.restartFailed
      | some l =>
        if recsStep l ≠ some s.site.step || (importStatus b l).isSome then s.failRestart Ev.restartFailed
        else
          let s := (s.restoreRecs j l none (rejoin b)).onJob fun j => { j with phase := .restarting }
          let own := (imgCw b, s.htNow)
          let s := s.onSite fun x =>
            { x with phase := .ready s.now, ownReady := s.htNow, readies := own :: x.readies.filter fun r => r.1 ≠ own.1, seen := (3, own.1) :: x.seen }
          (s.sendNotice (siteNotice 3 0 own.1 (imgJobId b) s.htNow 0 0 0 0) none).resumeAll
  | _, _ => s

@[inherit_doc State.loadDone]
def execRestartLoadDone (at_ : Nat) (s : State) : Res := .next (s.tick at_).loadDone

/-- READY: passed on and, while a restart goes on, held. -/
def State.readyNotice (s : State) (port : Nat) (b : Buf) : State :=
  let s := s.takeMessage port 2
  if !s.noticeMine b 3 then s
  else
    let s := s.passNotice port b
    if s.site.phase = .idle || s.site.readies.any fun r => r.1 = ntCw b then s
    else (s.onSite fun x => { x with readies := x.readies ++ [(ntCw b, ntHtx b)] }).unlessStopped State.resumeAll

@[inherit_doc State.readyNotice]
def execReady (at_ port : Nat) (notice : Buf) (s : State) : Res := .next ((s.tick at_).readyNotice port notice)

/-- Whether a wait of R487 has expired: 5 s to LOCKED, 6 s for CKPT, 60 s for READY. -/
def State.restartExpired (s : State) : Bool :=
  match s.site.phase with
  | .warm t => s.ht.state ≠ .locked && t + 5 * oneS ≤ s.now
  | .ckpt t => t + 6 * oneS ≤ s.now
  | .ready t => t + 60 * oneS ≤ s.now
  | _ => false

/-- RESTART_FAILED (R488): a wait has expired. -/
def State.restartTimeout (s : State) : State := if s.restartExpired then s.failRestart Ev.restartFailed else s

@[inherit_doc State.restartTimeout]
def execRestartFailed (at_ : Nat) (s : State) : Res := .next (s.tick at_).restartTimeout

/-! ### Replica comparison and repair (R493 to R495) -/

/-- DIGEST: passed on along the D ring and held for its step; then the comparison. -/
def State.digestNotice (s : State) (port : Nat) (b : Buf) : State :=
  let s := s.takeMessage port 2
  match s.job with
  | none => s
  | some j =>
    if !s.noticeMine b 4 || ntCw b = imgCw j.image || ntStep b + 2 < j.step ||
        s.site.digests.any fun d => d.1 = ntCw b && d.2.1 = ntStep b then s
    else
      let s := s.alongD (b.slice 0 64) (some port)
      let s := s.onSite fun x => { x with digests := x.digests ++ [(ntCw b, ntStep b, ntEpoch b, ntDigest b, ntDesc b)] }
      s.compareReplicas (ntStep b)

@[inherit_doc State.digestNotice]
def execDigest (at_ port : Nat) (notice : Buf) (s : State) : Res := .next ((s.tick at_).digestNotice port notice)

/-- The levels of the tree of a copy. -/
def State.copyTree (s : State) (j : Job) (t : Shard) (c : Copy) : List (List Nat) :=
  let id := imgJobId j.image
  treeLevels (digestK id) 8 (leafDigests (digestH id) (c.width * t.elems) (s.copyVal t c))

/-- A shard and copy that a message names. -/
def repairCopy (j : Job) (tensor copy : Nat) : Option (Shard × Copy) :=
  match imgShard j.image tensor, digestCopies[copy - 1]? with
  | some t, some c => some (t, c)
  | _, _ => none

/-- Nodes 256 `node` to 256 `node` + 255 of a level of a tree, as a reply returns them. -/
def nodesOf (tree : List (List Nat)) (level node : Nat) : List Nat := ((tree.getD level []).drop (256 * node)).take 256

/-- The source's answer to a request. -/
def State.repairAnswer (s : State) (j : Job) : RepairMsg → Option RepairMsg
  | .askShards cw => some (.shards cw ((ownedShards j.image).map fun t => (t.id, s.shardDigest (imgJobId j.image) t)))
  | .askNodes cw tensor copy level node =>
    (repairCopy j tensor copy).map fun x => .nodes cw tensor copy level node (nodesOf (s.copyTree j x.1 x.2) level node)
  | .askLeaf cw tensor copy leaf =>
    (repairCopy j tensor copy).map fun x => .leaf cw tensor copy leaf (Buf.ofLe 4096 (bits (s.copyVal x.1 x.2) (32768 * leaf) 32768))
  | _ => none

/-- What the minority asks next after a reply: the roots of the copies of each differing shard, the children of each
differing node, the differing leaves. -/
def State.repairNext (s : State) (j : Job) : RepairMsg → List RepairMsg
  | .shards cw ds =>
    (ds.filter fun d => (imgShard j.image d.1).any fun t => s.shardDigest (imgJobId j.image) t ≠ d.2).flatMap fun d =>
      (List.range 6).filterMap fun k =>
        (repairCopy j d.1 (k + 1)).bind fun x =>
          if x.2 = .second && !x.1.adam then none
          else some (.askNodes cw d.1 (k + 1) ((s.copyTree j x.1 x.2).length - 1) 0)
  | .nodes cw tensor copy level node vs =>
    match repairCopy j tensor copy with
    | none => []
    | some x =>
      let own := nodesOf (s.copyTree j x.1 x.2) level node
      ((List.range vs.length).filter fun i => own[i]? ≠ vs[i]?).map fun i =>
        let n := 256 * node + i
        if level = 0 then .askLeaf cw tensor copy n else .askNodes cw tensor copy (level - 1) n
  | _ => []

/-- The device that a message names: the source of the repair. -/
def repairCw : RepairMsg → Nat
  | .askShards cw | .shards cw _ | .askNodes cw _ _ _ _ | .nodes cw _ _ _ _ _ | .askLeaf cw _ _ _ | .leaf cw _ _ _ _ => cw

/-- A message asks, and is for the source. -/
def repairAsks : RepairMsg → Bool
  | .askShards _ | .askNodes _ _ _ _ _ | .askLeaf _ _ _ _ => true
  | _ => false

/-- REPLICA_REPAIR_MESSAGE: the source answers on the port of arrival; the minority goes on with its repair, which is
complete once no reply is awaited; any other device passes the message on along the D ring (log entry 120). -/
def State.repairMsg (s : State) (port : Nat) (m : RepairMsg) : State :=
  let s := s.takeMessage port 2
  match s.job with
  | none => s
  | some j =>
    if repairAsks m then
      if repairCw m = imgCw j.image then
        match s.repairAnswer j m with
        | some r => s.emit (.repair port r)
        | none => s
      else s.emit (.repair (port ^^^ 1) m)
    else if s.site.source = some (repairCw m) then
      let next := s.repairNext j m
      let s := s.onSite fun x =>
        { x with pulled := (match m with | .leaf _ t c i d => x.pulled ++ [(t, c, i, d)] | _ => x.pulled), asks := x.asks + next.length - 1 }
      let s := { s with out := s.out ++ next.map fun r => Out.repair (dPort j.image) r }
      if s.site.asks = 0 then s.onSite fun x => { x with source := none } else s
    else s.emit (.repair (port ^^^ 1) m)

@[inherit_doc State.repairMsg]
def execReplicaRepairMessage (at_ port : Nat) (msg : RepairMsg) (s : State) : Res := .next ((s.tick at_).repairMsg port msg)

end Sys2Proof.Machine
end

