-- ==== Sys2Proof/Machine/Guest.lean ====
section
/-! DEFINITION. The guest job: attach, detach and status (R372 to R376, R410, R479). -/

namespace Sys2Proof.Machine

/-! ### The span of a guest on a core (R373) -/

/-- The walk of R373 along a kernel's items: the instant of the next issue, of the free array and of the free output stage,
the tiles that hold an undrained accumulation, the issue of the item after the last tile boundary, and the longest
interval found, all in CORE cycles. -/
structure SpanWalk where
  issue   : Nat
  array   : Nat
  stage   : Nat
  open0   : Bool
  open1   : Bool
  since   : Nat
  longest : Nat

/-- One item: the figures of R80, R82 and R91 with no stall. At an item boundary with no undrained tile the interval ends,
and the next item issues no sooner. -/
def SpanWalk.item (w : SpanWalk) (b : Buf) : SpanWalk :=
  if itemKind b ≠ 0x4D then
    if w.open0 || w.open1 then { w with issue := w.issue + 4 }
    else { w with longest := Nat.max w.longest 4, issue := w.issue + 4, since := w.issue + 4 }
  else
    let d := Mat.ofBuf b
    let start := Nat.max (w.issue + 24) w.array
    let last := d.accEnd start
    let stage := if d.drain then Nat.max (last + 16) w.stage + 144 else w.stage
    let o0 := if d.tile = 0 then !d.drain else w.open0
    let o1 := if d.tile = 0 then w.open1 else !d.drain
    let w := { w with issue := w.issue + 4, array := last, stage, open0 := o0, open1 := o1 }
    if o0 || o1 then w
    else { w with longest := Nat.max w.longest (stage - w.since), issue := stage, since := stage }

/-- The items of a kernel's code from offset `off` walked through. -/
def walkItems (code : Buf) : Nat → Nat → SpanWalk → SpanWalk
  | 0, _, w => w
  | fuel + 1, off, w =>
    let len := match code.fld (8 * off) 8 with
      | 0x56 => vbLen (code.slice off (Nat.min 65536 (code.len - off)))
      | _ => 64
    if code.len ≤ off || code.fld (8 * off) 8 = 0x45 then w
    else walkItems code fuel (off + len) (w.item (code.slice off len))

/-- The longest interval between tile boundaries of a guest's kernels on a core, with the 40 CORE cycles of state save. -/
def guestSpan (b : Buf) (core : Nat) : Nat :=
  ((imgKernels b core).map fun k =>
    let code := (imgBytes b 0x03).slice k.codeOff (64 * k.len)
    let w := walkItems code (k.len + 1) (alignUp (32 * k.nprof) 64) ⟨0, 0, 0, false, false, 0, 0⟩
    Nat.max w.longest (if w.open0 || w.open1 then Nat.max w.array w.stage + 16 - w.since else 0)).foldl Nat.max 0 + 40

/-- The shortest lead of the bubbles of a core in ns, `none` where it has none (R373). The main entries of the next step
follow the period. -/
def guestLead (b : Buf) (core : Nat) : Option Nat :=
  let l := (imgEntryList b).filter fun x => x.2.target = core
  let mains := (l.filter fun x => x.2.action = 0x01).map fun x => x.2.offset
  let lead (t : Nat) : Option Nat :=
    match (mains.filter fun m => t ≤ m), mains with
    | m :: r, _ => some (r.foldl Nat.min m - t)
    | [], m :: r => some (imgPeriod b + r.foldl Nat.min m - t)
    | [], [] => none
  let leads := (l.filter fun x => x.2.action = 0x03).filterMap fun x => lead x.2.offset
  match leads with
  | [] => none
  | m :: r => some (r.foldl Nat.min m)

/-- The span fits the lead on every core that runs guest kernels. -/
def spansOk (main guest : Buf) : Bool :=
  (List.range 128).all fun c =>
    (imgKernels guest c).isEmpty ||
      match guestLead main c with
      | some ns => decide (guestSpan guest c * 10 ≤ ns * 17)
      | none => true

/-! ### Attach (R372, R468, R479) -/

/-- A guest's transfer-list item: OPEN set and both ranges inside GUEST regions (R372). -/
def guestItemOk (main : Buf) (x : Buf) : Bool :=
  let len := x.fld 32 32
  let side (space core addr : Nat) : Bool :=
    if space = 2 then
      let g := guestScratch main core
      decide (g.1 ≤ addr) && decide (addr + len ≤ g.1 + g.2)
    else insideGuest main space addr len
  x.flag 4 && side (x.fld 0 2) (x.fld 5 7) (x.fld 64 64) && side (x.fld 2 2) (x.fld 12 7) (x.fld 128 64)

/-- The key set of BUF1: its digests, where its form is right (R479). -/
def keySet (b : Buf) : Option (List Nat) :=
  let n := b.fld 0 4
  if b.fld 4 60 = 0 && 1 ≤ n && n ≤ 8 && 8 + 32 * n ≤ b.len then some ((List.range n).map fun i => (b.slice (8 + 32 * i) 32).val)
  else none

/-- The digest of a modulus as a key set holds it. -/
def keySetDigest (modulus : Nat) : Nat := (Buf.ofBe 32 (keyDigest modulus)).val

/-- The checks of GUEST_FORMAT. -/
def State.guestChecks (s : State) (main b : Buf) : Bool :=
  checkFormat b true = [] && imgJobId b ≠ imgJobId main && checkKernels b (guestCtx main) true 0x0171 = [] &&
    (List.range (imgCount b 0x07)).all (fun i =>
      listOk b i && (listItems b i).all fun x => itemOk s.erg.bytes x && guestItemOk main x) &&
    spansOk main b

/-- The guest's Oasis and Erg partitions zeroed (R479). -/
def State.zeroGuest (s : State) (main : Buf) : State :=
  ((imgRegions main).filter fun r => r.cls = 4).foldl (fun s r =>
    match r.space with
    | 0 => s.ergWrite r.base r.length 0
    | 1 => { s with oasis := s.oasis.zero r.base r.length }
    | _ => s) s

/-- A core with a guest that has just been attached. -/
def Core.attached (c : Core) : Core := { c with gflags := .reset, guest := ⟨none, 0⟩ }

/-- GUEST_ATTACH (R372, R410). -/
def State.guestAttach (s : State) (c : Call) : State :=
  match s.job with
  | none => s.finish c.mb 0x012C
  | some j =>
    let raw := c.buf0.data
    let b := raw.slice 0 (imgLen raw)
    let signer := trailerCert raw (imgLen raw)
    if imgGuestSoCount j.image = 0 || s.guest.isSome || j.phase = .restarting then s.finish c.mb 0x0170
    else if raw.len < 64 || raw.len < signedLen (imgLen raw) then s.finish c.mb 7
    else if !s.imageGood raw (imgLen raw) (fun x => certRole x = 4 && certJob x = imgJobId raw) then
      (s.raise Ev.imageRejected 0x0501).finish c.mb 0x0190
    else
      match keySet c.buf1.data with
      | none => s.finish c.mb 0x0171
      | some keys =>
        if !keys.contains (keySetDigest (certModulus signer)) || !s.guestChecks j.image b then s.finish c.mb 0x0171
        else
          let s := (s.loadKernels b true).zeroGuest j.image
          let g : Guest :=
            { image := b, seed := c.par 0 128, keys, pending := true, leaving := false, leaveMb := none, stopped := false, done := 0 }
          let s := { s with guest := some g, cores := tmap Core.reset Core.attached s.cores }
          let s := s.measure 3 (imgId b) (imageDigest b (imgLen b))
          (s.raise Ev.guestAttached 0 [] j.step true).finish c.mb 0

/-- GUEST_DETACH (R376): it waits for the tile boundaries of the cores on which the guest runs. -/
def State.guestDetach (s : State) (c : Call) : State :=
  match s.guest with
  | none => s.finish c.mb 0x0172
  | some g => ({ s with guest := some { g with leaving := true, leaveMb := some c.mb } } : State).detachGuest

/-- GUEST_STATUS (R410). -/
def State.guestStatus (s : State) (c : Call) : State :=
  match s.guest with
  | none => s.finish c.mb 0 (Buf.zeros 16)
  | some g =>
    let flags := s.cores.foldl (fun a x => a ||| x.2.gflags.bits) 0
    s.finish c.mb 0 (packBuf 16 [(1, 1), (6, flags % 64), (57, 0), (64, g.done)])

end Sys2Proof.Machine
end

