-- ==== Sys2Proof/Machine/Security.lean ====
section
/-! DEFINITION. The security commands (R403, R416, R417): roles, the ledger, quotes, firmware, ownership, lifecycle and debug
(R462 to R479), and the raw accumulator read (R110). -/

namespace Sys2Proof.Machine

/-- Only the reserve of the ledger remains: a ledgered command ends with COUNTER_EXHAUSTED (R476). -/
def State.ledgerSpent (s : State) : Bool := decide (ledgerOpen ≤ s.isl.ledger.length)

/-! ### Roles (R389, R403, R466, R479) -/

/-- ROLE_CHALLENGE: a nonce for the next bind of this mailbox. -/
def State.roleChallenge (s : State) (c : Call) : State :=
  let (n, s) := s.random
  (s.onMbox c.mb fun m => { m with nonce := some n }).finish c.mb 0 (Buf.ofLe 32 n)

/-- The digest that a role proof signs (R466). -/
def State.proofDigest (s : State) (nonce : Nat) (cert : Buf) : Nat :=
  sha256 (Buf.cat [Buf.ofLe 32 nonce, cert.slice 0 448, Buf.ofBe 32 s.ownKeyDigest])

/-- A key may bind the Job role of a JOB_ID while a guest is attached (R479). -/
def State.guestAdmits (s : State) (jobId modulus : Nat) : Bool :=
  match s.guest with
  | none => true
  | some g =>
    let d := keySetDigest modulus
    if jobId = imgJobId g.image then g.keys.contains d
    else match s.job with
      | some j => jobId ≠ imgJobId j.image || !g.keys.contains d
      | none => true

/-- A role proof holds (R466). -/
def State.proofGood (s : State) (nonce : Option Nat) (role jobId : Nat) (proof : Buf) : Bool :=
  let cert := proof.slice 0 832
  match nonce with
  | none => false
  | some n =>
    certRole cert = role && s.certGood cert && pssVerify (certModulus cert) (s.proofDigest n cert) (proof.be 832 384) &&
      (role ≠ 4 || (certJob cert = jobId && s.guestAdmits jobId (certModulus cert)))

/-- ROLE_BIND: the nonce is used up by the attempt. -/
def State.roleBind (s : State) (c : Call) : State :=
  let m := s.mbox c.mb
  let role := c.par 0 3
  let jobId := c.par 64 64
  if m.role ≠ 0 then s.finish c.mb 0x0195
  else if role = 0 || 4 < role || (role ≠ 4 && jobId ≠ 0) then s.finish c.mb 5
  else if c.buf0.data.len < 1216 then s.finish c.mb 7
  else
    let proof := c.buf0.data.slice 0 1216
    let s := s.onMbox c.mb fun m => { m with nonce := none }
    if s.proofGood m.nonce role jobId proof then
      let key := certModulus (proof.slice 0 832)
      (s.onMbox c.mb fun m =>
        { m with role, roleJob := jobId, actor := (sha256Buf (Buf.ofBe 384 key)).val, actorKey := key }).finish c.mb 0
    else s.finish c.mb 0x0192

/-! ### Ledger and quote (R416, R478) -/

/-- LEDGER_READ: as many whole entries as fit. -/
def State.ledgerRead (s : State) (c : Call) : State :=
  let first := c.par 0 32
  let n := s.isl.ledger.length
  if n < first then s.finish c.mb 5
  else
    let l := (s.isl.ledger.drop first).take (c.buf0.size / 512)
    s.answerBuf c (Buf.cat l) (packBuf 8 [(32, l.length), (32, n)])

/-- ATTEST_QUOTE; a device without an identity gives none (R463, R467, log entry 121). -/
def State.attestQuote (s : State) (c : Call) : State :=
  if !s.hasIdentity then s.finish c.mb 0x0194 else s.answerBuf c (s.quote (c.par 0 256))

/-! ### Firmware (R432, R468, R469) -/

/-- FW_UPDATE at its start: its image is BUF0, or the staged image of a CMD frame; a buffer that does not cover the trailer,
or a staged image that is not complete, is BUF_SHORT. The rest is background work. -/
def State.fwUpdate (s : State) (c : Call) : State :=
  let covers (b : Buf) : Bool := 64 ≤ b.len && signedLen (fwLen b) ≤ b.len
  let img := if c.mb = 16 then s.stagedImage.getD .empty else c.buf0.data
  let s := if c.mb = 16 then s.clearStage else s
  if s.inBackground 0x0903 then s.finish c.mb 0x0136
  else if !covers img then s.finish c.mb 7
  else
    (s.onMbox c.mb fun m => m.onFirst .running fun x => { x with phase := .background, in0 := img, in1 := .empty }).onPcie fun p =>
      { p with running := none, bg := p.bg ++ [(0x0903, c.mb, 0)] }

/-- Its work done: the status, and the idle slot written and pending with the ledger entry (R474, R476). -/
def State.fwStored (s : State) (mb : Nat) (x : Cmd) : Nat × State :=
  let img := x.in0
  if !s.fwVerifies img then (0x0190, s.raise Ev.imageRejected 0x0903)
  else if 4095 < fwArb img then (0x0193, s)
  else if fwArb img < s.isl.arb then (0x0191, s)
  else if s.ledgerSpent then (0x0193, s)
  else
    let slot : FwSlot := ⟨img.slice 0 (signedLen (fwLen img)), true⟩
    let s := s.onIsl fun y => if y.lastB then { y with slotA := slot, pendingFw := true } else { y with slotB := slot, pendingFw := true }
    (0, s.commandLedger mb 0x0010 0x0903 (x.entry.slice 64 (x.entry.fld 64 8)) img)

/-! ### Ownership, lifecycle, debug (R467, R471 to R473) -/

/-- OWNER_TRANSFER. -/
def State.ownerTransfer (s : State) (c : Call) : State :=
  let r := c.buf0.data
  let seq := r.fld 32 16
  let newKey := r.be 96 384
  let key := if s.isl.lifecycle = 0 && (s.mbox c.mb).role = 1 then (s.mbox c.mb).actorKey else s.isl.ownerKey
  let formOk := r.fld 0 32 = 0x58544C4F && r.fld 48 464 = 0 && r.be 64 32 = s.ownKeyDigest &&
    ((List.range 16).all fun j => let e := r.fld (3840 + 32 * j) 32; e >>> 14 = 0)
  if s.isl.lifecycle = 2 then s.finish c.mb 0x0194
  else if r.len < 928 then s.finish c.mb 7
  else if !formOk || key = 0 || !pssVerify key (sha256 (r.slice 0 544)) (r.be 544 384) then s.finish c.mb 0x0192
  else if seq = 0 && newKey ≠ s.isl.ownerKey then s.finish c.mb 0x0192
  else if seq ≠ 0 && 16 ≤ s.isl.transfers then s.finish c.mb 0x0193
  else if seq ≠ 0 && seq ≠ s.isl.transfers + 1 then s.finish c.mb 0x0192
  else if s.ledgerSpent then s.finish c.mb 0x0193
  else
    let used := s.isl.transfers + (if seq = 0 then 0 else 1)
    let s := s.onIsl fun x => { x with ownerKey := newKey, transfers := used, regmap := r.fld 3840 512 }
    let s := s.commandLedger c.mb 0x0020 0x0904 c.params r used
    (if seq = 0 then s else s.counterLow 0x0020 used 16 0x0904).finish c.mb 0

/-- LIFECYCLE_ADVANCE: to owned once an Owner key is installed; to decommissioned with no job armed, which erases the keys
after their last ledger entry. -/
def State.lifecycleAdvance (s : State) (c : Call) : State :=
  let t := c.par 0 2
  if t = 3 then s.finish c.mb 5
  else if t = 0 || t ≠ s.isl.lifecycle + 1 || (t = 1 && s.isl.ownerKey = 0) then s.finish c.mb 0x0194
  else if t = 2 && s.job.isSome then s.finish c.mb 0x012B
  else if s.ledgerSpent then s.finish c.mb 0x0193
  else
    let s := (s.onIsl fun x => { x with lifecycle := t }).commandLedger c.mb 0x0021 0x0905 c.params .empty t
    let s := if t = 2 then
        (s.onIsl fun x => { x with hasId := false, idOk := false, ownerKey := 0 }).raise Ev.lifecycleChanged 0x0905
      else s
    s.finish c.mb 0

/-- A grant's NOT_AFTER still stands; HT that is not trusted passes only all ones (R465, R473, log entry 122). -/
def State.grantInTime (s : State) (t : Nat) : Bool := if s.htTrusted then s.htNow ≤ t else t = 2 ^ 64 - 1

/-- DEBUG_ENTER. -/
def State.debugEnter (s : State) (c : Call) : State :=
  let g := c.buf0.data
  if g.len < 448 then s.finish c.mb 7
  else if 32 ≤ s.isl.grants then s.finish c.mb 0x0193
  else if !(g.fld 0 32 = 0x47444C4F && g.fld 32 16 = s.isl.grants + 1 && g.fld 48 16 = 0 && s.grantInTime (g.fld 64 64) &&
      g.be 16 32 = s.ownKeyDigest && g.fld 384 128 = 0 &&
      pssVerify (s.mbox c.mb).actorKey (sha256 (g.slice 0 64)) (g.be 64 384)) then s.finish c.mb 0x0192
  else if s.ledgerSpent then s.finish c.mb 0x0193
  else
    let used := s.isl.grants + 1
    let s := (s.onIsl fun x => { x with grants := used, debug := true }).commandLedger c.mb 0x0030 0x0A01 c.params g used
    ((s.counterLow 0x0030 used 32 0x0A01).raise Ev.debugEntered 0x0A01).finish c.mb 0

/-- DEBUG_EXIT. -/
def State.debugExit (s : State) (c : Call) : State :=
  if !s.isl.debug then s.finish c.mb 0x01A0
  else ((s.onIsl fun x => { x with debug := false }).raise Ev.debugExited 0x0A03).finish c.mb 0

/-! ### The raw accumulator read (R109, R110, R417) -/

/-- The state record of a tile. -/
def Tile.record (t : Tile) : Buf :=
  packBuf 16 [(33, t.pcount), (7, 0), sf 9 t.texp, (7, 0), (1, b2n t.fInvalid), (1, b2n t.fOver), (1, b2n t.fUnder), (1, b2n t.fClip),
    (4, 0), (16, t.lastTag), (48, 0)]

/-- An accumulator as the raw read returns it: I with its carries folded, in 76 bytes, then SPEC. -/
def Acc.raw (a : Acc) : Buf := (Buf.ofLe 76 a.healed.folded.limbs).app (Buf.ofLe 1 a.spec)

/-- ACC_READ (R110, R417): the tile as the last item left it. A kernel that runs on the core is held from its next item boundary
until the command's completion is written (log entry 140). -/
def State.accRead (s : State) (c : Call) : State :=
  let core := c.par 0 7
  let first := c.par 8 14
  let n := c.par 22 14
  if !s.isl.debug then s.finish c.mb 0x01A0
  else if n = 0 || 9216 < n || 9216 < first + n then s.finish c.mb 5
  else
    let s := s.settleTile core (c.par 7 1)
    let s := s.noteBasin core (c.par 7 1) (fun i => first ≤ i && i < first + n) .maint
    let t := (s.core core).tile (c.par 7 1)
    let s := s.onCore core fun x => { x with accHold := if x.kernel.isSome then some c.mb else x.accHold }
    s.answerBuf c ((Buf.cat ((List.range n).map fun i => (tget Acc.reset t.acc (first + i)).raw)).app t.record)

end Sys2Proof.Machine
end

