-- ==== Sys2Proof/Machine/Rilseti.lean ====
section
/-! DEFINITION. Rilseti's status and configuration commands (R403 to R406, R411 to R413, R418): what each does once it has
been admitted to run. -/

namespace Sys2Proof.Machine

/-! ### Device and hall time (R403) -/

/-- DEV_INFO. The firmware digest is that of the image's signed bytes. -/
def State.devInfo (s : State) (c : Call) : State :=
  let fw := s.isl.fwRunning
  let a := s.aon
  s.finish c.mb 0 (packBuf 80
    [(64, s.devId), (256, (Buf.ofBe 32 s.ownKeyDigest).val), (256, (imageDigest fw (fwLen fw)).val), (8, s.isl.lifecycle),
     (1, b2n s.isl.debug), (12, a.chainAddr), (3, a.straps), (40, 0)])

/-- CMD_ID of the background command of an opcode on a mailbox. -/
def Mailbox.bgId (m : Mailbox) (opcode : Nat) : Nat :=
  match m.cmds.find? fun x => x.phase = .background && x.entry.fld 0 16 = opcode with
  | some x => x.entry.fld 16 16
  | none => 0

/-- BG_QUERY. -/
def State.bgQuery (s : State) (c : Call) : State :=
  s.finish c.mb 0 (packBuf 128 ((s.pcie.bg.take 8).flatMap fun b =>
    [(16, b.1), (4, b.2.1 % 16), (16, (s.mbox b.2.1).bgId b.1), (28, 0), (64, b.2.2)]))

/-- HT_QUERY. -/
def State.htQuery (s : State) (c : Call) : State :=
  s.finish c.mb 0 (s.htRecord.app (packBuf 8 [(32, s.ht.inOverruns), (32, s.ht.inInvalid)]))

/-- HT_SET (R34). -/
def State.htSet (s : State) (c : Call) : State :=
  let v := c.par 0 64
  if !s.ht.root then s.finish c.mb 0x0112
  else if s.ht.state ≠ .unset && s.ht.state ≠ .acquiring then s.finish c.mb 0x0111
  else if v % 1000000000 ≠ 0 then s.finish c.mb 5
  else (s.onHt fun h => { h with pendingSet := some (v, s.now) }).finish c.mb 0

/-- HT_CONFIG: only the selected fields change; a limit lowered below the time already spent in HOLDOVER leads to LOST. -/
def State.htConfig (s : State) (c : Call) : State :=
  let w (i : Nat) : Bool := c.par i 1 = 1
  let delay := c.par 32 32
  let hold := c.par 64 16
  let asym := (List.range 8).map fun i => sext 16 (c.par (128 + 16 * i) 16)
  if (w 0 && 1000000 < delay) || (w 1 && asym.any fun x => x = -32768) || (w 2 && (hold = 0 || 1000 < hold)) then s.finish c.mb 5
  else if (w 0 || w 1) && s.job.isSome then s.finish c.mb 0x012B
  else if s.ledgerSpent then s.finish c.mb 0x0193
  else
    let s := s.onIsl fun x =>
      { x with delayPs := if w 0 then delay else x.delayPs, holdMs := if w 2 then hold else x.holdMs
               asym := if w 1 then asym.zipIdx.foldl (fun t p => tset 0 t p.2 p.1) [] else x.asym }
    let s := if w 3 then s.onHt fun h => { h with inOverruns := 0, inInvalid := 0 } else s
    ((s.commandLedger c.mb 0x0002 0x0203 c.params .empty).finish c.mb 0).htLost

/-- SLOT_MISS (R68). -/
def State.slotMiss (s : State) (c : Call) : State :=
  let b := Buf.cat (missTargets.map fun k => (s.missRec k).record)
  if c.buf0.size < b.len then s.finish c.mb 7
  else (if c.par 0 1 = 1 then { s with miss := [] } else s).answerBuf c b

/-! ### Memory (R177, R404, R405) -/

/-- RATE of a channel record. -/
def rateCode (mts : Nat) : Nat :=
  if mts = 0 then 0xFF else if mts = 12800 then 0 else if mts = 10400 then 1 else if mts = 8800 then 2 else 3

/-- The record of an Erg channel. -/
def State.chanRecord (s : State) (k : Nat) : Buf :=
  let x := s.chan k
  let used := (s.isl.redirect.filter fun r => r.1 = k).length
  packBuf 32 [(32, x.corrected), (32, x.uncorrectable), (32, x.rereads), (32, x.scrubLine), (32, x.scrubPassS), (8, used),
    (8, 128 - (s.sparesTaken k).length), (8, (s.isl.marks.filter fun m => m.1 = k).length), sf 8 x.tempC, (1, b2n x.highRate),
    (7, 0), (8, rateCode s.erg.rate), (16, s.erg.rate / 100), (32, x.shareWaits)]

/-- The memory record of a die. -/
def Die.memRecord (d : Die) : Buf :=
  packBuf 16 [(32, d.oasisCorrected), (32, d.oasisUncorrectable), (32, d.coreCorrected), (32, d.coreUncorrectable)]

/-- MEM_STATUS. -/
def State.memStatus (s : State) (c : Call) : State :=
  s.answerBuf c ((Buf.cat ((List.range 32).map s.chanRecord)).app (Buf.cat ((List.range 8).map fun k => (s.die k).memRecord)))

/-- The status that refuses an Erg range: not ready, LEN 0, not line-aligned or out of range. -/
def State.ergRangeStatus (s : State) (ela len : Nat) : Nat :=
  if !s.erg.ready then 0x0140
  else if len = 0 then 5
  else if ela % 64 ≠ 0 || len % 64 ≠ 0 || s.erg.bytes < ela + len then 0x0143
  else 0

/-- The line requests of a Rilseti read or write. -/
def State.ergLines (s : State) (c : Call) (write : Bool) : State :=
  let ela := c.par 0 43
  let l := c.buf0
  (List.range (c.par 64 32 / 64)).foldl (fun s i =>
    s.enqueue ⟨.openRilseti, write, ela + 64 * i, if write then l.data.le (64 * i) 64 else 0, false, false,
      .host c.mb (extAddr l.exts (64 * i))⟩) s

/-- ERG_READ: an open-class read in the background. -/
def State.ergReadCmd (s : State) (c : Call) : State :=
  let st := s.ergRangeStatus (c.par 0 43) (c.par 64 32)
  if st ≠ 0 then s.finish c.mb st
  else if s.inBackground 0x0302 then s.finish c.mb 0x0136
  else if c.buf0.size < c.par 64 32 then s.finish c.mb 7
  else (s.ergLines c false).toBackground c

/-- An Erg range touches a region of the armed job's memory plan. -/
def State.inPlan (s : State) (ela len : Nat) : Bool :=
  match s.job with
  | none => false
  | some j => (imgRegions j.image).any fun r => r.space = 0 && ela < r.base + r.length && r.base < ela + len

/-- ERG_WRITE: an open-class write in the background. -/
def State.ergWriteCmd (s : State) (c : Call) : State :=
  let st := s.ergRangeStatus (c.par 0 43) (c.par 64 32)
  if st ≠ 0 then s.finish c.mb st
  else if s.inPlan (c.par 0 43) (c.par 64 32) then s.finish c.mb 0x012B
  else if s.inBackground 0x0303 then s.finish c.mb 0x0136
  else if c.buf0.data.len < c.par 64 32 then s.finish c.mb 7
  else (s.ergLines c true).toBackground c

/-- ERG_RETIRE_CLEAR (R176). -/
def State.retireClear (s : State) (c : Call) : State :=
  let ch := c.par 0 5
  if s.job.isSome then s.finish c.mb 0x012B
  else if s.ledgerSpent then s.finish c.mb 0x0193
  else
    let s := s.onIsl fun x =>
      { x with redirect := x.redirect.filter fun r => r.1 ≠ ch, badSpares := x.badSpares.filter fun r => r.1 ≠ ch
               marks := x.marks.filter fun m => m.1 ≠ ch }
    (s.commandLedger c.mb 0x0005 0x0304 c.params .empty).finish c.mb 0

/-! ### Job status (R96, R211, R230, R258, R259, R406, R413) -/

/-- COMMIT_STATUS. -/
def State.commitStatus (s : State) (c : Call) : State :=
  if s.job.isNone then s.finish c.mb 0x012C else s.finish c.mb 0 s.com.record

/-- The counter record of a core. -/
def Core.record (x : Core) : Buf :=
  packBuf 32 [(64, x.busy), (32, x.interlock), (32, x.fetchSlow), (32, x.conflicts), (32, x.waitCycles), (64, 0)]

/-- The update record of a die. -/
def Die.updateRecord (d : Die) : Buf :=
  packBuf 32 [(32, d.passesRun), (32, d.passesIdle), (64, d.elements), (32, d.srSat), (32, d.outerFull), (32, d.outerOnly), (32, d.stallUs)]

/-- COUNTERS. -/
def State.counters (s : State) (c : Call) : State :=
  if s.job.isNone then s.finish c.mb 0x012C
  else
    match c.par 0 2 with
    | 0 => s.answerBuf c (Buf.cat ((List.range 128).map fun k => (s.core k).record))
    | 1 => s.answerBuf c (Buf.cat ((List.range 8).map fun k => (s.die k).trainRecord))
    | 2 => s.answerBuf c (Buf.cat ((List.range 8).map fun k => (s.die k).updateRecord))
    | _ => s.finish c.mb 5

/-- WATCH_QUERY. -/
def State.watchQuery (s : State) (c : Call) : State :=
  match s.job with
  | none => s.finish c.mb 0x012C
  | some j => s.answerBuf c (Buf.cat ((imgSlots j.image).zipIdx.map fun p => s.watchRecord j.image p.2 p.1))

/-- SCALE_READ. -/
def State.scaleRead (s : State) (c : Call) : State :=
  match s.job with
  | none => s.finish c.mb 0x012C
  | some j =>
    if c.par 20 1 = 1 then s.answerBuf c s.com.hist.record
    else
      match imgShard j.image (c.par 0 20) with
      | none => s.finish c.mb 5
      | some t =>
        let r := s.oasisRead t.shAddr 4160 .maint
        r.2.answerBuf c (Buf.ofLe 4160 r.1)

/-! ### Acrix, links and budgets (R330, R352, R355, R411, R412) -/

/-- A session on a far port is not CLOSED (R330). -/
def State.portInUse (s : State) (port : Nat) : Bool :=
  s.places.any fun k => (s.sess k).port = port && (s.sess k).state ≠ SessState.closed

/-- FAR_CONFIG. -/
def State.farConfig (s : State) (c : Call) : State :=
  let hop := c.par 136 8
  if hop = 0 then s.finish c.mb 5
  else if s.portInUse (c.par 0 2) then s.finish c.mb 0x0161
  else if s.ledgerSpent then s.finish c.mb 0x0193
  else
    let udp := c.par 144 16
    let s := s.onFarPort (c.par 0 2) fun p => p.onRoute (c.par 2 1) fun r =>
      { r with mac := c.par 16 48, nextHop := c.par 64 48, vid := c.par 112 12, prio := c.par 124 3, vlanEn := c.par 127 1 = 1
               tclass := c.par 128 8, hopLim := hop, udpPort := if udp = 0 then 46721 else udp, ip6 := c.par 192 128 }
    (s.commandLedger c.mb 0x0003 0x0601 c.params .empty).finish c.mb 0

/-- The parameters of ACX_PARTNER lie in their ranges. -/
def partnerOk (c : Call) : Bool :=
  let storage := c.par 3 1 = 1
  let retry := c.par 112 6
  let ela := c.par 704 43
  let gib := c.par 768 8
  (storage || c.par 0 3 ≤ 4) && c.par 64 32 ≤ 400000 && 16 ≤ c.par 96 16 && (retry = 0 || 4 ≤ retry) && c.par 128 16 ≤ 600 &&
    (!storage || c.par 576 128 = 0) && ela % 2 ^ 21 = 0 && (if ela = 0 then gib = 0 else 1 ≤ gib && gib ≤ 64)

/-- ACX_PARTNER. -/
def State.acxPartner (s : State) (c : Call) : State :=
  let storage := c.par 3 1 = 1
  let k := (if storage then 8 else 0) + c.par 0 3
  let port := c.par 4 2
  let ela := c.par 704 43
  let retry := c.par 112 6
  let secs := c.par 128 16
  if !partnerOk c then s.finish c.mb 5
  else if s.portInUse port then s.finish c.mb 0x0161
  else if ela ≠ 0 && s.job.isSome then s.finish c.mb 0x012B
  else
    let p : Partner :=
      { used := true, port, quota := c.par 32 32, rate := c.par 64 32, burst := c.par 96 16, retryMax := if retry = 0 then 16 else retry
        timeoutS := if secs = 0 then 30 else secs, keyDigest := (Buf.ofLe 32 (c.par 192 256)).be 0 32
        addrA := c.par 448 128, addrB := c.par 576 128, budgets := [] }
    let t := s.putPartner k p
    let t := if ela = 0 then t else t.onAcx fun a => { a with cistEla := ela, cistLen := c.par 768 8 * 2 ^ 30 }
    if t.cistSlots < (t.acx.partners.map fun x => x.2.quota).sum then s.finish c.mb 0x0162
    else if s.ledgerSpent then s.finish c.mb 0x0193
    else
      let t := if storage then t
        else (List.range 4).foldl (fun t f => t.onFarPort f fun q =>
          { q with partner := if f = port then c.par 0 3 else if q.partner = c.par 0 3 then 7 else q.partner }) t
      (t.commandLedger c.mb 0x0004 0x0602 c.params .empty).finish c.mb 0

/-- A budget record keeps R352 and names a Weir that exists. -/
def State.budgetOk (s : State) (r : Buf) : Bool :=
  let t := r.fld 0 16
  r.fld 16 16 = 0 && r.fld 32 32 ≤ 400000 && 16 ≤ r.fld 64 16 && r.fld 80 48 = 0 && r.fld 192 64 = 0 &&
    (if t < 5 then (s.partner t).used else s.places.any fun k => (s.sess k).localId + 0x100 = t && (s.sess k).bulk && (s.sess k).state ≠ SessState.closed)

/-- A change put among the pending ones; one of the same EFFECTIVE_HT is replaced. -/
def addBudget (l : List (Nat × Nat × Nat)) (b : Nat × Nat × Nat) : List (Nat × Nat × Nat) := (l.filter fun x => x.1 ≠ b.1) ++ [b]

/-- A budget record queued. -/
def State.queueBudget (s : State) (r : Buf) : State :=
  let b := (r.fld 128 64, r.fld 32 32, r.fld 64 16)
  let t := r.fld 0 16
  if t < 5 then s.onPartner t fun p => { p with budgets := addBudget p.budgets b }
  else
    match s.places.find? fun k => (s.sess k).localId + 0x100 = t && (s.sess k).bulk with
    | some k => s.onSess k fun x => { x with budgets := addBudget x.budgets b }
    | none => s

/-- WEIR_BUDGET: all records, or none. -/
def State.weirBudget (s : State) (c : Call) : State :=
  let n := c.par 0 4
  let l := c.buf0.data.recs 32 n
  if n = 0 || 8 < n then s.finish c.mb 5
  else if c.buf0.data.len < 32 * n then s.finish c.mb 7
  else if !(l.all s.budgetOk) then s.finish c.mb 5
  else if l.any fun r => r.fld 128 64 ≤ s.htNow then s.finish c.mb 0x0164
  else
    let t := l.foldl State.queueBudget s
    if (t.acx.partners.any fun p => 8 < p.2.budgets.length) || t.acx.sess.any fun x => 8 < x.2.budgets.length then s.finish c.mb 0x0163
    else t.finish c.mb 0

/-- BULK_OPEN: it waits for OPEN. -/
def State.bulkOpen (s : State) (c : Call) : State :=
  let k := 8 + c.par 0 3
  if !(s.partner k).used || !s.hasIdentity then s.finish c.mb 0x0165
  else
    match s.initSession k (c.par 4 2) true (some c.mb) with
    | (t, some _) => t
    | (_, none) => s.finish c.mb 0x0161

/-- SESSION_CLOSE. -/
def State.sessionClose (s : State) (c : Call) : State :=
  match s.places.find? fun k => (s.sess k).used && (s.sess k).localId = c.par 0 16 && (s.sess k).state ≠ SessState.closed with
  | none => s.finish c.mb 0x0165
  | some k => ((s.sendClose k (c.par 32 32)).closeSess k false).finish c.mb 0

/-- ROUND_STATUS. -/
def State.roundStatus (s : State) (c : Call) : State :=
  match s.job with
  | none => s.finish c.mb 0x012C
  | some j => s.answerBuf c (Buf.cat ((List.range (imgFcount j.image)).map fun f => (s.frag f).record))

/-- SESSION_STATUS. -/
def State.sessionStatus (s : State) (c : Call) : State :=
  s.answerBuf c (Buf.cat ((List.range 16).map fun k => (s.sess k).record))

/-- FAR_STATUS. -/
def State.farStatus (s : State) (c : Call) : State := s.finish c.mb 0 (Buf.cat ((List.range 4).map s.farRecord))

/-- NEAR_STATUS. -/
def State.nearStatus (s : State) (c : Call) : State :=
  let b := Buf.cat ((List.range 8).map fun k => (s.port k).record)
  if c.buf0.size < b.len then s.finish c.mb 7
  else
    let s := if c.par 0 1 = 1 then { s with near := tmap NearPort.reset NearPort.clearCounters s.near } else s
    s.answerBuf c b

/-! ### Event masks (R396, R418) -/

/-- Every event code that a chapter defines (R499). -/
def eventCodes : List Nat :=
  let run (a n : Nat) : List Nat := (List.range n).map (a + ·)
  run 0x1001 10 ++ run 0x2001 11 ++ run 0x3020 3 ++ run 0x3030 2 ++ run 0x3040 2 ++ run 0x3050 3 ++ run 0x4001 10 ++ run 0x4010 5 ++
    run 0x5001 11 ++ run 0x5020 14 ++ run 0x6001 10 ++ run 0x7001 11 ++ run 0x8001 10 ++ run 0x8020 6 ++ run 0x8030 2 ++
    run 0x8040 2 ++ run 0x8050 7 ++ run 0x8060 2 ++ run 0x8070 6 ++ run 0x9001 5

/-- EVENT_MASK: all entries, or none. -/
def State.eventMask (s : State) (c : Call) : State :=
  let n := c.par 0 16
  let l := c.buf0.data.recs 4 n
  if n = 0 || 256 < n then s.finish c.mb 5
  else if c.buf0.data.len < 4 * n then s.finish c.mb 7
  else if l.any fun e => e.fld 17 15 ≠ 0 then s.finish c.mb 5
  else if l.any fun e => !eventCodes.contains (e.fld 0 16) then s.finish c.mb 0x01C0
  else
    let masks := l.foldl (fun m e => if e.flag 16 then addMask m (e.fld 0 16) else m.filter (· ≠ e.fld 0 16)) s.pcie.masks
    (s.onPcie fun p => { p with masks }).finish c.mb 0

/-- EVENT_MASK_READ. -/
def State.eventMaskRead (s : State) (c : Call) : State :=
  s.answerBuf c (packBuf (2 * s.pcie.masks.length) (s.pcie.masks.map fun m => (16, m))) (packBuf 2 [(16, s.pcie.masks.length)])

end Sys2Proof.Machine
end

