-- ==== Sys2Proof/Machine/SelfTest.lean ====
section
/-! DEFINITION. LOOPBACK and MBIST (R418, R419, R496, R498), and the end of the work of every background command (R399). -/

namespace Sys2Proof.Machine

/-! ### Loopback -/

/-- An interface code, depth and duration that R419 and the table of R496 accept; PCIe is tested through the chain alone,
and the chain through PCIe alone. -/
def loopbackOk (c : Call) : Bool :=
  let i := c.par 0 8
  let d := c.par 8 2
  let us := c.par 16 32
  1 ≤ us && us ≤ 10000000 &&
    (if i < 8 || (16 ≤ i && i < 24) || (0x30 ≤ i && i < 0x50) then d ≤ 2
     else if i = 0x20 then c.mb = 16 && d ≤ 1
     else if i = 0x50 then c.mb ≠ 16 && d = 0
     else i = 0x51 && d = 0)

/-- An interface that a running session or background command uses (R402 JOB_BUSY). -/
def State.loopBusy (s : State) (i : Nat) : Bool :=
  if 16 ≤ i && i < 24 then s.portInUse ((i - 16) / 2)
  else if 0x30 ≤ i && i < 0x50 then s.inBackground 0x0302 || s.inBackground 0x0303
  else false

/-- LOOPBACK at its start; the pattern runs in the background. -/
def State.loopbackCmd (s : State) (c : Call) : State :=
  if !loopbackOk c then s.finish c.mb 5
  else if s.job.isSome || s.loopBusy (c.par 0 8) then s.finish c.mb 0x012B
  else if s.inBackground 0x0B01 then s.finish c.mb 0x0136
  else
    let s := if c.par 0 8 = 0x50 then s.onAon fun a => { a with chainLoop := true } else s
    s.toBackground c

/-- An Erg loopback overwrites the lines it tests (R419), each with a free value: the spec does not say what they hold after
it. The lines are given as 8-byte line addresses (log entry 123). -/
def State.loopLines (s : State) : List Buf → State
  | [] => s
  | e :: l =>
    let (v, s) := s.free 512
    let ela := e.fld 0 43 / 64 * 64
    let ch := elaChannel ela
    (s.onErg fun x => { x with ram := x.ram.writeAt (ergKey ch (s.physFrame ch (elaFrame ela)) (ela % 2 ^ 21)) 64 v }).loopLines l

/-- The loopback has run: status, response and bytes written to BUF0. -/
def State.loopDone (s : State) (x : Cmd) (res : BgResult) : Nat × Buf × State :=
  let i := x.entry.fld 512 8
  if i < 8 && res.rows ≠ 0 then (0x012B, .empty, s)
  else
    let s := if 0x30 ≤ i && i < 0x50 then s.loopLines ((res.data.recs 8 (res.data.len / 8)).filter fun e => elaChannel (e.fld 0 43) + 0x30 = i) else s
    let s := if i = 0x50 then s.onAon fun a => { a with chainLoop := false } else s
    let s := if res.errors = 0 then s.raise Ev.loopbackDone i
      else s.raise Ev.loopbackErrors i [(32, Nat.min res.errors (2 ^ 32 - 1))]
    (0, packBuf 16 [(64, res.bytes), (64, res.errors)], s)

/-! ### Built-in self-test -/

/-- The SRAMs of compute die `d` zeroed with valid check symbols. -/
def State.zeroDie (s : State) (d : Nat) : State :=
  let s := (List.range 16).foldl (fun s i => s.onCore (16 * d + i) fun c =>
    { c with tile0 := { c.tile0 with acc := [], open_ := false }, tile1 := { c.tile1 with acc := [], open_ := false }, writeback := [] }) s
  let s := s.onDie d fun x => { x with oasisWriteback := [] }
  { s with
    kstore := s.kstore.clear (d * 2 ^ 22) (2 ^ 22)
    gstore := s.gstore.clear (d * 2 ^ 20) (2 ^ 20)
    scratch := s.scratch.zero (scratchKey (16 * d) 0) (16 * scratchSize)
    oasis := s.oasis.zero (d * oasisSize) oasisSize }

/-- The replay and open buffers of the four near ports of a link die, and on L1 the far ports' staging buffers, emptied: the
flits they held are gone and their places free. -/
def State.zeroLink (s : State) (first : Nat) (far : Bool) : State :=
  let mine (k : Nat) : Bool := first ≤ k && k < first + 4
  let s := (List.range 8).foldl (fun s k => s.onPort k fun p =>
    let p := { p with txq := (p.txq.map fun q => (q.1, q.2.filter fun f => !mine (f.1 / 8))).filter fun q => q.2 ≠ [] }
    if mine k then { p with sent := [], rxHeld := [] } else p) s
  if far then (List.range 4).foldl (fun s k => s.onFarPort k fun p => { p with staged := 0 }) s else s

/-- The SRAMs of the dies of a mask zeroed. -/
def State.zeroDies (s : State) (mask : Nat) : State :=
  let s := (List.range 8).foldl (fun s d => if bit mask d then s.zeroDie d else s) s
  let s := if bit mask 8 then s.zeroLink 0 false else s
  if bit mask 9 then s.zeroLink 4 true else s

/-- MBIST at its start; the march runs in the background. -/
def State.mbistCmd (s : State) (c : Call) : State :=
  if s.job.isSome then s.finish c.mb 0x012B
  else if s.inBackground 0x0B02 then s.finish c.mb 0x0136
  else (s.toBackground c).onMbox c.mb fun m => m.onFirst .background fun x =>
    if x.entry.fld 0 16 = 0x0B02 then { x with in0 := c.b0.getD .empty } else x

/-- The march has run: the SRAMs are zeroed and the failing rows are listed in BUF0. -/
def State.mbistDone (s : State) (x : Cmd) (res : BgResult) : Nat × Buf × State :=
  let mask := x.entry.fld 512 10
  let h := (hostBuf (x.entry.slice 16 16) (some x.in0)).2
  let list := res.data.slice 0 (8 * res.rows)
  let s := s.zeroDies mask
  let s := if res.rows = 0 then s.raise Ev.mbistDone mask else s.raise Ev.mbistFail mask [(16, Nat.min res.rows (2 ^ 16 - 1))]
  if h.size < list.len then (7, .empty, s) else (0, packBuf 4 [(32, res.rows)], s.writeHost h.exts list)

/-! ### The end of a background command (R399) -/

/-- A background command of mailbox `mb` is finished, and its place on the device is free. -/
def State.endBackground (s : State) (mb opcode status : Nat) (resp : Buf) (xfer : Nat) : State :=
  (s.onMbox mb fun m =>
    { m with cmds := m.cmds.map fun x =>
        if x.phase = .background && x.entry.fld 0 16 = opcode then
          { x with phase := .finished, status, resp, xfer := Nat.min xfer (2 ^ 32 - 1), ht := s.htStamp, in0 := .empty, in1 := .empty }
        else x }).onPcie fun p => { p with bg := p.bg.filter fun b => b.1 ≠ opcode }

/-- BG_COMMAND_COMPLETE: the work of the background command of an opcode ends. An ERG_READ or ERG_WRITE ends once its last
line has gone; a command whose mailbox is gone leaves only its effect (R385, R400). -/
def State.bgCommandComplete (s : State) (opcode : Nat) (res : BgResult) : State :=
  match s.pcie.bg.find? fun b => b.1 = opcode with
  | none => s
  | some (_, mb, n) =>
    match (s.mbox mb).cmds.find? fun x => x.phase = .background && x.entry.fld 0 16 = opcode with
    | none => s.onPcie fun p => { p with bg := p.bg.filter fun b => b.1 ≠ opcode }
    | some x =>
      match opcode with
      | 0x0302 => if n < x.entry.fld 576 32 then s else s.endBackground mb opcode x.status .empty n
      | 0x0303 => if n < x.entry.fld 576 32 then s else s.endBackground mb opcode 0 .empty 0
      | 0x0403 =>
        let (st, s) := s.restoreDone x
        s.endBackground mb opcode st (if st = 0 then s.restoreResp else .empty) 0
      | 0x0903 =>
        let (st, s) := s.fwStored mb x
        s.endBackground mb opcode st .empty 0
      | 0x0B01 =>
        let (st, r, s) := s.loopDone x res
        s.endBackground mb opcode st r 0
      | 0x0B02 =>
        let (st, r, s) := s.mbistDone x res
        s.endBackground mb opcode st r (if st = 0 then 8 * res.rows else 0)
      | _ => s

@[inherit_doc State.bgCommandComplete]
def execBgCommandComplete (at_ opcode : Nat) (res : BgResult) (s : State) : Res := .next ((s.tick at_).bgCommandComplete opcode res)

end Sys2Proof.Machine
end

