-- ==== Sys2Proof/Machine/Rows.lean ====
section
/-! DEFINITION. The rows of the Rilseti command reference: each command with its opcode, the roles that may issue it (R389,
R398, R403 to R418) and its effect; and COMPLETION_WRITE. -/

namespace Sys2Proof.Machine

/-! ### Roles (R398) -/

/-- Un: any mailbox. -/
def mayUn (_ : State) (_ : Call) : Bool := true

/-- Any: any bound role. -/
def mayAny (s : State) (c : Call) : Bool := s.roleOf c.mb ≠ 0

/-- Op. -/
def mayOp (s : State) (c : Call) : Bool := s.roleOf c.mb = 3

/-- Any; Op where the first parameter bit, CLEAR, is set. -/
def mayOpIfSet (s : State) (c : Call) : Bool := if c.par 0 1 = 1 then mayOp s c else mayAny s c

/-- Ow; while the device is manufactured, Vendor too (R467). -/
def mayOw (s : State) (c : Call) : Bool := s.roleOf c.mb = 2 || (s.roleOf c.mb = 1 && s.isl.lifecycle = 0)

/-- Ve, Ow. -/
def mayVeOw (s : State) (c : Call) : Bool := s.roleOf c.mb = 1 || s.roleOf c.mb = 2

/-- FW_UPDATE: Ve, Ow; on the chain mailbox in the recovery loader alone (R432). -/
def mayFw (s : State) (c : Call) : Bool := if c.mb = 16 then s.aon.phase = .recovery else mayVeOw s c

/-- LIFECYCLE_ADVANCE: Ve to owned, Ow to decommissioned; to another state, either, and the command itself answers. -/
def mayLife (s : State) (c : Call) : Bool :=
  match c.par 0 2 with
  | 1 => s.roleOf c.mb = 1
  | 2 => mayOw s c
  | _ => mayVeOw s c

/-- The Job role of a JOB_ID. -/
def mayJob (s : State) (c : Call) (id : Option Nat) : Bool :=
  mayOp s c || (s.roleOf c.mb = 4 && match id with | some i => (s.mbox c.mb).roleJob = i | none => true)

/-- Op, Jb: the armed main job's JOB_ID; with none armed, no other job is named. -/
def mayJb (s : State) (c : Call) : Bool := mayJob s c (s.job.map fun j => imgJobId j.image)

/-- Op, Jb: the JOB_ID of the image in BUF0. -/
def mayJbImage (s : State) (c : Call) : Bool := mayJob s c (if c.bufStatus = 0 then some (imgJobId c.buf0.data) else none)

/-- Op, Jb: the attached guest's JOB_ID (R410). -/
def mayJbGuest (s : State) (c : Call) : Bool := mayJob s c (s.guest.map fun g => imgJobId g.image)

/-! ### The commands -/

/-- DEV_INFO (R403). -/
def execDevInfo (at_ mb : Nat) (b0 b1 : Option Buf) (s : State) : Res :=
  .next ((s.tick at_).command 0x0101 mb b0 b1 mayUn State.devInfo)

/-- ROLE_CHALLENGE (R403). -/
def execRoleChallenge (at_ mb : Nat) (b0 b1 : Option Buf) (s : State) : Res :=
  .next ((s.tick at_).command 0x0102 mb b0 b1 mayUn State.roleChallenge)

/-- ROLE_BIND (R389, R466). -/
def execRoleBind (at_ mb : Nat) (b0 b1 : Option Buf) (s : State) : Res :=
  .next ((s.tick at_).command 0x0103 mb b0 b1 mayUn State.roleBind)

/-- BG_QUERY (R403). -/
def execBgQuery (at_ mb : Nat) (b0 b1 : Option Buf) (s : State) : Res :=
  .next ((s.tick at_).command 0x0104 mb b0 b1 mayAny State.bgQuery)

/-- HT_QUERY (R403). -/
def execHtQuery (at_ mb : Nat) (b0 b1 : Option Buf) (s : State) : Res :=
  .next ((s.tick at_).command 0x0201 mb b0 b1 mayUn State.htQuery)

/-- HT_SET (R34). -/
def execHtSet (at_ mb : Nat) (b0 b1 : Option Buf) (s : State) : Res :=
  .next ((s.tick at_).command 0x0202 mb b0 b1 mayOp State.htSet)

/-- HT_CONFIG (R403). -/
def execHtConfig (at_ mb : Nat) (b0 b1 : Option Buf) (s : State) : Res :=
  .next ((s.tick at_).command 0x0203 mb b0 b1 mayOp State.htConfig)

/-- SLOT_MISS (R68, R403). -/
def execSlotMiss (at_ mb : Nat) (b0 b1 : Option Buf) (s : State) : Res :=
  .next ((s.tick at_).command 0x0204 mb b0 b1 mayOpIfSet State.slotMiss)

/-- MEM_STATUS (R177, R404). -/
def execMemStatus (at_ mb : Nat) (b0 b1 : Option Buf) (s : State) : Res :=
  .next ((s.tick at_).command 0x0301 mb b0 b1 mayAny State.memStatus)

/-- ERG_READ (R404). -/
def execErgRead (at_ mb : Nat) (b0 b1 : Option Buf) (s : State) : Res :=
  .next ((s.tick at_).command 0x0302 mb b0 b1 mayOp State.ergReadCmd)

/-- ERG_WRITE (R404). -/
def execErgWrite (at_ mb : Nat) (b0 b1 : Option Buf) (s : State) : Res :=
  .next ((s.tick at_).command 0x0303 mb b0 b1 mayOp State.ergWriteCmd)

/-- ERG_RETIRE_CLEAR (R176). -/
def execErgRetireClear (at_ mb : Nat) (b0 b1 : Option Buf) (s : State) : Res :=
  .next ((s.tick at_).command 0x0304 mb b0 b1 mayOp State.retireClear)

/-- JOB_ARM (R362, R363, R406). -/
def execJobArm (at_ mb : Nat) (b0 b1 : Option Buf) (s : State) : Res :=
  .next ((s.tick at_).command 0x0401 mb b0 b1 mayJbImage State.jobArm)

/-- JOB_STOP (R406). -/
def execJobStop (at_ mb : Nat) (b0 b1 : Option Buf) (s : State) : Res :=
  .next ((s.tick at_).command 0x0402 mb b0 b1 mayJb State.jobStop)

/-- JOB_RESTORE (R408). -/
def execJobRestore (at_ mb : Nat) (b0 b1 : Option Buf) (s : State) : Res :=
  .next ((s.tick at_).command 0x0403 mb b0 b1 mayJb State.jobRestore)

/-- JOB_CHECKPOINT (R409). -/
def execJobCheckpoint (at_ mb : Nat) (b0 b1 : Option Buf) (s : State) : Res :=
  .next ((s.tick at_).command 0x0404 mb b0 b1 mayJb State.jobCheckpoint)

/-- RELAYOUT (R289, R406). -/
def execRelayout (at_ mb : Nat) (b0 b1 : Option Buf) (s : State) : Res :=
  .next ((s.tick at_).command 0x0405 mb b0 b1 mayJb State.relayout)

/-- COMMIT_STATUS (R258). -/
def execCommitStatus (at_ mb : Nat) (b0 b1 : Option Buf) (s : State) : Res :=
  .next ((s.tick at_).command 0x0406 mb b0 b1 mayAny State.commitStatus)

/-- COUNTERS (R406). -/
def execCounters (at_ mb : Nat) (b0 b1 : Option Buf) (s : State) : Res :=
  .next ((s.tick at_).command 0x0407 mb b0 b1 mayAny State.counters)

/-- GUEST_ATTACH (R372, R410). -/
def execGuestAttach (at_ mb : Nat) (b0 b1 : Option Buf) (s : State) : Res :=
  .next ((s.tick at_).command 0x0501 mb b0 b1 mayJbImage State.guestAttach)

/-- GUEST_DETACH (R376, R410). -/
def execGuestDetach (at_ mb : Nat) (b0 b1 : Option Buf) (s : State) : Res :=
  .next ((s.tick at_).command 0x0502 mb b0 b1 mayJbGuest State.guestDetach)

/-- GUEST_STATUS (R410). -/
def execGuestStatus (at_ mb : Nat) (b0 b1 : Option Buf) (s : State) : Res :=
  .next ((s.tick at_).command 0x0503 mb b0 b1 mayAny State.guestStatus)

/-- FAR_CONFIG (R411). -/
def execFarConfig (at_ mb : Nat) (b0 b1 : Option Buf) (s : State) : Res :=
  .next ((s.tick at_).command 0x0601 mb b0 b1 mayOp State.farConfig)

/-- ACX_PARTNER (R412). -/
def execAcxPartner (at_ mb : Nat) (b0 b1 : Option Buf) (s : State) : Res :=
  .next ((s.tick at_).command 0x0602 mb b0 b1 mayOp State.acxPartner)

/-- WEIR_BUDGET (R352). -/
def execWeirBudget (at_ mb : Nat) (b0 b1 : Option Buf) (s : State) : Res :=
  .next ((s.tick at_).command 0x0603 mb b0 b1 mayOp State.weirBudget)

/-- BULK_OPEN (R411). -/
def execBulkOpen (at_ mb : Nat) (b0 b1 : Option Buf) (s : State) : Res :=
  .next ((s.tick at_).command 0x0604 mb b0 b1 mayJb State.bulkOpen)

/-- SESSION_CLOSE (R411). -/
def execSessionClose (at_ mb : Nat) (b0 b1 : Option Buf) (s : State) : Res :=
  .next ((s.tick at_).command 0x0605 mb b0 b1 mayOp State.sessionClose)

/-- ROUND_STATUS (R411). -/
def execRoundStatus (at_ mb : Nat) (b0 b1 : Option Buf) (s : State) : Res :=
  .next ((s.tick at_).command 0x0606 mb b0 b1 mayAny State.roundStatus)

/-- SESSION_STATUS (R358). -/
def execSessionStatus (at_ mb : Nat) (b0 b1 : Option Buf) (s : State) : Res :=
  .next ((s.tick at_).command 0x0607 mb b0 b1 mayAny State.sessionStatus)

/-- FAR_STATUS (R357). -/
def execFarStatus (at_ mb : Nat) (b0 b1 : Option Buf) (s : State) : Res :=
  .next ((s.tick at_).command 0x0608 mb b0 b1 mayAny State.farStatus)

/-- NEAR_STATUS (R293). -/
def execNearStatus (at_ mb : Nat) (b0 b1 : Option Buf) (s : State) : Res :=
  .next ((s.tick at_).command 0x0609 mb b0 b1 mayOpIfSet State.nearStatus)

/-- WATCH_QUERY (R259, R413). -/
def execWatchQuery (at_ mb : Nat) (b0 b1 : Option Buf) (s : State) : Res :=
  .next ((s.tick at_).command 0x0701 mb b0 b1 mayAny State.watchQuery)

/-- SCALE_READ (R413). -/
def execScaleRead (at_ mb : Nat) (b0 b1 : Option Buf) (s : State) : Res :=
  .next ((s.tick at_).command 0x0702 mb b0 b1 mayAny State.scaleRead)

/-- POWER_STATE (R415, R444). -/
def execPowerState (at_ mb : Nat) (b0 b1 : Option Buf) (s : State) : Res :=
  .next ((s.tick at_).command 0x0801 mb b0 b1 mayOp State.powerState)

/-- DOZE_CONFIG (R415). -/
def execDozeConfig (at_ mb : Nat) (b0 b1 : Option Buf) (s : State) : Res :=
  .next ((s.tick at_).command 0x0802 mb b0 b1 mayOp State.dozeConfig)

/-- POWER_CAP (R415, R457). -/
def execPowerCap (at_ mb : Nat) (b0 b1 : Option Buf) (s : State) : Res :=
  .next ((s.tick at_).command 0x0803 mb b0 b1 mayOp State.powerCap)

/-- POWER_READ (R415). -/
def execPowerRead (at_ mb : Nat) (b0 b1 : Option Buf) (s : State) : Res :=
  .next ((s.tick at_).command 0x0804 mb b0 b1 mayAny State.powerReadCmd)

/-- LEDGER_READ (R416). -/
def execLedgerRead (at_ mb : Nat) (b0 b1 : Option Buf) (s : State) : Res :=
  .next ((s.tick at_).command 0x0901 mb b0 b1 mayAny State.ledgerRead)

/-- ATTEST_QUOTE (R478). -/
def execAttestQuote (at_ mb : Nat) (b0 b1 : Option Buf) (s : State) : Res :=
  .next ((s.tick at_).command 0x0902 mb b0 b1 mayAny State.attestQuote)

/-- FW_UPDATE (R416, R432). -/
def execFwUpdate (at_ mb : Nat) (b0 b1 : Option Buf) (s : State) : Res :=
  .next ((s.tick at_).command 0x0903 mb b0 b1 mayFw State.fwUpdate)

/-- OWNER_TRANSFER (R416). -/
def execOwnerTransfer (at_ mb : Nat) (b0 b1 : Option Buf) (s : State) : Res :=
  .next ((s.tick at_).command 0x0904 mb b0 b1 mayOw State.ownerTransfer)

/-- LIFECYCLE_ADVANCE (R416, R467). -/
def execLifecycleAdvance (at_ mb : Nat) (b0 b1 : Option Buf) (s : State) : Res :=
  .next ((s.tick at_).command 0x0905 mb b0 b1 mayLife State.lifecycleAdvance)

/-- DEBUG_ENTER (R417, R473). -/
def execDebugEnter (at_ mb : Nat) (b0 b1 : Option Buf) (s : State) : Res :=
  .next ((s.tick at_).command 0x0A01 mb b0 b1 mayVeOw State.debugEnter)

/-- ACC_READ (R417). -/
def execAccRead (at_ mb : Nat) (b0 b1 : Option Buf) (s : State) : Res :=
  .next ((s.tick at_).command 0x0A02 mb b0 b1 mayVeOw State.accRead)

/-- DEBUG_EXIT (R417). -/
def execDebugExit (at_ mb : Nat) (b0 b1 : Option Buf) (s : State) : Res :=
  .next ((s.tick at_).command 0x0A03 mb b0 b1 mayAny State.debugExit)

/-- LOOPBACK (R418, R496). -/
def execLoopback (at_ mb : Nat) (b0 b1 : Option Buf) (s : State) : Res :=
  .next ((s.tick at_).command 0x0B01 mb b0 b1 mayOp State.loopbackCmd)

/-- MBIST (R418, R498). -/
def execMbist (at_ mb : Nat) (b0 b1 : Option Buf) (s : State) : Res :=
  .next ((s.tick at_).command 0x0B02 mb b0 b1 mayOp State.mbistCmd)

/-- EVENT_MASK (R418). -/
def execEventMask (at_ mb : Nat) (b0 b1 : Option Buf) (s : State) : Res :=
  .next ((s.tick at_).command 0x0C01 mb b0 b1 mayOp State.eventMask)

/-- EVENT_MASK_READ (R418). -/
def execEventMaskRead (at_ mb : Nat) (b0 b1 : Option Buf) (s : State) : Res :=
  .next ((s.tick at_).command 0x0C02 mb b0 b1 mayAny State.eventMaskRead)

/-! ### Completions -/

/-- The kernel that an ACC_READ of mailbox `mb` held goes on once the command is answered (R110, log entry 140). -/
def State.releaseAcc (s : State) (mb : Nat) : State :=
  if s.cores.any fun c => c.2.accHold = some mb then
    { s with cores := tmap Core.reset (fun c => if c.accHold = some mb then { c with accHold := none } else c) s.cores }
  else s

/-- COMPLETION_WRITE (R388, R392): the next completion of a mailbox; the chain mailbox answers in a CPL frame (R431). -/
def State.completion (s : State) (mb : Nat) : State :=
  let s := s.releaseAcc mb
  if mb = 16 then s.chainComplete else s.complete mb

@[inherit_doc State.completion]
def execCompletionWrite (at_ mb : Nat) (s : State) : Res := .next ((s.tick at_).completion mb)

end Sys2Proof.Machine
end

