-- ==== Sys2Proof/Machine/Dispatch.lean ====
section
/-! DEFINITION. Dispatch: one arm for each constructor of `Instr`, one direct call of its meaning. -/

namespace Sys2Proof.Machine

def exec (i : Instr) (s : State) : Host.Outcome State Fault Refusal :=
  match i with
  | .devInfo at_ mb b0 b1 => Sys2Proof.Machine.execDevInfo at_ mb b0 b1 s
  | .roleChallenge at_ mb b0 b1 => Sys2Proof.Machine.execRoleChallenge at_ mb b0 b1 s
  | .roleBind at_ mb b0 b1 => Sys2Proof.Machine.execRoleBind at_ mb b0 b1 s
  | .bgQuery at_ mb b0 b1 => Sys2Proof.Machine.execBgQuery at_ mb b0 b1 s
  | .htQuery at_ mb b0 b1 => Sys2Proof.Machine.execHtQuery at_ mb b0 b1 s
  | .htSet at_ mb b0 b1 => Sys2Proof.Machine.execHtSet at_ mb b0 b1 s
  | .htConfig at_ mb b0 b1 => Sys2Proof.Machine.execHtConfig at_ mb b0 b1 s
  | .slotMiss at_ mb b0 b1 => Sys2Proof.Machine.execSlotMiss at_ mb b0 b1 s
  | .memStatus at_ mb b0 b1 => Sys2Proof.Machine.execMemStatus at_ mb b0 b1 s
  | .ergRead at_ mb b0 b1 => Sys2Proof.Machine.execErgRead at_ mb b0 b1 s
  | .ergWrite at_ mb b0 b1 => Sys2Proof.Machine.execErgWrite at_ mb b0 b1 s
  | .ergRetireClear at_ mb b0 b1 => Sys2Proof.Machine.execErgRetireClear at_ mb b0 b1 s
  | .jobArm at_ mb b0 b1 => Sys2Proof.Machine.execJobArm at_ mb b0 b1 s
  | .jobStop at_ mb b0 b1 => Sys2Proof.Machine.execJobStop at_ mb b0 b1 s
  | .jobRestore at_ mb b0 b1 => Sys2Proof.Machine.execJobRestore at_ mb b0 b1 s
  | .jobCheckpoint at_ mb b0 b1 => Sys2Proof.Machine.execJobCheckpoint at_ mb b0 b1 s
  | .relayout at_ mb b0 b1 => Sys2Proof.Machine.execRelayout at_ mb b0 b1 s
  | .commitStatus at_ mb b0 b1 => Sys2Proof.Machine.execCommitStatus at_ mb b0 b1 s
  | .counters at_ mb b0 b1 => Sys2Proof.Machine.execCounters at_ mb b0 b1 s
  | .guestAttach at_ mb b0 b1 => Sys2Proof.Machine.execGuestAttach at_ mb b0 b1 s
  | .guestDetach at_ mb b0 b1 => Sys2Proof.Machine.execGuestDetach at_ mb b0 b1 s
  | .guestStatus at_ mb b0 b1 => Sys2Proof.Machine.execGuestStatus at_ mb b0 b1 s
  | .farConfig at_ mb b0 b1 => Sys2Proof.Machine.execFarConfig at_ mb b0 b1 s
  | .acxPartner at_ mb b0 b1 => Sys2Proof.Machine.execAcxPartner at_ mb b0 b1 s
  | .weirBudget at_ mb b0 b1 => Sys2Proof.Machine.execWeirBudget at_ mb b0 b1 s
  | .bulkOpen at_ mb b0 b1 => Sys2Proof.Machine.execBulkOpen at_ mb b0 b1 s
  | .sessionClose at_ mb b0 b1 => Sys2Proof.Machine.execSessionClose at_ mb b0 b1 s
  | .roundStatus at_ mb b0 b1 => Sys2Proof.Machine.execRoundStatus at_ mb b0 b1 s
  | .sessionStatus at_ mb b0 b1 => Sys2Proof.Machine.execSessionStatus at_ mb b0 b1 s
  | .farStatus at_ mb b0 b1 => Sys2Proof.Machine.execFarStatus at_ mb b0 b1 s
  | .nearStatus at_ mb b0 b1 => Sys2Proof.Machine.execNearStatus at_ mb b0 b1 s
  | .watchQuery at_ mb b0 b1 => Sys2Proof.Machine.execWatchQuery at_ mb b0 b1 s
  | .scaleRead at_ mb b0 b1 => Sys2Proof.Machine.execScaleRead at_ mb b0 b1 s
  | .powerState at_ mb b0 b1 => Sys2Proof.Machine.execPowerState at_ mb b0 b1 s
  | .dozeConfig at_ mb b0 b1 => Sys2Proof.Machine.execDozeConfig at_ mb b0 b1 s
  | .powerCap at_ mb b0 b1 => Sys2Proof.Machine.execPowerCap at_ mb b0 b1 s
  | .powerRead at_ mb b0 b1 => Sys2Proof.Machine.execPowerRead at_ mb b0 b1 s
  | .ledgerRead at_ mb b0 b1 => Sys2Proof.Machine.execLedgerRead at_ mb b0 b1 s
  | .attestQuote at_ mb b0 b1 => Sys2Proof.Machine.execAttestQuote at_ mb b0 b1 s
  | .fwUpdate at_ mb b0 b1 => Sys2Proof.Machine.execFwUpdate at_ mb b0 b1 s
  | .ownerTransfer at_ mb b0 b1 => Sys2Proof.Machine.execOwnerTransfer at_ mb b0 b1 s
  | .lifecycleAdvance at_ mb b0 b1 => Sys2Proof.Machine.execLifecycleAdvance at_ mb b0 b1 s
  | .debugEnter at_ mb b0 b1 => Sys2Proof.Machine.execDebugEnter at_ mb b0 b1 s
  | .accRead at_ mb b0 b1 => Sys2Proof.Machine.execAccRead at_ mb b0 b1 s
  | .debugExit at_ mb b0 b1 => Sys2Proof.Machine.execDebugExit at_ mb b0 b1 s
  | .loopback at_ mb b0 b1 => Sys2Proof.Machine.execLoopback at_ mb b0 b1 s
  | .mbist at_ mb b0 b1 => Sys2Proof.Machine.execMbist at_ mb b0 b1 s
  | .eventMask at_ mb b0 b1 => Sys2Proof.Machine.execEventMask at_ mb b0 b1 s
  | .eventMaskRead at_ mb b0 b1 => Sys2Proof.Machine.execEventMaskRead at_ mb b0 b1 s
  | .bgCommandComplete at_ opcode res => Sys2Proof.Machine.execBgCommandComplete at_ opcode res s
  | .mbDoorbell at_ mb tail => Sys2Proof.Machine.execMbDoorbell at_ mb tail s
  | .mbCplHead at_ mb head => Sys2Proof.Machine.execMbCplHead at_ mb head s
  | .mbEnableSet at_ mb => Sys2Proof.Machine.execMbEnableSet at_ mb s
  | .mbEnableClear at_ mb => Sys2Proof.Machine.execMbEnableClear at_ mb s
  | .evRingEnable at_ value => Sys2Proof.Machine.execEvRingEnable at_ value s
  | .htSnapTrigger at_ => Sys2Proof.Machine.execHtSnapTrigger at_ s
  | .registerWrite at_ off width value => Sys2Proof.Machine.execRegisterWrite at_ off width value s
  | .mbFetch at_ mb entry => Sys2Proof.Machine.execMbFetch at_ mb entry s
  | .completionWrite at_ mb => Sys2Proof.Machine.execCompletionWrite at_ mb s
  | .doorbellStuck at_ mb => Sys2Proof.Machine.execDoorbellStuck at_ mb s
  | .functionLevelReset at_ => Sys2Proof.Machine.execFunctionLevelReset at_ s
  | .d3hotEntry at_ => Sys2Proof.Machine.execD3hotEntry at_ s
  | .busMasterClear at_ => Sys2Proof.Machine.execBusMasterClear at_ s
  | .pcieLinkLoss at_ => Sys2Proof.Machine.execPcieLinkLoss at_ s
  | .eventIrqHoldoff at_ => Sys2Proof.Machine.execEventIrqHoldoff at_ s
  | .powerOnReset at_ valid => Sys2Proof.Machine.execPowerOnReset at_ valid s
  | .rstN at_ lowNs high => Sys2Proof.Machine.execRstN at_ lowNs high s
  | .perstN at_ lowNs => Sys2Proof.Machine.execPerstN at_ lowNs s
  | .watchdog at_ => Sys2Proof.Machine.execWatchdog at_ s
  | .thermalTrip at_ die temp => Sys2Proof.Machine.execThermalTrip at_ die temp s
  | .resetRelease at_ rstHigh boot timeRoot chainHead pufOk => Sys2Proof.Machine.execResetRelease at_ rstHigh boot timeRoot chainHead pufOk s
  | .rilsetiReady at_ => Sys2Proof.Machine.execRilsetiReady at_ s
  | .ergBringup at_ dimms => Sys2Proof.Machine.execErgBringup at_ dimms s
  | .railPowerGood at_ order => Sys2Proof.Machine.execRailPowerGood at_ order s
  | .enumFrame at_ frame => Sys2Proof.Machine.execEnumFrame at_ frame s
  | .enumWalkTimer at_ => Sys2Proof.Machine.execEnumWalkTimer at_ s
  | .chainForward at_ frame => Sys2Proof.Machine.execChainForward at_ frame s
  | .cold at_ frame => Sys2Proof.Machine.execCold at_ frame s
  | .warm at_ frame => Sys2Proof.Machine.execWarm at_ frame s
  | .attn at_ frame => Sys2Proof.Machine.execAttn at_ frame s
  | .chainAttnStuck at_ => Sys2Proof.Machine.execChainAttnStuck at_ s
  | .cmd at_ frame => Sys2Proof.Machine.execCmd at_ frame s
  | .telemReq at_ frame => Sys2Proof.Machine.execTelemReq at_ frame s
  | .dozeCfg at_ frame => Sys2Proof.Machine.execDozeCfg at_ frame s
  | .fwdata at_ frame => Sys2Proof.Machine.execFwdata at_ frame s
  | .htInPulse at_ highNs skewPs => Sys2Proof.Machine.execHtInPulse at_ highNs skewPs s
  | .htInStuck at_ => Sys2Proof.Machine.execHtInStuck at_ s
  | .htSetTimeout at_ => Sys2Proof.Machine.execHtSetTimeout at_ s
  | .timingSymbolSend at_ row => Sys2Proof.Machine.execTimingSymbolSend at_ row s
  | .timingSymbolRx at_ port sym => Sys2Proof.Machine.execTimingSymbolRx at_ port sym s
  | .htSourceLossTimeout at_ => Sys2Proof.Machine.execHtSourceLossTimeout at_ s
  | .htLost at_ => Sys2Proof.Machine.execHtLost at_ s
  | .stepStart at_ => Sys2Proof.Machine.execStepStart at_ s
  | .kernelStart at_ entry => Sys2Proof.Machine.execKernelStart at_ entry s
  | .openGuestBubble at_ entry => Sys2Proof.Machine.execOpenGuestBubble at_ entry s
  | .closeGuestBubble at_ entry => Sys2Proof.Machine.execCloseGuestBubble at_ entry s
  | .updatePassStart at_ entry => Sys2Proof.Machine.execUpdatePassStart at_ entry s
  | .passComplete at_ die => Sys2Proof.Machine.execPassComplete at_ die s
  | .runTransferList at_ entry => Sys2Proof.Machine.execRunTransferList at_ entry s
  | .transferListComplete at_ die => Sys2Proof.Machine.execTransferListComplete at_ die s
  | .openScheduledWindow at_ entry => Sys2Proof.Machine.execOpenScheduledWindow at_ entry s
  | .ergWindowEnd at_ ch => Sys2Proof.Machine.execErgWindowEnd at_ ch s
  | .refreshNormalRate at_ entry => Sys2Proof.Machine.execRefreshNormalRate at_ entry s
  | .refreshHighRate at_ entry => Sys2Proof.Machine.execRefreshHighRate at_ entry s
  | .ergRefreshAon at_ ch => Sys2Proof.Machine.execErgRefreshAon at_ ch s
  | .ergLineRead at_ ch user upset => Sys2Proof.Machine.execErgLineRead at_ ch user upset s
  | .ergLineWrite at_ ch user => Sys2Proof.Machine.execErgLineWrite at_ ch user s
  | .pageRetireCopyDone at_ ch => Sys2Proof.Machine.execPageRetireCopyDone at_ ch s
  | .ergThermalSample at_ ch tenths => Sys2Proof.Machine.execErgThermalSample at_ ch tenths s
  | .ergScrubLate at_ ch => Sys2Proof.Machine.execErgScrubLate at_ ch s
  | .oasisScrub at_ die addr upset => Sys2Proof.Machine.execOasisScrub at_ die addr upset s
  | .sramWriteback at_ core addr => Sys2Proof.Machine.execSramWriteback at_ core addr s
  | .sendPlannedBlock at_ entry gather => Sys2Proof.Machine.execSendPlannedBlock at_ entry gather s
  | .receivePlannedBlock at_ entry => Sys2Proof.Machine.execReceivePlannedBlock at_ entry s
  | .openTxWindow at_ entry => Sys2Proof.Machine.execOpenTxWindow at_ entry s
  | .openRxWindow at_ entry => Sys2Proof.Machine.execOpenRxWindow at_ entry s
  | .runSlice at_ entry => Sys2Proof.Machine.execRunSlice at_ entry s
  | .acrixIdleSlice at_ port => Sys2Proof.Machine.execAcrixIdleSlice at_ port s
  | .acrixEncodeComplete at_ frag => Sys2Proof.Machine.execAcrixEncodeComplete at_ frag s
  | .snapshotShiftComplete at_ frag => Sys2Proof.Machine.execSnapshotShiftComplete at_ frag s
  | .startVerdictFlood at_ entry => Sys2Proof.Machine.execStartVerdictFlood at_ entry s
  | .floodResult at_ record => Sys2Proof.Machine.execFloodResult at_ record s
  | .commitPoint at_ entry => Sys2Proof.Machine.execCommitPoint at_ entry s
  | .roundUnobtainable at_ frag => Sys2Proof.Machine.execRoundUnobtainable at_ frag s
  | .catchupSlot at_ entry gathers => Sys2Proof.Machine.execCatchupSlot at_ entry gathers s
  | .guardBandExpiry at_ entry => Sys2Proof.Machine.execGuardBandExpiry at_ entry s
  | .soSignal at_ so step skip => Sys2Proof.Machine.execSoSignal at_ so step skip s
  | .mbCutoff at_ mbatch => Sys2Proof.Machine.execMbCutoff at_ mbatch s
  | .carryComplete at_ mbatch => Sys2Proof.Machine.execCarryComplete at_ mbatch s
  | .mirrorCopyComplete at_ => Sys2Proof.Machine.execMirrorCopyComplete at_ s
  | .ckptLocalDone at_ => Sys2Proof.Machine.execCkptLocalDone at_ s
  | .itemIssue at_ core => Sys2Proof.Machine.execItemIssue at_ core s
  | .matrixDescriptor at_ row => Sys2Proof.Machine.execMatrixDescriptor at_ row s
  | .accumulationComplete at_ core tile => Sys2Proof.Machine.execAccumulationComplete at_ core tile s
  | .drainStart at_ row tile => Sys2Proof.Machine.execDrainStart at_ row tile s
  | .drainComplete at_ core => Sys2Proof.Machine.execDrainComplete at_ core s
  | .coreDmaDescriptor at_ row => Sys2Proof.Machine.execCoreDmaDescriptor at_ row s
  | .coreDmaFinish at_ core => Sys2Proof.Machine.execCoreDmaFinish at_ core s
  | .vectorBlock at_ core => Sys2Proof.Machine.execVectorBlock at_ core s
  | .vectorBlockFinish at_ core => Sys2Proof.Machine.execVectorBlockFinish at_ core s
  | .kernelEnd at_ core => Sys2Proof.Machine.execKernelEnd at_ core s
  | .kernelComplete at_ core => Sys2Proof.Machine.execKernelComplete at_ core s
  | .kernelWaitFault at_ core => Sys2Proof.Machine.execKernelWaitFault at_ core s
  | .guestTileBoundary at_ core => Sys2Proof.Machine.execGuestTileBoundary at_ core s
  | .vadd at_ core f => Sys2Proof.Machine.execVadd at_ core f s
  | .vsub at_ core f => Sys2Proof.Machine.execVsub at_ core f s
  | .vmul at_ core f => Sys2Proof.Machine.execVmul at_ core f s
  | .vfma at_ core f => Sys2Proof.Machine.execVfma at_ core f s
  | .vmax at_ core f => Sys2Proof.Machine.execVmax at_ core f s
  | .vmin at_ core f => Sys2Proof.Machine.execVmin at_ core f s
  | .vabs at_ core f => Sys2Proof.Machine.execVabs at_ core f s
  | .vneg at_ core f => Sys2Proof.Machine.execVneg at_ core f s
  | .vcmplt at_ core f => Sys2Proof.Machine.execVcmplt at_ core f s
  | .vcmple at_ core f => Sys2Proof.Machine.execVcmple at_ core f s
  | .vcmpeq at_ core f => Sys2Proof.Machine.execVcmpeq at_ core f s
  | .vsel at_ core f => Sys2Proof.Machine.execVsel at_ core f s
  | .vrcp at_ core f => Sys2Proof.Machine.execVrcp at_ core f s
  | .vrsq at_ core f => Sys2Proof.Machine.execVrsq at_ core f s
  | .vexp2 at_ core f => Sys2Proof.Machine.execVexp2 at_ core f s
  | .vlog2 at_ core f => Sys2Proof.Machine.execVlog2 at_ core f s
  | .vcvt at_ core f => Sys2Proof.Machine.execVcvt at_ core f s
  | .vqmx at_ core f => Sys2Proof.Machine.execVqmx at_ core f s
  | .viadd at_ core f => Sys2Proof.Machine.execViadd at_ core f s
  | .visub at_ core f => Sys2Proof.Machine.execVisub at_ core f s
  | .vimul at_ core f => Sys2Proof.Machine.execVimul at_ core f s
  | .vand at_ core f => Sys2Proof.Machine.execVand at_ core f s
  | .vor at_ core f => Sys2Proof.Machine.execVor at_ core f s
  | .vxor at_ core f => Sys2Proof.Machine.execVxor at_ core f s
  | .vshl at_ core f => Sys2Proof.Machine.execVshl at_ core f s
  | .vshr at_ core f => Sys2Proof.Machine.execVshr at_ core f s
  | .vsra at_ core f => Sys2Proof.Machine.execVsra at_ core f s
  | .vmovi at_ core f => Sys2Proof.Machine.execVmovi at_ core f s
  | .vperm at_ core f => Sys2Proof.Machine.execVperm at_ core f s
  | .vrot at_ core f => Sys2Proof.Machine.execVrot at_ core f s
  | .vbcast at_ core f => Sys2Proof.Machine.execVbcast at_ core f s
  | .vld at_ core f => Sys2Proof.Machine.execVld at_ core f s
  | .vst at_ core f => Sys2Proof.Machine.execVst at_ core f s
  | .vldt at_ core f => Sys2Proof.Machine.execVldt at_ core f s
  | .vstt at_ core f => Sys2Proof.Machine.execVstt at_ core f s
  | .rclr at_ core f => Sys2Proof.Machine.execRclr at_ core f s
  | .radd at_ core f => Sys2Proof.Machine.execRadd at_ core f s
  | .rsq at_ core f => Sys2Proof.Machine.execRsq at_ core f s
  | .rget at_ core f => Sys2Proof.Machine.execRget at_ core f s
  | .rstx at_ core f => Sys2Proof.Machine.execRstx at_ core f s
  | .rldx at_ core f => Sys2Proof.Machine.execRldx at_ core f s
  | .vrng at_ core f => Sys2Proof.Machine.execVrng at_ core f s
  | .vwait at_ core f => Sys2Proof.Machine.execVwait at_ core f s
  | .vsig at_ core f => Sys2Proof.Machine.execVsig at_ core f s
  | .vnop at_ core f => Sys2Proof.Machine.execVnop at_ core f s
  | .poolBlockArrival at_ die block => Sys2Proof.Machine.execPoolBlockArrival at_ die block s
  | .spillwayAppendComplete at_ die => Sys2Proof.Machine.execSpillwayAppendComplete at_ die s
  | .linkFrameStart at_ row => Sys2Proof.Machine.execLinkFrameStart at_ row s
  | .controlSlot at_ port => Sys2Proof.Machine.execControlSlot at_ port s
  | .schedFlitRx at_ port flit => Sys2Proof.Machine.execSchedFlitRx at_ port flit s
  | .skipFlitRx at_ port flit => Sys2Proof.Machine.execSkipFlitRx at_ port flit s
  | .ctrlFlitRx at_ port flit => Sys2Proof.Machine.execCtrlFlitRx at_ port flit s
  | .openFlitRx at_ port flit => Sys2Proof.Machine.execOpenFlitRx at_ port flit s
  | .flitLost at_ port lanes flit => Sys2Proof.Machine.execFlitLost at_ port lanes flit s
  | .openFlitSend at_ port vc lane => Sys2Proof.Machine.execOpenFlitSend at_ port vc lane s
  | .receiveBlockComplete at_ port block => Sys2Proof.Machine.execReceiveBlockComplete at_ port block s
  | .receiveHoldEnd at_ port block => Sys2Proof.Machine.execReceiveHoldEnd at_ port block s
  | .linkSignalDetect at_ port => Sys2Proof.Machine.execLinkSignalDetect at_ port s
  | .linkTrainSlot at_ port => Sys2Proof.Machine.execLinkTrainSlot at_ port s
  | .linkTrainRequest at_ port => Sys2Proof.Machine.execLinkTrainRequest at_ port s
  | .linkTrainingDone at_ port lanes => Sys2Proof.Machine.execLinkTrainingDone at_ port lanes s
  | .linkDown at_ port => Sys2Proof.Machine.execLinkDown at_ port s
  | .linkRetrainTimeout at_ port => Sys2Proof.Machine.execLinkRetrainTimeout at_ port s
  | .linksLate at_ port => Sys2Proof.Machine.execLinksLate at_ port s
  | .neighbourNotice at_ port jobId cw epoch => Sys2Proof.Machine.execNeighbourNotice at_ port jobId cw epoch s
  | .restart at_ port notice => Sys2Proof.Machine.execRestart at_ port notice s
  | .restartWarmReset at_ => Sys2Proof.Machine.execRestartWarmReset at_ s
  | .restartRearm at_ => Sys2Proof.Machine.execRestartRearm at_ s
  | .ckpt at_ port notice => Sys2Proof.Machine.execCkpt at_ port notice s
  | .restartLoadDone at_ => Sys2Proof.Machine.execRestartLoadDone at_ s
  | .ready at_ port notice => Sys2Proof.Machine.execReady at_ port notice s
  | .restartFailed at_ => Sys2Proof.Machine.execRestartFailed at_ s
  | .digest at_ port notice => Sys2Proof.Machine.execDigest at_ port notice s
  | .replicaRepairMessage at_ port msg => Sys2Proof.Machine.execReplicaRepairMessage at_ port msg s
  | .dataDatagramRx at_ port route dg => Sys2Proof.Machine.execDataDatagramRx at_ port route dg s
  | .manifestRx at_ port route dg => Sys2Proof.Machine.execManifestRx at_ port route dg s
  | .roundSum at_ frag => Sys2Proof.Machine.execRoundSum at_ frag s
  | .digestRx at_ port route dg => Sys2Proof.Machine.execDigestRx at_ port route dg s
  | .noticeRx at_ port route dg => Sys2Proof.Machine.execNoticeRx at_ port route dg s
  | .requestRx at_ port route dg => Sys2Proof.Machine.execRequestRx at_ port route dg s
  | .ackRx at_ port route dg => Sys2Proof.Machine.execAckRx at_ port route dg s
  | .heartbeatRx at_ port route dg => Sys2Proof.Machine.execHeartbeatRx at_ port route dg s
  | .bulkRx at_ port route dg => Sys2Proof.Machine.execBulkRx at_ port route dg s
  | .closeRx at_ port route dg => Sys2Proof.Machine.execCloseRx at_ port route dg s
  | .initRx at_ port route payload => Sys2Proof.Machine.execInitRx at_ port route payload s
  | .acceptRx at_ port route payload => Sys2Proof.Machine.execAcceptRx at_ port route payload s
  | .foreignFrame at_ port route frame => Sys2Proof.Machine.execForeignFrame at_ port route frame s
  | .neighborSolicitation at_ port route frame => Sys2Proof.Machine.execNeighborSolicitation at_ port route frame s
  | .initRetry at_ sess => Sys2Proof.Machine.execInitRetry at_ sess s
  | .ackTimer at_ sess => Sys2Proof.Machine.execAckTimer at_ sess s
  | .heartbeatTimer at_ sess => Sys2Proof.Machine.execHeartbeatTimer at_ sess s
  | .rtoExpiry at_ sess seq => Sys2Proof.Machine.execRtoExpiry at_ sess seq s
  | .datagramTransmit at_ sess => Sys2Proof.Machine.execDatagramTransmit at_ sess s
  | .routeFail at_ sess route signalLost => Sys2Proof.Machine.execRouteFail at_ sess route signalLost s
  | .sessionTimeout at_ sess => Sys2Proof.Machine.execSessionTimeout at_ sess s
  | .acxKeyRatchet at_ sess => Sys2Proof.Machine.execAcxKeyRatchet at_ sess s
  | .keyHoldExpiry at_ sess => Sys2Proof.Machine.execKeyHoldExpiry at_ sess s
  | .weirBudgetEffective at_ target => Sys2Proof.Machine.execWeirBudgetEffective at_ target s
  | .bootstrapDone at_ frag => Sys2Proof.Machine.execBootstrapDone at_ frag s
  | .dozeSample at_ inp => Sys2Proof.Machine.execDozeSample at_ inp s
  | .powerEntryComplete at_ => Sys2Proof.Machine.execPowerEntryComplete at_ s
  | .pmAlert at_ statuses => Sys2Proof.Machine.execPmAlert at_ statuses s
  | .railAlertStuck at_ => Sys2Proof.Machine.execRailAlertStuck at_ s
  | .powerSample at_ milliwatts => Sys2Proof.Machine.execPowerSample at_ milliwatts s
  | .avsUpdate at_ die millivolts => Sys2Proof.Machine.execAvsUpdate at_ die millivolts s
  | .droopDetect at_ die => Sys2Proof.Machine.execDroopDetect at_ die s
  | .droopRecover at_ die => Sys2Proof.Machine.execDroopRecover at_ die s
  | .dieTemperatureChange at_ die temp => Sys2Proof.Machine.execDieTemperatureChange at_ die temp s
  | .bscanInstruction at_ ins => Sys2Proof.Machine.execBscanInstruction at_ ins s
  | .optionLoadingComplete at_ => Sys2Proof.Machine.execOptionLoadingComplete at_ s
  | .linkTrainingFailed at_ port => Sys2Proof.Machine.execLinkTrainingFailed at_ port s
  | .linkSignalLoss at_ port => Sys2Proof.Machine.execLinkSignalLoss at_ port s
  | .footprintEnd at_ entry => Sys2Proof.Machine.execFootprintEnd at_ entry s
  | .farRouteLinkUp at_ port route => Sys2Proof.Machine.execFarRouteLinkUp at_ port route s

end Sys2Proof.Machine
end

