-- ==== Sys2Proof/WellFormed.lean ====
section
/-! DEFINITION. Well-formed commands: every operand within the range that its width, or the number of units it names, allows.
Operands are the model's (log entry 2); an ill-formed command is one that no sender can send and no event can bring. -/

namespace Sys2Proof

/-- A byte string holds no more than its length. -/
def Buf.wf (b : Buf) : Bool := decide (b.val < 256 ^ b.len)

/-- A byte string that may be absent. -/
def optWf (b : Option Buf) : Bool :=
  match b with
  | none => true
  | some b => b.wf

/-- The fields of a vector instruction word within their widths (R127). -/
def VFields.wf (f : VFields) : Bool :=
  decide (f.vd < 32) && decide (f.va < 32) && decide (f.vb < 32) && decide (f.ty < 8) && decide (f.msk < 8) && decide (f.imm < 2 ^ 32)

/-- A disturbed symbol: codewords of a line number eight, symbols of a codeword ten (R164). -/
def Upset.wf (u : Upset) : Bool := decide (u.codeword < 8) && decide (u.symbol < 10)

/-- A disturbance names a word that the device has (R70, R105, R145) and one of its symbols. -/
def Strike.wf (u : Strike) : Bool :=
  decide (u.symbol < 10) &&
    match u.place with
    | .scratch core word => decide (core < 128) && decide (word < 786432)
    | .basin core tile acc word => decide (core < 128) && decide (tile < 2) && decide (acc < 9216) && decide (word < 10)
    | .oasis word => decide (word < 402653184)

/-- A core of the device, and disturbances of words that it has. -/
def CoreRow.wf (r : CoreRow) : Bool := decide (r.core < 128) && r.strikes.all Strike.wf

/-- The fields of a timing symbol within their widths (R36). -/
def TimingSymbol.wf (y : TimingSymbol) : Bool :=
  decide (y.depart < 2 ^ 80) && decide (y.echo < 2 ^ 80) && decide (y.turnaround < 2 ^ 32) && decide (y.state < 8)
    && decide (y.hops < 2 ^ 8) && decide (y.epochTag < 2 ^ 16) && decide (y.arriveFrac < 2 ^ 16)

/-- Every operand of a command is in range. -/
def Instr.wf (i : Instr) : Bool :=
  match i with
  | .devInfo _ mb b0 b1 => decide (mb < 17) && optWf b0 && optWf b1
  | .roleChallenge _ mb b0 b1 => decide (mb < 17) && optWf b0 && optWf b1
  | .roleBind _ mb b0 b1 => decide (mb < 17) && optWf b0 && optWf b1
  | .bgQuery _ mb b0 b1 => decide (mb < 17) && optWf b0 && optWf b1
  | .htQuery _ mb b0 b1 => decide (mb < 17) && optWf b0 && optWf b1
  | .htSet _ mb b0 b1 => decide (mb < 17) && optWf b0 && optWf b1
  | .htConfig _ mb b0 b1 => decide (mb < 17) && optWf b0 && optWf b1
  | .slotMiss _ mb b0 b1 => decide (mb < 17) && optWf b0 && optWf b1
  | .memStatus _ mb b0 b1 => decide (mb < 17) && optWf b0 && optWf b1
  | .ergRead _ mb b0 b1 => decide (mb < 17) && optWf b0 && optWf b1
  | .ergWrite _ mb b0 b1 => decide (mb < 17) && optWf b0 && optWf b1
  | .ergRetireClear _ mb b0 b1 => decide (mb < 17) && optWf b0 && optWf b1
  | .jobArm _ mb b0 b1 => decide (mb < 17) && optWf b0 && optWf b1
  | .jobStop _ mb b0 b1 => decide (mb < 17) && optWf b0 && optWf b1
  | .jobRestore _ mb b0 b1 => decide (mb < 17) && optWf b0 && optWf b1
  | .jobCheckpoint _ mb b0 b1 => decide (mb < 17) && optWf b0 && optWf b1
  | .relayout _ mb b0 b1 => decide (mb < 17) && optWf b0 && optWf b1
  | .commitStatus _ mb b0 b1 => decide (mb < 17) && optWf b0 && optWf b1
  | .counters _ mb b0 b1 => decide (mb < 17) && optWf b0 && optWf b1
  | .guestAttach _ mb b0 b1 => decide (mb < 17) && optWf b0 && optWf b1
  | .guestDetach _ mb b0 b1 => decide (mb < 17) && optWf b0 && optWf b1
  | .guestStatus _ mb b0 b1 => decide (mb < 17) && optWf b0 && optWf b1
  | .farConfig _ mb b0 b1 => decide (mb < 17) && optWf b0 && optWf b1
  | .acxPartner _ mb b0 b1 => decide (mb < 17) && optWf b0 && optWf b1
  | .weirBudget _ mb b0 b1 => decide (mb < 17) && optWf b0 && optWf b1
  | .bulkOpen _ mb b0 b1 => decide (mb < 17) && optWf b0 && optWf b1
  | .sessionClose _ mb b0 b1 => decide (mb < 17) && optWf b0 && optWf b1
  | .roundStatus _ mb b0 b1 => decide (mb < 17) && optWf b0 && optWf b1
  | .sessionStatus _ mb b0 b1 => decide (mb < 17) && optWf b0 && optWf b1
  | .farStatus _ mb b0 b1 => decide (mb < 17) && optWf b0 && optWf b1
  | .nearStatus _ mb b0 b1 => decide (mb < 17) && optWf b0 && optWf b1
  | .watchQuery _ mb b0 b1 => decide (mb < 17) && optWf b0 && optWf b1
  | .scaleRead _ mb b0 b1 => decide (mb < 17) && optWf b0 && optWf b1
  | .powerState _ mb b0 b1 => decide (mb < 17) && optWf b0 && optWf b1
  | .dozeConfig _ mb b0 b1 => decide (mb < 17) && optWf b0 && optWf b1
  | .powerCap _ mb b0 b1 => decide (mb < 17) && optWf b0 && optWf b1
  | .powerRead _ mb b0 b1 => decide (mb < 17) && optWf b0 && optWf b1
  | .ledgerRead _ mb b0 b1 => decide (mb < 17) && optWf b0 && optWf b1
  | .attestQuote _ mb b0 b1 => decide (mb < 17) && optWf b0 && optWf b1
  | .fwUpdate _ mb b0 b1 => decide (mb < 17) && optWf b0 && optWf b1
  | .ownerTransfer _ mb b0 b1 => decide (mb < 17) && optWf b0 && optWf b1
  | .lifecycleAdvance _ mb b0 b1 => decide (mb < 17) && optWf b0 && optWf b1
  | .debugEnter _ mb b0 b1 => decide (mb < 17) && optWf b0 && optWf b1
  | .accRead _ mb b0 b1 => decide (mb < 17) && optWf b0 && optWf b1
  | .debugExit _ mb b0 b1 => decide (mb < 17) && optWf b0 && optWf b1
  | .loopback _ mb b0 b1 => decide (mb < 17) && optWf b0 && optWf b1
  | .mbist _ mb b0 b1 => decide (mb < 17) && optWf b0 && optWf b1
  | .eventMask _ mb b0 b1 => decide (mb < 17) && optWf b0 && optWf b1
  | .eventMaskRead _ mb b0 b1 => decide (mb < 17) && optWf b0 && optWf b1
  | .bgCommandComplete _ opcode res => decide (opcode < 2 ^ 16) && res.data.wf
  | .mbDoorbell _ mb tail => decide (mb < 16) && decide (tail < 2 ^ 16)
  | .mbCplHead _ mb head => decide (mb < 16) && decide (head < 2 ^ 16)
  | .mbEnableSet _ mb => decide (mb < 16)
  | .mbEnableClear _ mb => decide (mb < 16)
  | .evRingEnable _ value => decide (value < 2 ^ 32)
  | .htSnapTrigger _ => true
  | .registerWrite _ off width value => decide (width ≤ 8) && decide (value < 256 ^ width) && decide (off + width ≤ 0x10000)
  | .mbFetch _ mb entry => decide (mb < 17) && optWf entry
  | .completionWrite _ mb => decide (mb < 17)
  | .doorbellStuck _ mb => decide (mb < 16)
  | .functionLevelReset _ => true
  | .d3hotEntry _ => true
  | .busMasterClear _ => true
  | .pcieLinkLoss _ => true
  | .eventIrqHoldoff _ => true
  | .powerOnReset _ _ => true
  | .rstN _ _ _ => true
  | .perstN _ _ => true
  | .watchdog _ => true
  | .thermalTrip _ die _ => decide (die < 10)
  | .resetRelease _ _ _ _ _ _ => true
  | .rilsetiReady _ => true
  | .ergBringup _ dimms => decide (dimms.length = 32)
  | .railPowerGood _ order => decide (order < 16)
  | .enumFrame _ frame => frame.wf
  | .enumWalkTimer _ => true
  | .chainForward _ frame => frame.wf
  | .cold _ frame => frame.wf
  | .warm _ frame => frame.wf
  | .attn _ frame => frame.wf
  | .chainAttnStuck _ => true
  | .cmd _ frame => frame.wf
  | .telemReq _ frame => frame.wf
  | .dozeCfg _ frame => frame.wf
  | .fwdata _ frame => frame.wf
  | .htInPulse _ _ _ => true
  | .htInStuck _ => true
  | .htSetTimeout _ => true
  | .timingSymbolSend _ row => decide (row.port < 8)
  | .timingSymbolRx _ port sym => decide (port < 8) && sym.wf
  | .htSourceLossTimeout _ => true
  | .htLost _ => true
  | .stepStart _ => true
  | .kernelStart _ entry => decide (entry < 2 ^ 20)
  | .openGuestBubble _ entry => decide (entry < 2 ^ 20)
  | .closeGuestBubble _ entry => decide (entry < 2 ^ 20)
  | .updatePassStart _ entry => decide (entry < 2 ^ 20)
  | .passComplete _ die => decide (die < 8)
  | .runTransferList _ entry => decide (entry < 2 ^ 20)
  | .transferListComplete _ die => decide (die < 8)
  | .openScheduledWindow _ entry => decide (entry < 2 ^ 20)
  | .ergWindowEnd _ ch => decide (ch < 32)
  | .refreshNormalRate _ entry => decide (entry < 2 ^ 20)
  | .refreshHighRate _ entry => decide (entry < 2 ^ 20)
  | .ergRefreshAon _ ch => decide (ch < 32)
  | .ergLineRead _ ch _ upset => decide (ch < 32) && upset.all Upset.wf
  | .ergLineWrite _ ch _ => decide (ch < 32)
  | .pageRetireCopyDone _ ch => decide (ch < 32)
  | .ergThermalSample _ ch _ => decide (ch < 32)
  | .ergScrubLate _ ch => decide (ch < 32)
  | .oasisScrub _ die _ upset => decide (die < 8) && upset.all Upset.wf
  | .sramWriteback _ core _ => decide (core < 128)
  | .sendPlannedBlock _ entry _ => decide (entry < 2 ^ 20)
  | .receivePlannedBlock _ entry => decide (entry < 2 ^ 20)
  | .openTxWindow _ entry => decide (entry < 2 ^ 20)
  | .openRxWindow _ entry => decide (entry < 2 ^ 20)
  | .runSlice _ entry => decide (entry < 2 ^ 20)
  | .acrixIdleSlice _ port => decide (port < 4)
  | .acrixEncodeComplete _ frag => decide (frag < 64)
  | .snapshotShiftComplete _ frag => decide (frag < 64)
  | .startVerdictFlood _ entry => decide (entry < 2 ^ 20)
  | .floodResult _ record => record.wf
  | .commitPoint _ entry => decide (entry < 2 ^ 20)
  | .roundUnobtainable _ frag => decide (frag < 64)
  | .catchupSlot _ entry _ => decide (entry < 2 ^ 20)
  | .guardBandExpiry _ entry => decide (entry < 2 ^ 20)
  | .soSignal _ so _ _ => decide (so < 2 ^ 16)
  | .mbCutoff _ mbatch => decide (mbatch < 256)
  | .carryComplete _ mbatch => decide (mbatch < 256)
  | .mirrorCopyComplete _ => true
  | .ckptLocalDone _ => true
  | .itemIssue _ core => decide (core < 128)
  | .matrixDescriptor _ row => row.wf
  | .accumulationComplete _ core tile => decide (core < 128) && decide (tile < 2)
  | .drainStart _ row tile => row.wf && decide (tile < 2)
  | .drainComplete _ core => decide (core < 128)
  | .coreDmaDescriptor _ row => row.wf
  | .coreDmaFinish _ core => decide (core < 128)
  | .vectorBlock _ core => decide (core < 128)
  | .vectorBlockFinish _ core => decide (core < 128)
  | .kernelEnd _ core => decide (core < 128)
  | .kernelComplete _ core => decide (core < 128)
  | .kernelWaitFault _ core => decide (core < 128)
  | .guestTileBoundary _ core => decide (core < 128)
  | .vadd _ core f => decide (core < 128) && f.wf
  | .vsub _ core f => decide (core < 128) && f.wf
  | .vmul _ core f => decide (core < 128) && f.wf
  | .vfma _ core f => decide (core < 128) && f.wf
  | .vmax _ core f => decide (core < 128) && f.wf
  | .vmin _ core f => decide (core < 128) && f.wf
  | .vabs _ core f => decide (core < 128) && f.wf
  | .vneg _ core f => decide (core < 128) && f.wf
  | .vcmplt _ core f => decide (core < 128) && f.wf
  | .vcmple _ core f => decide (core < 128) && f.wf
  | .vcmpeq _ core f => decide (core < 128) && f.wf
  | .vsel _ core f => decide (core < 128) && f.wf
  | .vrcp _ core f => decide (core < 128) && f.wf
  | .vrsq _ core f => decide (core < 128) && f.wf
  | .vexp2 _ core f => decide (core < 128) && f.wf
  | .vlog2 _ core f => decide (core < 128) && f.wf
  | .vcvt _ core f => decide (core < 128) && f.wf
  | .vqmx _ core f => decide (core < 128) && f.wf
  | .viadd _ core f => decide (core < 128) && f.wf
  | .visub _ core f => decide (core < 128) && f.wf
  | .vimul _ core f => decide (core < 128) && f.wf
  | .vand _ core f => decide (core < 128) && f.wf
  | .vor _ core f => decide (core < 128) && f.wf
  | .vxor _ core f => decide (core < 128) && f.wf
  | .vshl _ core f => decide (core < 128) && f.wf
  | .vshr _ core f => decide (core < 128) && f.wf
  | .vsra _ core f => decide (core < 128) && f.wf
  | .vmovi _ core f => decide (core < 128) && f.wf
  | .vperm _ core f => decide (core < 128) && f.wf
  | .vrot _ core f => decide (core < 128) && f.wf
  | .vbcast _ core f => decide (core < 128) && f.wf
  | .vld _ core f => decide (core < 128) && f.wf
  | .vst _ core f => decide (core < 128) && f.wf
  | .vldt _ core f => decide (core < 128) && f.wf
  | .vstt _ core f => decide (core < 128) && f.wf
  | .rclr _ core f => decide (core < 128) && f.wf
  | .radd _ core f => decide (core < 128) && f.wf
  | .rsq _ core f => decide (core < 128) && f.wf
  | .rget _ core f => decide (core < 128) && f.wf
  | .rstx _ core f => decide (core < 128) && f.wf
  | .rldx _ core f => decide (core < 128) && f.wf
  | .vrng _ core f => decide (core < 128) && f.wf
  | .vwait _ core f => decide (core < 128) && f.wf
  | .vsig _ core f => decide (core < 128) && f.wf
  | .vnop _ core f => decide (core < 128) && f.wf
  | .poolBlockArrival _ die block => decide (die < 8) && block.wf
  | .spillwayAppendComplete _ die => decide (die < 8)
  | .linkFrameStart _ row => decide (row.port < 8)
  | .controlSlot _ port => decide (port < 8)
  | .schedFlitRx _ port flit => decide (port < 8) && flit.wf
  | .skipFlitRx _ port flit => decide (port < 8) && flit.wf
  | .ctrlFlitRx _ port flit => decide (port < 8) && flit.wf
  | .openFlitRx _ port flit => decide (port < 8) && flit.wf
  | .flitLost _ port lanes flit => decide (port < 8) && lanes.all (fun l => decide (l < 8)) && flit.wf
  | .openFlitSend _ port vc lane => decide (port < 8) && decide (vc < 4) && decide (lane < 2)
  | .receiveBlockComplete _ port block => decide (port < 8) && decide (block < 2 ^ 24)
  | .receiveHoldEnd _ port block => decide (port < 8) && decide (block < 2 ^ 24)
  | .linkSignalDetect _ port => decide (port < 8)
  | .linkTrainSlot _ port => decide (port < 8)
  | .linkTrainRequest _ port => decide (port < 8)
  | .linkTrainingDone _ port lanes => decide (port < 8) && decide (lanes < 256)
  | .linkDown _ port => decide (port < 8)
  | .linkRetrainTimeout _ port => decide (port < 8)
  | .linksLate _ port => decide (port < 8)
  | .neighbourNotice _ port jobId cw _ => decide (port < 8) && decide (jobId < 2 ^ 64) && decide (cw < 2 ^ 32)
  | .restart _ port notice => decide (port < 8) && notice.wf
  | .restartWarmReset _ => true
  | .restartRearm _ => true
  | .ckpt _ port notice => decide (port < 8) && notice.wf
  | .restartLoadDone _ => true
  | .ready _ port notice => decide (port < 8) && notice.wf
  | .restartFailed _ => true
  | .digest _ port notice => decide (port < 8) && notice.wf
  | .replicaRepairMessage _ port _ => decide (port < 8)
  | .dataDatagramRx _ port route dg => decide (port < 4) && decide (route < 2) && dg.wf
  | .manifestRx _ port route dg => decide (port < 4) && decide (route < 2) && dg.wf
  | .roundSum _ frag => decide (frag < 64)
  | .digestRx _ port route dg => decide (port < 4) && decide (route < 2) && dg.wf
  | .noticeRx _ port route dg => decide (port < 4) && decide (route < 2) && dg.wf
  | .requestRx _ port route dg => decide (port < 4) && decide (route < 2) && dg.wf
  | .ackRx _ port route dg => decide (port < 4) && decide (route < 2) && dg.wf
  | .heartbeatRx _ port route dg => decide (port < 4) && decide (route < 2) && dg.wf
  | .bulkRx _ port route dg => decide (port < 4) && decide (route < 2) && dg.wf
  | .closeRx _ port route dg => decide (port < 4) && decide (route < 2) && dg.wf
  | .initRx _ port route payload => decide (port < 4) && decide (route < 2) && payload.wf
  | .acceptRx _ port route payload => decide (port < 4) && decide (route < 2) && payload.wf
  | .foreignFrame _ port route frame => decide (port < 4) && decide (route < 2) && frame.wf
  | .neighborSolicitation _ port route frame => decide (port < 4) && decide (route < 2) && frame.wf
  | .initRetry _ sess => decide (sess < 16)
  | .ackTimer _ sess => decide (sess < 16)
  | .heartbeatTimer _ sess => decide (sess < 16)
  | .rtoExpiry _ sess seq => decide (sess < 16) && decide (seq < 2 ^ 48)
  | .datagramTransmit _ sess => decide (sess < 16)
  | .routeFail _ sess route _ => decide (sess < 16) && decide (route < 2)
  | .sessionTimeout _ sess => decide (sess < 16)
  | .acxKeyRatchet _ sess => decide (sess < 16)
  | .keyHoldExpiry _ sess => decide (sess < 16)
  | .weirBudgetEffective _ target => decide (target < 2 ^ 16)
  | .bootstrapDone _ frag => decide (frag < 64)
  | .dozeSample _ _ => true
  | .powerEntryComplete _ => true
  | .pmAlert _ statuses => statuses.all fun x => x.2 < 2 ^ 16
  | .railAlertStuck _ => true
  | .powerSample _ _ => true
  | .avsUpdate _ die _ => decide (die < 8)
  | .droopDetect _ die => decide (die < 8)
  | .droopRecover _ die => decide (die < 8)
  | .dieTemperatureChange _ die _ => decide (die < 10)
  | .bscanInstruction _ _ => true
  | .optionLoadingComplete _ => true
  | .linkTrainingFailed _ port => decide (port < 8)
  | .linkSignalLoss _ port => decide (port < 8)
  | .footprintEnd _ entry => decide (entry < 2 ^ 20)
  | .farRouteLinkUp _ port route => decide (port < 4) && decide (route < 2)

end Sys2Proof
end

