-- ==== Sys2Proof/Safety.lean ====
section
/-! DEFINITION. What counts as a safe step, and the conditions in which the statements speak of a command's own effect. -/

namespace Sys2Proof.Machine

/-- An outcome that goes on. -/
def goesOn (o : Res) : Prop := ∃ t, o = .next t

/-- The machine goes on from a state. -/
def stepGoesOn (s : State) : Prop := goesOn (step s)

/-- Mailbox `mb` has the command entry `e` of an opcode first and not yet started, it is the mailbox's turn, and Rilseti is
ready (R388, R399, R432). -/
def State.posts (s : State) (opcode mb : Nat) (e : Buf) : Bool :=
  (match s.startable mb with | some x => x.entry = e | none => false) && e.fld 0 16 = opcode && s.turn mb &&
    (s.rilsetiReady || (mb = 16 && opcode = 0x0903 && s.aon.phase = .recovery))

/-- Mailbox `mb` offers the command entry `e` of an opcode, and nothing turns it away: it is first and its turn, its role is
admitted, and its buffers are good (R382, R388, R389, R391, R399). -/
def State.offers (s : State) (opcode mb : Nat) (e : Buf) (b0 b1 : Option Buf) (allow : State → Call → Bool) : Bool :=
  s.posts opcode mb e && allow (s.begun mb) ⟨mb, e, b0, b1⟩ && !(mb = 16 && needsBuffer e) && (Call.bufStatus ⟨mb, e, b0, b1⟩) = 0

/-- The rows of the Rilseti command reference: opcode, the roles that it admits, and the command (R398, R403 to R418). -/
def commandRows : List (Nat × (State → Call → Bool) × (Nat → Nat → Option Buf → Option Buf → Instr)) :=
  [(0x0101, mayUn, fun a m x y => .devInfo a m x y),
   (0x0102, mayUn, fun a m x y => .roleChallenge a m x y),
   (0x0103, mayUn, fun a m x y => .roleBind a m x y),
   (0x0104, mayAny, fun a m x y => .bgQuery a m x y),
   (0x0201, mayUn, fun a m x y => .htQuery a m x y),
   (0x0202, mayOp, fun a m x y => .htSet a m x y),
   (0x0203, mayOp, fun a m x y => .htConfig a m x y),
   (0x0204, mayOpIfSet, fun a m x y => .slotMiss a m x y),
   (0x0301, mayAny, fun a m x y => .memStatus a m x y),
   (0x0302, mayOp, fun a m x y => .ergRead a m x y),
   (0x0303, mayOp, fun a m x y => .ergWrite a m x y),
   (0x0304, mayOp, fun a m x y => .ergRetireClear a m x y),
   (0x0401, mayJbImage, fun a m x y => .jobArm a m x y),
   (0x0402, mayJb, fun a m x y => .jobStop a m x y),
   (0x0403, mayJb, fun a m x y => .jobRestore a m x y),
   (0x0404, mayJb, fun a m x y => .jobCheckpoint a m x y),
   (0x0405, mayJb, fun a m x y => .relayout a m x y)] ++
  [(0x0406, mayAny, fun a m x y => .commitStatus a m x y),
   (0x0407, mayAny, fun a m x y => .counters a m x y),
   (0x0501, mayJbImage, fun a m x y => .guestAttach a m x y),
   (0x0502, mayJbGuest, fun a m x y => .guestDetach a m x y),
   (0x0503, mayAny, fun a m x y => .guestStatus a m x y),
   (0x0601, mayOp, fun a m x y => .farConfig a m x y),
   (0x0602, mayOp, fun a m x y => .acxPartner a m x y),
   (0x0603, mayOp, fun a m x y => .weirBudget a m x y),
   (0x0604, mayJb, fun a m x y => .bulkOpen a m x y),
   (0x0605, mayOp, fun a m x y => .sessionClose a m x y),
   (0x0606, mayAny, fun a m x y => .roundStatus a m x y),
   (0x0607, mayAny, fun a m x y => .sessionStatus a m x y),
   (0x0608, mayAny, fun a m x y => .farStatus a m x y),
   (0x0609, mayOpIfSet, fun a m x y => .nearStatus a m x y),
   (0x0701, mayAny, fun a m x y => .watchQuery a m x y),
   (0x0702, mayAny, fun a m x y => .scaleRead a m x y),
   (0x0801, mayOp, fun a m x y => .powerState a m x y)] ++
  [(0x0802, mayOp, fun a m x y => .dozeConfig a m x y),
   (0x0803, mayOp, fun a m x y => .powerCap a m x y),
   (0x0804, mayAny, fun a m x y => .powerRead a m x y),
   (0x0901, mayAny, fun a m x y => .ledgerRead a m x y),
   (0x0902, mayAny, fun a m x y => .attestQuote a m x y),
   (0x0903, mayFw, fun a m x y => .fwUpdate a m x y),
   (0x0904, mayOw, fun a m x y => .ownerTransfer a m x y),
   (0x0905, mayLife, fun a m x y => .lifecycleAdvance a m x y),
   (0x0A01, mayVeOw, fun a m x y => .debugEnter a m x y),
   (0x0A02, mayVeOw, fun a m x y => .accRead a m x y),
   (0x0A03, mayAny, fun a m x y => .debugExit a m x y),
   (0x0B01, mayOp, fun a m x y => .loopback a m x y),
   (0x0B02, mayOp, fun a m x y => .mbist a m x y),
   (0x0C01, mayOp, fun a m x y => .eventMask a m x y),
   (0x0C02, mayAny, fun a m x y => .eventMaskRead a m x y)]

/-- Commands one after the other, each from the state that the one before answers. -/
def runAll : List Instr → State → Res
  | [], s => .next s
  | c :: l, s =>
    match exec c s with
    | .next t => runAll l t
    | r => r

/-- A block in the form of R191: its header in range, 256 elements that its width holds. -/
def AfxHdr.fits (h : AfxHdr) : Bool :=
  -32768 ≤ h.anchor && h.anchor < 32768 && h.count < 2 ^ 32 && h.tensor < 2 ^ 20 && h.row < 2 ^ 16 && h.col < 2 ^ 16 &&
    h.sub < 2 ^ 16 && h.epoch < 2 ^ 16 && h.step < 2 ^ 64

@[inherit_doc AfxHdr.fits]
def afxWhole (b : Buf) : Prop :=
  ∃ (h : AfxHdr) (els : List Int), h.fits = true ∧ els.length = 256 ∧
    (∀ i ∈ els, -((2 ^ (afxF h.w32 + afxH h.w32) : Nat) : Int) ≤ i ∧ i < ((2 ^ (afxF h.w32 + afxH h.w32) : Nat) : Int)) ∧ b = h.block els

/-- The ten symbols of a codeword, by position (R164). -/
def codeword (d : Nat) : List (Nat × Nat) :=
  ((List.range 8).map fun j => (j, (d >>> (8 * j)) % 256)) ++ [(8, (checkSymbols d).1), (9, (checkSymbols d).2)]

/-- The fields of a matrix-operation descriptor lie in the widths of R84. -/
def Mat.fits (d : Mat) : Bool :=
  d.fmtA < 16 && d.fmtB < 16 && d.fmtD < 16 && d.scaleA < 4 && d.scaleB < 4 && d.tile < 2 && d.shape < 8 && d.profile < 16 &&
    d.intsat < 4 && d.tscaleA < 256 && d.tscaleB < 256 && d.m < 1024 && d.n < 1024 && d.k < 2 ^ 28 && d.aAddr < 2 ^ 32 &&
    d.bAddr < 2 ^ 32 && d.aScale < 2 ^ 32 && d.bScale < 2 ^ 32 && d.dAddr < 2 ^ 32 && d.dScale < 2 ^ 32 && d.aLd < 2 ^ 16 &&
    d.bLd < 2 ^ 16 && d.dLd < 2 ^ 16 && d.aSld < 2 ^ 16 && d.bSld < 2 ^ 16 && d.dSld < 2 ^ 16 && d.sigSo < 2 ^ 16 &&
    d.waitSo < 2 ^ 16 && d.waitCount < 2 ^ 32 && d.tag < 2 ^ 16

/-- The fields of an Acrix header lie in the widths of R331. -/
def AcxHdr.fits (h : AcxHdr) : Bool :=
  h.type < 16 && h.route < 2 && h.session < 2 ^ 16 && h.epoch < 2 ^ 16 && h.seq < 2 ^ 48 && h.txCount < 2 ^ 16 &&
    h.ackBase < 2 ^ 48 && h.sack < 2 ^ 64 && h.round < 2 ^ 32 && h.frag < 64 && h.site < 8 && h.plen < 2 ^ 16 &&
    h.chunk < 2 ^ 32 && h.tsVal < 2 ^ 32 && h.tsEcr < 2 ^ 32

/-- Entry `i` of the running main job is `e`, of this action, due and not yet resolved; its precondition is met and its
guard band is not over (R50, R59). -/
def State.starts (s : State) (action i : Nat) (j : Job) (e : Entry) (idle : Bool) : Bool :=
  s.job = some j && j.runs && decide (i < imgEntries j.image) && e = imgEntry j.image i && e.action = action &&
    (s.ent i = .idle || s.ent i = .waiting) && decide (j.sn + e.offset ≤ s.jtInt) && !s.preSkipped j e && idle &&
    (!e.preEn || (s.so e.preSo).reached j.step e.preCount) && s.jt ≤ j.sn + e.offset + e.guard

/-- Core `core` runs kernel `k`, its vector engine runs block `b` of item `it`, and the block's next instruction is `op` with
fields `f` (R126, R127). -/
def State.runsVec (s : State) (core op : Nat) (f : VFields) (k : Kernel) (it : Item) (b : VBlock) : Bool :=
  (s.core core).kernel = some k && (s.core core).vact = some (it, b) && vbNext it.body b = some (vecWord op f)

/-- A core whose vector engine has executed one instruction in `n` cycles, `slow` of them added by R129 (R133, R141). -/
def Core.vecRan (n slow : Nat) (c : Core) : Core :=
  match c.kernel, c.vact with
  | some k, some (it, b) =>
    { c with
      kernel := some { k with qCount := k.qCount + n }
      bubbleQ := if k.guest then c.bubbleQ + n else c.bubbleQ
      vact := some (it, { b with done := b.done + 1, issued := b.issued + n })
      fetchSlow := satAdd 32 c.fetchSlow slow }
  | _, _ => c

end Sys2Proof.Machine
end

