-- ==== Sys2Proof/Certificates/Slice0/Obligations.lean ====
section
/-! DEFINITION. The statements for the provers. -/

open Sys2Proof Sys2Proof.Machine

/-- A step at a state with a command in front is that command's effect with the queue's rest; an empty queue idles, which is the model's choice (log entry 3). -/
def Obligations.StepRunsFrontCommand : Prop :=
  (∀ (s : State) (c : Instr) (q : List Instr), s.pending = c :: q → step s = exec c { s with pending := q }) ∧
  (∀ s : State, s.pending = [] → step s = .next s)

/-- Every command of every row answers a next state, from every state. -/
def Obligations.EveryCommandGoesOn : Prop :=
  ∀ (c : Instr) (s : State), goesOn (exec c s)

/-- DEV_INFO, BG_QUERY, HT_QUERY, COMMIT_STATUS, GUEST_STATUS, FAR_STATUS and POWER_READ end with status 0 and the record of their rule, and change nothing else. -/
def Obligations.ResponseQueriesComplete : Prop :=
  ∀ (s : State) (at_ mb : Nat) (e : Buf) (b0 b1 : Option Buf),
    let t := (s.tick at_).begun mb
    let offers (op : Nat) (allow : State → Call → Bool) : Prop := (s.tick at_).offers op mb e b0 b1 allow = true
    (offers 0x0101 mayUn → exec (.devInfo at_ mb b0 b1) s = .next (t.finish mb 0 (packBuf 80
      [(64, t.devId), (256, (Buf.ofBe 32 t.ownKeyDigest).val), (256, (imageDigest t.isl.fwRunning (fwLen t.isl.fwRunning)).val),
       (8, t.isl.lifecycle), (1, b2n t.isl.debug), (12, t.aon.chainAddr), (3, t.aon.straps), (40, 0)]))) ∧
    (offers 0x0104 mayAny → exec (.bgQuery at_ mb b0 b1) s = .next (t.finish mb 0 (packBuf 128 ((t.pcie.bg.take 8).flatMap fun b =>
      [(16, b.1), (4, b.2.1 % 16), (16, (t.mbox b.2.1).bgId b.1), (28, 0), (64, b.2.2)])))) ∧
    (offers 0x0201 mayUn → exec (.htQuery at_ mb b0 b1) s =
      .next (t.finish mb 0 (t.htRecord.app (packBuf 8 [(32, t.ht.inOverruns), (32, t.ht.inInvalid)])))) ∧
    (offers 0x0406 mayAny → s.job.isSome = true → exec (.commitStatus at_ mb b0 b1) s = .next (t.finish mb 0 t.com.record)) ∧
    (offers 0x0503 mayAny → s.guest = none → exec (.guestStatus at_ mb b0 b1) s = .next (t.finish mb 0 (Buf.zeros 16))) ∧
    (∀ g, offers 0x0503 mayAny → s.guest = some g → exec (.guestStatus at_ mb b0 b1) s = .next (t.finish mb 0
      (packBuf 16 [(1, 1), (6, (t.cores.foldl (fun a x => a ||| x.2.gflags.bits) 0) % 64), (57, 0), (64, g.done)]))) ∧
    (offers 0x0608 mayAny → exec (.farStatus at_ mb b0 b1) s = .next (t.finish mb 0 (Buf.cat ((List.range 4).map t.farRecord)))) ∧
    (offers 0x0804 mayAny → exec (.powerRead at_ mb b0 b1) s = .next (t.finish mb 0 t.powerRead))

/-- SLOT_MISS, MEM_STATUS, COUNTERS, WATCH_QUERY, SCALE_READ, ROUND_STATUS, SESSION_STATUS, NEAR_STATUS, LEDGER_READ and EVENT_MASK_READ write their records to BUF0 and end with status 0 and XFER the length. -/
def Obligations.BufferQueriesComplete : Prop :=
  ∀ (s : State) (at_ mb : Nat) (e : Buf) (b0 b1 : Option Buf),
    let c : Call := ⟨mb, e, b0, b1⟩
    let t := (s.tick at_).begun mb
    let offers (op : Nat) (allow : State → Call → Bool) : Prop := (s.tick at_).offers op mb e b0 b1 allow = true
    let answer (u : State) (b r : Buf) : Res := .next ((u.writeHost c.buf0.exts b).finish mb 0 r b.len)
    let clear := c.par 0 1 = 1
    (∀ b, b = Buf.cat (missTargets.map fun k => (t.missRec k).record) → b.len ≤ c.buf0.size → offers 0x0204 mayOpIfSet →
      exec (.slotMiss at_ mb b0 b1) s = answer (if clear then { t with miss := [] } else t) b .empty) ∧
    (∀ b, b = (Buf.cat ((List.range 32).map t.chanRecord)).app (Buf.cat ((List.range 8).map fun k => (t.die k).memRecord)) →
      b.len ≤ c.buf0.size → offers 0x0301 mayAny → exec (.memStatus at_ mb b0 b1) s = answer t b .empty) ∧
    (∀ b, s.job.isSome = true → c.par 0 2 = 0 ∧ b = Buf.cat ((List.range 128).map fun k => (t.core k).record) ∨
        c.par 0 2 = 1 ∧ b = Buf.cat ((List.range 8).map fun k => (t.die k).trainRecord) ∨
        c.par 0 2 = 2 ∧ b = Buf.cat ((List.range 8).map fun k => (t.die k).updateRecord) →
      b.len ≤ c.buf0.size → offers 0x0407 mayAny → exec (.counters at_ mb b0 b1) s = answer t b .empty) ∧
    (∀ b j, s.job = some j → b = Buf.cat ((imgSlots j.image).zipIdx.map fun p => t.watchRecord j.image p.2 p.1) →
      b.len ≤ c.buf0.size → offers 0x0701 mayAny → exec (.watchQuery at_ mb b0 b1) s = answer t b .empty) ∧
    (∀ b, s.job.isSome = true → c.par 20 1 = 1 → b = t.com.hist.record → b.len ≤ c.buf0.size → offers 0x0702 mayAny →
      exec (.scaleRead at_ mb b0 b1) s = answer t b .empty) ∧
    (∀ j x b u, s.job = some j → c.par 20 1 = 0 → imgShard j.image (c.par 0 20) = some x →
      b = Buf.ofLe 4160 (t.oasisRead x.shAddr 4160 .maint).1 → u = (t.oasisRead x.shAddr 4160 .maint).2 → b.len ≤ c.buf0.size → offers 0x0702 mayAny →
      exec (.scaleRead at_ mb b0 b1) s = answer u b .empty) ∧
    (∀ b j, s.job = some j → b = Buf.cat ((List.range (imgFcount j.image)).map fun f => (t.frag f).record) →
      b.len ≤ c.buf0.size → offers 0x0606 mayAny → exec (.roundStatus at_ mb b0 b1) s = answer t b .empty) ∧
    (∀ b, b = Buf.cat ((List.range 16).map fun k => (t.sess k).record) → b.len ≤ c.buf0.size → offers 0x0607 mayAny →
      exec (.sessionStatus at_ mb b0 b1) s = answer t b .empty) ∧
    (∀ b, b = Buf.cat ((List.range 8).map fun k => (t.port k).record) → b.len ≤ c.buf0.size → offers 0x0609 mayOpIfSet →
      exec (.nearStatus at_ mb b0 b1) s =
        answer (if clear then { t with near := tmap NearPort.reset NearPort.clearCounters t.near } else t) b .empty) ∧
    (∀ l, c.par 0 32 ≤ s.isl.ledger.length → l = (s.isl.ledger.drop (c.par 0 32)).take (c.buf0.size / 512) →
      (Buf.cat l).len ≤ c.buf0.size → offers 0x0901 mayAny → exec (.ledgerRead at_ mb b0 b1) s =
        answer t (Buf.cat l) (packBuf 8 [(32, l.length), (32, s.isl.ledger.length)])) ∧
    (∀ b, b = packBuf (2 * s.pcie.masks.length) (s.pcie.masks.map fun m => (16, m)) → b.len ≤ c.buf0.size → offers 0x0C02 mayAny →
      exec (.eventMaskRead at_ mb b0 b1) s = answer t b (packBuf 2 [(16, s.pcie.masks.length)]))

/-- HT_SET, HT_CONFIG, FAR_CONFIG, DOZE_CONFIG, POWER_CAP, ERG_RETIRE_CLEAR and EVENT_MASK: what each stores, the entry that the ledgered ones append, and the end with status 0. -/
def Obligations.SettingCommandsComplete : Prop :=
  ∀ (s : State) (at_ mb : Nat) (e : Buf) (b0 b1 : Option Buf),
    let c : Call := ⟨mb, e, b0, b1⟩
    let t := (s.tick at_).begun mb
    let offers (op : Nat) (allow : State → Call → Bool) : Prop := (s.tick at_).offers op mb e b0 b1 allow = true
    (offers 0x0202 mayOp → s.ht.root = true → s.ht.state = .unset ∨ s.ht.state = .acquiring → c.par 0 64 % 1000000000 = 0 →
      exec (.htSet at_ mb b0 b1) s = .next ((t.onHt fun h => { h with pendingSet := some (c.par 0 64, t.now) }).finish mb 0)) ∧
    (offers 0x0203 mayOp → s.ledgerSpent = false → (c.par 0 1 = 1 → c.par 32 32 ≤ 1000000) →
      (c.par 1 1 = 1 → ∀ i < 8, sext 16 (c.par (128 + 16 * i) 16) ≠ -32768) → (c.par 2 1 = 1 → 1 ≤ c.par 64 16 ∧ c.par 64 16 ≤ 1000) →
      (c.par 0 1 = 1 ∨ c.par 1 1 = 1 → s.job = none) →
      exec (.htConfig at_ mb b0 b1) s =
        let a := t.onIsl fun x =>
          { x with delayPs := if c.par 0 1 = 1 then c.par 32 32 else x.delayPs, holdMs := if c.par 2 1 = 1 then c.par 64 16 else x.holdMs,
                   asym := if c.par 1 1 = 1 then ((List.range 8).map fun i => sext 16 (c.par (128 + 16 * i) 16)).zipIdx.foldl
                     (fun t p => tset 0 t p.2 p.1) [] else x.asym }
        let z := if c.par 3 1 = 1 then a.onHt fun h => { h with inOverruns := 0, inInvalid := 0 } else a
        .next (((z.commandLedger mb 0x0002 0x0203 c.params .empty).finish mb 0).htLost)) ∧
    (offers 0x0601 mayOp → c.par 136 8 ≠ 0 → s.portInUse (c.par 0 2) = false → s.ledgerSpent = false →
      exec (.farConfig at_ mb b0 b1) s = .next (((t.onFarPort (c.par 0 2) fun p => p.onRoute (c.par 2 1) fun r =>
        { r with mac := c.par 16 48, nextHop := c.par 64 48, vid := c.par 112 12, prio := c.par 124 3, vlanEn := c.par 127 1 = 1,
                 tclass := c.par 128 8, hopLim := c.par 136 8, udpPort := if c.par 144 16 = 0 then 46721 else c.par 144 16,
                 ip6 := c.par 192 128 }).commandLedger mb 0x0003 0x0601 c.params .empty).finish mb 0)) ∧
    (offers 0x0802 mayOp → dozeOk c.params = true →
      exec (.dozeConfig at_ mb b0 b1) s = .next ((t.setDoze c.params).finish mb 0)) ∧
    (offers 0x0803 mayOp → c.par 0 16 = 0 ∨ 600 ≤ c.par 0 16 ∧ c.par 0 16 ≤ 1850 →
      (s.job = none ∨ (∃ j, s.job = some j ∧ (j.phase = .stopped ∨ j.phase = .restarting)) → exec (.powerCap at_ mb b0 b1) s =
        .next ((t.onAon fun a => { a with cap := c.par 0 16, capNext := none }).finish mb 0)) ∧
      (∀ j, s.job = some j → j.phase = .armed ∨ j.phase = .running ∨ j.phase = .stopping → exec (.powerCap at_ mb b0 b1) s =
        .next ((t.onAon fun a => { a with capNext := some (c.par 0 16) }).finish mb 0))) ∧
    (offers 0x0304 mayOp → s.job = none → s.ledgerSpent = false → exec (.ergRetireClear at_ mb b0 b1) s =
      .next (((t.onIsl fun x => { x with redirect := x.redirect.filter fun r => r.1 ≠ c.par 0 5,
                                         badSpares := x.badSpares.filter fun r => r.1 ≠ c.par 0 5,
                                         marks := x.marks.filter fun m => m.1 ≠ c.par 0 5 }).commandLedger mb 0x0005 0x0304 c.params .empty).finish mb 0)) ∧
    (∀ l, offers 0x0C01 mayOp → 1 ≤ c.par 0 16 → c.par 0 16 ≤ 256 → 4 * c.par 0 16 ≤ c.buf0.data.len → l = c.buf0.data.recs 4 (c.par 0 16) →
      (∀ x ∈ l, x.fld 17 15 = 0) → (∀ x ∈ l, x.fld 0 16 ∈ eventCodes) → exec (.eventMask at_ mb b0 b1) s =
        .next ((t.onPcie fun p => { p with masks := l.foldl (fun m x =>
          if x.flag 16 then addMask m (x.fld 0 16) else m.filter (· ≠ x.fld 0 16)) p.masks }).finish mb 0))

/-- RESTART, RESTART_WARM_RESET, RESTART_REARM, CKPT, RESTART_LOAD_DONE, READY and RESTART_FAILED. -/
def Obligations.SiteRestartComplete : Prop :=
  ∀ (s : State) (at_ : Nat) (j : Job),
    let t := s.tick at_
    let failed (u : State) (e : Ev) : State := ((u.raise e).onSite fun x => { x with phase := .idle, stopReq := false }).stopJob
    let pass (u : State) (p : Nat) (b : Buf) : State :=
      if u.site.seen.contains (ntKind b, ntCw b) then u
      else (u.onSite fun x => { x with seen := (ntKind b, ntCw b) :: x.seen }).sendNotice (b.slice 0 64) (some p)
    s.job = some j →
    (∀ p b, (ntKind b ≠ 1 ∨ ntJob b ≠ imgJobId j.image → exec (.restart at_ p b) s = .next (t.takeMessage p 2)) ∧
      (ntKind b = 1 → ntJob b = imgJobId j.image → exec (.restart at_ p b) s = .next (pass ((t.takeMessage p 2).restart (ntHtx b)) p b))) ∧
    (∀ since, s.site.phase = .fault since → since + 100000 ≤ t.now →
      (s.site.stopReq = false → exec (.restartWarmReset at_) s =
        .next ((t.onSite fun x => { x with phase := .warm t.now }).reset_ 5 .warm false true)) ∧
      (s.site.stopReq = true → exec (.restartWarmReset at_) s =
        .next (t.onSite fun x => { x with phase := .idle, stopReq := false }).stopJob)) ∧
    (∀ since raw seed sfl, s.site.phase = .warm since → s.site.copy = some (raw, seed, sfl) → s.rilsetiReady = true → s.ht.state = .locked →
      s.site.stopReq = false →
      let b := raw.slice 0 (imgLen raw)
      (t.imageGood raw (imgLen raw) (mainSigner raw) = false ∨ (armFailure t b none).isSome = true →
        exec (.restartRearm at_) s = .next (failed t Ev.restartFailed)) ∧
      (t.imageGood raw (imgLen raw) (mainSigner raw) = true → armFailure t b none = none → exec (.restartRearm at_) s =
        let u := (t.armJob b none seed sfl (rejoin b)).onJob fun j => { j with phase := .restarting }
        let h := u.newestHalf b
        let new := (h.bind fun x => u.halfStep b x).getD noStep
        let old := (h.bind fun x => u.halfStep b (1 - x)).getD noStep
        let u := u.onSite fun x =>
          { x with
            phase := .ckpt u.now, ckpts := (imgCw b, new, old) :: x.ckpts.filter fun c => c.1 ≠ imgCw b
            seen := (2, imgCw b) :: x.seen }
        .next (u.sendNotice (siteNotice 2 0 (imgCw b) (imgJobId b) u.site.htx new old 0 0) none).chooseStep)) ∧
    (∀ p b, ntKind b = 2 → ntJob b = imgJobId j.image → s.site.phase ≠ .idle → (∀ c ∈ s.site.ckpts, c.1 ≠ ntCw b) → s.site.stopReq = false →
      exec (.ckpt at_ p b) s =
        .next ((pass (t.takeMessage p 2) p b).onSite fun x => { x with ckpts := x.ckpts ++ [(ntCw b, ntStep b, ntStepOld b)] }).chooseStep) ∧
    (∀ since, s.site.phase = .loading since → s.site.stopReq = false →
      let b := j.image
      let half := if t.halfStep b 0 = some s.site.step then 0 else 1
      (t.halfRecs b half = none → exec (.restartLoadDone at_) s = .next (failed t Ev.restartFailed)) ∧
      (∀ l, t.halfRecs b half = some l → recsStep l ≠ some s.site.step ∨ (importStatus b l).isSome = true →
        exec (.restartLoadDone at_) s = .next (failed t Ev.restartFailed)) ∧
      (∀ l, t.halfRecs b half = some l → recsStep l = some s.site.step → importStatus b l = none → exec (.restartLoadDone at_) s =
        let u := (t.restoreRecs j l none (rejoin b)).onJob fun j => { j with phase := .restarting }
        let u := u.onSite fun x =>
          { x with
            phase := .ready u.now, ownReady := u.htNow, readies := (imgCw b, u.htNow) :: x.readies.filter fun r => r.1 ≠ imgCw b
            seen := (3, imgCw b) :: x.seen }
        .next (u.sendNotice (siteNotice 3 0 (imgCw b) (imgJobId b) u.htNow 0 0 0 0) none).resumeAll)) ∧
    (∀ p b, ntKind b = 3 → ntJob b = imgJobId j.image → s.site.phase ≠ .idle → (∀ r ∈ s.site.readies, r.1 ≠ ntCw b) → s.site.stopReq = false →
      let u := (pass (t.takeMessage p 2) p b).onSite fun x => { x with readies := x.readies ++ [(ntCw b, ntHtx b)] }
      exec (.ready at_ p b) s = .next u.resumeAll ∧
      (∀ since, s.site.phase = .ready since → u.site.readies.length = siteSize j.image →
        let h := 3900 * ((u.site.readies.foldl (fun a x => Nat.max a x.2) 0 + 100000000 + 3899) / 3900)
        s.site.ownReady + 10000000 ≤ h → ∃ w k, exec (.ready at_ p b) s = .next w ∧ w.job = some k ∧ k.phase = .armed ∧ k.fresh = true ∧
          k.hasEpoch = true ∧ k.epoch = (h : Int) - j.sn ∧ k.step = j.step ∧ w.site.phase = .idle)) ∧
    ((∃ since, s.site.phase = .warm since ∧ s.ht.state ≠ .locked ∧ since + 5000000000 ≤ t.now) ∨
      (∃ since, s.site.phase = .ckpt since ∧ since + 6000000000 ≤ t.now) ∨
      (∃ since, s.site.phase = .ready since ∧ since + 60000000000 ≤ t.now) →
      exec (.restartFailed at_) s = .next (failed t Ev.restartFailed))

/-- DIGEST and REPLICA_REPAIR_MESSAGE. -/
def Obligations.ReplicasCompareAndRepair : Prop :=
  ∀ (s : State) (at_ p : Nat) (j : Job),
    let t := s.tick at_
    s.job = some j →
    (∀ b, ntKind b = 4 → ntJob b = imgJobId j.image → ntCw b ≠ imgCw j.image → j.step ≤ ntStep b + 2 →
      (∀ d ∈ s.site.digests, ¬ (d.1 = ntCw b ∧ d.2.1 = ntStep b)) → exec (.digest at_ p b) s =
        .next ((((t.takeMessage p 2).alongD (b.slice 0 64) (some p)).onSite fun x =>
          { x with digests := x.digests ++ [(ntCw b, ntStep b, ntEpoch b, ntDigest b, ntDesc b)] }).compareReplicas (ntStep b))) ∧
    let t := t.takeMessage p 2
    (∀ m r, repairAsks m = true → repairCw m = imgCw j.image → t.repairAnswer j m = some r →
      exec (.replicaRepairMessage at_ p m) s = .next (t.emit (.repair p r))) ∧
    (∀ m, repairAsks m = true → repairCw m ≠ imgCw j.image → exec (.replicaRepairMessage at_ p m) s = .next (t.emit (.repair (p ^^^ 1) m))) ∧
    (∀ m, repairAsks m = false → s.site.source ≠ some (repairCw m) →
      exec (.replicaRepairMessage at_ p m) s = .next (t.emit (.repair (p ^^^ 1) m))) ∧
    (∀ m, repairAsks m = false → s.site.source = some (repairCw m) → exec (.replicaRepairMessage at_ p m) s =
      let next := t.repairNext j m
      let asks := s.site.asks + next.length - 1
      .next (({ t with out := t.out ++ next.map fun r => Out.repair (dPort j.image) r } : State).onSite fun x =>
        { x with
          pulled := (match m with | .leaf _ tensor copy i d => x.pulled ++ [(tensor, copy, i, d)] | _ => x.pulled)
          asks, source := if asks = 0 then none else x.source }))

/-- What the shared reception of every authenticated Acrix row (R339) takes in and refuses. -/
def Obligations.AcrixReception : Prop :=
  ∀ (s : State) (p r : Nat) (dg : Buf) (want : Nat → Bool),
    let h := AcxHdr.ofBuf (dg.slice 0 48)
    (∀ g u, s.rxDatagram p r dg want = (some g, u) →
      64 ≤ dg.len ∧ want h.type = true ∧ (dg.slice 0 48).fld 4 4 = 3 ∧ s.placeOf p h.session = some g.k ∧ g.h = h ∧
      (s.sess g.k).listens = true ∧ h.seq < (s.sess g.k).ackBase + 2097152 ∧
      (∃ key next, (s.sess g.k).rxKey h.epoch s.now = some (key, next) ∧
        gcmOpen (keyOf key) (acxNonce key h.seq h.txCount) (dg.slice 0 48) (dg.drop 48) = some g.text) ∧
      (g.fresh = true ↔ (s.sess g.k).ackBase ≤ h.seq ∧ h.seq ∉ (s.sess g.k).gotAbove) ∧ (u.sess g.k).state ≠ .closed) ∧
    (∀ k, 64 ≤ dg.len → want h.type = true → (dg.slice 0 48).fld 4 4 = 3 → s.placeOf p h.session = some k → (s.sess k).listens = true →
      (s.farPort p).slice.isSome = true →
      (∀ key next, (s.sess k).rxKey h.epoch s.now = some (key, next) →
        ((s.sess k).ackBase + 2097152 ≤ h.seq → s.rxDatagram p r dg want =
          (none, s.onSess k fun x => { x with winDrops := satAdd 32 x.winDrops 1 })) ∧
        (h.seq < (s.sess k).ackBase + 2097152 → (s.sess k).authEvAt = some s.now →
          gcmOpen (keyOf key) (acxNonce key h.seq h.txCount) (dg.slice 0 48) (dg.drop 48) = none →
          s.rxDatagram p r dg want = (none, s.onSess k fun x => { x with authFails := satAdd 16 x.authFails 1 }))) ∧
      (h.epoch < (s.sess k).rxEpoch → (s.sess k).rxKey h.epoch s.now = none →
        s.rxDatagram p r dg want = (none, s.onSess k fun x => { x with staleEp := satAdd 32 x.staleEp 1 })))

/-- DATA_DATAGRAM_RX, MANIFEST_RX, DIGEST_RX, NOTICE_RX, REQUEST_RX, ACK_RX, HEARTBEAT_RX, BULK_RX and CLOSE_RX, of a datagram that authenticates. -/
def Obligations.AcrixDatagramsComplete : Prop :=
  ∀ (s : State) (at_ p r : Nat) (dg : Buf) (g : Got) (u : State),
    let t := s.tick at_
    let f := g.h.frag
    let x := u.frag f
    (∀ j c, t.rxDatagram p r dg (· = 1) = (some g, u) → u.job = some j → (chunkPlan j.image f)[g.h.chunk]? = some c →
      let site := chunkSite g.text
      c.good (imgFragCfg j.image f).twoBit g.text = true → chunkRound g.text = g.h.round → x.jstate ≠ 0 →
      ¬ (g.h.round < x.closed ∧ g.h.round + 1 < x.nextAdopt ∧
        ∀ m ∈ x.adopted, ¬ (x.closed ≤ manRound m ∧ manLists m g.h.round site = true)) →
      let key := carKey g.h.round site
      let put (w : State) : State := w.onFrag f fun x =>
        { x with
          caravans := tset [] x.caravans key (tset Buf.empty (tget [] x.caravans key) g.h.chunk g.text)
          chunksOf := tset 0 x.chunksOf key (chunkPlan j.image f).length }
      (u.rxPlaces = none → exec (.dataDatagramRx at_ p r dg) s = .next (put u)) ∧
      (∀ base n, u.rxPlaces = some (base, n) → u.rxPlaceFor n f key g.h.chunk = none → exec (.dataDatagramRx at_ p r dg) s = .next u) ∧
      (∀ base n k, u.rxPlaces = some (base, n) → u.rxPlaceFor n f key g.h.chunk = some k → exec (.dataDatagramRx at_ p r dg) s =
        .next (put ((u.ergWrite (base + 8192 * k) 8192 (g.text.val % 256 ^ 8192)).onAcx fun a =>
          { a with rxSlots := (a.rxSlots.filter fun e => e.1 ≠ k) ++ [(k, f, key, g.h.chunk)] })))) ∧
    (∀ j, t.rxDatagram p r dg (· = 2) = (some g, u) → u.job = some j →
      let m := manSwap g.text
      g.fresh = true → manGood g.text = true → x.jstate ≠ 0 → manFrag m = f →
      (∀ a, manRound m < x.nextAdopt → x.jstate ≠ 1 → x.manifest (manRound m) = some a → a ≠ m →
        exec (.manifestRx at_ p r dg) s = .next (u.onFrag f fun x => { x with conflicts := satAdd 16 x.conflicts 1 })) ∧
      (x.nextAdopt ≤ manRound m ∨ x.jstate = 1 → m ∉ x.held → exec (.manifestRx at_ p r dg) s =
        .next (((u.onFrag f fun x => { x with held := x.held ++ [m] }).adoptAll f 64).closeEmpty j f 64))) ∧
    (t.rxDatagram p r dg (· = 3) = (some g, u) → g.fresh = true → x.jstate ≠ 0 → exec (.digestRx at_ p r dg) s =
      .next ((u.onFrag f fun x =>
        { x with others := x.others.filter (fun o => !(o.1 = g.h.site && o.2.1 = g.h.round)) ++
            [(g.h.site, g.h.round, g.text.be 0 16, g.text.be 16 16, u.stepNo)] }).compareRound f g.h.round false)) ∧
    (∀ j, t.rxDatagram p r dg (· = 4) = (some g, u) → u.job = some j → g.fresh = true →
      (g.text.be 0 4 ≠ pullMark → exec (.noticeRx at_ p r dg) s =
        .next (u.onFrag f fun x => { x with notices := tset 0 x.notices g.h.site ((g.text.be 0 4 + 1) % 2 ^ 32 + 1) })) ∧
      (g.text.be 0 4 = pullMark → u.roundOwner = false → exec (.noticeRx at_ p r dg) s = .next u) ∧
      (g.text.be 0 4 = pullMark → u.roundOwner = true → x.jstate = 3 → u.applying j f = false →
        ((u.sess g.k).flight ++ (u.sess g.k).queue ++ (u.sess g.k).outStream).any (fun d => d.type = 8) = false →
        exec (.noticeRx at_ p r dg) s =
          let l := u.donorRecs j.image f
          .next (u.offer g.k (bulkOf f (Buf.cat ((l ++ [endRec l (imgEpoch j.image) j.step]).map Rec.bytes)))))) ∧
    (t.rxDatagram p r dg (· = 5) = (some g, u) → g.fresh = true → u.roundOwner = false → exec (.requestRx at_ p r dg) s = .next u) ∧
    (t.rxDatagram p r dg (· = 5) = (some g, u) → g.fresh = true → u.roundOwner = true → exec (.requestRx at_ p r dg) s =
      let w := u.readChunks f
      let x := w.frag f
      .next (w.offer g.k ((List.range (g.text.len / 8)).filterMap fun i =>
        let key := carKey (g.text.be (8 * i + 1) 4) (g.text.be (8 * i) 1)
        let k := g.text.be (8 * i + 5) 3
        ((tget [] x.caravans key).find? fun q => q.1 = k).map fun q =>
          newDatagram 1 (g.text.be (8 * i + 1) 4) f k (k + 1 = tget 0 x.chunksOf key) q.2))) ∧
    (t.rxDatagram p r dg (· = 6) = (some g, u) → exec (.ackRx at_ p r dg) s =
      .next (u.ackArrived g.k g.h fun q => (List.range (Nat.min (g.text.be 0 2) 1023)).any fun i =>
        g.text.be (8 + 8 * i) 6 ≤ q && q < g.text.be (8 + 8 * i) 6 + g.text.be (14 + 8 * i) 2)) ∧
    (t.rxDatagram p r dg (· = 7) = (some g, u) → exec (.heartbeatRx at_ p r dg) s =
      let w := if (u.sess g.k).state = .opening then u.opened g.k else u
      let rx := g.text.byte 6
      let w := w.onSess g.k fun y =>
        (((y.toFloor (g.text.be 0 6)).onRoute 0 fun z => { z with peerOk := rx.testBit 0 }).onRoute 1
          fun z => { z with peerOk := rx.testBit 1 }).onRoute r fun z =>
            if !z.failed then z
            else if z.hbRun + 1 < 16 then { z with hbRun := z.hbRun + 1 }
            else { z with failed := false, rxOk := true, hbRun := 0 }
      .next (((w.settleRoute g.k 0).settleRoute g.k 1).reheld g.k)) ∧
    (t.rxDatagram p r dg (· = 8) = (some g, u) → g.fresh = true → exec (.bulkRx at_ p r dg) s =
      let w := u.onSess g.k fun y =>
        let y := if (match y.inStream with | (n, _) :: _ => decide (n / 2 ^ 32 = g.h.round) | [] => true) then y
          else { y with inStream := [], inLast := none }
        { y with
          inStream := tset Buf.empty y.inStream (g.h.round * 2 ^ 32 + g.h.chunk) g.text
          inLast := if g.h.last then some (g.h.round * 2 ^ 32 + g.h.chunk) else y.inLast }
      .next (match (w.sess g.k).stream, w.job with
        | some st, some j => if (w.sess g.k).peer < 5 then w.pullArrived j.image g.k g.h.round st else w
        | _, _ => w)) ∧
    (t.rxDatagram p r dg (· = 9) = (some g, u) → g.fresh = true → exec (.closeRx at_ p r dg) s = .next (u.closeSess g.k true))

/-- INIT_RX, ACCEPT_RX, FOREIGN_FRAME, NEIGHBOR_SOLICITATION, FAR_ROUTE_LINK_UP and WEIR_BUDGET_EFFECTIVE. -/
def Obligations.SessionsOpenAndFramesAnswer : Prop :=
  ∀ (s : State) (at_ p r : Nat) (b : Buf),
    let t := s.tick at_
    let rejected : State := (t.onAcx fun a => { a with rejected := a.rejected + 1 }).raise Ev.acxSessionRejected p
    let site := b.byte 10
    (t.initGood p b = false → exec (.initRx at_ p r b) s = .next rejected) ∧
    (t.initGood p b = true →
      let w := match t.places.find? fun k => (t.sess k).peer = site && (t.sess k).state = .opening && !(t.sess k).initiator with
        | some k => t.putSess k { Session.reset with outStream := (t.sess k).outStream, used := true, peer := site, port := p }
        | none => t
      (w.newPlace site false = none → exec (.initRx at_ p r b) s =
        .next ((w.onAcx fun a => { a with rejected := a.rejected + 1 }).raise Ev.acxSessionRejected p)) ∧
      (∀ k id kk nr seed u, w.newPlace site false = some k → id = w.pickSessId.1 → kk = w.pickSessId.2.random.1 →
        nr = w.pickSessId.2.random.2.random.1 → (seed, u) = w.pickSessId.2.random.2.random.2.random → exec (.initRx at_ p r b) s =
          let x : Session :=
            { Session.reset with
              used := true, localId := id, peerId := b.be 0 2, state := .opening, peer := site, port := p, nonceI := b.be 15 32
              nonceR := nr, openSince := u.now, outStream := (w.sess k).outStream, replacing := w.openPlace site }
          let u := (u.putSess k (x.derive kk u.now u.htNow)).startWeir k
          let enc := rsaPublic (certModulus (b.slice helloLen 832)) (oaepEncode kk seed)
          let body := Buf.cat [helloHead id u.imageId u.ownSite u.cw nr, u.identityChain, Buf.ofBe 384 enc]
          .next (u.sendHello k 0xB (b.be 0 2) (body.app (identitySig (sha256 ((sha256Buf b).app body))))))) ∧
    (t.places.find? (fun k => (t.sess k).port = p && t.acceptGood k b) = none → exec (.acceptRx at_ p r b) s = .next rejected) ∧
    (Config.identityDecrypt (b.be (helloLen + 1664) 384) = none → exec (.acceptRx at_ p r b) s = .next rejected) ∧
    (∀ k kk, t.places.find? (fun k => (t.sess k).port = p && t.acceptGood k b) = some k →
      Config.identityDecrypt (b.be (helloLen + 1664) 384) = some kk → exec (.acceptRx at_ p r b) s =
        .next (((t.onSess k fun x =>
          ({ x with peerId := b.be 0 2, nonceR := b.be 15 32 } : Session).derive (kk % 2 ^ 256) t.now t.htNow).opened k).sendHeartbeats k)) ∧
    (goodFrame b = none → exec (.foreignFrame at_ p r b) s =
      .next (t.onFarPort p fun x => { x with fcsErrors := satAdd 32 x.fcsErrors 1 })) ∧
    (∀ f, goodFrame b = some f → isForeign ((t.farPort p).route r) f = true → exec (.foreignFrame at_ p r b) s =
      .next (t.onFarPort p fun x => { x with foreign := satAdd 32 x.foreign 1 })) ∧
    (((t.farPort p).route r).linkUp = true →
      (∀ f, goodFrame b = some f → f.len ≠ 0 → forRoute ((t.farPort p).route r) f = true → f.byte (ipOff f + 6) = 58 →
        f.byte (ipOff f + 40) = 135 → f.be (ipOff f + 48) 16 = ((t.farPort p).route r).ip6 → exec (.neighborSolicitation at_ p r b) s =
          .next (t.emit (.frame p r (advert ((t.farPort p).route r) f))))) ∧
    (s.pinsLive = true → exec (.farRouteLinkUp at_ p r) s =
      let u := t.onFarPort p fun x => x.onRoute r fun y => { y with linkUp := true }
      .next (u.places.foldl (fun u k => if (u.sess k).port = p then u.settleRoute k r else u) u)) ∧
    (∀ target c, target < 5 → (t.partner target).budgets.find? (fun b => b.1 ≤ t.htNow && (t.partner target).budgets.all fun c => b.1 ≤ c.1) = some c →
      exec (.weirBudgetEffective at_ target) s =
        let q := t.partner target
        let u := t.putPartner target { q with budgets := q.budgets.erase c, rate := c.2.1, burst := c.2.2 }
        let ks := u.places.filter fun k => (u.sess k).peer = target && !(u.sess k).bulk
        let u := ks.foldl (fun u k => u.onSess k fun x => x.setWeir u.now c.2.1 c.2.2) u
        .next (match ks with
          | k :: _ => u.raiseSess Ev.acxBudgetChanged k
          | [] => u.raise Ev.acxBudgetChanged q.port [(16, 0), (3, target)])) ∧
    (∀ target k c, 5 ≤ target → t.places.find? (fun k => (t.sess k).localId = target - 0x100 && (t.sess k).bulk) = some k →
      (t.sess k).budgets.find? (fun b => b.1 ≤ t.htNow && (t.sess k).budgets.all fun c => b.1 ≤ c.1) = some c →
      exec (.weirBudgetEffective at_ target) s = .next ((t.onSess k fun x =>
        ({ x with budgets := x.budgets.erase c } : Session).setWeir t.now c.2.1 c.2.2).raiseSess Ev.acxBudgetChanged k))

/-- INIT_RETRY, ACK_TIMER, HEARTBEAT_TIMER, RTO_EXPIRY, DATAGRAM_TRANSMIT, ROUTE_FAIL, SESSION_TIMEOUT, ACX_KEY_RATCHET and KEY_HOLD_EXPIRY. -/
def Obligations.SessionTimersComplete : Prop :=
  ∀ (s : State) (at_ k : Nat),
    let t := s.tick at_
    let x := s.sess k
    (x.state = .opening → x.initiator = true → x.initAt + x.initGap ≤ t.now →
      (x.waitMb.isSome = true → x.openSince + 30000000000 ≤ t.now → exec (.initRetry at_ k) s = .next (t.closeSess k true)) ∧
      (x.waitMb = none ∨ t.now < x.openSince + 30000000000 → exec (.initRetry at_ k) s =
        .next ((t.onSess k fun x => { x with initAt := t.now, initGap := Nat.min (2 * x.initGap) 30000000000 }).sendHello k 0xA 0 x.initPay))) ∧
    (x.state = .open_ → x.unrep ≠ 0 → x.ackAt + 100000 ≤ t.now ∨ 64 ≤ x.unrep → exec (.ackTimer at_ k) s =
      let runs := runsOf (x.gotAbove.filter fun q => x.ackFrom ≤ q)
      let out := runs.take 1023
      let pay := Buf.cat (((Buf.ofBe 2 out.length).app (Buf.zeros 6)) :: out.map fun r => (Buf.ofBe 6 r.1).app (Buf.ofBe 2 r.2))
      let u := x.inUse.foldl (fun u r => u.sendLoose k r 6 pay) t
      .next (u.onSess k fun y =>
        { y with unrep := 0, ackAt := u.now, ackFrom := match (runs.drop 1023).head? with | some r => r.1 | none => 0 })) ∧
    (x.state = .open_ ∨ x.state = .held → x.hbAt + 500000 ≤ t.now → exec (.heartbeatTimer at_ k) s = .next (t.sendHeartbeats k)) ∧
    (∀ seq d, x.flight.find? (fun d => d.seq = seq && !d.lost) = some d →
      (t.now < d.sentAt + Nat.min (d.rtoNs * 2 ^ d.timeouts) 2000000000 → exec (.rtoExpiry at_ k seq) s = .next t) ∧
      (d.sentAt + Nat.min (d.rtoNs * 2 ^ d.timeouts) 2000000000 ≤ t.now → exec (.rtoExpiry at_ k seq) s =
        .next ((t.onSess k fun x => { x with flight := x.flight.map fun d =>
          if d.seq = seq then { d with lost := true, timeouts := d.timeouts + 1 } else d }).lossCheck k))) ∧
    (let u := t.onSess k fun x => x.fill t.now
      let y := u.sess k
      y.state = .open_ → ∀ d isNew r, y.next u.cistFull = some (d, isNew) → y.txEpoch < 0xFFF0 →
      let seq := if isNew then y.nextSeq else d.seq
      seq < 2 ^ 48 - 1 → y.pickRoute (if isNew then y.lastRoute else d.route) = some r →
      let cost := 8000 * lineBytes ((u.farPort y.port).route r) d.payload.len
      (y.tokens < cost → exec (.datagramTransmit at_ k) s = .next u) ∧
      (cost ≤ y.tokens → exec (.datagramTransmit at_ k) s =
        let d' : Datagram := { d with seq, txCount := d.txCount + 1, route := r, sentAt := u.now, rtoNs := (y.route r).rto, lost := false }
        .next ((u.onSess k fun x =>
          let x := { x with tokens := x.tokens - cost }
          if isNew then
            ({ x with queue := x.queue.erase d, flight := x.flight ++ [d'], nextSeq := x.nextSeq + 1, lastRoute := r } : Session).refill u.now
          else
            { x with flight := x.flight.map (fun z => if z.seq = seq then d' else z), resends := satAdd 32 x.resends 1 }).sendSealed
          k r d.type seq d.txCount d.round d.frag d.chunk d.last d.payload))) ∧
    (∀ route lost, x.state = .open_ ∨ x.state = .held → (x.route route).failed = false →
      lost = true ∨ (x.route route).lastRx + 1500000 ≤ t.now → exec (.routeFail at_ k route lost) s =
        let u := if lost then t.onFarPort x.port fun p => p.onRoute route fun r => { r with linkUp := false } else t
        let u := u.onSess k fun x => x.onRoute route fun r =>
          { r with failed := true, rxOk := false, hbRun := 0, hasRtt := false, cands := [] }
        let u := (u.onFarPort x.port fun p => { p with failovers := satAdd 16 p.failovers 1 }).settleRoute k route
        let y := u.sess k
        .next (if y.state = .open_ && y.ra.failed && y.rb.failed
          then (u.onSess k fun x => { x with state := .held, heldAt := u.now }).raiseSess Ev.acxPortDown k
          else u.lossCheck k)) ∧
    (x.state = .held → x.heldAt + (s.partner x.peer).timeoutS * 1000000000 ≤ t.now →
      exec (.sessionTimeout at_ k) s = .next (t.closeSess k true)) ∧
    (x.state = .open_ ∨ x.state = .held → 2 ^ 32 ≤ x.epochSent ∨ x.epochAt + 600000000000 ≤ t.htNow →
      (x.txEpoch + 1 < 0xFFF0 → exec (.acxKeyRatchet at_ k) s =
        .next ((t.onSess k fun x => x.ratchet t.htNow).raiseSess Ev.acxKeyRatchet k)) ∧
      (0xFFF0 ≤ x.txEpoch + 1 → exec (.acxKeyRatchet at_ k) s = .next (t.reopen k))) ∧
    (∀ key till, x.keyRxOld = some (key, till) → till ≤ t.now →
      exec (.keyHoldExpiry at_ k) s = .next (t.onSess k fun x => { x with keyRxOld := none }))

/-- ACRIX_ENCODE_COMPLETE, ROUND_SUM, ROUND_UNOBTAINABLE, BOOTSTRAP_DONE, SNAPSHOT_SHIFT_COMPLETE, ACRIX_IDLE_SLICE and PASS_COMPLETE. -/
def Obligations.OuterRoundsComplete : Prop :=
  ∀ (s : State) (at_ f : Nat),
    let t := s.tick at_
    let x := s.frag f
    (∀ j r, s.job = some j → x.encoding = some r → x.encHeld = false → t.sliceRuns 2 = true →
      ((∃ o, x.out.find? (fun o => o.round = r) = some o ∧ o.snapStep = j.step) → t.snapCopied j f = true) →
      exec (.acrixEncodeComplete at_ f) s =
        let b := j.image
        let site := imgSite b
        let v := ((t.noteFrag b f fun _ => .anchor).noteFrag b f fun y => .snapshot (r % y.snaps)).noteFrag b f fun _ => .residual
        if v.keepsCkpt = false then .next v
        else
        let c := (chunkPlan b f).foldl (fun (a : List Buf × State) k =>
          let e := a.2.encodeChunk k (imgFragCfg b f).twoBit site r
          (a.1 ++ [e.1], e.2)) ([], v)
        let u := c.2.onFrag f fun x =>
          let x := { x with residRound := r + 1, out := x.out.map fun (o : Round) => if o.round = r then { o with encoded := true } else o }
          { x with encoding := x.nextEncode }
        let l : Tab Buf := c.1.zipIdx.map fun (q : Buf × Nat) => (q.2, q.1)
        let w := u.onFrag f fun x =>
          { x with caravans := tset [] x.caravans (carKey r site) l, chunksOf := tset 0 x.chunksOf (carKey r site) c.1.length }
        .next (if !imgNormEn b then u else if (w.frag f).sends then w.sendCaravan f r c.1 else w)) ∧
    (∀ j m, s.job = some j → x.manifest x.closed = some m → 2 ≤ x.jstate → x.bootReady = false → x.sumReady = false → manContribs m ≠ 0 →
      imgNormEn j.image = true → x.allHeld m = true → t.sliceRuns 3 = true → exec (.roundSum at_ f) s =
        let v := t.readChunks f
        .next (if (v.frag f).allHeld m then v.writeSum j.image f m else v)) ∧
    (∀ j m, s.job = some j → x.manifest x.closed = some m → 2 ≤ x.jstate → x.sumReady = false → x.allHeld m = false →
      let c := imgFragCfg j.image f
      ((x.out.find? fun o => o.round = x.closed).map (·.snapStep)).getD (c.phase + x.closed * c.h) + 4 * c.tauMax ≤ j.step →
      exec (.roundUnobtainable at_ f) s = .next ((t.raiseRound Ev.roundUnobtainable f x.closed).enterBootstrap j.image f none)) ∧
    (x.jstate = 1 → x.bootData ≠ [] → exec (.bootstrapDone at_ f) s =
      .next ((t.onFrag f fun x => { x with jstate := 2, bootReady := true }).raiseRound Ev.bootstrapDone f x.bootRound x.donor)) ∧
    (x.shifting = true → t.sliceRuns 4 = true → exec (.snapshotShiftComplete at_ f) s = .next (t.onFrag f fun x => { x with shifting := false })) ∧
    (∀ p, s.job = none → s.acx.idlePort = p → exec (.acrixIdleSlice at_ p) s =
      let u := ({ t with acx := { t.acx with ports := tmap FarPort.reset (fun p => { p with slice := none }) t.acx.ports } } : State).onFarPort p
        fun q => { q with slice := some (0, 63, t.now + 10000), staged := 0 }
      .next (u.encodeGate.onAcx fun a => { a with idlePort := (p + 1) % 4 })) ∧
    (∀ die j i step fin, s.job = some j → (s.die die).pass = some (i, step, fin) → exec (.passComplete at_ die) s =
      let u := if step = j.step then t.countStall j die i else t
      let u := (u.onDie die fun d => { d with pass := none }).completeEntry i step
      let p := imgPass j.image (imgEntry j.image i).arg
      let g := passFragment j.image p
      let finite := match u.com.decision with | some d => decide (d.decision = Decision.finite) | none => false
      let u := if (Pass.ofBuf p).rule = 4 && finite &&
          u.passesDone j.image fun q => (Pass.ofBuf q).rule = 4 && passFragment j.image q = g then u.closeAfterPasses j g else u
      .next (if u.passesDone j.image fun _ => true then u.afterPasses j else u))

/-- R58 whole: what SO_SIGNAL does to the sync object it reaches, and where an arm and a restore start all of them. -/
def Obligations.SyncObjectRule : Prop :=
  (∀ (s : State) (at_ k : Nat) (m : Int) (skip : Bool),
    let o := s.so k
    let t := s.tick at_
    (o.step < m → ∃ z, exec (.soSignal at_ k m skip) s = .next z ∧ z = t.putSo k ⟨m, 1, skip⟩ ∧ z.so k = ⟨m, 1, skip⟩ ∧
      ∀ i, i ≠ k → z.so i = s.so i) ∧
    (m = o.step → ∃ z, exec (.soSignal at_ k m skip) s = .next z ∧
      z = t.putSo k ⟨m, Nat.min (o.count + 1) (2 ^ 32 - 1), o.skip || skip⟩ ∧
      z.so k = ⟨m, Nat.min (o.count + 1) (2 ^ 32 - 1), o.skip || skip⟩ ∧ ∀ i, i ≠ k → z.so i = s.so i) ∧
    (m < o.step → ∃ z, exec (.soSignal at_ k m skip) s = .next z ∧
      z = ({ t with soStale := s.soStale + 1 } : State).raise Ev.soStaleSignal 0 [] m.toNat ∧ ∀ i, z.so i = s.so i)) ∧
  (∀ (s : State) (b : Buf) (epoch : Option Int) (seed sfl : Nat) (join : Option (Option Nat)) (k : Nat),
    (s.armJob b epoch seed sfl join).so k = ⟨-1, 0, false⟩) ∧
  (∀ (s t : State) (e in1 : Buf) (recs : Option (List Rec)), s.restoreFrom e in1 recs = (0, t) →
    ∃ j, t.job = some j ∧ ∀ k, t.so k = ⟨(j.step : Int) - 1, 0, false⟩)

/-- R165 whole, with the correction that a read of one SRAM word applies. -/
def Obligations.SymbolDecoderRule : Prop :=
  decodeSyn none 0 0 = .clean ∧ decodeSyn none 0 0x27 = .poison ∧
  (∀ s0 s1 j, 0 < s0 → s0 < 256 → j < 10 → s1 = gfTimesPow j s0 → decodeSyn none s0 s1 = .single j s0) ∧
  (∀ s0 s1, 0 < s0 → s0 < 256 → s1 < 256 → (∀ j < 10, gfTimesPow j s0 ≠ s1) → decodeSyn none s0 s1 = .bad) ∧
  (∀ s1, 0 < s1 → s1 < 256 → s1 ≠ 0x27 → decodeSyn none 0 s1 = .bad) ∧
  (∀ (r : Ram) (w j e : Nat), r.status w = .single j e → Memory.wf r.chk = true →
    r.readAt (8 * w) 8 = ⟨if j < 8 then r.data.load (8 * w) 8 ^^^ (e <<< (8 * j)) else r.data.load (8 * w) 8, [w], []⟩)

/-- R387 whole: of any run of doorbells only the last value counts, and a count above 64 sets DB_RANGE and stops the mailbox. -/
def Obligations.DoorbellsLoseNoCommand : Prop :=
  ∀ (s : State) (mb : Nat) (l : List (Nat × Nat)) (at_ tail : Nat), s.barUp = true → (s.mbox mb).state = .open_ → l ≠ [] →
    let h := (s.mbox mb).cmdHead
    let ahead (x : Nat) : Nat := (x % 2 ^ 16 + 2 ^ 16 - h) % 2 ^ 16
    h < 2 ^ 16 → (∀ x ∈ l, ahead x.2 ≤ 64) → 64 < ahead tail →
    ∃ t z, runAll (l.map fun x => .mbDoorbell x.1 mb x.2) s = .next t ∧
      (t.mbox mb).state = .open_ ∧ (t.mbox mb).cmdTail = (l.getLastD (0, 0)).2 % 2 ^ 16 ∧ (t.mbox mb).cmdHead = h ∧
      (t.mbox mb).errs = (s.mbox mb).errs ∧ (t.mbox mb).cmds = (s.mbox mb).cmds ∧
      exec (.mbDoorbell at_ mb tail) t = .next z ∧ (z.mbox mb).state = .stopped ∧ (z.mbox mb).errs = (s.mbox mb).errs ||| 2 ∧
      (z.mbox mb).cmdTail = tail % 2 ^ 16

/-- Every row of the command reference: where it is turned away, and where it waits. A command that waits changes nothing but the clock. -/
def Obligations.CommandsTurnedAway : Prop :=
  ∀ (row : Nat × (State → Call → Bool) × (Nat → Nat → Option Buf → Option Buf → Instr)), row ∈ commandRows →
    ∀ (s : State) (at_ mb : Nat) (e : Buf) (b0 b1 : Option Buf),
    let u := s.tick at_
    let c : Call := ⟨mb, e, b0, b1⟩
    (u.posts row.1 mb e = true → row.2.1 (u.begun mb) c = false → exec (row.2.2 at_ mb b0 b1) s = .next ((u.begun mb).finish mb 4)) ∧
    (u.posts row.1 mb e = true → row.2.1 (u.begun mb) c = true → mb = 16 → needsBuffer e = true →
      exec (row.2.2 at_ mb b0 b1) s = .next ((u.begun mb).finish mb 7)) ∧
    (u.posts row.1 mb e = true → row.2.1 (u.begun mb) c = true → ¬ (mb = 16 ∧ needsBuffer e = true) → c.bufStatus ≠ 0 →
      exec (row.2.2 at_ mb b0 b1) s = .next ((u.begun mb).finish mb c.bufStatus)) ∧
    ((∀ e, u.posts row.1 mb e = false) → exec (row.2.2 at_ mb b0 b1) s = .next u)

/-- Stores and clears of the byte memories, and whole-word writes of the memories under the symbol code. That an unlisted byte reads as 0 is the model's choice (log entry 5). -/
def Obligations.MemoriesReadBack : Prop :=
  (∀ (m : Mem) (a n v : Nat), Memory.wf m = true →
    Memory.wf (m.store a n v) = true ∧ (m.store a n v).load a n = v % 256 ^ n ∧
    (∀ x, x < a ∨ a + n ≤ x → (m.store a n v).read x = m.read x) ∧
    Memory.wf (m.clear a n) = true ∧ (m.clear a n).load a n = 0 ∧ (∀ x, x < a ∨ a + n ≤ x → (m.clear a n).read x = m.read x)) ∧
  (∀ (r : Ram) (a n v : Nat), Memory.wf r.data = true → Memory.wf r.chk = true → a % 8 = 0 → n % 8 = 0 →
    let w := r.writeAt a n v
    Memory.wf w.data = true ∧ Memory.wf w.chk = true ∧ w.readAt a n = ⟨v % 256 ^ n, [], []⟩ ∧
    (∀ x, x < a ∨ a + n ≤ x → w.data.read x = r.data.read x) ∧
    (∀ k, k < a / 8 ∨ (a + n) / 8 ≤ k → w.chkOf k = r.chkOf k))

/-- The check symbols of R164 make both syndromes 0, and every single-symbol error of every codeword decodes to its place and value. -/
def Obligations.SymbolCodeCorrects : Prop :=
  ∀ d : Nat, d < 2 ^ 64 →
    syndromes (codeword d) = (0, 0) ∧
    (∀ p e, p < 10 → 0 < e → e < 256 →
      decodeSyn none (syndromes (codeword d ++ [(p, e)])).1 (syndromes (codeword d ++ [(p, e)])).2 = .single p e)

/-- The rounding of R224, its result bit by bit, and its probability as a count of draws. -/
def Obligations.StochasticRoundingRule : Prop :=
  (∀ y r : Nat, y < 2 ^ 32 → r < 2 ^ 16 →
    let z := y % 2 ^ 31 + r
    (y % 2 ^ 31 = 0 → srRound y r = (y / 2 ^ 16, false)) ∧
    (y % 2 ^ 31 ≠ 0 → z / 2 ^ 23 % 256 = 255 → srRound y r = (if 2 ^ 31 ≤ y then 0xFF7F else 0x7F7F, true)) ∧
    (y % 2 ^ 31 ≠ 0 → z / 2 ^ 23 % 256 ≠ 255 → srRound y r = (y / 2 ^ 31 * 2 ^ 15 + z / 2 ^ 16 % 2 ^ 15, false)) ∧
    (y % 2 ^ 31 < 0x7F800000 → y % 2 ^ 31 = 0 ∨ 2 ^ 23 ≤ y % 2 ^ 31 → (srRound y r).1 % 2 ^ 15 = 0 ∨ 2 ^ 7 ≤ (srRound y r).1 % 2 ^ 15)) ∧
  (∀ y : Nat, y < 2 ^ 32 → 2 ^ 23 ≤ y % 2 ^ 31 → y % 2 ^ 31 ≤ 0x7F7F0000 →
    (List.range 65536).countP (fun r => (srRound y r).1 % 2 ^ 15 = y % 2 ^ 31 / 2 ^ 16 + 1) = y % 2 ^ 16 ∧
    (List.range 65536).countP (fun r => (srRound y r).1 % 2 ^ 15 = y % 2 ^ 31 / 2 ^ 16) = 65536 - y % 2 ^ 16)

/-- The combination of R237 is commutative and associative, saturation and its NORM_SAT cause included. -/
def Obligations.FloodRecordsCombineInAnyOrder : Prop :=
  (∀ a b : Buf, floodJoin a b = floodJoin b a) ∧
  (∀ a b : Buf, floodJoin a b = none ↔ a.fld 0 80 ≠ b.fld 0 80) ∧
  (∀ a b c : Buf, a.fld 0 80 = b.fld 0 80 → b.fld 0 80 = c.fld 0 80 →
    ∃ x y z, floodJoin a b = some x ∧ floodJoin b c = some y ∧ floodJoin x c = some z ∧ floodJoin a y = some z)

/-- What a session seals, its peer opens: the plaintext comes back, whatever the key, the nonce and the header. -/
def Obligations.SealedDatagramsOpen : Prop :=
  ∀ (key : Buf) (iv : Nat) (aad pt : Buf), gcmOpen key iv aad (gcmSeal key iv aad pt) = some ⟨pt.len, pt.val % 256 ^ pt.len⟩

/-- The limb-pair additions and pending carries of R105 and R106 lose nothing: the accumulator holds the exact sum modulo 2^640, in every order of the blocks. The bound is far above any block sum of two operands. -/
def Obligations.BasinSumsAreExact : Prop :=
  ∀ (a : Acc) (l l' : List Int), (∀ v ∈ l, v.natAbs < 2 ^ 575) → l.Perm l' →
    (l.foldl (fun x v => x.addBlock 8 v) a).int = sext 640 (wrap 640 (a.int + l.sum)) ∧
    (l.foldl (fun x v => x.addBlock 8 v) a).int = (l'.foldl (fun x v => x.addBlock 8 v) a).int ∧
    (l.foldl (fun x v => x.addBlock 8 v) a).folded.limbs % 2 ^ 640 = (l'.foldl (fun x v => x.addBlock 8 v) a).folded.limbs % 2 ^ 640 ∧
    (l.foldl (fun x v => x.addBlock 8 v) a).spec = a.spec

/-- The promise of R194: without overflow the same blocks give the same bits in every order and grouping. -/
def Obligations.AfxSumsInAnyOrder : Prop :=
  (∀ (a b : Buf) (l l' : List Buf), (∀ x ∈ a :: l, afxWhole x) → (∀ x ∈ l, afxId x = afxId a) →
    (∀ i < 256, ((a :: l).map fun x => (afxElem x i).natAbs).sum < 2 ^ (afxF (afx32 a) + afxH (afx32 a))) → (a :: l).Perm (b :: l') →
    ∃ r, afxSum a l = some r ∧ afxSum b l' = some r ∧ afxWhole r ∧ afxId r = afxId a ∧
      (∀ i < 256, afxElem r i = ((a :: l).map fun x => afxElem x i).sum) ∧
      afxCount r = Nat.min (((a :: l).map afxCount).sum) (2 ^ 32 - 1) ∧ afxStep r = ((a :: l).map afxStep).foldl Nat.max 0) ∧
  (∀ (a b : Buf) (l m : List Buf), (∀ x ∈ a :: l ++ b :: m, afxWhole x) → (∀ x ∈ l ++ b :: m, afxId x = afxId a) →
    (∀ i < 256, ((a :: l ++ b :: m).map fun x => (afxElem x i).natAbs).sum < 2 ^ (afxF (afx32 a) + afxH (afx32 a))) →
    ∃ x y r, afxSum a l = some x ∧ afxSum b m = some y ∧ afxAdd x y = some r ∧ afxSum a (l ++ b :: m) = some r)

/-- No bit of an encoding is dropped: vector instruction words, matrix-operation descriptors, Acrix headers and AFX blocks. -/
def Obligations.FieldsRoundTrip : Prop :=
  (∀ (op : Nat) (f : VFields), op < 256 → f.wf = true → vecFields (vecWord op f) = (op, f)) ∧
  (∀ d : Mat, d.fits = true → Mat.ofBuf (Mat.toBuf d) = d) ∧
  (∀ h : AcxHdr, h.fits = true → AcxHdr.ofBuf h.bytes = h) ∧
  (∀ (h : AfxHdr) (els : List Int), h.fits = true → els.length = 256 →
    (∀ i ∈ els, -((2 ^ (afxF h.w32 + afxH h.w32) : Nat) : Int) ≤ i ∧ i < ((2 ^ (afxF h.w32 + afxH h.w32) : Nat) : Int)) →
    AfxHdr.of (h.block els) = h ∧ afxElems (h.block els) = els)

/-- JOB_ARM, RELAYOUT, JOB_STOP, JOB_CHECKPOINT and JOB_RESTORE where nothing turns them away: the effect of their rules. A command that JOB_ARM or JOB_RESTORE finds in HOLD leaves HOLD first. -/
def Obligations.JobCommandsComplete : Prop :=
  ∀ (s : State) (at_ mb : Nat) (e : Buf) (b0 b1 : Option Buf),
    let c : Call := ⟨mb, e, b0, b1⟩
    let t := (s.tick at_).begun mb
    let offers (op : Nat) (allow : State → Call → Bool) : Prop := (s.tick at_).offers op mb e b0 b1 allow = true
    let u := t.leaveHold
    let raw := c.buf0.data
    let img := raw.slice 0 (imgLen raw)
    let sfl := if c.par 192 8 = 0 then 4 else c.par 192 8
    (offers 0x0401 mayJbImage → s.job = none → 64 ≤ raw.len → signedLen (imgLen raw) ≤ raw.len → c.par 192 8 ≤ 64 →
      u.imageGood raw (imgLen raw) (mainSigner raw) = true → armFailure u img (some (sext 64 (c.par 0 64))) = none →
      exec (.jobArm at_ mb b0 b1) s =
        .next (((u.armJob img (some (sext 64 (c.par 0 64))) (c.par 64 128) sfl (joinOf (c.par 200 1 = 1) (c.par 201 3))).onSite
          fun x => { x with copy := some (raw, c.par 64 128, sfl) }).finish mb 0 (armResp img none))) ∧
    (∀ j, offers 0x0402 mayJb → s.job = some j →
      exec (.jobStop at_ mb b0 b1) s = .next (match j.phase with
        | .stopped => t.finish mb 0
        | .restarting => (t.onJob fun j => { j with stopMb := some mb }).onSite fun x => { x with stopReq := true }
        | .armed => (t.onJob fun j => { j with stopMb := some mb }).stopJob
        | .running => t.onJob fun j => { j with phase := .stopping, stopMb := some mb }
        | .stopping => t.onJob fun j => { j with phase := .stopping, stopMb := some mb })) ∧
    (∀ j, offers 0x0404 mayJb → s.job = some j → c.par 64 1 = 0 → s.com.ckptLocal = none → s.com.ckptWait = none → s.com.ckptWriting = none →
      s.com.ckptTail = none → c.par 0 64 = 0 ∨ j.step < c.par 0 64 →
      exec (.jobCheckpoint at_ mb b0 b1) s = .next (t.onCom fun x => { x with ckptLocal := some (c.par 0 64, some mb) })) ∧
    (∀ j k, offers 0x0404 mayJb → s.job = some j → c.par 64 1 = 1 → s.com.ckptExport = none → s.com.exports = [] →
      c.par 0 64 = 0 ∨ j.step < c.par 0 64 → k ∈ s.places → (s.sess k).localId = c.par 80 16 → (s.sess k).bulk = true →
      (s.sess k).state = .open_ → exec (.jobCheckpoint at_ mb b0 b1) s =
        .next (t.onCom fun x => { x with ckptExport := some (c.par 0 64, c.par 80 16, c.par 96 32, some mb) })) ∧
    (∀ j, offers 0x0405 mayJb → s.job = some j → j.relayout = none → j.oldImage = none → 64 ≤ raw.len →
      signedLen (imgLen raw) ≤ raw.len → j.step < c.par 0 64 → t.imageGood raw (imgLen raw) (mainSigner raw) = true →
      checkFormat img false = [] → State.relayout.relayoutChecks t img = [] → imgJobId img = imgJobId j.image → imgCw img = imgCw j.image →
      (∀ a < 4, imgSize img a = imgSize j.image a) → imgEpoch img = imgEpoch j.image + 1 → (∀ x ∈ imgShards img, x.epoch = imgEpoch img) →
      exec (.relayout at_ mb b0 b1) s = .next ((t.onJob fun j => { j with relayout := some (c.par 0 64, img) }).finish mb 0)) ∧
    (∀ j, offers 0x0403 mayJb → s.job = some j → j.phase = .stopped ∨ j.phase = .armed ∧ j.fresh = true →
      s.com.ckptPending = false → s.inBackground 0x0403 = false →
      (c.par 64 2 = 1 → exec (.jobRestore at_ mb b0 b1) s = .next (u.toBackground c)) ∧
      (∀ h, c.par 64 2 = 0 → u.newestHalf j.image = some h →
        exec (.jobRestore at_ mb b0 b1) s =
          let r := u.restoreFrom e c.buf1.data (u.halfRecs j.image h)
          .next (r.2.finish mb r.1 (if r.1 = 0 then r.2.restoreResp else .empty))) ∧
      (∀ k, c.par 64 2 = 2 →
        u.places.find? (fun k => (u.sess k).localId = c.par 96 16 && (u.sess k).bulk && (u.sess k).state = .open_) = some k →
        exec (.jobRestore at_ mb b0 b1) s =
          .next (((u.onMbox mb fun m => m.onFirst .running fun x => { x with in1 := c.buf1.data }).onSess k fun x =>
            { x with inStream := [], inLast := none }).offer k [newDatagram 8 (c.par 128 32) 0 0 true .empty])))

/-- GUEST_ATTACH, GUEST_DETACH and POWER_STATE where nothing turns them away. -/
def Obligations.GuestAndPowerCommandsComplete : Prop :=
  ∀ (s : State) (at_ mb : Nat) (e : Buf) (b0 b1 : Option Buf),
    let c : Call := ⟨mb, e, b0, b1⟩
    let t := (s.tick at_).begun mb
    let offers (op : Nat) (allow : State → Call → Bool) : Prop := (s.tick at_).offers op mb e b0 b1 allow = true
    let raw := c.buf0.data
    let img := raw.slice 0 (imgLen raw)
    (∀ j keys, offers 0x0501 mayJbImage → s.job = some j → j.phase ≠ .restarting → imgGuestSoCount j.image ≠ 0 → s.guest = none →
      64 ≤ raw.len → signedLen (imgLen raw) ≤ raw.len →
      t.imageGood raw (imgLen raw) (fun x => certRole x = 4 && certJob x = imgJobId raw) = true → keySet c.buf1.data = some keys →
      keys.contains (keySetDigest (certModulus (trailerCert raw (imgLen raw)))) = true → t.guestChecks j.image img = true →
      exec (.guestAttach at_ mb b0 b1) s =
        let z := (t.loadKernels img true).zeroGuest j.image
        let g : Guest := { image := img, seed := c.par 0 128, keys := keys, pending := true, leaving := false, leaveMb := none,
                           stopped := false, done := 0 }
        .next (((({ z with guest := some g, cores := tmap Core.reset Core.attached z.cores } : State).measure 3 (imgId img)
          (imageDigest img (imgLen img))).raise Ev.guestAttached 0 [] j.step true).finish mb 0)) ∧
    (∀ g, offers 0x0502 mayJbGuest → s.guest = some g → exec (.guestDetach at_ mb b0 b1) s =
      .next (({ t with guest := some { g with leaving := true, leaveMb := some mb } } : State).detachGuest)) ∧
    (offers 0x0801 mayOp → c.par 0 2 = 0 → exec (.powerState at_ mb b0 b1) s = .next (t.leaveHold.finish mb 0 (refuserResp 0))) ∧
    (offers 0x0801 mayOp → c.par 0 2 = 1 → s.aon.power = .hold → exec (.powerState at_ mb b0 b1) s =
      .next (t.finish mb 0 (refuserResp 0))) ∧
    (offers 0x0801 mayOp → c.par 0 2 = 2 ∨ c.par 0 2 = 1 ∧ s.aon.power ≠ .hold → t.refusers (c.par 0 2) 1 = 0 →
      exec (.powerState at_ mb b0 b1) s = .next (t.onAon fun a => { a with entering := some (c.par 0 2, mb, t.now) }))

/-- ROLE_CHALLENGE, ROLE_BIND, ATTEST_QUOTE, FW_UPDATE, OWNER_TRANSFER, LIFECYCLE_ADVANCE, DEBUG_ENTER, DEBUG_EXIT and ACC_READ where nothing turns them away. The nonce is a free value (log entry 4). -/
def Obligations.SecurityCommandsComplete : Prop :=
  ∀ (s : State) (at_ mb : Nat) (e : Buf) (b0 b1 : Option Buf),
    let c : Call := ⟨mb, e, b0, b1⟩
    let t := (s.tick at_).begun mb
    let offers (op : Nat) (allow : State → Call → Bool) : Prop := (s.tick at_).offers op mb e b0 b1 allow = true
    (offers 0x0102 mayUn → exec (.roleChallenge at_ mb b0 b1) s =
      .next ((t.random.2.onMbox mb fun m => { m with nonce := some t.random.1 }).finish mb 0 (Buf.ofLe 32 t.random.1))) ∧
    (offers 0x0103 mayUn → (s.mbox mb).role = 0 → 1 ≤ c.par 0 3 → c.par 0 3 ≤ 4 → c.par 0 3 = 4 ∨ c.par 64 64 = 0 →
      1216 ≤ c.buf0.data.len →
      (t.onMbox mb fun m => { m with nonce := none }).proofGood (t.mbox mb).nonce (c.par 0 3) (c.par 64 64) (c.buf0.data.slice 0 1216) = true →
      exec (.roleBind at_ mb b0 b1) s =
        let key := certModulus ((c.buf0.data.slice 0 1216).slice 0 832)
        .next (((t.onMbox mb fun m => { m with nonce := none }).onMbox mb fun m =>
          { m with role := c.par 0 3, roleJob := c.par 64 64, actor := (sha256Buf (Buf.ofBe 384 key)).val, actorKey := key }).finish mb 0)) ∧
    (offers 0x0902 mayAny → t.hasIdentity = true → (t.quote (c.par 0 256)).len ≤ c.buf0.size →
      exec (.attestQuote at_ mb b0 b1) s =
        .next ((t.writeHost c.buf0.exts (t.quote (c.par 0 256))).finish mb 0 .empty (t.quote (c.par 0 256)).len)) ∧
    (offers 0x0903 mayFw → mb ≠ 16 → s.inBackground 0x0903 = false → 64 ≤ c.buf0.data.len →
      signedLen (fwLen c.buf0.data) ≤ c.buf0.data.len → exec (.fwUpdate at_ mb b0 b1) s =
        .next ((t.onMbox mb fun m => m.onFirst .running fun x => { x with phase := .background, in0 := c.buf0.data, in1 := .empty }).onPcie
          fun p => { p with running := none, bg := p.bg ++ [(0x0903, mb, 0)] })) ∧
    (∀ img w, offers 0x0903 mayFw → mb = 16 → img = t.stagedImage.getD .empty → w = t.clearStage → s.inBackground 0x0903 = false →
      64 ≤ img.len → signedLen (fwLen img) ≤ img.len → exec (.fwUpdate at_ mb b0 b1) s =
        .next ((w.onMbox mb fun m => m.onFirst .running fun x => { x with phase := .background, in0 := img, in1 := .empty }).onPcie
          fun p => { p with running := none, bg := p.bg ++ [(0x0903, mb, 0)] })) ∧
    (∀ r key seq, r = c.buf0.data → seq = r.fld 32 16 →
      key = (if s.isl.lifecycle = 0 ∧ (s.mbox mb).role = 1 then (s.mbox mb).actorKey else s.isl.ownerKey) →
      offers 0x0904 mayOw → s.isl.lifecycle ≠ 2 → 928 ≤ r.len → r.fld 0 32 = 0x58544C4F → r.fld 48 464 = 0 →
      r.be 64 32 = t.ownKeyDigest → (∀ j < 16, r.fld (3840 + 32 * j) 32 < 2 ^ 14) → key ≠ 0 →
      pssVerify key (sha256 (r.slice 0 544)) (r.be 544 384) = true → seq = s.isl.transfers + 1 → s.isl.transfers < 16 →
      s.ledgerSpent = false → exec (.ownerTransfer at_ mb b0 b1) s =
        .next (((((t.onIsl fun x => { x with ownerKey := r.be 96 384, transfers := seq, regmap := r.fld 3840 512 }).commandLedger mb
          0x0020 0x0904 c.params r seq).counterLow 0x0020 seq 16 0x0904).finish mb 0))) ∧
    (∀ r key, r = c.buf0.data → key = (if s.isl.lifecycle = 0 ∧ (s.mbox mb).role = 1 then (s.mbox mb).actorKey else s.isl.ownerKey) →
      offers 0x0904 mayOw → s.isl.lifecycle ≠ 2 → 928 ≤ r.len → r.fld 0 32 = 0x58544C4F → r.fld 48 464 = 0 →
      r.be 64 32 = t.ownKeyDigest → (∀ j < 16, r.fld (3840 + 32 * j) 32 < 2 ^ 14) → key ≠ 0 →
      pssVerify key (sha256 (r.slice 0 544)) (r.be 544 384) = true → r.fld 32 16 = 0 → r.be 96 384 = s.isl.ownerKey →
      s.ledgerSpent = false → exec (.ownerTransfer at_ mb b0 b1) s =
        .next (((t.onIsl fun x => { x with regmap := r.fld 3840 512 }).commandLedger mb 0x0020 0x0904 c.params r
          s.isl.transfers).finish mb 0)) ∧
    (offers 0x0905 mayLife → c.par 0 2 = 1 → s.isl.lifecycle = 0 → s.isl.ownerKey ≠ 0 → s.ledgerSpent = false →
      exec (.lifecycleAdvance at_ mb b0 b1) s =
        .next (((t.onIsl fun x => { x with lifecycle := 1 }).commandLedger mb 0x0021 0x0905 c.params .empty 1).finish mb 0)) ∧
    (offers 0x0905 mayLife → c.par 0 2 = 2 → s.isl.lifecycle = 1 → s.job = none → s.ledgerSpent = false →
      exec (.lifecycleAdvance at_ mb b0 b1) s =
        .next ((((((t.onIsl fun x => { x with lifecycle := 2 }).commandLedger mb 0x0021 0x0905 c.params .empty 2).onIsl fun x =>
          { x with hasId := false, idOk := false, ownerKey := 0 }).raise Ev.lifecycleChanged 0x0905).finish mb 0))) ∧
    (∀ g, g = c.buf0.data → offers 0x0A01 mayVeOw → 448 ≤ g.len → s.isl.grants < 32 → g.fld 0 32 = 0x47444C4F →
      g.fld 32 16 = s.isl.grants + 1 → g.fld 48 16 = 0 → t.grantInTime (g.fld 64 64) = true → g.be 16 32 = t.ownKeyDigest →
      g.fld 384 128 = 0 → pssVerify (s.mbox mb).actorKey (sha256 (g.slice 0 64)) (g.be 64 384) = true → s.ledgerSpent = false →
      exec (.debugEnter at_ mb b0 b1) s =
        let used := s.isl.grants + 1
        .next (((((t.onIsl fun x => { x with grants := used, debug := true }).commandLedger mb 0x0030 0x0A01 c.params g used).counterLow
          0x0030 used 32 0x0A01).raise Ev.debugEntered 0x0A01).finish mb 0)) ∧
    (offers 0x0A03 mayAny → s.isl.debug = true → exec (.debugExit at_ mb b0 b1) s =
      .next (((t.onIsl fun x => { x with debug := false }).raise Ev.debugExited 0x0A03).finish mb 0)) ∧
    (∀ w tile data, offers 0x0A02 mayVeOw → s.isl.debug = true → 1 ≤ c.par 22 14 → c.par 8 14 + c.par 22 14 ≤ 9216 →
      w = (t.leaveHold.settleTile (c.par 0 7) (c.par 7 1)).noteBasin (c.par 0 7) (c.par 7 1)
        (fun i => c.par 8 14 ≤ i && i < c.par 8 14 + c.par 22 14) .maint →
      tile = (w.core (c.par 0 7)).tile (c.par 7 1) →
      data = (Buf.cat ((List.range (c.par 22 14)).map fun i => (tget Acc.reset tile.acc (c.par 8 14 + i)).raw)).app tile.record →
      data.len ≤ c.buf0.size → exec (.accRead at_ mb b0 b1) s =
        .next (((w.onCore (c.par 0 7) fun x => { x with accHold := if x.kernel.isSome then some mb else x.accHold }).writeHost
          c.buf0.exts data).finish mb 0 .empty data.len))

/-- ERG_READ, ERG_WRITE, LOOPBACK and MBIST where nothing turns them away. A device in HOLD leaves HOLD first (R445). -/
def Obligations.MemoryAndTestCommandsComplete : Prop :=
  ∀ (s : State) (at_ mb : Nat) (e : Buf) (b0 b1 : Option Buf),
    let c : Call := ⟨mb, e, b0, b1⟩
    let t := (s.tick at_).begun mb
    let offers (op : Nat) (allow : State → Call → Bool) : Prop := (s.tick at_).offers op mb e b0 b1 allow = true
    let u := t.leaveHold
    let ela := c.par 0 43
    let len := c.par 64 32
    let legal : Prop := s.erg.ready = true ∧ len ≠ 0 ∧ ela % 64 = 0 ∧ len % 64 = 0 ∧ ela + len ≤ s.erg.bytes
    (offers 0x0302 mayOp → legal → s.inBackground 0x0302 = false → len ≤ c.buf0.size →
      exec (.ergRead at_ mb b0 b1) s = .next (((List.range (len / 64)).foldl (fun s i =>
        s.enqueue ⟨.openRilseti, false, ela + 64 * i, 0, false, false, .host mb (extAddr c.buf0.exts (64 * i))⟩) u).toBackground c)) ∧
    (offers 0x0303 mayOp → legal → s.inPlan ela len = false → s.inBackground 0x0303 = false → len ≤ c.buf0.data.len →
      exec (.ergWrite at_ mb b0 b1) s = .next (((List.range (len / 64)).foldl (fun s i =>
        s.enqueue ⟨.openRilseti, true, ela + 64 * i, c.buf0.data.le (64 * i) 64, false, false, .host mb (extAddr c.buf0.exts (64 * i))⟩)
          u).toBackground c)) ∧
    (offers 0x0B01 mayOp → loopbackOk c = true → s.job = none → s.loopBusy (c.par 0 8) = false → s.inBackground 0x0B01 = false →
      exec (.loopback at_ mb b0 b1) s =
        .next ((if c.par 0 8 = 0x50 then u.onAon fun a => { a with chainLoop := true } else u).toBackground c)) ∧
    (offers 0x0B02 mayOp → s.job = none → s.inBackground 0x0B02 = false → exec (.mbist at_ mb b0 b1) s =
      .next ((u.toBackground c).onMbox mb fun m => m.onFirst .background fun x =>
        if x.entry.fld 0 16 = 0x0B02 then { x with in0 := b0.getD .empty } else x))

/-- ACX_PARTNER, WEIR_BUDGET, BULK_OPEN and SESSION_CLOSE where nothing turns them away. -/
def Obligations.TransportCommandsComplete : Prop :=
  ∀ (s : State) (at_ mb : Nat) (e : Buf) (b0 b1 : Option Buf),
    let c : Call := ⟨mb, e, b0, b1⟩
    let t := (s.tick at_).begun mb
    let offers (op : Nat) (allow : State → Call → Bool) : Prop := (s.tick at_).offers op mb e b0 b1 allow = true
    (∀ k p a, offers 0x0602 mayOp → partnerOk c = true → s.portInUse (c.par 4 2) = false → s.ledgerSpent = false →
      c.par 704 43 = 0 ∨ s.job = none → k = (if c.par 3 1 = 1 then 8 else 0) + c.par 0 3 →
      p = ({ used := true, port := c.par 4 2, quota := c.par 32 32, rate := c.par 64 32, burst := c.par 96 16,
             retryMax := if c.par 112 6 = 0 then 16 else c.par 112 6, timeoutS := if c.par 128 16 = 0 then 30 else c.par 128 16,
             keyDigest := (Buf.ofLe 32 (c.par 192 256)).be 0 32, addrA := c.par 448 128, addrB := c.par 576 128, budgets := [] } : Partner) →
      a = (if c.par 704 43 = 0 then t.putPartner k p
        else (t.putPartner k p).onAcx fun x => { x with cistEla := c.par 704 43, cistLen := c.par 768 8 * 2 ^ 30 }) →
      (a.acx.partners.map fun x => x.2.quota).sum ≤ a.cistSlots →
      exec (.acxPartner at_ mb b0 b1) s =
        let z := if c.par 3 1 = 1 then a else (List.range 4).foldl (fun z f => z.onFarPort f fun q =>
          { q with partner := if f = c.par 4 2 then c.par 0 3 else if q.partner = c.par 0 3 then 7 else q.partner }) a
        .next ((z.commandLedger mb 0x0004 0x0602 c.params .empty).finish mb 0)) ∧
    (∀ n l z, offers 0x0603 mayOp → n = c.par 0 4 → 1 ≤ n → n ≤ 8 → 32 * n ≤ c.buf0.data.len → l = c.buf0.data.recs 32 n →
      l.all t.budgetOk = true → (∀ r ∈ l, t.htNow < r.fld 128 64) → z = l.foldl State.queueBudget t →
      (∀ p ∈ z.acx.partners, p.2.budgets.length ≤ 8) → (∀ x ∈ z.acx.sess, x.2.budgets.length ≤ 8) →
      exec (.weirBudget at_ mb b0 b1) s = .next (z.finish mb 0)) ∧
    (∀ z k, offers 0x0604 mayJb → (s.partner (8 + c.par 0 3)).used = true → t.leaveHold.hasIdentity = true →
      t.leaveHold.initSession (8 + c.par 0 3) (c.par 4 2) true (some mb) = (z, some k) →
      exec (.bulkOpen at_ mb b0 b1) s = .next z) ∧
    (∀ k, offers 0x0605 mayOp → s.places.find? (fun k => (s.sess k).used && (s.sess k).localId = c.par 0 16 && (s.sess k).state ≠ SessState.closed) = some k →
      exec (.sessionClose at_ mb b0 b1) s = .next (((t.sendClose k (c.par 32 32)).closeSess k false).finish mb 0))

/-- After an arm: the job armed and fresh at step 0, sync objects started, miss records and stale count cleared. -/
def Obligations.ArmedJobState : Prop :=
  ∀ (s : State) (b : Buf) (epoch : Int) (seed sfl : Nat) (join : Option (Option Nat)),
    let t := s.armJob b (some epoch) seed sfl join
    (∃ j, t.job = some j ∧ j.image = b ∧ j.epoch = epoch ∧ j.hasEpoch = true ∧ j.seed = seed ∧ j.sfLimit = sfl ∧ j.phase = .armed ∧
      j.fresh = true ∧ j.step = 0 ∧ j.sfRun = 0) ∧
    (∀ k, t.so k = ⟨-1, 0, false⟩) ∧ t.soStale = 0 ∧ (∀ k, t.missRec k = MissRec.reset) ∧
    t.com.hist = (Commit.armed b).hist ∧ (∀ k, (t.core k).busy = 0 ∧ (t.core k).kernel = none)

/-- MB_ENABLE_SET, MB_ENABLE_CLEAR, MB_DOORBELL and MB_CPL_HEAD while BAR0 answers: the whole next state. That an access shows the link up, and that the host counts start at 0 with the device's, are the model's (log entries 112 and 97). -/
def Obligations.MailboxRegisterCommandsComplete : Prop :=
  ∀ (s : State) (at_ mb : Nat), s.barUp = true →
    let h := (s.tick at_).onPcie fun p => { p with linkUp := true }
    let m := s.mbox mb
    (m.state = .closed → s.rilsetiReady = true → m.cmdBase ≠ 0 → m.cplBase ≠ 0 →
      exec (.mbEnableSet at_ mb) s = .next (h.putMbox mb { m with
        enable := true, state := .open_, cmdTail := 0, cplHead := 0, cmdHead := 0, cplTail := 0, role := 0, roleJob := 0, actor := 0,
        actorKey := 0, nonce := none, cmds := [], busy := [] })) ∧
    (m.state ≠ .closed → exec (.mbEnableSet at_ mb) s = .next (h.putMbox mb { m with enable := true })) ∧
    (m.state = .open_ ∨ m.state = .stopped → (m.cmds ≠ [] ∨ m.busy ≠ []) →
      exec (.mbEnableClear at_ mb) s = .next (h.putMbox mb { m with
        enable := false, state := .closing
        cmds := m.cmds.map fun c => if c.phase = .waiting then { c with phase := .finished, status := 2, ht := h.htStamp } else c })) ∧
    (m.state = .open_ ∨ m.state = .stopped → m.cmds = [] → m.busy = [] →
      exec (.mbEnableClear at_ mb) s = .next (h.putMbox mb { m with
        enable := false, state := .closed, role := 0, roleJob := 0, actor := 0, actorKey := 0, nonce := none, cmds := [], busy := [] })) ∧
    (∀ head, exec (.mbCplHead at_ mb head) s = .next (h.putMbox mb { m with cplHead := head % 2 ^ 16 })) ∧
    (∀ tail, (∀ d, m.dbAt = some d → d + 64 ≤ h.now) →
      (m.state = .open_ → (tail % 2 ^ 16 + 2 ^ 16 - m.cmdHead) % 2 ^ 16 ≤ 64 → exec (.mbDoorbell at_ mb tail) s =
        .next (h.putMbox mb { m with dbAt := some h.now, dbFast := none, dbStuck := false, cmdTail := tail % 2 ^ 16 })) ∧
      (m.state = .open_ → 64 < (tail % 2 ^ 16 + 2 ^ 16 - m.cmdHead) % 2 ^ 16 → exec (.mbDoorbell at_ mb tail) s =
        .next (h.putMbox mb { m with dbAt := some h.now, dbFast := none, dbStuck := false, cmdTail := tail % 2 ^ 16,
                                     errs := m.errs ||| 2, errsAt := noteSet m.errsAt 0 2 h.nocNow, state := .stopped })) ∧
      (m.state = .closed → exec (.mbDoorbell at_ mb tail) s =
        .next (h.putMbox mb { m with dbAt := some h.now, dbFast := none, dbStuck := false, errs := m.errs ||| 1,
                                     errsAt := noteSet m.errsAt 0 1 h.nocNow })))

/-- EV_RING_ENABLE, HT_SNAP_TRIGGER, REGISTER_WRITE, DOORBELL_STUCK and EVENT_IRQ_HOLDOFF: the whole next state of each. -/
def Obligations.BarRegisterCommandsComplete : Prop :=
  ∀ (s : State) (at_ : Nat),
    let t := s.tick at_
    let h := t.onPcie fun p => { p with linkUp := true }
    (∀ v, s.barUp = true → s.pcie.evEnable = false → s.aon.railRec = none →
      let z := h.onPcie fun p => { p with
        evEnable := true, evSize := bits (v ||| 1) 1 4, evVector := bits (v ||| 1) 5 4,
        evIrqEn := bit (v ||| 1) 9, evHold := bits (v ||| 1) 16 16, evTail := 0, evHead := 0, evLost := 0 }
      (s.pcie.heldReset = false → exec (.evRingEnable at_ v) s = .next z) ∧
      (s.pcie.heldReset = true → exec (.evRingEnable at_ v) s =
        .next ((z.onPcie fun p => { p with heldReset := false }).raise Ev.deviceReset 0 [(9, s.aon.resetCause), (5, s.aon.wakeCause)]))) ∧
    (s.barUp = true → s.htValid = true → exec (.htSnapTrigger at_) s =
      .next (h.onHt fun x => { x with snapHt := h.htNow, snapState := x.state.code, snapValid := true })) ∧
    (∀ v n, s.barUp = true → n < 512 →
      (∀ k < 9, n.testBit k = (s.aon.resetCause.testBit k && !(v.testBit k && tget 0 s.aon.causeAt k ≠ t.nocNow + 1))) →
      exec (.registerWrite at_ 0x0010 4 v) s = .next (h.onAon fun a => { a with resetCause := n })) ∧
    (∀ v n, s.barUp = true → n < 32 →
      (∀ k < 5, n.testBit k = (s.aon.wakeCause.testBit k && !(v.testBit k && tget 0 s.aon.causeAt (16 + k) ≠ t.nocNow + 1))) →
      exec (.registerWrite at_ 0x0014 4 v) s = .next (h.onAon fun a => { a with wakeCause := n })) ∧
    (∀ v, s.barUp = true →
      exec (.registerWrite at_ 0x010C 4 v) s = .next (h.onPcie fun p => { p with evHead := v % 2 ^ 32 }) ∧
      (s.pcie.evEnable = false → exec (.registerWrite at_ 0x0100 4 v) s =
        .next (h.onPcie fun p => { p with evBase := setBits p.evBase 0 32 v })) ∧
      (s.pcie.evEnable = false → exec (.registerWrite at_ 0x0104 4 v) s =
        .next (h.onPcie fun p => { p with evBase := setBits p.evBase 32 32 v })) ∧
      exec (.registerWrite at_ 0x0000 8 v) s = .next h) ∧
    (∀ off width v, s.barUp = true → width ≠ 4 ∧ width ≠ 8 ∨ off % width ≠ 0 → exec (.registerWrite at_ off width v) s = .next h) ∧
    (∀ mb d, (s.mbox mb).dbFast = some d → (s.mbox mb).dbStuck = false → d + 10 * oneMs ≤ t.now → exec (.doorbellStuck at_ mb) s =
      .next (((t.putMbox mb { s.mbox mb with dbStuck := true }).onAon fun a => { a with dbStuck := satAdd 16 a.dbStuck 1 }).raise
        Ev.doorbellStuck mb [(4, mb)])) ∧
    (s.pcie.evIrqDue = true → s.pcie.evIrqEn = true → (∀ d, s.pcie.evIrqAt = some d → d + s.pcie.evHold * oneUs ≤ t.now) →
      exec (.eventIrqHoldoff at_) s =
        .next ((t.sendMsix s.pcie.evVector).onPcie fun p => { p with evIrqAt := some t.now, evIrqDue := false }))

/-- MB_FETCH and COMPLETION_WRITE where they take or write something: the whole next state. -/
def Obligations.FetchAndCompletionComplete : Prop :=
  ∀ (s : State) (at_ mb : Nat),
    let t := s.tick at_
    let m := s.mbox mb
    (∀ e, mb < 16 → m.state = .open_ → m.posted ≠ 0 → m.unread < 64 → m.cmds.length < 64 → exec (.mbFetch at_ mb (some e)) s =
      .next (t.putMbox mb { m with cmdHead := (m.cmdHead + 1) % 2 ^ 16, cmds := m.cmds ++ [match entryStatus (e.slice 0 256) with
        | some st => ⟨e.slice 0 256, .finished, st, .empty, 0, t.htStamp, .empty, .empty⟩
        | none => ⟨e.slice 0 256, .waiting, 0, .empty, 0, 0, .empty, .empty⟩] })) ∧
    (mb < 16 → m.state = .open_ → m.posted ≠ 0 → m.unread < 64 → exec (.mbFetch at_ mb none) s =
      .next (t.putMbox mb { m with errs := m.errs ||| 4, errsAt := noteSet m.errsAt 0 4 t.nocNow, state := .stopped })) ∧
    (∀ c l, mb < 16 → m.state = .open_ → m.busy = [] → m.cmds = c :: l → c.phase = .finished → m.unread < 64 →
      tabWf Mailbox.reset s.pcie.mboxes = true →
      exec (.completionWrite at_ mb) s =
        let w := ((t.releaseAcc mb).emit (.hostWrite (m.cplBase + 256 * (m.cplTail % 64)) (packBuf 256
          [(16, c.entry.fld 16 16), (16, c.entry.fld 0 16), (16, c.status), (15, 0), (1, 1 - m.cplTail / 64 % 2), (8, c.resp.len), (24, 0),
           (32, c.xfer), (64, c.ht), (64, 0), (1792, c.resp.val)]))).putMbox mb { m with cmds := l, cplTail := (m.cplTail + 1) % 2 ^ 16 }
        .next (if c.entry.flag 32 = true ∧ m.irqEn = true then w.sendMsix (m.vectorX ^^^ mb) else w)) ∧
    (∀ c l, mb < 16 → m.state = .open_ → m.busy = [] → m.cmds = c :: l → c.phase = .finished → 64 ≤ m.unread →
      exec (.completionWrite at_ mb) s =
        .next ((t.releaseAcc mb).putMbox mb { m with errs := m.errs ||| 8, errsAt := noteSet m.errsAt 0 8 t.nocNow }))

/-- What a Function Level Reset, D3hot, a clear of Bus Master Enable and a loss of the PCIe link leave. -/
def Obligations.HostGoneClosesMailboxes : Prop :=
  ∀ (s : State) (at_ : Nat), tabWf Mailbox.reset s.pcie.mboxes = true →
    let gone (t : State) : Prop :=
      (∀ k < 16, (t.mbox k).state = .closed ∧ (t.mbox k).enable = false ∧ (t.mbox k).role = 0 ∧ (t.mbox k).nonce = none ∧
        (t.mbox k).cmds = [] ∧ (t.mbox k).busy = []) ∧
      t.pcie.evEnable = false ∧ (∀ k < 16, t.pcie.running ≠ some k) ∧ (∀ b ∈ t.pcie.bg, 16 ≤ b.2.1) ∧ t.out = s.out ∧
      (t.mbox 16).state = (s.mbox 16).state ∧ (t.mbox 16).cmds = (s.mbox 16).cmds ∧ t.cores = s.cores ∧ t.scratch = s.scratch ∧
      t.oasis = s.oasis ∧ t.erg.ram = s.erg.ram ∧ t.isl = s.isl ∧ t.aon.resetCause = s.aon.resetCause ∧ t.aon.wakeCause = s.aon.wakeCause ∧
      t.ht.state = s.ht.state ∧ t.job.isSome = s.job.isSome
    (∃ t, exec (.functionLevelReset at_) s = .next t ∧ gone t ∧ t.pcie.evBase = 0 ∧ t.pcie.evTail = 0 ∧ t.pcie.evHead = 0 ∧
      t.pcie.evLost = 0 ∧ t.pcie.msix = [] ∧ t.pcie.pba = 0 ∧ t.ht.snapHt = 0 ∧ t.ht.snapValid = false ∧
      (∀ k < 16, (t.mbox k).cmdBase = 0 ∧ (t.mbox k).cplBase = 0 ∧ (t.mbox k).errs = 0)) ∧
    (∃ t, exec (.d3hotEntry at_) s = .next t ∧ gone t ∧ ∀ k < 16, (t.mbox k).cmdBase = (s.mbox k).cmdBase) ∧
    (∃ t, exec (.busMasterClear at_) s = .next t ∧ gone t ∧ ∀ k < 16, (t.mbox k).cmdBase = (s.mbox k).cmdBase) ∧
    (∃ t, exec (.pcieLinkLoss at_) s = .next t ∧ gone t ∧ t.pcie.linkUp = false)

/-- The state after a cold reset from each of its sources, out of reset before. Memory contents are left out: the spec does not promise them (log entry 108). -/
def Obligations.ColdResetLeaves : Prop :=
  ∀ (s : State) (at_ : Nat),
    let t := s.tick at_
    let cleared (u : State) (cause wake : Nat) : Prop :=
      u.aon.phase = .inReset .cold (t.now + 10000) false ∧ u.aon.resetCause = cause ∧ u.aon.wakeCause = wake ∧ u.now = t.now ∧
      u.ht = { HtUnit.reset with root := s.ht.root } ∧ u.sos = [] ∧ u.miss = [] ∧ u.job = none ∧ u.guest = none ∧ u.ents = [] ∧
      u.cores = [] ∧ u.com = Commit.reset ∧ u.pcie = Pcie.reset ∧ u.site = Site.reset ∧ u.spills = [] ∧ u.acx.sess = [] ∧
      u.acx.frags = [] ∧ u.aon.optsDone = false ∧ u.aon.hotN = false ∧ u.aon.chainAddr = 0 ∧ u.aon.power = .run ∧
      u.isl = { s.isl with idOk := false, debug := false, fwRunning := .empty, logDigest := 0, logKept := [], logCount := 0 }
    let out_ : Prop := s.aon.phase = .up ∨ s.aon.phase = .recovery
    (∀ low high, out_ → s.aon.railsOrder ≠ 0 → 1000 ≤ low →
      ∃ u, exec (.rstN at_ low high) s = .next u ∧ cleared u 2 0 ∧ u.aon.rstDrive = true ∧ u.aon.rstLow = !high) ∧
    (∀ die temp, out_ → 115 ≤ temp → ∃ u, exec (.thermalTrip at_ die temp) s = .next u ∧ cleared u 128 0 ∧ u.aon.tripHeld = true) ∧
    (∀ f, out_ → s.chainRuns = true → s.aon.chainLoop = false → frOk f = true → frType f = 2 → s.aon.optsDone = true →
      s.aon.power ≠ .doze → s.frForMe f = true → ∃ u, exec (.cold at_ f) s = .next u ∧ cleared u 8 0) ∧
    (s.aon.phase = .powerOff → s.aon.railsOrder = 0 → ∃ u, exec (.powerOnReset at_ true) s = .next u ∧ cleared u 1 0 ∧
      u.aon.railsOrder = 1) ∧
    (∀ i m, s.aon.phase = .powerOff → s.aon.railsOrder ≠ 0 → s.aon.power = .doze → s.aon.dozeAt + s.aon.dozePeriod * oneMs ≤ t.now →
      m = s.aon.dozeMatch i → m ≠ 0 → ∃ u, exec (.dozeSample at_ i) s = .next u ∧ cleared u 256 m)

/-- The state after a warm reset by the watchdog or a chain frame, and after a host reset; and that a pulse below 1 µs is counted as a glitch. -/
def Obligations.WarmAndHostResetLeave : Prop :=
  ∀ (s : State) (at_ : Nat),
    let t := s.tick at_
    let warmed (u : State) (full : Bool) (bit_ : Nat) : Prop :=
      u.aon.phase = .inReset .warm (t.now + 10000) full ∧ u.aon.resetCause = s.aon.resetCause ||| bit_ ∧
      (u.job.map fun j => (j.image, j.seed, j.step)) = (s.job.map fun j => (j.image, j.seed, j.step)) ∧
      (∀ j, u.job = some j → j.phase = .stopped) ∧ u.guest = none ∧ u.cores = [] ∧ u.scratch = ⟨[], []⟩ ∧ u.oasis = ⟨[], []⟩ ∧
      u.kstore = [] ∧ u.pcie.mboxes = [] ∧ u.pcie.evEnable = false ∧ u.pcie.bg = [] ∧ u.pcie.running = none ∧
      u.pcie.masks = s.pcie.masks ∧ u.erg.ram = s.erg.ram ∧ u.isl = s.isl ∧ u.site.phase = .idle ∧
      u.ht.state = (if full then .unset else s.ht.state) ∧ (full = false → u.ht.off = s.ht.off ∧ u.ht.source = s.ht.source) ∧
      u.aon.chainAddr = s.aon.chainAddr ∧ u.aon.optsDone = false
    (s.aon.phase = .up ∨ s.aon.phase = .recovery → ∃ u, exec (.watchdog at_) s = .next u ∧ warmed u false 64) ∧
    (∀ f, s.aon.phase = .up ∨ s.aon.phase = .recovery → s.chainRuns = true → s.aon.chainLoop = false → frOk f = true →
      frType f = 3 → s.aon.optsDone = true → s.aon.power ≠ .doze → s.frForMe f = true →
      ∃ u, exec (.warm at_ f) s = .next u ∧ warmed u ((frPayload f).flag 0) 16) ∧
    (∀ low, s.aon.phase = .up → tabWf Mailbox.reset s.pcie.mboxes = true → 1000 ≤ low → ∃ u, exec (.perstN at_ low) s = .next u ∧
      (∀ k < 16, (u.mbox k).state = .closed ∧ (u.mbox k).cmds = [] ∧ (u.mbox k).cmdBase = 0) ∧ u.pcie.evEnable = false ∧
      u.pcie.heldReset = true ∧ u.aon.resetCause = s.aon.resetCause ||| 4 ∧ u.aon.phase = .up ∧ u.cores = s.cores ∧
      u.scratch = s.scratch ∧ u.oasis = s.oasis ∧ u.erg.ram = s.erg.ram ∧ u.ht.state = s.ht.state ∧ u.ht.off = s.ht.off ∧
      u.job.isSome = s.job.isSome ∧ u.isl = s.isl) ∧
    (∀ low high, low < 1000 → s.aon.phase ≠ .powerOff → s.aon.railsOrder ≠ 0 →
      exec (.perstN at_ low) s = .next (t.onAon fun a => { a with glitches := a.glitches + 1 }) ∧
      exec (.rstN at_ low high) s = .next (t.onAon fun a => { a with glitches := a.glitches + 1 }))

/-- RAIL_POWER_GOOD, RESET_RELEASE, OPTION_LOADING_COMPLETE, RILSETI_READY, BSCAN_INSTRUCTION and a POWER_ON_RESET that finds a supply invalid. -/
def Obligations.BootSequenceCompletes : Prop :=
  ∀ (s : State) (at_ : Nat),
    let t := s.tick at_
    (∀ o cls e f, s.aon.phase = .inReset cls e f → 1 ≤ o → o ≤ 6 → s.aon.railsOrder = o → exec (.railPowerGood at_ o) s =
      let u := t.onAon fun a => { a with railsOrder := o + 1 }
      .next (if o < 6 then u.emit (.rails (o + 1) true) else u)) ∧
    (∀ cls e f timeRoot chainHead pufOk, s.aon.phase = .inReset cls e f → e ≤ t.now → s.aon.railsOrder = 7 →
      s.aon.tripHeld = false →
      let loading (u : State) (boot : Bool) : Prop := u.aon.phase = .loading t.now cls ∧ u.aon.releasedAt = t.now ∧
        u.aon.straps = b2n boot + 2 * b2n timeRoot + 4 * b2n chainHead ∧ u.ht = { s.ht with root := timeRoot } ∧ u.aon.rstDrive = false
      (∃ u, exec (.resetRelease at_ true true timeRoot chainHead pufOk) s = .next u ∧ loading u true ∧
        u.isl = { s.isl with fwRunning := .empty }) ∧
      (cls = .cold → s.isl.hasId = false → s.isl.lifecycle ≠ 2 → s.isl.slotA.present = false → s.isl.slotB.present = false →
        s.isl.ledger.length < 65536 → ∃ u, exec (.resetRelease at_ true false timeRoot chainHead pufOk) s = .next u ∧ loading u false ∧
          u.isl.hasId = true ∧ u.isl.idOk = true ∧ u.isl.fwRunning = .empty ∧ u.isl.ledger.length = s.isl.ledger.length + 1)) ∧
    (∀ n cls, s.aon.phase = .loading n cls → ∃ u, exec (.optionLoadingComplete at_) s = .next u ∧
      u.aon.phase = (if s.isl.fwRunning.len = 0 then .recovery else .booting cls) ∧ u.aon.optsDone = true ∧
      u.aon.chainAddr = (if s.aon.straps.testBit 2 then 1 else s.aon.chainAddr) ∧ u.aon.headWalk = s.aon.straps.testBit 2 ∧
      u.erg.training = !s.erg.ready ∧ u.pcie.linkUp = true ∧
      u.near = tmap NearPort.reset (fun p => if p.signal = true ∧ p.state = LinkState.down then { p with state := .quiet } else p) s.near ∧
      u.aon.hotN = (s.temps.any fun x => 105 ≤ x)) ∧
    (∀ cls, s.aon.phase = .booting cls → s.pcie.heldStop = false → exec (.rilsetiReady at_) s =
      .next ((t.onAon fun a => { a with phase := .up }).onPcie fun p => { p with heldReset := true, heldStop := false })) ∧
    (∀ i, takesPins i = true → s.aon.bscan = false → s.aon.phase ≠ .powerOff → tabWf Mailbox.reset s.pcie.mboxes = true →
      ∃ u, exec (.bscanInstruction at_ i) s = .next u ∧ u.aon.phase = .taken ∧ u.aon.bscan = true ∧
        (∀ k < 16, (u.mbox k).state = .closed ∧ (u.mbox k).cmds = []) ∧ (∀ p ∈ u.near, p.2.state = .down ∧ p.2.width = 0) ∧
        (∀ j, u.job = some j → j.phase = .stopped)) ∧
    (∀ i, takesPins i = false → exec (.bscanInstruction at_ i) s = .next t) ∧
    (exec (.powerOnReset at_ false) s = .next { State.reset with
      pending := s.pending, now := t.now, freeCtr := s.freeCtr, out := s.out, acx := s.acx.cold, isl := s.isl.cold })

/-- ENUM_FRAME, ENUM_WALK_TIMER, CHAIN_FORWARD, CMD, ATTN, CHAIN_ATTN_STUCK, TELEM_REQ, DOZE_CFG, FWDATA, and COMPLETION_WRITE of the chain mailbox: the whole next state of each. COLD and WARM frames: `ColdResetLeaves` and `WarmAndHostResetLeave`. -/
def Obligations.ChainFramesComplete : Prop :=
  ∀ (s : State) (at_ : Nat) (f : Buf),
    let t := s.tick at_
    let good (type : Nat) : Prop := s.chainRuns = true ∧ s.aon.chainLoop = false ∧ frOk f = true ∧ frType f = type ∧
      s.aon.optsDone = true ∧ s.aon.power ≠ .doze
    let pass (u : State) (payload : Buf) : State :=
      u.emit (.chain (frSeal (((f.slice 0 16).put 8 2 (f.le 8 2 + 1)).app payload)))
    let p := if frBcast f then t.forward f else t
    (∀ next, good 1 → s.ownHead = false → frHops f < 4095 → next = (frPayload f).fld 0 16 → 1 ≤ next → next ≤ 4095 →
      exec (.enumFrame at_ f) s = .next (pass (t.takeAddr next) (enumPayload (next + 1) ((frPayload f).flag 16) ((frPayload f).flag 17)))) ∧
    (good 1 → s.ownHead = true → (frPayload f).flag 16 = false → (frPayload f).flag 17 = false →
      exec (.enumFrame at_ f) s = .next (t.onAon fun a => { a with headWalk := false })) ∧
    (s.ownHead = true → s.aon.headWalk = true → (∀ d, s.aon.walkAt = some d → d + 25 * oneMs ≤ t.now) → exec (.enumWalkTimer at_) s =
      .next ((t.onAon fun a => { a with walkAt := some t.now, walkSeq := (a.walkSeq + 1) % 2 ^ 32 }).emit
        (.chain (chainFrame 0 0 1 true s.aon.walkSeq (enumPayload 2 false false))))) ∧
    (s.chainRuns = true → s.aon.chainLoop = false → frOk f = true → 1 ≤ frType f → frType f ≤ 10 → s.frForMe f = false → s.ownHead = false →
      frHops f < 4095 → exec (.chainForward at_ f) s = .next (pass t (frPayload f))) ∧
    (good 5 → s.frMine f = true → frLen f = 256 → s.aon.phase = .up → s.aon.cmdsHeld = [] → (s.mbox 16).cmds.length < 64 →
      exec (.cmd at_ f) s = .next ((t.putMbox 16 { s.mbox 16 with
        state := .open_, cmds := (s.mbox 16).cmds ++ [chainCmd (frPayload f) t.htStamp] }).onAon fun a =>
          { a with cmdsHeld := [], cmdSeqs := a.cmdSeqs ++ [frSeq f] })) ∧
    (good 5 → s.frMine f = true → frLen f = 256 → s.aon.phase = .up → s.aon.cmdsHeld = [] → 64 ≤ (s.mbox 16).cmds.length →
      exec (.cmd at_ f) s = .next ((t.putMbox 16 { s.mbox 16 with cplTail := ((s.mbox 16).cplTail + 1) % 2 ^ 16 }).emit
        (.chain (chainFrame 0 s.aon.chainAddr 6 false (frSeq f)
          (Cmd.completion ⟨frPayload f, .finished, 1, .empty, 0, t.htStamp, .empty, .empty⟩ (s.mbox 16).cplTail))))) ∧
    (∀ c l seq q, (s.mbox 16).busy = [] → (s.mbox 16).cmds = c :: l → c.phase = .finished → s.aon.cmdSeqs = seq :: q →
      exec (.completionWrite at_ 16) s =
        .next ((((t.releaseAcc 16).putMbox 16 { s.mbox 16 with cmds := l, cplTail := ((s.mbox 16).cplTail + 1) % 2 ^ 16 }).onAon fun a =>
          { a with cmdSeqs := q }).emit (.chain (chainFrame 0 s.aon.chainAddr 6 false seq (c.completion (s.mbox 16).cplTail))))) ∧
    (good 4 → s.frForMe f = true → s.aon.phase = .up → s.aon.attnAside = false → (∀ d, s.aon.attnAt = some d → d + 10 * oneUs ≤ t.now) →
      exec (.attn at_ f) s =
        .next (p.onAon fun a => { a with attnAt := some t.now, attnFast := none, attnAside := false }).fetchChain) ∧
    (∀ d, s.aon.attnFast = some d → s.aon.attnAside = false → d + 100 * oneMs ≤ t.now → exec (.chainAttnStuck at_) s =
      .next ((t.onAon fun a => { a with attnAside := true, attnFast := none, attnStuck := satAdd 16 a.attnStuck 1 }).raise
        Ev.chainAttnStuck 0x10)) ∧
    (good 7 → s.frForMe f = true → exec (.telemReq at_ f) s =
      .next (p.emit (.chain (chainFrame 0 s.aon.chainAddr 8 false (frSeq f) t.telemetry)))) ∧
    (good 9 → s.frForMe f = true → s.aon.phase = .up → dozeOk (frPayload f) = true → exec (.dozeCfg at_ f) s =
      .next (p.setDoze (frPayload f))) ∧
    (∀ off total n, good 10 → s.frForMe f = true → off = (frPayload f).fld 0 32 → total = (frPayload f).fld 32 32 → n = frLen f - 8 →
      8 < frLen f → total ≤ 0x1000000 → off + n ≤ total → exec (.fwdata at_ f) s =
        let u := if s.aon.stageLen = total then p else p.clearStage
        .next (u.onAon fun a => { a with
          stageLen := total, stage := a.stage.store off n (((frPayload f).drop 8).le 0 n), stageGot := addRange a.stageGot off (off + n) }))

/-- POWER_ENTRY_COMPLETE, DOZE_SAMPLE, PM_ALERT, RAIL_ALERT_STUCK, POWER_SAMPLE, AVS_UPDATE, DROOP_DETECT, DROOP_RECOVER and DIE_TEMPERATURE_CHANGE: the whole next state of each. -/
def Obligations.PowerEventsComplete : Prop :=
  ∀ (s : State) (at_ : Nat),
    let t := s.tick at_
    (∀ mb d u, s.aon.entering = some (1, mb, d) → u = (t.onAon fun a => { a with entering := none }) →
      u.refusers 1 (if (s.mbox mb).cmds.isEmpty then 0 else 1) = 0 → exec (.powerEntryComplete at_) s =
        .next (((u.onAon fun a => { a with power := .hold }).raise Ev.powerHold).finishWaiting mb 0 (refuserResp 0))) ∧
    (∀ mb d u, s.aon.entering = some (2, mb, d) → u = (t.onAon fun a => { a with entering := none }) →
      u.refusers 2 (if (s.mbox mb).cmds.isEmpty then 0 else 1) = 0 → ∃ v, exec (.powerEntryComplete at_) s = .next v ∧
        v.aon.power = .doze ∧ v.aon.phase = .powerOff ∧ v.aon.dozeAt = t.now ∧ v.aon.dozeFirst = true ∧ v.job = none ∧ v.cores = [] ∧
        v.aon.chainAddr = s.aon.chainAddr ∧ v.isl.ledger = s.isl.ledger) ∧
    (∀ i, s.aon.power = .doze → s.aon.dozeAt + s.aon.dozePeriod * oneMs ≤ t.now → s.aon.dozeMatch i = 0 → exec (.dozeSample at_ i) s =
      .next (t.onAon fun a => { a with
        dozeAt := t.now, dozeFirst := false, dozeChain := false, dozeFar := i.farSignal &&& a.dozeMask ≠ 0
        dozeTemp := i.dieTemps.any fun x => a.dozeHi < x || x < a.dozeLo })) ∧
    (∀ l found u, s.aon.phase ≠ .powerOff → s.aon.alertAside = false → (∀ d, s.aon.alertAt = some d → d + oneMs ≤ t.now) →
      found = (l.filterMap fun (x : Nat × Nat) => (s.isl.regulator x.1).map fun r => (r, x.2)) →
      u = (t.onAon fun a => { a with alertAt := some t.now, alertSince := some t.now, alertAside := false }) →
      (∀ x, found.find? (fun y => statusFault y.2) = some x →
        exec (.pmAlert at_ l) s = .next ((u.onAon fun a => { a with railRec := some x }).railsDown .off)) ∧
      (found.find? (fun y => statusFault y.2) = none → exec (.pmAlert at_ l) s =
        .next ((found.filter fun x => x.2 ≠ 0).foldl (fun v x => v.raise Ev.railWarning x.1 [(8, x.1), (16, x.2)]) u))) ∧
    (∀ d, s.aon.alertSince = some d → s.aon.alertAside = false → d + 100 * oneMs < t.now → exec (.railAlertStuck at_) s =
      .next ((t.onAon fun a => { a with alertAside := true, alertSince := none, alertAt := some t.now }).raise Ev.railAlertStuck)) ∧
    (∀ mw, exec (.powerSample at_ mw) s =
      let u := t.onAon fun a => { a with samples := (a.samples ++ [mw]).drop (a.samples.length + 1 - 10) }
      .next (match s.job with
        | some j => if j.phase = .running ∨ j.phase = .stopping then
            let x := j.shares t.jt
            u.onAon fun a => { a with
              curEnergy := a.curEnergy + mw * x.1, curExt := a.curExt + mw * x.2.1
              stepEnergy := a.stepEnergy + mw * x.2.2.1, extEnergy := a.extEnergy + mw * x.2.2.2 } else u
        | none => u)) ∧
    (∀ die mv, s.aon.railsOrder = 7 → (∀ d, (s.die die).avsAt = some d → d + 10 * oneMs ≤ t.now) → exec (.avsUpdate at_ die mv) s =
      .next ((t.putDie die { s.die die with coreMv := mv, avsAt := some t.now }).emit (.avs die mv))) ∧
    (∀ die, (s.die die).gateOn = false → (s.die die).gateEnd = 0 ∨ 8 ≤ coreCycle t.now - coreCycle (s.die die).gateEnd →
      exec (.droopDetect at_ die) s = .next (t.putDie die { s.die die with gateOn := true, gateStart := t.now })) ∧
    (∀ die d n, d = s.die die → d.gateOn = true → n = d.gated + Nat.min 8 (coreCycle t.now - coreCycle d.gateStart) →
      let e := { d with gateOn := false, gateEnd := Nat.min t.now (d.gateStart + 5), gated := n }
      (∀ r, d.droopEvAt = some r → t.now < r + oneS → exec (.droopRecover at_ die) s = .next (t.putDie die e)) ∧
      ((∀ r, d.droopEvAt = some r → r + oneS ≤ t.now) → exec (.droopRecover at_ die) s =
        .next ((t.putDie die { e with gatedRep := n, droopEvAt := some t.now }).raise Ev.powerDroop die
          [(3, die), (16, Nat.min (n - d.gatedRep) 65535)]))) ∧
    (∀ die temp, let u := t.setTemp die temp
      (s.aon.optsDone = true → (∃ x ∈ u.temps, 105 ≤ x) → exec (.dieTemperatureChange at_ die temp) s = .next (u.driveHot true)) ∧
      (s.aon.optsDone = true → (∀ x ∈ u.temps, x < 100) → exec (.dieTemperatureChange at_ die temp) s = .next (u.driveHot false)) ∧
      (s.aon.optsDone = false → exec (.dieTemperatureChange at_ die temp) s = .next u))

/-- HT_IN_PULSE, HT_IN_STUCK, HT_SET_TIMEOUT, TIMING_SYMBOL_SEND, TIMING_SYMBOL_RX, HT_SOURCE_LOSS_TIMEOUT and HT_LOST. -/
def Obligations.HallTimeEventsComplete : Prop :=
  ∀ (s : State) (at_ : Nat),
    let t := s.tick at_
    (∀ high skew, s.pinsLive = true → (∃ d, s.ht.edgeLast = some d ∧ t.now < d + 500000) →
      exec (.htInPulse at_ high skew) s =
        let u := t.onHt fun h => { h with inOverruns := satAdd 32 h.inOverruns 1 }
        .next ((u.raiseOnce s.ht.overrunEvAt Ev.htInOverrun 8).1.onHt fun h =>
          { h with overrunEvAt := (u.raiseOnce s.ht.overrunEvAt Ev.htInOverrun 8).2 })) ∧
    (∀ high skew, s.pinsLive = true → (∀ d, s.ht.edgeLast = some d → d + 500000 ≤ t.now) →
      let u := t.onHt fun h => { h with edgeLast := some t.now }
      (¬ (8000 ≤ high ∧ high ≤ 12000) → ¬ (80000 ≤ high ∧ high ≤ 120000) → exec (.htInPulse at_ high skew) s =
        .next (u.onHt fun h => { h with inInvalid := satAdd 32 h.inInvalid 1, inGood := 0 })) ∧
      (8000 ≤ high ∧ high ≤ 12000 ∨ 80000 ≤ high ∧ high ≤ 120000 → s.ht.inDropped = false → s.ht.root = false →
        exec (.htInPulse at_ high skew) s = .next u) ∧
      (∀ v d, 80000 ≤ high → high ≤ 120000 → s.ht.inDropped = false → s.ht.root = true → s.ht.state = .unset →
        s.ht.pendingSet = some (v, d) → t.now ≤ d + 1500000000 → ∃ w, exec (.htInPulse at_ high skew) s = .next w ∧
          w.ht.state = .acquiring ∧ w.ht.source = 8 ∧ w.ht.hops = 0 ∧ w.ht.pendingSet = none ∧
          w.htNow = wrap 64 ((v : Int) + ((s.isl.delayPs : Int) - skew + 500) / 1000)) ∧
      (∀ marker, marker = decide (80000 ≤ high) → 8000 ≤ high ∧ high ≤ 12000 ∨ 80000 ≤ high ∧ high ≤ 120000 → s.ht.inDropped = false →
        s.ht.root = true → s.ht.state = .locked → s.ht.source = 8 →
        2000 * 131072 < (u.edgeOffset marker skew).natAbs → ∃ w, exec (.htInPulse at_ high skew) s = .next w ∧
          w.ht.state = .holdover ∧ w.ht.source = 15 ∧ w.ht.leftOut = some 8 ∧ w.ht.off = s.ht.off)) ∧
    (s.pinsLive = true → exec (.htInStuck at_) s =
      let u := (t.onHt fun h => { h with inInvalid := satAdd 32 h.inInvalid 1, inGood := 0, inDropped := true }).raise Ev.htInStuck 8
      .next (if s.ht.source = 8 then u.sourceLost else u)) ∧
    (∀ v d, s.ht.pendingSet = some (v, d) → d + 1500000000 ≤ t.now → exec (.htSetTimeout at_) s =
      .next (t.onHt fun h => { h with pendingSet := none })) ∧
    (∀ p frac n stamp, n = s.port p → frac < 65536 → stamp = t.htNow * 65536 + frac → n.state ≠ .down →
      n.ownStamp = 0 ∨ n.ownStamp / 65536 / 4096 ≠ t.htNow / 4096 →
      (n.state = .up → 100 * (65536 * (t.htNow % 4096) + frac) < 128 * 65536) → exec (.timingSymbolSend at_ ⟨p, frac⟩) s =
        .next ((t.emit (.timing p stamp (if n.peerSeen then n.peerStamp else 0) ((stamp + 2 ^ 80 - n.peerAt) % 2 ^ 32)
          s.ht.state.code s.ht.hops t.epochTag)).putPort p { n with ownStamp := stamp })) ∧
    (∀ p sym n n' own, n = s.port p → own = t.htNow * 65536 + sym.arriveFrac →
      n' = { n with peerState := sym.state % 8, peerHops := sym.hops % 256, peerTag := sym.epochTag % 65536, peerReady := sym.ready
                    peerStamp := sym.depart % 2 ^ 80, peerAt := own, peerSeen := true } →
      (t.putPort p n').tagMismatch p = false →
      (n.ownStamp = 0 ∨ sym.echo = 0 ∨ sym.echo < s.ht.setAt ∨ own < sym.echo → exec (.timingSymbolRx at_ p sym) s =
        .next (if s.ht.source = p ∧ (t.putPort p n').isCandidate p = false then (t.putPort p n').sourceLost else t.putPort p n')) ∧
      (n.ownStamp ≠ 0 → sym.echo ≠ 0 → s.ht.setAt ≤ sym.echo → sym.echo ≤ own → exec (.timingSymbolRx at_ p sym) s =
        let t1 : Int := sym.echo
        let t3 : Int := sym.depart
        let t2 : Int := t3 - sym.turnaround
        let d2 : Int := ((own : Int) - t1) - (t3 - t2)
        let th : Int := 1000 * (((own : Int) - t3) - (t2 - t1)) - 65536 * tget 0 s.isl.asym p
        .next (((t.putPort p n').putPort p { n' with delayPs := some (wrap 32 (max (1000 * d2 / 131072) 0)) }).exchange p th d2))) ∧
    (∀ d, s.ht.state = .acquiring → s.ht.srcLostAt = some d → d + 10 * oneMs ≤ t.now → ∃ w, exec (.htSourceLossTimeout at_) s = .next w ∧
      w.ht.state = .unset ∧ w.ht.source = 15 ∧ w.ht.hops = 255 ∧ w.ht.off = s.ht.off) ∧
    (s.ht.state = .holdover → s.ht.holdSince + s.isl.holdMs * oneMs ≤ t.now → ∃ w, exec (.htLost at_) s = .next w ∧
      w.ht.state = .unset ∧ w.ht.source = 15 ∧ (∀ j, w.job = some j → j.phase = .stopped ∨ j.phase = .restarting ∨ s.site.phase ≠ .idle))

/-- KERNEL_START, OPEN_GUEST_BUBBLE, CLOSE_GUEST_BUBBLE, UPDATE_PASS_START, RUN_TRANSFER_LIST, OPEN_SCHEDULED_WINDOW, REFRESH_NORMAL_RATE and REFRESH_HIGH_RATE where R59 lets them start. -/
def Obligations.DieAndCoreActionsStart : Prop :=
  ∀ (s : State) (at_ i : Nat) (j : Job) (e : Entry),
    let t := s.tick at_
    let b := t.beginEntry i e (j.sn + e.offset)
    let die := e.target - 0x80
    (t.starts 0x01 i j e (t.targetIdle e.target) = true → e.target < 128 →
      let ks := imgKernels j.image e.target
      let idx := promotedKernel j.image t.com.promoted e.target e.arg
      let r := ks.getD idx default
      let k : Kernel :=
        { index := idx, entry := i, guest := false, base := kernelBase ks idx, nprof := r.nprof, codeLen := 64 * r.len
          step := j.step, startCc := t.dieCc (e.target / 16)
          plannedJt := plannedJt j.image j.step (if r.drawEn then r.drawEntry else i), limitJt := j.sn + e.finish
          pos := alignUp (32 * r.nprof) 64, nextIndex := 0, lastIssue := 0, issuedAny := false, stopped := false
          ended := false, lastDone := t.dieCc (e.target / 16), qCount := 0, passed := 0, waitFrom := none
          lockFrom := none, vwaitFrom := none }
      exec (.kernelStart at_ i) s = .next ((b.onCore e.target fun c =>
        { c with kernel := some k, v := .reset, closing := b.kernelDropped j e.target k }).shutGradients j i e)) ∧
    (t.starts 0x02 i j e (t.targetIdle e.target) = true →
      (t.guest = none → exec (.openGuestBubble at_ i) s = .next (b.completeEntry i j.step)) ∧
      (∀ g, t.guest = some g → g.stopped = true ∨ g.leaving = true →
        exec (.openGuestBubble at_ i) s = .next (({ b with guest := some { g with pending := false } } : State).completeEntry i j.step)) ∧
      (∀ g k, t.guest = some g → g.stopped = false → g.leaving = false → (b.core e.target).guest.kernel = some k →
        let w := ({ b with guest := some { g with pending := false } } : State).putCore e.target
          { b.core e.target with bubble := some e.arg, bubbleEntry := i, bubbleQ := 0, closing := false }
        let cc := t.dieCc (e.target / 16)
        let r := w.scratchRead e.target guestSaveAddr 8512 (.core e.target true)
        (r.2.guest.any (·.stopped) = true → exec (.openGuestBubble at_ i) s = .next (r.2.completeEntry i j.step)) ∧
        (r.2.guest.any (·.stopped) = false → exec (.openGuestBubble at_ i) s = .next ((r.2.onCore e.target fun c =>
          { c with
            kernel := some { k with step := j.step, issuedAny := false, startCc := cc + 36, lastDone := cc }
            v := VState.ofImage r.1, guest := { c.guest with kernel := none } }).completeEntry i j.step))) ∧
      (∀ g k, t.guest = some g → g.stopped = false → g.leaving = false → (b.core e.target).guest.kernel = none →
        let w := ({ b with guest := some { g with pending := false } } : State).putCore e.target
          { b.core e.target with bubble := some e.arg, bubbleEntry := i, bubbleQ := 0, closing := false }
        w.guestKernel { g with pending := false } e.target (b.core e.target).guest.next i 0 = some k →
        exec (.openGuestBubble at_ i) s =
          .next ((w.onCore e.target fun c => { c with kernel := some k, v := .reset }).completeEntry i j.step)) ∧
      (∀ g, t.guest = some g → g.stopped = false → g.leaving = false → (b.core e.target).guest.kernel = none →
        let w := ({ b with guest := some { g with pending := false } } : State).putCore e.target
          { b.core e.target with bubble := some e.arg, bubbleEntry := i, bubbleQ := 0, closing := false }
        w.guestKernel { g with pending := false } e.target (b.core e.target).guest.next i 0 = none →
        exec (.openGuestBubble at_ i) s = .next (w.completeEntry i j.step))) ∧
    (t.starts 0x03 i j e true = true →
      (∀ k, (b.core e.target).kernel = some k → k.guest = true →
        exec (.closeGuestBubble at_ i) s = 
          .next ((b.onCore e.target fun c => { c with closing := true, closeCc := t.dieCc (e.target / 16) }).completeEntry i j.step)) ∧
      ((∀ k, (b.core e.target).kernel = some k → k.guest = false) →
        exec (.closeGuestBubble at_ i) s = .next ((b.onCore e.target fun c => { c with bubble := none }).completeEntry i j.step))) ∧
    (t.starts 0x10 i j e (t.targetIdle e.target && t.coresIdle die) = true → t.decided = false →
      exec (.updatePassStart at_ i) s = .next (b.faultMiss i e)) ∧
    (t.starts 0x10 i j e (t.targetIdle e.target && t.coresIdle die) = true → t.decided = true → ∀ d, t.com.decision = some d →
      let p := Pass.ofBuf (imgPass j.image e.arg)
      let w := b.onDie die fun x => { x with pass := some (i, j.step, j.sn + e.finish) }
      let x : PassCtx :=
        { die, index := e.arg, p, sc := ⟨one32, one32, one32, one32, one32⟩, kappa := d.kappa, seed := j.seed
          cw := imgCw j.image, c0 := coreCycle (plannedJt j.image j.step i) }
      (d.decision ≠ .finite → exec (.updatePassStart at_ i) s =
        .next (w.onDie die fun d => { d with passesIdle := satAdd 32 d.passesIdle 1 })) ∧
      (d.decision = .finite → p.rule = 4 →
        exec (.updatePassStart at_ i) s = .next (w.outerPass x j.image (imgPass j.image e.arg) j.step)) ∧
      (d.decision = .finite → p.rule ≠ 4 → p.scalars t.com.hist.commits = none →
        exec (.updatePassStart at_ i) s = .next (PassRun.nonfinite ⟨w, 0, false, false⟩ x 0 0).s) ∧
      (∀ sc, d.decision = .finite → p.rule ≠ 4 → p.scalars t.com.hist.commits = some sc →
        exec (.updatePassStart at_ i) s = .next (w.innerPass { x with sc } (passShards j.image (imgPass j.image e.arg))))) ∧
    (t.starts 0x20 i j e (t.targetIdle e.target) = true →
      (t.listImage j e = none → exec (.runTransferList at_ i) s = .next (b.completeEntry i j.step)) ∧
      (∀ img, t.listImage j e = some img → exec (.runTransferList at_ i) s =
        let l := imgList img (e.arg % 2 ^ 31)
        .next ((b.onDie (e.target - 0x88) fun d =>
          { d with dma := some (i, j.step), dmaLeft := 0, dmaItem := l.1, dmaItems := l.2 }).advanceList (e.target - 0x88) img l.2))) ∧
    (t.starts 0x30 i j e (t.targetIdle e.target) = true → exec (.openScheduledWindow at_ i) s =
      .next (b.onChan (e.target - 0x90) fun c => { c with
        window := some (i, e.arg, t.jt, Nat.min (t.jt + e.duration) (j.sn + e.finish)), sharesAt := t.now })) ∧
    (let refreshed (u : State) (ch : Nat) : State :=
      u.onChan ch fun c => { c with lastRefresh := t.now, refreshes := c.refreshes + 1, idleFrom := t.now + s.erg.refreshNs }
    (t.inPeriod = true → t.starts 0x31 i j e (t.targetIdle e.target) = true → exec (.refreshNormalRate at_ i) s =
      .next ((refreshed b (e.target - 0x90)).completeEntry i j.step)) ∧
    (t.inPeriod = true → t.starts 0x32 i j e (t.targetIdle e.target) = true → exec (.refreshHighRate at_ i) s =
      .next ((if (b.chan (e.target - 0x90)).highRate then refreshed b (e.target - 0x90) else b).completeEntry i j.step)) ∧
    (t.inPeriod = false → s.erg.ready = true → t.htRefreshes = true →
      (t.htNow % 3900 = 0 ∨ (s.chan i).lastRefresh + 3900 ≤ t.now → exec (.refreshNormalRate at_ i) s = .next (refreshed t i)) ∧
      ((s.chan i).highRate = true → t.htNow % 3900 = 1950 ∨ (s.chan i).lastRefresh + 1950 ≤ t.now →
        exec (.refreshHighRate at_ i) s = .next (refreshed t i))))

/-- SEND_PLANNED_BLOCK, RECEIVE_PLANNED_BLOCK, OPEN_TX_WINDOW, OPEN_RX_WINDOW and RUN_SLICE where R59 lets them start. -/
def Obligations.PortActionsStart : Prop :=
  ∀ (s : State) (at_ i : Nat) (j : Job) (e : Entry),
    let t := s.tick at_
    let b := t.beginEntry i e (j.sn + e.offset)
    (∀ gather data, t.starts 0x40 i j e (t.targetIdle e.target) = true → b.sumIdle j e = false →
      let p := e.target - 0xB0
      let d := Blk.ofBuf (imgBlock j.image e.arg)
      let c := if d.space = 2 then b.onCom fun c => { c with floodSent := true } else b
      let src := match j.movesFrom d.epoch with
        | some o => c.formRecords o ⟨d.len, data⟩ (d.len / 96 + 1) 0
        | none => data
      let v := match gather.bind (imgShard j.image) with
        | some x => setBits src 0 256 (c.versionTag j x)
        | none => src
      let l := blockFlits d j.step v
      let u := (l.foldl (fun s f => s.emit (.flit p f)) c).onPort p fun n =>
        { n with
          sent := n.sent ++ [⟨i, d.block, j.step, b.htNow, l, [], false⟩]
          txBusy := if l = [] then n.txBusy else b.htNow + flitEnd n.width (l.length - 1) }
      b.blkRead d 0 d.len = (data, b) → d.isAfx j.image = false →
      (∀ f ∈ l, b.jt + flitEnd (b.port p).width (flitIdx f) ≤ j.sn + e.finish) → (u.port p).replayUsed u.htNow ≤ 4096 →
      exec (.sendPlannedBlock at_ i gather) s = .next (u.completeEntry i j.step)) ∧
    (t.starts 0x40 i j e (t.targetIdle e.target) = true → b.sumIdle j e = true → ∀ gather, exec (.sendPlannedBlock at_ i gather) s =
      .next ((b.skipEntry i e).emit (.flit (e.target - 0xB0)
        (mkFlit 5 true false (Blk.ofBuf (imgBlock j.image e.arg)).block 0 1 (j.step % 256) 0 (Blk.ofBuf (imgBlock j.image e.arg)).epoch)))) ∧
    (t.starts 0x48 i j e (t.targetIdle e.target) = true →
      exec (.receivePlannedBlock at_ i) s =
      let u := (b.unspilled j (Blk.ofBuf (imgBlock j.image e.arg))).foldl (fun u k => u.missEntry k) b
      .next (u.onPort (e.target - 0xB8) fun n =>
        { n with binds := (n.binds.filter fun x => !x.done || decide (u.jt < x.fin)) ++
            [⟨i, imgBlock j.image e.arg, j.step, [], [], (Blk.ofBuf (imgBlock j.image e.arg)).flits, [], [], 0, false, false,
              j.sn + match holdOf j.image e with | some (_, h) => h.finish | none => e.finish⟩] })) ∧
    (t.starts 0x41 i j e (t.targetIdle e.target) = true → exec (.openTxWindow at_ i) s =
      .next (b.onPort (e.target - 0xB0) fun n => { n with txWindow := some (i, e.arg, j.sn + e.finish), txGuest := 0 })) ∧
    (t.starts 0x49 i j e (t.targetIdle e.target) = true → exec (.openRxWindow at_ i) s =
      .next ((b.onPort (e.target - 0xB8) fun n => { n with rxProfile := some e.arg }).completeEntry i j.step)) ∧
    (t.starts 0x50 i j e (t.targetIdle e.target) = true → exec (.runSlice at_ i) s =
      let en := (imgRec j.image 0x0B 0 16 e.arg).fld 0 6
      let u := b.onFarPort (e.target - 0xC0) fun p =>
        { p with slice := some (i + 1, en, t.now + e.duration), staged := if en.testBit 1 then 0 else p.staged }
      .next (if en.testBit 2 then u.encodeGate else u))

/-- STEP_START, START_VERDICT_FLOOD, FLOOD_RESULT and COMMIT_POINT. -/
def Obligations.StepAndCommitComplete : Prop :=
  ∀ (s : State) (at_ i : Nat) (j : Job),
    let t := s.tick at_
    let sn := j.nextStart.1
    let n := j.nextStart.2
    (s.job = some j → j.hasEpoch = true → t.htValid = true → (sn : Int) ≤ t.jtInt →
      (j.phase = .stopping → exec (.stepStart at_) s = .next t.stopJob) ∧
      (j.phase = .armed ∨ j.phase = .running →
        (j.fresh = true → t.badNeighbour j = none ∧ (imgPorts j.image).any (fun p => t.tagMismatch p) = false) →
        exec (.stepStart at_) s =
          let finite := match t.com.decision with | some d => decide (d.decision = Decision.finite) | none => false
          let u := if finite then t.discardPools fun b => n ≤ afxStep b else t
          let u := ({ u with
            job := some { j with
              phase := .running, fresh := false, step := n, sn, xNext := 0, xPrev := if j.fresh then 0 else j.xNext
              sfRun := if j.fresh then 0 else if j.missThis then j.sfRun + 1 else 0, missThis := false }
            ents := [], catchup := [], rxHold := [], com := u.com.newStep
            near := if j.fresh then tmap NearPort.reset (fun n => { n with credits := [], lent := [] }) u.near else u.near } : State)
          let u := (u.clearFlags n).onAon fun a =>
            { a with stepEnergy := a.curEnergy, extEnergy := a.curExt, curEnergy := 0, curExt := 0 }
          .next ((u.relayoutAt n).capAt n).enterStep)) ∧
    (∀ e, t.starts 0x60 i j e (t.targetIdle e.target) = true → exec (.startVerdictFlood at_ i) s =
      .next ((((((t.beginEntry i e (j.sn + e.offset)).freeze j).decideModes j).completeEntry i j.step).replicaTimeouts j.step))) ∧
    (∀ r, s.job = some j → j.runs = true → s.com.frozen = true → s.com.result = none →
      (¬ (r.fld 0 64 = j.step ∧ r.fld 64 16 = imgEpoch j.image) → exec (.floodResult at_ r) s = .next (t.fatal Ev.floodFault)) ∧
      (r.fld 0 64 = j.step → r.fld 64 16 = imgEpoch j.image → exec (.floodResult at_ r) s =
        let x := 3900 * r.fld 96 16
        let u := ({ t with job := some { j with xNext := x } } : State).onCom fun c =>
          { c with
            result := some r, ufPending := some c.hist.ufRun, wNonzero := r.fld 512 256
            cStretchSteps := if x = 0 then c.cStretchSteps else satAdd 32 c.cStretchSteps 1 }
        let u := if x ≠ 0 ∧ t.com.capReq ≠ 0 then u.onAon fun a => { a with cappedSteps := satAdd 32 a.cappedSteps 1 } else u
        let u := (slotList j.image).foldl (fun u k => u.ufEval j r k) u
        .next (match imgCommitEntry j.image with | some e => u.signal e.2.preSo j.step | none => u))) ∧
    (∀ e, t.starts 0x61 i j e (t.targetIdle e.target) = true →
      let b := t.beginEntry i e (j.sn + e.offset)
      (t.com.result = none → exec (.commitPoint at_ i) s = .next (b.faultMiss i e)) ∧
      (∀ r, t.com.result = some r →
        let p := imgCommit j.image
        let cause := r.fld 80 16
        let d : DecisionRec :=
          { step := j.step, decision := if t.com.probeNext then .probe else if cause = 0 then .finite else .skip, cause
            kappa := clipFactor (comClip p) (r.fld 128 128) t.com.hist.nexp }
        let u := b.onCom fun c => { c with decision := some d }
        let next (w : State) : State :=
          let w := (List.range 32).foldl (fun w ch => w.applyRetire ch) (w.dropGradients j.image)
          let w := ((w.installRepair.outerCommit j).takeCheckpoints j).completeEntry i j.step
          if w.passesDone j.image (fun _ => true) then w.afterPasses j else w
        (t.com.probeNext = false → cause = 0 → exec (.commitPoint at_ i) s =
          let w := u.commitPending j r
          let w := if w.site.lastStep.any (· < j.step) then w.onSite fun x => { x with lastStep := none, repeats := 0 } else w
          .next (next (w.onCom fun c =>
            { c with
              hist := c.hist.finite p (r.fld 128 128) j.step, cCommits := satAdd 64 c.cCommits 1, mirrorDue := some j.step
              lastFinite := j.step, carry := c.carry.filter fun x => j.step ≤ x.1 }))) ∧
        (t.com.probeNext = false → cause ≠ 0 → exec (.commitPoint at_ i) s = .next (next (u.skipStep j cause))) ∧
        (t.com.probeNext = true → exec (.commitPoint at_ i) s = .next (next (u.probeStep j r)))))

/-- The resolution of slot misses at KERNEL_START (on a core that runs no guest), OPEN_GUEST_BUBBLE, RUN_TRANSFER_LIST, OPEN_SCHEDULED_WINDOW, RECEIVE_PLANNED_BLOCK, OPEN_TX_WINDOW, OPEN_RX_WINDOW, RUN_SLICE, START_VERDICT_FLOOD, COMMIT_POINT and GUARD_BAND_EXPIRY. -/
def Obligations.MissesAreResolved : Prop :=
  ∀ (s : State) (at_ i : Nat) (j : Job) (e : Entry) (c : Instr),
    let t := s.tick at_
    let due := j.sn + e.offset
    s.job = some j → j.runs = true → i < imgEntries j.image → e = imgEntry j.image i →
    ((c = .kernelStart at_ i ∧ e.action = 0x01 ∧ ∀ k, (t.core e.target).kernel = some k → k.guest = false) ∨
      (c = .openGuestBubble at_ i ∧ e.action = 0x02) ∨ (c = .runTransferList at_ i ∧ e.action = 0x20) ∨
      (c = .openScheduledWindow at_ i ∧ e.action = 0x30) ∨ (c = .receivePlannedBlock at_ i ∧ e.action = 0x48) ∨
      (c = .openTxWindow at_ i ∧ e.action = 0x41) ∨ (c = .openRxWindow at_ i ∧ e.action = 0x49) ∨
      (c = .runSlice at_ i ∧ e.action = 0x50) ∨ (c = .startVerdictFlood at_ i ∧ e.action = 0x60) ∨
      (c = .commitPoint at_ i ∧ e.action = 0x61) ∨
      (c = .guardBandExpiry at_ i ∧ (e.action = 0x20 ∨ e.action = 0x30 ∨ e.action = 0x48 ∨ e.action = 0x50 ∨ e.action = 0x60))) →
    let open_ : Prop := t.ent i = .idle ∨ t.ent i = .waiting
    let met : Prop := t.targetIdle e.target = true ∧ (e.preEn = true → (t.so e.preSo).reached j.step e.preCount = true)
    let mark : Prop := e.preEn = true ∧ (t.so e.preSo).step = (j.step : Int) ∧ (t.so e.preSo).skip = true
    (¬ (open_ ∧ (due : Int) ≤ t.jtInt) → exec c s = .next t) ∧
    (open_ → (due : Int) ≤ t.jtInt →
      (mark → e.policy = 2 → exec c s = .next (t.skipEntry i e)) ∧
      (mark → e.policy ≠ 2 → exec c s = .next (t.faultMiss i e)) ∧
      (¬ mark → ¬ met → t.jt < due + e.guard → e.policy ≠ 3 → exec c s = .next (t.putEnt i .waiting)) ∧
      (¬ mark → ¬ met → t.jt < due + e.guard → e.policy = 3 → exec c s = .next (t.faultMiss i e)) ∧
      (¬ mark → ¬ met → due + e.guard ≤ t.jt →
        (e.policy = 1 → exec c s = .next (t.deferEntry j i e)) ∧
        (e.policy = 2 → exec c s = .next (t.skipEntry i e)) ∧
        (e.policy ≠ 1 → e.policy ≠ 2 → exec c s = .next (t.faultMiss i e))))

/-- SO_SIGNAL, MB_CUTOFF, CARRY_COMPLETE, MIRROR_COPY_COMPLETE and CKPT_LOCAL_DONE. -/
def Obligations.SignalsAndBatchesComplete : Prop :=
  ∀ (s : State) (at_ : Nat),
    let t := s.tick at_
    (∀ k (m : Int) skip, (s.so k).step < m → exec (.soSignal at_ k m skip) s = .next (t.putSo k ⟨m, 1, skip⟩)) ∧
    (∀ k (m : Int) skip, (s.so k).step = m →
      exec (.soSignal at_ k m skip) s = .next (t.putSo k ⟨m, satAdd 32 (s.so k).count 1, (s.so k).skip || skip⟩)) ∧
    (∀ k (m : Int) skip, m < (s.so k).step → exec (.soSignal at_ k m skip) s =
      .next (({ t with soStale := s.soStale + 1 } : State).raise Ev.soStaleSignal 0 [] m.toNat)) ∧
    (∀ m j e, s.job = some j → j.runs = true → j.fresh = false → (imgMbs j.image)[m]? = some e → ((j.sn + e.cutoff : Nat) : Int) ≤ t.jtInt →
      s.com.frozen = false → (s.so e.doneSo).reached j.step e.count = false → m ∉ s.com.mbDeferred → m ∉ s.com.mbDropped →
      let p := imgCommit j.image
      let u := (t.startMbs (Nat.min (m + 2) (comMbCount p))).raise Ev.mbOverrun 0 [(8, m), (2, comOverrun p)] j.step
      (comOverrun p = 2 → exec (.mbCutoff at_ m) s = .next
        ((List.range 128).foldl (fun w core =>
          match (w.core core).kernel with
          | some k => if k.step = j.step && w.kernelOfMb j core k m then w.onCore core fun c => { c with closing := true } else w
          | none => w) (u.onCom fun c => { c with mbDropped := c.mbDropped ++ [m], cDropped := satAdd 32 c.cDropped 1 }))) ∧
      (∀ held, comOverrun p ≠ 2 →
        (s.com.carry = none ∧ held = [] ∨ ∃ l x, s.com.carry = some (j.step, l, x) ∧ held = l) →
        exec (.mbCutoff at_ m) s =
          let w := if held ≠ [] then u
            else { u with oasis := (gradShards j.image).foldl (fun r x =>
              match carryAddr j.image x.id with | some a => r.zero a x.gradBytes | none => r) u.oasis }
          .next (w.onCom fun c =>
          { c with
            mbDeferred := c.mbDeferred ++ [m], cDeferred := satAdd 32 c.cDeferred 1
            cDropped := satAdd 32 c.cDropped (imgDirect j.image)
            cStretched := if comOverrun p = 1 then satAdd 32 c.cStretched 1 else c.cStretched
            stretch := if comOverrun p = 1 then Nat.min e.planLen (comStretchMax p) else c.stretch
            carryG := c.stepG, carry := some (j.step, held ++ [(m, e.carrySo, false)], c.stepL) }))) ∧
    (∀ m n l lexp x, s.com.carry = some (n, l, lexp) → l.find? (fun x => x.1 = m && !x.2.2) = some x →
      exec (.carryComplete at_ m) s = .next ((t.onCom fun c =>
        { c with carry := some (n, l.map fun y => if y.1 = m then (y.1, y.2.1, true) else y, lexp) }).signal x.2.1 (n + 1))) ∧
    (∀ j d r, s.job = some j → s.com.mirrorDue = some d → imgRole j.image 4 = some r →
      (j.runs = true → d = j.step → t.passesDone j.image (fun _ => true) = true) →
      (∀ x ∈ imgShards j.image, ∀ q ∈ [s.oasis.readAt x.shAddr 4160, s.oasis.readAt x.anAddr (2 * x.sliceSubs)], q.fixed = [] ∧ q.bad = []) →
      let u := t.onCom fun c => { c with mirrorDue := none }
      let m := u.mirrorImage j.image
      (j.phase = .restarting → exec (.mirrorCopyComplete at_) s = .next u) ∧
      (j.phase ≠ .restarting → exec (.mirrorCopyComplete at_) s =
        .next (((u.ergWrite r.base (Nat.min m.len r.length) (m.val % 256 ^ (Nat.min m.len r.length))).onCom fun c =>
          { c with mirrored := some d }).ckptMirrored j.image))) ∧
    (∀ step h a e, s.com.ckptWriting = some (step, h, a, e) → exec (.ckptLocalDone at_) s =
      .next (((t.ergWrite a e.len e.val).onCom fun c => { c with ckptWriting := none }).raise Ev.ckptLocalDone 0 [] step))

/-- BG_COMMAND_COMPLETE for each background opcode. -/
def Obligations.BackgroundCommandsEnd : Prop :=
  ∀ (s : State) (at_ op mb n : Nat) (res : BgResult) (x : Cmd),
    let t := s.tick at_
    s.pcie.bg.find? (fun b => b.1 = op) = some (op, mb, n) →
    ((s.mbox mb).cmds.find? (fun x => x.phase = .background && x.entry.fld 0 16 = op) = none →
      exec (.bgCommandComplete at_ op res) s = .next (t.onPcie fun p => { p with bg := p.bg.filter fun b => b.1 ≠ op })) ∧
    ((s.mbox mb).cmds.find? (fun x => x.phase = .background && x.entry.fld 0 16 = op) = some x →
      let ends (u : State) (status : Nat) (resp : Buf) (xfer : Nat) : State :=
        (u.onMbox mb fun m =>
          { m with cmds := m.cmds.map fun x =>
              if x.phase = .background && x.entry.fld 0 16 = op then
                { x with
                  phase := .finished, status, resp, xfer := Nat.min xfer (2 ^ 32 - 1), ht := u.htStamp, in0 := .empty, in1 := .empty }
              else x }).onPcie fun p => { p with bg := p.bg.filter fun b => b.1 ≠ op }
      let i := x.entry.fld 512 8
      let mask := x.entry.fld 512 10
      (op = 0x0302 → x.entry.fld 576 32 ≤ n → exec (.bgCommandComplete at_ op res) s = .next (ends t x.status .empty n)) ∧
      (op = 0x0303 → x.entry.fld 576 32 ≤ n → exec (.bgCommandComplete at_ op res) s = .next (ends t 0 .empty 0)) ∧
      (∀ st u, op = 0x0403 → t.restoreDone x = (st, u) →
        exec (.bgCommandComplete at_ op res) s = .next (ends u st (if st = 0 then u.restoreResp else .empty) 0)) ∧
      (∀ st u, op = 0x0903 → t.fwStored mb x = (st, u) → exec (.bgCommandComplete at_ op res) s = .next (ends u st .empty 0)) ∧
      (op = 0x0B01 → ¬ (i < 8 ∧ res.rows ≠ 0) → exec (.bgCommandComplete at_ op res) s =
        let u := if 0x30 ≤ i ∧ i < 0x50
          then t.loopLines ((res.data.recs 8 (res.data.len / 8)).filter fun e => elaChannel (e.fld 0 43) + 0x30 = i) else t
        let u := if i = 0x50 then u.onAon fun a => { a with chainLoop := false } else u
        .next (ends (if res.errors = 0 then u.raise Ev.loopbackDone i
          else u.raise Ev.loopbackErrors i [(32, Nat.min res.errors (2 ^ 32 - 1))]) 0 (packBuf 16 [(64, res.bytes), (64, res.errors)]) 0)) ∧
      (op = 0x0B01 → i < 8 → res.rows ≠ 0 → exec (.bgCommandComplete at_ op res) s = .next (ends t 0x012B .empty 0)) ∧
      (op = 0x0B02 → res.rows = 0 → exec (.bgCommandComplete at_ op res) s =
        let u := (t.zeroDies mask).raise Ev.mbistDone mask
        let h := (hostBuf (x.entry.slice 16 16) (some x.in0)).2
        .next (ends (u.writeHost h.exts (res.data.slice 0 0)) 0 (packBuf 4 [(32, 0)]) 0)) ∧
      (op = 0x0B02 → res.rows ≠ 0 → exec (.bgCommandComplete at_ op res) s =
        let u := (t.zeroDies mask).raise Ev.mbistFail mask [(16, Nat.min res.rows (2 ^ 16 - 1))]
        let h := (hostBuf (x.entry.slice 16 16) (some x.in0)).2
        let list := res.data.slice 0 (8 * res.rows)
        .next (if h.size < list.len then ends u 7 .empty 0
          else ends (u.writeHost h.exts list) 0 (packBuf 4 [(32, res.rows)]) (8 * res.rows))))

/-- CATCHUP_SLOT and FOOTPRINT_END. -/
def Obligations.CatchupsAndFootprintEndsComplete : Prop :=
  ∀ (s : State) (at_ i : Nat) (j : Job) (e : Entry),
    let t := s.tick at_
    s.job = some j → j.runs = true → i < imgEntries j.image → e = imgEntry j.image i →
    (∀ gathers, e.action = 0xF0 → t.ent i = .idle ∨ t.ent i = .waiting → ((j.sn + e.offset : Nat) : Int) ≤ t.jtInt → txPort e.target = none →
      128 ≤ e.target →
      (t.targetIdle e.target = true → tget [] t.catchup i = [] → tget 0 t.rxHold i = 0 →
        exec (.catchupSlot at_ i gathers) s = .next ((t.putEnt i (.running t.jt)).completeEntry i j.step)) ∧
      (∀ k, t.targetIdle e.target = true → tget [] t.catchup i = [k] → tget 0 t.rxHold i = 0 →
        let f := imgEntry j.image k
        let u := t.putEnt i (.running t.jt)
        u.preSkipped j f = false → u.metPre j f (u.idleFor f) = true →
        let w := ((u.leaveCatchup i k).putEnt k (.running t.jt)).noteMiss f.target fun r =>
          { r with maxLateNs := Nat.max r.maxLateNs (t.jt - (j.sn + f.offset)) }
        ¬ ((w.startAction j k f (j.sn + e.finish) gathers).targetIdle e.target = true) →
        exec (.catchupSlot at_ i gathers) s = .next (w.startAction j k f (j.sn + e.finish) gathers)) ∧
      (t.targetIdle e.target = false → exec (.catchupSlot at_ i gathers) s =
        .next ((tget [] (t.faultMiss i e).catchup i).foldl
          (fun u k => (u.leaveCatchup i k).faultMiss k (imgEntry j.image k)) (t.faultMiss i e)))) ∧
    (∀ since, t.ent i = .running since → since < j.sn + e.finish → ((j.sn + e.finish : Nat) : Int) ≤ t.jtInt →
      (e.action = 0x40 → exec (.footprintEnd at_ i) s = .next (t.faultMiss i e)) ∧
      (e.action = 0x41 → (t.port (e.target - 0xB0)).txWindow.any (fun w => w.1 = i) = true →
        let u := t.onPort (e.target - 0xB0) fun n => { n with txWindow := none }
        exec (.footprintEnd at_ i) s =
          .next (if j.sn + e.finish < since + e.duration then u.faultMiss i e else u.completeEntry i j.step)) ∧
      (∀ en fin, e.action = 0x50 → (t.farPort (e.target - 0xC0)).slice = some (i + 1, en, fin) →
        let u := t.onFarPort (e.target - 0xC0) fun p => { p with slice := none }
        exec (.footprintEnd at_ i) s =
          .next (if t.now + (j.sn + e.finish) < fin + t.jt then u.faultMiss i e else u.completeEntry i j.step)) ∧
      (∀ k h c, e.action = 0x48 → holdOf j.image e = some (h, c) → t.heldPlaces h < c.capacity →
        (t.port (e.target - 0xB8)).binds.findIdx?
          (fun x => x.entry = i && x.step = j.step && x.got.length ≠ x.total && !x.holdOver && !x.done) = some k →
        exec (.footprintEnd at_ i) s =
          let u := t.onBind (e.target - 0xB8) k fun x => { x with missing := (List.range x.total).filter fun m => !x.got.contains m }
          .next (({ u with rxHold := tset 0 t.rxHold h (tget 0 t.rxHold h + 1) } : State).onBind (e.target - 0xB8) k
            fun x => { x with holdOver := true })))

/-- ITEM_ISSUE, KERNEL_END, KERNEL_WAIT_FAULT, KERNEL_COMPLETE and GUEST_TILE_BOUNDARY. -/
def Obligations.KernelsIssueAndEnd : Prop :=
  ∀ (s : State) (at_ core : Nat) (k : Kernel),
    let t := s.tick at_
    let c := t.core core
    let cc := t.dieCc (core / 16)
    let b := t.itemAt core k k.pos
    (s.core core).kernel = some k →
    (k.stopped = false → k.ended = false → t.accHeld c = false → k.issueFrom ≤ cc →
      itemKind b = 0x4D ∨ itemKind b = 0x44 ∨ itemKind b = 0x56 → c.closingHolds k.guest b = false →
      let k' := { k with pos := k.pos + b.len, nextIndex := k.nextIndex + 1, lastIssue := cc, issuedAny := true, waitFrom := none, lockFrom := none }
      (t.passedOver core k b = true → exec (.itemIssue at_ core) s =
        .next (t.putCore core { c with kernel := some { k' with pos := k.pos + 64, passed := k.passed + 1 } })) ∧
      (∀ so n, t.passedOver core k b = false → itemWait b = some (so, n) → t.waitMet k so n = false →
        exec (.itemIssue at_ core) s = .next (t.putCore core { c with kernel := some { k with waitFrom := some (k.waitFrom.getD cc) } })) ∧
      (t.passedOver core k b = false → (∀ so n, itemWait b = some (so, n) → t.waitMet k so n = true) →
        let w := { c with waitCycles := match k.waitFrom with | some x => satAdd 32 c.waitCycles (cc - x) | none => c.waitCycles }
        let u := { w with
          interlock := match k.lockFrom with | some x => satAdd 32 c.interlock (cc - x) | none => c.interlock, kernel := some k' }
        let it : Item := ⟨k.pos, k.nextIndex, b, cc, none⟩
        (t.interlocked core k b = true → exec (.itemIssue at_ core) s =
          .next (t.putCore core { w with kernel := some { k with waitFrom := none, lockFrom := some (k.lockFrom.getD cc) } })) ∧
        (t.interlocked core k b = false → c.queueFull b = true → exec (.itemIssue at_ core) s =
          .next (t.putCore core { u with kernel := some { k with waitFrom := none, lockFrom := none } })) ∧
        (t.interlocked core k b = false → c.queueFull b = false →
          (itemKind b = 0x4D → exec (.itemIssue at_ core) s = .next (t.putCore core { u with mq := u.mq ++ [it] })) ∧
          (itemKind b = 0x44 → exec (.itemIssue at_ core) s = .next (t.putCore core { u with dq := u.dq ++ [it] })) ∧
          (itemKind b = 0x56 → exec (.itemIssue at_ core) s = .next (t.putCore core { u with vq := u.vq ++ [it] }))))) ∧
    (k.stopped = false → k.ended = false → t.accHeld c = false → k.issueFrom ≤ cc → itemKind b = 0x45 → exec (.kernelEnd at_ core) s =
      .next (t.putCore core { c with kernel := some { k with ended := true, lastDone := Nat.max k.lastDone cc } })) ∧
    (∀ w, k.stopped = false → (c.vecWait = some w ∨ c.vecWait = none ∧ k.ended = false ∧ itemWait b = some w) →
      t.waitMet k w.1 w.2 = false → k.limitJt ≤ t.jt ∨ ((t.so w.1).step = (k.step : Int) ∧ (t.so w.1).skip = true) →
      let waited (x : Core) (from_ : Option Nat) : Core :=
        { x with waitCycles := match from_ with | some y => satAdd 32 x.waitCycles (cc - y) | none => x.waitCycles }
      exec (.kernelWaitFault at_ core) s =
        .next (if c.vecWait.isSome
          then ((t.putCore core (waited { c with vact := none, vq := [] } k.vwaitFrom)).raise Ev.kernelWaitFault core [(16, 0)] k.step
            k.guest).kernelFault core k
          else ((t.putCore core (waited c k.waitFrom)).raise Ev.kernelWaitFault core [(16, itemTag b)] k.step k.guest).kernelFault core k)) ∧
    (c.drained = true → k.lastDone + 4 ≤ cc →
      let u := t.putCore core { c with kernel := none, closing := c.closing && k.guest }
      (k.guest = false → k.stopped = true → exec (.kernelComplete at_ core) s = .next u) ∧
      (k.guest = false → k.stopped = false → k.ended = true ∨ c.closing = true ∧ c.tileBoundary false = true →
        exec (.kernelComplete at_ core) s = .next (((u.formBlocks core k).completeEntry k.entry k.step).foldCarry core k)) ∧
      (∀ g, k.guest = true → k.ended = true ∨ k.stopped = true → s.guest = some g →
        let next := g.nextKernel core k.index
        let g' := { g with done := g.done + 1 }
        let w := ({ u with guest := some g' } : State).onCore core fun c => { c with guest := { c.guest with next } }
        (c.closing = true → exec (.kernelComplete at_ core) s =
          let v := w.onCore core fun c => { c with closing := false, overran := false, bubble := none }
          .next (if c.overran then v.stopGuest 3 core else v).detachGuest) ∧
        (∀ n, c.closing = false → w.guestKernel g' core next c.bubbleEntry c.bubbleQ = some n → exec (.kernelComplete at_ core) s =
          .next (if c.bubble.isSome && !g.stopped then w.onCore core fun c => { c with kernel := some n, v := .reset } else w)))) ∧
    (∀ g, k.guest = true → c.closing = true → c.tileBoundary true = true → Nat.max k.lastDone c.closeCc + 40 ≤ cc → s.guest = some g →
      exec (.guestTileBoundary at_ core) s =
        let u := t.scratchWrite core guestSaveAddr 8512 c.v.image
        let u := if k.ended then { u with guest := some { g with done := g.done + 1 } } else u
        let gc : GuestCore := if k.ended || k.stopped then ⟨none, g.nextKernel core k.index⟩ else { c.guest with kernel := some k }
        let u := u.onCore core fun c => { c with kernel := none, closing := false, overran := false, bubble := none, guest := gc, v := .reset }
        .next (if c.overran then u.stopGuest 3 core else u).detachGuest)

/-- MATRIX_DESCRIPTOR, ACCUMULATION_COMPLETE, DRAIN_START and DRAIN_COMPLETE. -/
def Obligations.MatrixCommandsComplete : Prop :=
  ∀ (s : State) (at_ core : Nat) (k : Kernel),
    let t := s.tick at_
    let c := t.core core
    let cc := t.dieCc (core / 16)
    (s.core core).kernel = some k →
    (∀ strikes z c it, z = t.strike strikes → c = z.core core → nextItem c.mq = some it →
      let d := Mat.ofBuf it.body
      let free := Nat.max (it.issueCc + 24) c.arrayFree
      let start := Nat.max free (c.tile d.tile).drainedCc
      let u := if d.cont then z.settleTile core d.tile else z
      let x := (u.core core).tile d.tile
      let v := if d.cont && d.k ≠ 0 then (u.noteBasin core d.tile d.uses (.core core k.guest)).renewBasin core d.tile d.uses else u
      start ≤ cc → (z.die (core / 16)).pass = none → c.draining d.tile = false → drainAhead c.mq d.tile = false →
      (d.cont = true → 2 ^ 32 < x.pcount + d.k → exec (.matrixDescriptor at_ ⟨core, strikes⟩) s =
        .next ((u.raise Ev.accLimit core [(16, d.tag)] k.step k.guest).stopAt core it.index k)) ∧
      (d.cont = true → x.pcount + d.k ≤ 2 ^ 32 → d.k ≠ 0 → d.nanScale = false → x.texp ≠ d.tensorExp →
        exec (.matrixDescriptor at_ ⟨core, strikes⟩) s =
          .next ((u.raise Ev.tscaleMismatch core [(16, d.tag)] k.step k.guest).stopAt core it.index k)) ∧
      (¬ (d.cont = true ∧ (2 ^ 32 < x.pcount + d.k ∨ (d.k ≠ 0 ∧ d.nanScale = false ∧ x.texp ≠ d.tensorExp))) →
        ∀ as bs sas sbs sa sb sc sd,
        v.scratchRows core (if d.transA then ⟨d.aAddr, 64 * d.aLd, d.k, packedBytes d.fmtA d.m⟩
          else ⟨d.aAddr, 64 * d.aLd, d.m, packedBytes d.fmtA d.k⟩) (.core core k.guest) = (as, sa) →
        sa.scratchRows core (if d.transB then ⟨d.bAddr, 64 * d.bLd, d.n, packedBytes d.fmtB d.k⟩
          else ⟨d.bAddr, 64 * d.bLd, d.k, packedBytes d.fmtB d.n⟩) (.core core k.guest) = (bs, sb) →
        (if d.scaleA = 2 then sb.scratchRows core ⟨d.aScale, 64 * d.aSld, d.m, d.k / 32⟩ (.core core k.guest) else ([], sb)) = (sas, sc) →
        (if d.scaleB = 2 then sc.scratchRows core ⟨d.bScale, 64 * d.bSld, d.n, d.k / 32⟩ (.core core k.guest) else ([], sc)) = (sbs, sd) →
        exec (.matrixDescriptor at_ ⟨core, strikes⟩) s =
          let y := ((v.core core).tile d.tile).takeUp d it.body k.guest
          let y := { y with acc := accumulate d as bs sas sbs y.acc }
          .next (sd.onCore core fun c =>
            if c.kernel.isNone then c else
              { c.putTile d.tile y with
                mq := markStart c.mq it.index start
                arrayFree := if d.k = 0 then c.arrayFree else start + d.baseCycles * d.slow
                busy := satAdd 64 c.busy d.baseCycles
                fetchSlow := satAdd 32 c.fetchSlow (d.baseCycles * (d.slow - 1))
                interlock := satAdd 32 c.interlock (start - free) }))) ∧
    (∀ it rest start, c.mq = it :: rest → it.startCc = some start →
      let d := Mat.ofBuf it.body
      let done := start + d.baseCycles * d.slow + 16
      done ≤ cc →
      (d.drain = true → exec (.accumulationComplete at_ core d.tile) s =
        .next (t.putCore core { c with mq := rest, drainq := c.drainq ++ [(done, it)] })) ∧
      (d.drain = false → exec (.accumulationComplete at_ core d.tile) s =
        let u := t.putCore core { c with mq := rest, kernel := some { k with lastDone := Nat.max k.lastDone done } }
        .next (if d.sigEn then u.signal d.sigSo k.step else u))) ∧
    (∀ strikes z c due it rest, z = t.strike strikes → c = z.core core → c.drain = none → c.drainq = (due, it) :: rest →
      let d := Mat.ofBuf it.body
      let start := Nat.max due (Nat.max c.tile0.drainedCc c.tile1.drainedCc)
      let u := (z.settleTile core d.tile).noteBasin core d.tile d.uses (.core core k.guest)
      let p := u.profile core k d.profile
      let direct := fmtIsInt d.fmtD && p.direct
      start ≤ cc → ∀ sArr bArr sa sb,
      (if p.sMode = 1 ∧ direct = false then u.scratchRead core p.sAddr (4 * d.n) (.core core k.guest) else (0, u)) = (sArr, sa) →
      (if direct then (0, sa) else if p.bMode = 1 then sa.scratchRead core p.bAddr (2 * d.n) (.core core k.guest)
        else if p.bMode = 2 then sa.scratchRead core p.bAddr (4 * d.n) (.core core k.guest) else (0, sa)) = (bArr, sb) →
      exec (.drainStart at_ ⟨core, strikes⟩ d.tile) s = .next (sb.onCore core fun c =>
        if c.kernel.isNone then c else
          { c with
            drainq := rest, drain := some (drainOut p d (c.tile d.tile) sArr bArr it (start + 144))
            interlock := satAdd 32 c.interlock (start - due) })) ∧
    (∀ dr, c.drain = some dr → dr.doneCc ≤ cc → exec (.drainComplete at_ core) s =
      let d := Mat.ofBuf dr.item.body
      let u := dr.writes.foldl (fun s w => s.writeBits core w.1 w.2.1 w.2.2) t
      let x := (u.core core).tile dr.tile
      let x := { x with
        fInvalid := x.fInvalid || dr.fInvalid, fOver := x.fOver || dr.fOver, fUnder := x.fUnder || dr.fUnder
        fClip := x.fClip || dr.fClip, drainedCc := dr.doneCc }
      let u := u.onCore core fun c =>
        { c.putTile dr.tile x with drain := none, kernel := some { k with lastDone := Nat.max k.lastDone dr.doneCc } }
      let u := ((u.kernelFlags core k ⟨x.fInvalid, x.fOver, x.fUnder, x.fClip⟩).sampleTile core k d.tag dr.item.index).countUnderflow
        k d.tag dr.underflows
      .next (if d.sigEn then u.signal d.sigSo k.step else u))

/-- CORE_DMA_DESCRIPTOR, CORE_DMA_FINISH, VECTOR_BLOCK and VECTOR_BLOCK_FINISH. -/
def Obligations.CoreDmaAndBlocksComplete : Prop :=
  ∀ (s : State) (at_ core : Nat) (k : Kernel),
    let t := s.tick at_
    let c := t.core core
    let cc := t.dieCc (core / 16)
    (s.core core).kernel = some k →
    (∀ strikes z c it, z = t.strike strikes → c = z.core core → nextItem c.dq = some it → exec (.coreDmaDescriptor at_ ⟨core, strikes⟩) s =
      .next ((z.putCore core { c with dq := markStart c.dq it.index it.issueCc }).dmaMove core (CoreDma.ofBuf it.body) (.core core k.guest))) ∧
    (∀ it, c.dq.find? (fun it => it.startCc.isSome && decide (it.issueCc + (CoreDma.ofBuf it.body).cycles ≤ cc)) = some it →
      exec (.coreDmaFinish at_ core) s =
        let d := CoreDma.ofBuf it.body
        let u := t.putCore core
          { c with
            dq := c.dq.filter fun x => x.index ≠ it.index
            kernel := some { k with lastDone := Nat.max k.lastDone (it.issueCc + d.cycles) } }
        .next (if d.sigEn then u.signal d.sigSo k.step else u)) ∧
    (∀ it rest, c.vact = none → c.vq = it :: rest → exec (.vectorBlock at_ core) s =
      .next (t.putCore core { c with vq := rest, vact := some ({ it with startCc := some cc }, ⟨k.base + it.off, 0, 0⟩) })) ∧
    (∀ it b, c.vact = some (it, b) → vbTotal it.body ≤ b.done → exec (.vectorBlockFinish at_ core) s =
      let k' := { k with lastDone := Nat.max k.lastDone cc }
      .next ((t.putCore core { c with vact := none, kernel := some k' }).kernelFlags core k' ⟨c.v.fInvalid, c.v.fOver, c.v.fUnder, c.v.fClip⟩))

/-- The vector instructions 0x01 to 0x29: effect on the vector state, the block and the cycle count q. -/
def Obligations.VectorArithmeticCompletes : Prop :=
  ∀ (s : State) (at_ core : Nat) (f : VFields) (k : Kernel) (it : Item) (b : VBlock),
    let t := s.tick at_
    let ran (g : VState → VState) : Res := .next ((t.onCore core fun c => { c with v := g c.v }).onCore core (Core.vecRan 1 0))
    (t.runsVec core 0x1 f k it b = true → exec (.vadd at_ core f) s = ran fun v => v.fpOp f fun a b _ => fvAdd a b) ∧
    (t.runsVec core 0x2 f k it b = true → exec (.vsub at_ core f) s = ran fun v => v.fpOp f fun a b _ => fvAdd a b.negate) ∧
    (t.runsVec core 0x3 f k it b = true → exec (.vmul at_ core f) s = ran fun v => v.fpOp f fun a b _ => fvMul a b) ∧
    (t.runsVec core 0x4 f k it b = true → exec (.vfma at_ core f) s = ran fun v => v.fpOp f fvFma) ∧
    (t.runsVec core 0x5 f k it b = true → exec (.vmax at_ core f) s = ran fun v => v.pick f true) ∧
    (t.runsVec core 0x6 f k it b = true → exec (.vmin at_ core f) s = ran fun v => v.pick f false) ∧
    (t.runsVec core 0x7 f k it b = true → exec (.vabs at_ core f) s = ran fun v => v.fpOp f fun a _ _ => (a.abs, false)) ∧
    (t.runsVec core 0x8 f k it b = true → exec (.vneg at_ core f) s = ran fun v => v.fpOp f fun a _ _ => (a.negate, false)) ∧
    (t.runsVec core 0x9 f k it b = true → exec (.vcmplt at_ core f) s = ran fun v => v.compare f Fv.lt fun a b => a < b) ∧
    (t.runsVec core 0xa f k it b = true → exec (.vcmple at_ core f) s = ran fun v => v.compare f (fun a b => a.lt b || a.eqv b) fun a b => a ≤ b) ∧
    (t.runsVec core 0xb f k it b = true → exec (.vcmpeq at_ core f) s = ran fun v => v.compare f Fv.eqv fun a b => a = b) ∧
    (t.runsVec core 0xc f k it b = true → exec (.vsel at_ core f) s = ran fun v => (List.range 64).foldl (fun w l => w.setLane f.vd l (if v.enabled f.msk l then v.lane f.va l else v.lane f.vb l)) v) ∧
    (t.runsVec core 0x10 f k it b = true → exec (.vrcp at_ core f) s = ran fun v => v.tableOp f vrcp) ∧
    (t.runsVec core 0x11 f k it b = true → exec (.vrsq at_ core f) s = ran fun v => v.tableOp f vrsq) ∧
    (t.runsVec core 0x12 f k it b = true → exec (.vexp2 at_ core f) s = ran fun v => v.tableOp f vexp2) ∧
    (t.runsVec core 0x13 f k it b = true → exec (.vlog2 at_ core f) s = ran fun v => v.tableOp f vlog2) ∧
    (t.runsVec core 0x18 f k it b = true → exec (.vcvt at_ core f) s = ran fun v => v.vcvt f) ∧
    (t.runsVec core 0x19 f k it b = true → exec (.vqmx at_ core f) s = ran fun v => v.vqmx f) ∧
    (t.runsVec core 0x20 f k it b = true → exec (.viadd at_ core f) s = ran fun v => v.intOp f (· + ·)) ∧
    (t.runsVec core 0x21 f k it b = true → exec (.visub at_ core f) s = ran fun v => v.intOp f (· - ·)) ∧
    (t.runsVec core 0x22 f k it b = true → exec (.vimul at_ core f) s = ran fun v => v.intOp f (· * ·)) ∧
    (t.runsVec core 0x23 f k it b = true → exec (.vand at_ core f) s = ran fun v => v.bitOp f (· &&& ·)) ∧
    (t.runsVec core 0x24 f k it b = true → exec (.vor at_ core f) s = ran fun v => v.bitOp f (· ||| ·)) ∧
    (t.runsVec core 0x25 f k it b = true → exec (.vxor at_ core f) s = ran fun v => v.bitOp f (· ^^^ ·)) ∧
    (t.runsVec core 0x26 f k it b = true → exec (.vshl at_ core f) s = ran fun v => v.bitOp f fun a b => a <<< (b % (if f.ty = 3 then 32 else 16))) ∧
    (t.runsVec core 0x27 f k it b = true → exec (.vshr at_ core f) s = ran fun v => v.bitOp f fun a b => a >>> (b % (if f.ty = 3 then 32 else 16))) ∧
    (t.runsVec core 0x28 f k it b = true → exec (.vsra at_ core f) s = ran fun v => v.bitOp f fun a b =>
        let w := if f.ty = 3 then 32 else 16
        wrap w (sext w a / ((2 ^ (b % (if f.ty = 3 then 32 else 16)) : Nat) : Int))) ∧
    (t.runsVec core 0x29 f k it b = true → exec (.vmovi at_ core f) s = ran fun v => (List.range 64).foldl (fun w l => if v.enabled f.msk l then w.setLane f.vd l (BitVec.ofNat 32 f.imm) else w) v)

/-- The vector instructions 0x30 to 0x7F. -/
def Obligations.VectorMovesAndChannelsComplete : Prop :=
  ∀ (s : State) (at_ core : Nat) (f : VFields) (k : Kernel) (it : Item) (b : VBlock),
    let t := s.tick at_
    let ran (g : VState → VState) : Res := .next ((t.onCore core fun c => { c with v := g c.v }).onCore core (Core.vecRan 1 0))
    let addr := f.imm + (if f.va % 2 = 1 then b.done / vbIcount it.body * vbAdv it.body * 64 else 0)
    let v := (t.core core).v
    let n := transCycles (vbTs it.body)
    let x : VCtx := ⟨core, k, it, b, f⟩
    let ch := v.chan (bits f.imm 0 2)
    (t.runsVec core 0x30 f k it b = true → exec (.vperm at_ core f) s = ran fun v => v.shuffle f fun l => (v.lane f.vb l).toNat) ∧
    (t.runsVec core 0x31 f k it b = true → exec (.vrot at_ core f) s = ran fun v => v.shuffle f fun l => l + f.imm) ∧
    (t.runsVec core 0x32 f k it b = true → exec (.vbcast at_ core f) s = ran fun v => v.shuffle f fun _ => f.imm) ∧
    (t.runsVec core 0x50 f k it b = true → exec (.rclr at_ core f) s = ran fun v => v.setChan (bits f.imm 0 2) Channel.reset) ∧
    (t.runsVec core 0x53 f k it b = true → exec (.rget at_ core f) s = ran fun v =>
        let x := (v.chan (bits f.imm 0 2)).round
        ((List.range 64).foldl (fun w l => if v.enabled f.msk l then w.setLane f.vd l (BitVec.ofNat 32 x.1) else w) v).flag x.2) ∧
    (∀ d u, t.runsVec core 0x40 f k it b = true → t.scratchRead core addr 256 (.core core k.guest) = (d, u) →
      exec (.vld at_ core f) s = .next ((u.onCore core fun c =>
        { c with v := (List.range 64).foldl (fun w l =>
            if c.v.enabled f.msk l then w.setLane f.vd l (BitVec.ofNat 32 (d >>> (32 * l))) else w) c.v }).onCore core (Core.vecRan 1 0))) ∧
    (t.runsVec core 0x41 f k it b = true → exec (.vst at_ core f) s =
      .next ((t.storeLanes core addr v f).onCore core (Core.vecRan 1 0))) ∧
    (∀ rows u, t.runsVec core 0x42 f k it b = true →
      t.scratchRows core ⟨addr, vbTs it.body * 64, 64, 16⟩ (.core core k.guest) = (rows, u) →
      exec (.vldt at_ core f) s = .next ((u.onCore core fun c =>
        { c with v := (List.range 64).foldl (fun w l =>
            if c.v.enabled f.msk l then
              (List.range 4).foldl (fun w i => w.setLane (f.vd + i) l (BitVec.ofNat 32 (rows.getD l 0 >>> (32 * i)))) w
            else w) c.v }).onCore core (Core.vecRan n (n - 4)))) ∧
    (t.runsVec core 0x43 f k it b = true → exec (.vstt at_ core f) s =
      .next (((List.range 64).foldl (fun s l =>
        if v.enabled f.msk l then
          s.scratchWrite core (addr + l * (vbTs it.body * 64)) 16
            ((List.range 4).foldr (fun i a => (v.lane (f.vd + i) l).toNat + a <<< 32) 0)
        else s) t).onCore core (Core.vecRan n (n - 4)))) ∧
    (t.runsVec core 0x51 f k it b = true →
      let d := (v.sumElems f false).foldl Channel.add ch
      (d.count ≤ 2 ^ 40 → exec (.radd at_ core f) s =
        .next ((t.onCore core fun c => { c with v := c.v.setChan (bits f.imm 0 2) d }).onCore core (Core.vecRan 1 0))) ∧
      (2 ^ 40 < d.count → exec (.radd at_ core f) s = .next (t.redLimit x))) ∧
    (t.runsVec core 0x52 f k it b = true →
      let d := (v.sumElems f true).foldl Channel.add ch
      let fl := NumFlags.orAll ((v.sumElems f false).map fun e => (rn32 (fvMul e e).1 true).2)
      (d.count ≤ 2 ^ 40 → exec (.rsq at_ core f) s =
        .next (((t.onCore core fun c => { c with v := c.v.setChan (bits f.imm 0 2) d }).onCore core
          fun c => { c with v := c.v.flag fl }).onCore core (Core.vecRan 1 0))) ∧
      (2 ^ 40 < d.count → exec (.rsq at_ core f) s = .next (t.redLimit x))) ∧
    (t.runsVec core 0x54 f k it b = true → exec (.rstx at_ core f) s =
      .next ((t.scratchWrite core (f.imm / 64 * 64) 48 ch.record).onCore core (Core.vecRan 1 0))) ∧
    (∀ d u, t.runsVec core 0x55 f k it b = true → t.scratchRead core (f.imm / 64 * 64) 48 (.core core k.guest) = (d, u) →
      let e := ((u.core core).v.chan (bits f.imm 0 2)).join (Channel.ofRecord d)
      (e.count ≤ 2 ^ 40 → exec (.rldx at_ core f) s =
        .next ((u.onCore core fun c => { c with v := c.v.setChan (bits f.imm 0 2) e }).onCore core (Core.vecRan 1 0))) ∧
      (2 ^ 40 < e.count → exec (.rldx at_ core f) s = .next (u.redLimit x))) ∧
    (t.runsVec core 0x60 f k it b = true → exec (.vrng at_ core f) s =
      let word (l : Nat) : Nat :=
        let w := drawAt (t.coreLaneKey core l k.guest) (coreCycle k.plannedJt + k.qCount) 0 0
        match bits f.imm 0 2 with
        | 0 => w.1 | 1 => w.2.1 | 2 => w.2.2.1 | _ => w.2.2.2
      ran fun v => (List.range 64).foldl (fun w l => if v.enabled f.msk l then w.setLane f.vd l (BitVec.ofNat 32 (word l)) else w) v) ∧
    (t.runsVec core 0x70 f k it b = true →
      let cc := t.dieCc (core / 16)
      (t.waitMet k (bits f.imm 0 16) (bits f.imm 16 16) = true → exec (.vwait at_ core f) s =
        .next ((t.onCore core fun c =>
          { c with
            waitCycles := satAdd 32 c.waitCycles (cc - k.vwaitFrom.getD cc)
            kernel := c.kernel.map fun k => { k with vwaitFrom := none } }).onCore core (Core.vecRan 1 0))) ∧
      (t.waitMet k (bits f.imm 0 16) (bits f.imm 16 16) = false → exec (.vwait at_ core f) s =
        .next (t.onCore core fun c => { c with kernel := c.kernel.map fun y => { y with vwaitFrom := some (k.vwaitFrom.getD cc) } }))) ∧
    (t.runsVec core 0x71 f k it b = true → exec (.vsig at_ core f) s =
      .next ((t.signal (bits f.imm 0 16) k.step).onCore core (Core.vecRan 1 0))) ∧
    (t.runsVec core 0x7F f k it b = true → exec (.vnop at_ core f) s = .next (t.onCore core (Core.vecRan 1 0)))

/-- ERG_LINE_READ and ERG_LINE_WRITE. -/
def Obligations.ErgLinesComplete : Prop :=
  ∀ (s : State) (at_ ch : Nat) (user : ErgUser) (up : List Upset) (r : ErgReq),
    let t := s.tick at_
    (t.ergMay ch user false = true → t.nextRead ch user = some r →
      let place := t.lineOfReq ch r
      let u := ((t.judgeShares ch).takeSlot ch user false).onChan ch fun c => { c with queue := c.queue.erase r }
      let u := if r.dest = .scrub ∧ r.reread = false then u.scrubNext ch else u
      let off := place.2 % 32768 * 64
      let rs := u.erg.rankSub place.1 off
      let key := ergKey ch place.1 off
      let codes := u.lineCodes key (u.markOf ch rs) up
      let raw := u.lineRaw key up
      (lineOf codes = .clean → exec (.ergLineRead at_ ch user up) s = .next (u.deliver ch r raw false false)) ∧
      (∀ p, lineOf codes = .corrected p → exec (.ergLineRead at_ ch user up) s =
        .next ((u.noteFix ch place.1 place.2 rs p).deliver ch r (fixLine raw codes) false true)) ∧
      (lineOf codes = .poison → exec (.ergLineRead at_ ch user up) s =
        .next ((u.badLine ch place.1 place.2 r true).deliver ch r raw true false)) ∧
      (lineOf codes = .bad → r.reread = true → exec (.ergLineRead at_ ch user up) s =
        .next ((u.badLine ch place.1 place.2 r false).deliver ch r raw true false)) ∧
      (lineOf codes = .bad → r.reread = false → exec (.ergLineRead at_ ch user up) s =
        .next (u.onChan ch fun c =>
          { c with rereads := satAdd 32 c.rereads 1, queue := { r with reread := true } :: c.queue }))) ∧
    (t.ergMay ch user true = true → (t.chan ch).queue.find? (fun r => r.user = user && r.write = true) = some r →
      let u := ((t.judgeShares ch).takeSlot ch user true).onChan ch fun c => { c with queue := c.queue.erase r }
      (r.dest = .scrub → exec (.ergLineWrite at_ ch user) s =
        let a := ergKey ch (r.line / 32768) (r.line % 32768 * 64)
        .next (u.onErg fun e => { e with ram := if r.poison then e.ram.writeBad a 64 r.data else e.ram.writeAt a 64 r.data })) ∧
      (∀ sp, r.dest = .copy sp → exec (.ergLineWrite at_ ch user) s =
        let a := ergKey ch (t.erg.usable + sp) (r.line % 32768 * 64)
        .next ((u.onErg fun e => { e with ram := if r.poison then e.ram.writeBad a 64 r.data else e.ram.writeAt a 64 r.data }).onChan ch
          fun c => { c with retire := c.retire.map fun x => { x with line := x.line + 1 } })) ∧
      (r.dest ≠ .scrub → (∀ sp, r.dest ≠ .copy sp) →
        let w := u.ergWrite r.line 64 r.data r.poison
        (∀ die a, r.dest = .erg die a → exec (.ergLineWrite at_ ch user) s = .next (w.dmaLine die)) ∧
        (∀ mb a, r.dest = .host mb a → exec (.ergLineWrite at_ ch user) s = .next (w.bgBytes mb 0x0303 64)) ∧
        ((∀ die a, r.dest ≠ .erg die a) → (∀ mb a, r.dest ≠ .host mb a) → exec (.ergLineWrite at_ ch user) s = .next w)))

/-- ERG_BRINGUP, ERG_WINDOW_END, ERG_REFRESH_AON, ERG_THERMAL_SAMPLE, ERG_SCRUB_LATE, PAGE_RETIRE_COPY_DONE, TRANSFER_LIST_COMPLETE, SRAM_WRITEBACK, OASIS_SCRUB, POOL_BLOCK_ARRIVAL and SPILLWAY_APPEND_COMPLETE. -/
def Obligations.ErgUpkeepCompletes : Prop :=
  ∀ (s : State) (at_ : Nat),
    let t := s.tick at_
    (∀ d l rate, s.erg.training = true → ergReasons (d :: l) = [] → ergCommonRate (d :: l) = some rate →
      exec (.ergBringup at_ (d :: l)) s =
        let u := t.onErg fun e =>
          { e with
            training := false, ready := true, capacity := d.capacity, density := d.density, ranks := d.ranks
            mrdimm := d.mrdimm, rate }
        .next ((List.range 32).foldl (fun u c => u.onChan c fun x => { x with scrubStart := t.now, idleFrom := t.now }) u)) ∧
    (∀ l, s.erg.training = true → ergReasons l ≠ [] → exec (.ergBringup at_ l) s =
      .next ((ergReasons l).foldl (fun u x => u.raise Ev.ergPopulation x.1 [(16, x.2)]) (t.onErg fun e => { e with training := false }))) ∧
    (∀ ch j i w start fin, s.job = some j → (s.chan ch).window = some (i, w, start, fin) → fin ≤ t.jt → exec (.ergWindowEnd at_ ch) s =
      let u := (t.judgeShares ch).onChan ch fun c => { c with window := none, idleFrom := t.now - (t.jt - fin) }
      .next (if fin < start + (imgEntry j.image i).duration then u.faultMiss i (imgEntry j.image i) else u.completeEntry i j.step)) ∧
    (∀ ch, s.erg.ready = true → t.htRefreshes = false →
      (s.chan ch).lastRefresh + (if (s.chan ch).highRate then 1920 else 3880) ≤ t.now → exec (.ergRefreshAon at_ ch) s =
        .next (t.onChan ch fun c => { c with lastRefresh := t.now, refreshes := c.refreshes + 1, idleFrom := t.now + t.erg.refreshNs })) ∧
    (∀ ch (a : Int) l,
      let h := hottest (a :: l)
      let c := t.chan ch
      let c' := { c with tempC := h / 10, coolRun := if h < 830 then c.coolRun + 1 else 0 }
      tabWf ErgChannel.reset s.erg.chans = true →
      (850 < h → h ≤ 950 → c.highRate = false → exec (.ergThermalSample at_ ch (a :: l)) s =
        .next ((t.putChan ch { c' with highRate := true }).raise Ev.ergRefreshHigh ch)) ∧
      (h ≤ 950 → c.highRate = true → 10 ≤ c'.coolRun → exec (.ergThermalSample at_ ch (a :: l)) s =
        .next ((t.putChan ch { c' with highRate := false }).raise Ev.ergRefreshNormal ch)) ∧
      (h ≤ 850 → c.highRate = false → exec (.ergThermalSample at_ ch (a :: l)) s = .next (t.putChan ch c')) ∧
      (h ≤ 950 → c.highRate = true → c'.coolRun < 10 → exec (.ergThermalSample at_ ch (a :: l)) s = .next (t.putChan ch c')) ∧
      (950 < h → c.highRate = true → c'.coolRun < 10 →
        exec (.ergThermalSample at_ ch (a :: l)) s = .next ((t.putChan ch c').fatal Ev.ergOvertemp ch))) ∧
    (∀ ch, s.erg.ready = true → (s.chan ch).scrubLate = false → (s.chan ch).scrubStart + 86400000000000 < t.now →
      exec (.ergScrubLate at_ ch) s = .next ((t.putChan ch { s.chan ch with scrubLate := true }).raise Ev.ergScrubLate ch)) ∧
    (∀ ch x, (s.chan ch).retire = some x → 32768 ≤ x.line → x.ready = false → exec (.pageRetireCopyDone at_ ch) s =
      let u := t.onChan ch fun c => { c with retire := some { x with ready := true } }
      .next (if s.job.isNone then u.applyRetire ch else u)) ∧
    (∀ die i step, (s.die die).dma = some (i, step) → (s.die die).dmaLeft = 0 → (s.die die).dmaItems = 0 →
      exec (.transferListComplete at_ die) s = .next ((t.putDie die { s.die die with dma := none }).completeEntry i step)) ∧
    (∀ core a, a < 0x600000 → a ∈ (s.core core).writeback → exec (.sramWriteback at_ core a) s =
      .next (({ t with scratch := s.scratch.heal (scratchKey core a / 8) } : State).onCore core fun c =>
        { c with writeback := c.writeback.filter fun w => w ≠ a })) ∧
    (∀ core a, 0x600000 + a < basinAddr 0 0 0 → a ∈ (s.die (a / oasisSize)).oasisWriteback → exec (.sramWriteback at_ core (0x600000 + a)) s =
      .next (({ t with oasis := s.oasis.heal (a / 8) } : State).onDie (a / oasisSize) fun d =>
        { d with oasisWriteback := d.oasisWriteback.filter fun w => w ≠ a })) ∧
    (∀ core tile i k, i < 9216 → k < 10 → basinAddr tile i k ∈ (s.core core).writeback →
      exec (.sramWriteback at_ core (basinAddr tile i k)) s = .next (t.onCore core fun c =>
        let x := c.tile tile
        { c.putTile tile { x with acc := tset Acc.reset x.acc i ((tget Acc.reset x.acc i).heal k) } with
          writeback := c.writeback.filter fun w => w ≠ basinAddr tile i k })) ∧
    (∀ die addr up, let a := die * oasisSize + addr / 8 * 8
      let syn := syndromes ((8, (s.oasis.chkOf (a / 8)).1) :: (9, (s.oasis.chkOf (a / 8)).2) :: upsetErrs up 0)
      (decodeSyn none syn.1 syn.2 = .clean → exec (.oasisScrub at_ die addr up) s = .next t) ∧
      (∀ p e, decodeSyn none syn.1 syn.2 = .single p e → exec (.oasisScrub at_ die addr up) s =
        .next ((({ t with oasis := s.oasis.heal (a / 8) } : State).corrected die true 1).onDie die fun d =>
          { d with oasisWriteback := d.oasisWriteback.filter fun w => w ≠ a })) ∧
      (decodeSyn none syn.1 syn.2 = .bad ∨ decodeSyn none syn.1 syn.2 = .poison → exec (.oasisScrub at_ die addr up) s =
        .next (((t.onDie (a / oasisSize) fun d => { d with oasisUncorrectable := satAdd 32 d.oasisUncorrectable 1 }).badRead
          (0x100 + a / oasisSize) 1 a (t.classOf 1 0 a) .maint)))) ∧
    (∀ die d b j, s.job = some j → ownerDie j.image (afxTensor b) = some d →
      let x := s.die d
      (∀ k was, samePlace x.pool b = some k → was = x.pool.getD k Buf.empty → exec (.poolBlockArrival at_ die b) s =
        let slot := x.poolAt.getD k 0
        let z := t.readSlot j.image d slot was.len .dma
        .next (((z.2.storeSlot j.image d slot (afxJoin was b) z.1).onDie d fun y =>
          { y with pool := y.pool.set k (afxJoin was b) }).noteFinal d (afxJoin was b) (afxNf was) (afxOvf was))) ∧
      (samePlace x.pool b = none → x.pool.length < poolSlots j.image d → exec (.poolBlockArrival at_ die b) s =
        .next (((t.storeSlot j.image d x.freeSlot b false).onDie d fun y =>
          { y with
            pool := y.pool ++ [b], poolAt := y.poolAt ++ [x.freeSlot]
            rbPeak := Nat.max y.rbPeak (x.pool.length + 1) }).noteFinal d b false false))) ∧
    (∀ die j r k x, s.job = some j → imgRole j.image 2 = some r → s.spills.findIdx? (fun x => x.die = die && !x.present) = some k →
      s.spills[k]? = some x →
      (t.shareOpen (r.base + x.off + spillLen x.block - 64) 2 true = true → exec (.spillwayAppendComplete at_ die) s =
        let u := t.ergWrite (r.base + x.off) (spillLen x.block) ((Buf.ofLe 32 (spillHeader true x.step)).app x.block).val
        .next { u with spills := u.spills.set k { x with present := true } }) ∧
      (t.shareOpen (r.base + x.off + spillLen x.block - 64) 2 true = false → exec (.spillwayAppendComplete at_ die) s = .next t))

/-- SCHED_FLIT_RX, SKIP_FLIT_RX, CTRL_FLIT_RX, OPEN_FLIT_RX, FLIT_LOST, RECEIVE_BLOCK_COMPLETE and RECEIVE_HOLD_END. -/
def Obligations.FlitsReceivedComplete : Prop :=
  ∀ (s : State) (at_ p : Nat) (f : Buf),
    let t := s.tick at_
    let n := s.port p
    (n.state = .up → flitGood f = true →
      let z := t.codewords p []
      (∀ k j, flitType f = 1 → s.job = some j → j.oldEpoch (flitEpoch f) = false → n.bound t.jt f = some k →
        exec (.schedFlitRx at_ p f) s = .next (z.acceptFlit j p k f)) ∧
      (∀ j, flitType f = 1 → s.job = some j → j.oldEpoch (flitEpoch f) = true ∨ n.bound t.jt f = none →
        exec (.schedFlitRx at_ p f) s = .next (z.strayFlit p f)) ∧
      (flitType f = 1 → s.job = none → exec (.schedFlitRx at_ p f) s = .next (z.strayFlit p f)) ∧
      (∀ k j x, flitType f = 5 → s.job = some j → j.oldEpoch (flitEpoch f) = false → n.bound t.jt f = some k →
        n.binds[k]? = some x →
        (x.done = true → exec (.skipFlitRx at_ p f) s = .next z) ∧
        (x.done = false → exec (.skipFlitRx at_ p f) s =
          let e := imgEntry j.image x.entry
          let u := z.bindDone p k
          let u := if x.step = j.step then u.putEnt x.entry .done else u
          .next (if e.sigEn then u.signal e.sigSo x.step true else u))) ∧
      (∀ j, flitType f = 5 → s.job = some j → j.oldEpoch (flitEpoch f) = true ∨ n.bound t.jt f = none →
        exec (.skipFlitRx at_ p f) s = .next (z.strayFlit p f)) ∧
      (flitType f = 5 → s.job = none → exec (.skipFlitRx at_ p f) s = .next (z.strayFlit p f)) ∧
      (flitType f = 3 → exec (.ctrlFlitRx at_ p f) s =
        let u := (z.onPort p fun n =>
          let n := n.settle t.now
          ({ n with credits := (List.range 8).foldl (fun c k => tset 0 c k (tget 0 c k + f.fld (64 + 16 * k) 16)) n.credits } : NearPort).settle
            t.now).replayCheck p
        let u := match u.job with
          | some j => (flitNaks f).foldl (fun (w : State) (m : Nat × Nat) => w.nakFlit j p m) u
          | none => u
        .next (match (u.port p).sentOf (f.fld 192 24) with
          | none => u
          | some k => u.putPort p { u.port p with
              sent := ((u.port p).sent.modify k fun x => { x with flits := x.flits.filter fun g => f.fld 216 16 < flitIdx g }).filter
                fun x => x.flits ≠ [] || x.held ≠ [] })) ∧
      (flitType f = 2 →
        let lane := 2 * flitVc f + flitWrap f
        let u := z.onPort p fun n => { n with lent := tset 0 n.lent lane (tget 0 n.lent lane - 1) }
        (1024 ≤ n.openHeld → exec (.openFlitRx at_ p f) s = .next u) ∧
        (∀ j q w, n.openHeld < 1024 → s.job = some j → nextHop j.image f p (flitWrap f) = some (q, w) → exec (.openFlitRx at_ p f) s =
          let out := 2 * flitVc f + w
          let g := sealFlit ⟨256, setBits f.val 6 1 w⟩
          .next ((u.onPort p fun n => { n with rxHeld := tset 0 n.rxHeld lane (tget 0 n.rxHeld lane + 1) }).onPort q fun n =>
            ({ n with txq := tset [] n.txq out (tget [] n.txq out ++ [(8 * p + lane, g)]) } : NearPort).settle t.now)) ∧
        (n.openHeld < 1024 → (∀ j, s.job = some j → nextHop j.image f p (flitWrap f) = none) →
          (flitIdx f ≠ tget 0 n.rxMsgs (64 * flitVc f + flitMsg f) → exec (.openFlitRx at_ p f) s =
            .next (u.onPort p fun n => n.deliverOpen f)) ∧
          (flitIdx f = tget 0 n.rxMsgs (64 * flitVc f + flitMsg f) → exec (.openFlitRx at_ p f) s =
            let next (n : NearPort) : NearPort :=
              { n with rxMsgs := tset 0 n.rxMsgs (64 * flitVc f + flitMsg f) (if flitLast f then 0 else flitIdx f + 1) }
            .next (u.onPort p fun n =>
              if flitVc f % 2 = 1 then next n
              else { next n with inbox := n.inbox ++ [(flitVc f, f)], rxHeld := tset 0 n.rxHeld lane (tget 0 n.rxHeld lane + 1) }))))) ∧
    (n.state = .up → flitGood f = false → ∀ c,
      c = .schedFlitRx at_ p f ∨ c = .skipFlitRx at_ p f ∨ c = .ctrlFlitRx at_ p f ∨ c = .openFlitRx at_ p f ∨ c = .flitLost at_ p [] f →
      exec c s = .next (t.onPort p fun n =>
        { n with lost := satAdd 32 n.lost 1, fecUncorr := satAdd 32 n.fecUncorr 0, fecRun := [] })) ∧
    (∀ l, n.state = .up → l ≠ [] → exec (.flitLost at_ p l f) s =
      let u := t.onPort p fun n => { n with
        lost := satAdd 32 n.lost 1, fecUncorr := satAdd 32 n.fecUncorr l.length
        fecRun := l.foldl (fun x k => tset 0 x k (tget 0 n.fecRun k + 1)) [] }
      .next (if (u.port p).fecBroken then u.linkDown p else u)) ∧
    (∀ block k x, n.binds.findIdx? (fun x => (Blk.ofBuf x.desc).block = block && x.got.length = x.total && !x.done) = some k →
      n.binds[k]? = some x →
      let d := Blk.ofBuf x.desc
      let u := t.bindDone p k
      (d.rxOp = 3 → exec (.receiveBlockComplete at_ p block) s = .next ((u.floodIn ⟨d.len, x.data⟩).completeEntry x.entry x.step)) ∧
      let u := if d.space = 2 then u.floodResult ⟨d.len, x.data⟩ else u
      (d.rxOp ≠ 3 → d.rxOp ≠ 5 → exec (.receiveBlockComplete at_ p block) s =
        .next ((match u.job.bind fun j => j.movesTo d.epoch with
          | some img => if d.rxOp = 0 then State.placeRecords img ⟨d.len, x.data⟩ (d.len / 96 + 1) 0 u else u
          | none => u).completeEntry x.entry x.step)) ∧
      (∀ tag w, d.rxOp = 5 → u.blkRead { d with addr := d.check } 0 32 = (tag, w) → exec (.receiveBlockComplete at_ p block) s =
        .next (if tag = x.data % 2 ^ 256 then w.completeEntry x.entry x.step else w.fatal Ev.gatherVersion p [(24, block)]))) ∧
    (∀ block k x j, s.job = some j →
      n.binds.findIdx? (fun x => (Blk.ofBuf x.desc).block = block && x.got.length ≠ x.total && !x.done) = some k →
      n.binds[k]? = some x → (x.fin : Int) ≤ t.jtInt →
      let u := t.unbind p k
      let d := Blk.ofBuf x.desc
      (d.rxOp = 3 ∨ d.space = 2 → exec (.receiveHoldEnd at_ p block) s =
        .next ((u.raise Ev.linkBlockIncomplete p [(24, block)] x.step).fatal Ev.floodFault p [(24, block)])) ∧
      (d.rxOp ≠ 3 → d.space ≠ 2 → exec (.receiveHoldEnd at_ p block) s =
        let w := if x.missing = [] then u else u.raise Ev.linkResendFault p [(24, block)] x.step
        .next ((w.raise Ev.linkBlockIncomplete p [(24, block)] x.step).missEntry x.entry)))

/-- LINK_FRAME_START, CONTROL_SLOT and OPEN_FLIT_SEND. -/
def Obligations.LinkSlotsComplete : Prop :=
  ∀ (s : State) (at_ p : Nat),
    let t := s.tick at_
    let n := s.port p
    (∀ fixed, n.state = .up → t.htValid = true → t.htNow % 4096 = 0 → n.frames = 0 ∨ n.frameHt ≠ t.htNow →
      exec (.linkFrameStart at_ ⟨p, fixed⟩) s =
        .next (t.putPort p { n with frames := n.frames + 1, frameHt := t.htNow, fecCorr := satAdd 32 n.fecCorr fixed })) ∧
    (∀ fixed, n.state = .up → t.htNow % 4096 ≠ 0 ∨ n.frames ≠ 0 ∧ n.frameHt = t.htNow →
      exec (.linkFrameStart at_ ⟨p, fixed⟩) s = .next t) ∧
    (n.state = .up → linkSlotAt n.width t.htNow = false → exec (.controlSlot at_ p) s = .next t) ∧
    (n.state = .up → linkSlotAt n.width t.htNow = true → n.ctlHt ≠ t.htNow + 1 → exec (.controlSlot at_ p) s =
      let lend (k : Nat) : Nat := t.allotment p k - tget 0 n.rxHeld k - tget 0 n.lent k
      .next ((t.emit (.flit p (mkFlit 3 false false 0 0 240 0
          (ctrlPayload ((List.range 8).map lend) n.nextAck.1 n.ackUpTo n.naks n.lanesOk) 0))).putPort p
        { n with
          lent := (List.range 8).foldl (fun l k => tset 0 l k (tget 0 l k + lend k)) n.lent
          ackBlock := n.nextAck.1, ackFidx := n.nextAck.2, acks := n.acks.tail, ctlHt := t.htNow + 1 })) ∧
    (∀ v w, let lane := 2 * v + w
      let m := n.settle t.now
      let slot := slotFrom m.width t.htNow
      (∀ from_ f rest, tget [] m.txq lane = (from_, f) :: rest →
        (m.state ≠ .up ∨ tget 0 m.credits lane = 0 ∨ (t.putPort p m).windowOpen p v = false ∨ dataSlot m.width slot = false ∨
            slot < m.openSlot →
          exec (.openFlitSend at_ p v w) s = .next (t.putPort p m)) ∧
        (m.state = .up → tget 0 m.credits lane ≠ 0 → (t.putPort p m).windowOpen p v = true → dataSlot m.width slot = true →
          m.openSlot ≤ slot → exec (.openFlitSend at_ p v w) s =
          let u := ((t.putPort p m).emit (.flit p (sealFlit f))).putPort p ((({ m with
            txq := tset [] m.txq lane rest, credits := tset 0 m.credits lane (tget 0 m.credits lane - 1), openSlot := slot + 1
            txGuest := if v = 1 then m.txGuest + 1 else m.txGuest } : NearPort).refill).settle t.now)
          .next (if from_ < 64
            then u.onPort (from_ / 8) fun x => { x with rxHeld := tset 0 x.rxHeld (from_ % 8) (tget 0 x.rxHeld (from_ % 8) - 1) }
            else u))))

/-- LINK_SIGNAL_DETECT, LINK_SIGNAL_LOSS, LINK_TRAIN_SLOT, LINK_TRAIN_REQUEST, LINK_TRAINING_DONE, LINK_TRAINING_FAILED, LINK_DOWN, LINK_RETRAIN_TIMEOUT, LINKS_LATE and NEIGHBOUR_NOTICE. -/
def Obligations.LinkStatesComplete : Prop :=
  ∀ (s : State) (at_ p : Nat),
    let t := s.tick at_
    let n := s.port p
    let training : Res := .next (t.putPort p { n with state := .training, trainAt := t.now, wasUp := false })
    let ready : Prop := s.aon.chainAddr ≠ 0 ∧ s.ht.state = .locked
    let down (m : NearPort) : State :=
      let u := t.putPort p { m with state := .down, width := 0, lanes := 0, fecRun := [], peerSeen := false, peerReady := false }
      if s.ht.source = p then u.sourceLost else u
    tabWf NearPort.reset s.near = true →
    (n.state = .down → exec (.linkSignalDetect at_ p) s =
      .next (t.putPort p { n with signal := true, state := if s.aon.optsDone then .quiet else .down })) ∧
    (n.state = .quiet ∨ n.state = .training → exec (.linkSignalLoss at_ p) s = .next (down { n with signal := false })) ∧
    (n.state = .quiet → ready → n.peerReady = true → t.htNow % 16000000 = s.aon.chainAddr % 64 * 250000 + p * 1000 →
      exec (.linkTrainSlot at_ p) s = training) ∧
    (n.state = .quiet → ready → n.peerReady = true → exec (.linkTrainRequest at_ p) s = training) ∧
    (∀ lanes, n.state = .training → n.wasUp = true → n.trainAt + 100000000 < t.now →
      exec (.linkTrainingDone at_ p lanes) s = .next (down n)) ∧
    (∀ lanes, n.state = .training → n.wasUp = false ∨ t.now ≤ n.trainAt + 100000000 →
      (bestWidth lanes ≠ 0 → exec (.linkTrainingDone at_ p lanes) s =
        let u := (t.putPort p { n with
          state := .up, width := bestWidth lanes, lanes := (laneGroup lanes).2, fecRun := [], lanesOk := lanes % 256, wasUp := false
          credits := [], lent := [], rxHeld := [], inbox := [], rxMsgs := [], acks := [], paused := [] }).raise Ev.linkUp p
        .next (if bestWidth lanes < 8 then u.raise Ev.linkDegraded p [(8, lanes)] else u)) ∧
      (bestWidth lanes = 0 → n.wasUp = false →
        exec (.linkTrainingDone at_ p lanes) s = .next (t.putPort p { n with state := .quiet, lanesOk := lanes % 256 }))) ∧
    (n.state = .training → n.wasUp = false → exec (.linkTrainingFailed at_ p) s = .next (t.putPort p { n with state := .quiet })) ∧
    (n.state = .up → exec (.linkDown at_ p) s =
      let u := t.putPort p { n with
        state := .training, width := 0, lanes := 0, fecRun := [], trainAt := t.now, wasUp := true, retrains := satAdd 16 n.retrains 1, peerSeen := false }
      let u := if s.ht.source = p then u.sourceLost else u
      let uses : Bool := match u.job with | some j => j.live && imgWidth j.image p ≠ 0 | none => false
      .next (if uses then u.fatal Ev.linkDown p else u.raise { Ev.linkDown with sev := 1 } p)) ∧
    (n.state = .training → n.wasUp = true → n.trainAt + 100000000 ≤ t.now → exec (.linkRetrainTimeout at_ p) s = .next (down n)) ∧
    (n.state ≠ .up → n.lateRaised = false → s.aon.releasedAt + 800000000 ≤ t.now → s.aon.optsDone = true →
      exec (.linksLate at_ p) s =
        let u := t.putPort p { n with lateRaised := true }
        .next (u.raise Ev.linksLate p [(8, t.portsNotUp)])) ∧
    (∀ jobId cw epoch, n.state = .up → exec (.neighbourNotice at_ p jobId cw epoch) s =
      let u := (t.takeMessage p 0).onPort p fun n => { n with notice := some (jobId, cw, epoch) }
      .next (if u.tagMismatch p then u.fatal Ev.htEpochMismatch p else u))

/-- HT_SET, HT_CONFIG, FAR_CONFIG, DOZE_CONFIG, POWER_CAP, ERG_RETIRE_CLEAR and EVENT_MASK complete, under conditions on the state and the command alone, with the registers they set. -/
def Obligations.SettingsAreInForceWhenTheirCommandEnds : Prop :=
  ∀ (s : State) (at_ mb : Nat) (e : Buf) (b0 b1 : Option Buf),
    let c : Call := ⟨mb, e, b0, b1⟩
    let t := s.tick at_
    let offers (op : Nat) (allow : State → Call → Bool) : Prop := t.offers op mb e b0 b1 allow = true
    (offers 0x0202 mayOp → s.ht.root = true → s.ht.state = .unset ∨ s.ht.state = .acquiring → c.par 0 64 % 1000000000 = 0 →
      ∃ z : State, exec (.htSet at_ mb b0 b1) s = .next (z.finish mb 0) ∧ z.ht = { s.ht with pendingSet := some (c.par 0 64, t.now) }) ∧
    (offers 0x0203 mayOp → s.ledgerSpent = false → (c.par 0 1 = 1 → c.par 32 32 ≤ 1000000) →
      (c.par 1 1 = 1 → ∀ i < 8, sext 16 (c.par (128 + 16 * i) 16) ≠ -32768) → (c.par 2 1 = 1 → 1 ≤ c.par 64 16 ∧ c.par 64 16 ≤ 1000) →
      (c.par 0 1 = 1 ∨ c.par 1 1 = 1 → s.job = none) →
      ∃ z : State, exec (.htConfig at_ mb b0 b1) s = .next ((z.finish mb 0).htLost) ∧
        z.isl.delayPs = (if c.par 0 1 = 1 then c.par 32 32 else s.isl.delayPs) ∧
        z.isl.holdMs = (if c.par 2 1 = 1 then c.par 64 16 else s.isl.holdMs) ∧
        (c.par 1 1 = 1 → ∀ i < 8, tget 0 z.isl.asym i = sext 16 (c.par (128 + 16 * i) 16)) ∧
        (c.par 1 1 = 0 → z.isl.asym = s.isl.asym) ∧
        z.ht = (if c.par 3 1 = 1 then { s.ht with inOverruns := 0, inInvalid := 0 } else s.ht) ∧
        z.isl.ledger.length = s.isl.ledger.length + 1) ∧
    (offers 0x0601 mayOp → c.par 136 8 ≠ 0 → s.portInUse (c.par 0 2) = false → s.ledgerSpent = false →
      ∃ z : State, exec (.farConfig at_ mb b0 b1) s = .next (z.finish mb 0) ∧ z.isl.ledger.length = s.isl.ledger.length + 1 ∧
        z.acx = (t.onFarPort (c.par 0 2) fun p => p.onRoute (c.par 2 1) fun r =>
          { r with
            mac := c.par 16 48, nextHop := c.par 64 48, vid := c.par 112 12, prio := c.par 124 3, vlanEn := c.par 127 1 = 1
            tclass := c.par 128 8, hopLim := c.par 136 8, udpPort := if c.par 144 16 = 0 then 46721 else c.par 144 16
            ip6 := c.par 192 128 }).acx) ∧
    (offers 0x0802 mayOp → dozeOk c.params = true →
      ∃ z : State, exec (.dozeConfig at_ mb b0 b1) s = .next (z.finish mb 0) ∧
        z.aon = { s.aon with
          dozePeriod := c.par 0 16, dozeEnable := c.par 16 5, dozeMask := c.par 21 4
          dozeHi := c.params.sfld 32 8, dozeLo := c.params.sfld 40 8 }) ∧
    (offers 0x0803 mayOp → c.par 0 16 = 0 ∨ 600 ≤ c.par 0 16 ∧ c.par 0 16 ≤ 1850 →
      ((∀ j, s.job = some j → j.phase = .stopped ∨ j.phase = .restarting) →
        ∃ z : State, exec (.powerCap at_ mb b0 b1) s = .next (z.finish mb 0) ∧ z.aon = { s.aon with cap := c.par 0 16, capNext := none }) ∧
      (∀ j, s.job = some j → j.phase ≠ .stopped → j.phase ≠ .restarting →
        ∃ z : State, exec (.powerCap at_ mb b0 b1) s = .next (z.finish mb 0) ∧ z.aon = { s.aon with capNext := some (c.par 0 16) })) ∧
    (offers 0x0304 mayOp → s.job = none → s.ledgerSpent = false →
      ∃ z : State, exec (.ergRetireClear at_ mb b0 b1) s = .next (z.finish mb 0) ∧ z.isl.ledger.length = s.isl.ledger.length + 1 ∧
        z.isl.redirect = s.isl.redirect.filter (fun r => r.1 ≠ c.par 0 5) ∧
        z.isl.badSpares = s.isl.badSpares.filter (fun r => r.1 ≠ c.par 0 5) ∧ z.isl.marks = s.isl.marks.filter (fun m => m.1 ≠ c.par 0 5)) ∧
    (∀ l, offers 0x0C01 mayOp → 1 ≤ c.par 0 16 → c.par 0 16 ≤ 256 → 4 * c.par 0 16 ≤ c.buf0.data.len → l = c.buf0.data.recs 4 (c.par 0 16) →
      (∀ x ∈ l, x.fld 17 15 = 0) → (∀ x ∈ l, x.fld 0 16 ∈ eventCodes) →
      ∃ z : State, exec (.eventMask at_ mb b0 b1) s = .next (z.finish mb 0) ∧ z.pcie.masks = l.foldl (fun m x =>
        if x.flag 16 then addMask m (x.fld 0 16) else m.filter (· ≠ x.fld 0 16)) s.pcie.masks)

/-- GUEST_ATTACH, GUEST_DETACH and POWER_STATE complete, under conditions on the state and the command alone. A detach that waits and an entry that has begun end in later rows (KERNEL_COMPLETE, GUEST_TILE_BOUNDARY, POWER_ENTRY_COMPLETE). -/
def Obligations.GuestAndPowerStateAfterTheirCommands : Prop :=
  ∀ (s : State) (at_ mb : Nat) (e : Buf) (b0 b1 : Option Buf),
    let c : Call := ⟨mb, e, b0, b1⟩
    let t := s.tick at_
    let offers (op : Nat) (allow : State → Call → Bool) : Prop := t.offers op mb e b0 b1 allow = true
    let raw := c.buf0.data
    let img := raw.slice 0 (imgLen raw)
    let v := t.begun mb
    (∀ j keys, offers 0x0501 mayJbImage → s.job = some j → j.phase ≠ .restarting → imgGuestSoCount j.image ≠ 0 → s.guest = none →
      64 ≤ raw.len → signedLen (imgLen raw) ≤ raw.len →
      v.imageGood raw (imgLen raw) (fun x => certRole x = 4 && certJob x = imgJobId raw) = true → keySet c.buf1.data = some keys →
      keys.contains (keySetDigest (certModulus (trailerCert raw (imgLen raw)))) = true → v.guestChecks j.image img = true →
      ∃ (z : State) (g : Guest), exec (.guestAttach at_ mb b0 b1) s = .next (z.finish mb 0) ∧ z.guest = some g ∧ z.job = some j ∧ g.image = img ∧
        g.seed = c.par 0 128 ∧ g.keys = keys ∧ g.pending = true ∧ g.leaving = false ∧ g.stopped = false ∧ g.done = 0) ∧
    (∀ g j, offers 0x0502 mayJbGuest → s.guest = some g → s.job = some j →
      ((∀ x ∈ s.cores, ∀ k, x.2.kernel = some k → k.guest = false) →
        ∃ z : State, exec (.guestDetach at_ mb b0 b1) s = .next z ∧ z.guest = none ∧ z.gstore = [] ∧ z.job = some j) ∧
      ((∃ x ∈ s.cores, ∃ k, x.2.kernel = some k ∧ k.guest = true) →
        ∃ z : State, exec (.guestDetach at_ mb b0 b1) s = .next z ∧ z.guest = some { g with leaving := true, leaveMb := some mb } ∧
          z.gstore = s.gstore)) ∧
    (offers 0x0801 mayOp → c.par 0 2 = 0 → ∃ z : State, exec (.powerState at_ mb b0 b1) s = .next (z.finish mb 0 (refuserResp 0)) ∧
      z.aon = { s.aon with power := if s.aon.power = .hold then .run else s.aon.power }) ∧
    (offers 0x0801 mayOp → c.par 0 2 = 1 → s.aon.power = .hold →
      ∃ z : State, exec (.powerState at_ mb b0 b1) s = .next (z.finish mb 0 (refuserResp 0)) ∧ z.aon = s.aon) ∧
    (offers 0x0801 mayOp → c.par 0 2 = 2 ∨ c.par 0 2 = 1 ∧ s.aon.power ≠ .hold → v.refusers (c.par 0 2) 1 = 0 →
      ∃ z : State, exec (.powerState at_ mb b0 b1) s = .next z ∧ z.aon = { s.aon with entering := some (c.par 0 2, mb, t.now) })
end

