-- ==== Sys2Proof/Laws/Tab.lean ====
section
/-! SUPPORT. Indexed sets and byte memories: a value read after it is written, every other left alone, and the canonical form
kept by every operation. -/

namespace Sys2Proof.Machine

variable {α : Type} [DecidableEq α] {d : α}

theorem tabFrom_mono {lo hi : Nat} {t : Tab α} (h : tabFrom d hi t = true) (hl : lo ≤ hi) : tabFrom d lo t = true := by
  cases t with
  | nil => rfl
  | cons c t =>
    obtain ⟨i, v⟩ := c
    simp only [tabFrom, Bool.and_eq_true, decide_eq_true_eq] at h ⊢
    exact ⟨⟨by omega, h.1.2⟩, h.2⟩

/-- Below its first index a set reads as the default. -/
theorem tget_below {lo k : Nat} {t : Tab α} (h : tabFrom d lo t = true) (hk : k < lo) : tget d t k = d := by
  cases t with
  | nil => rfl
  | cons c t =>
    obtain ⟨i, v⟩ := c
    simp only [tabFrom, Bool.and_eq_true, decide_eq_true_eq] at h
    have : k ≠ i := by omega
    have : k < i := by omega
    simp [tget, *]

/-- What every index reads as after one is set. -/
theorem tget_tset {lo : Nat} {t : Tab α} (h : tabFrom d lo t = true) (k j : Nat) (x : α) :
    tget d (tset d t k x) j = if j = k then x else tget d t j := by
  induction t generalizing lo with
  | nil =>
    by_cases hx : x = d <;> by_cases hj : j = k <;> simp [tset, tget, hx, hj]
  | cons c t ih =>
    obtain ⟨i, v⟩ := c
    simp only [tabFrom, Bool.and_eq_true, decide_eq_true_eq] at h
    have hb : ∀ m, m ≤ i → tget d t m = d := fun m hm => tget_below h.2 (by omega)
    rcases lt_trichotomy k i with hk | hk | hk
    · by_cases hx : x = d
      · by_cases hj : j = k
        · subst hj; simp [tset, tget, hk, hx, hk.ne]
        · simp [tset, tget, hk, hx, hj]
      · by_cases hj : j = k
        · simp [tset, tget, hk, hx, hj]
        · by_cases hjk : j < k
          · have : j < i := by omega
            simp [tset, tget, hk, hx, hj, hjk, this, this.ne]
          · simp [tset, tget, hk, hx, hj, hjk]
    · subst hk
      by_cases hx : x = d
      · by_cases hj : j = k
        · subst hj; simp [tset, hx, hb j le_rfl]
        · by_cases hjk : j < k
          · simp [tset, tget, hx, hj, hjk, hb j hjk.le]
          · simp [tset, tget, hx, hj, hjk]
      · by_cases hj : j = k
        · simp [tset, tget, hx, hj]
        · by_cases hjk : j < k
          · simp [tset, tget, hx, hj, hjk]
          · simp [tset, tget, hx, hj, hjk]
    · have h1 : ¬ k < i := by omega
      have h2 : k ≠ i := by omega
      by_cases hji : j = i
      · subst hji; simp [tset, tget, h1, h2, h2.symm]
      · by_cases hlt : j < i
        · have : j ≠ k := by omega
          simp [tset, tget, h1, h2, hji, hlt, this]
        · simp [tset, tget, h1, h2, hji, hlt, ih h.2]

/-- Setting one index keeps the canonical form. -/
theorem tabFrom_tset {lo : Nat} {t : Tab α} (h : tabFrom d lo t = true) (k : Nat) (hk : lo ≤ k) (x : α) :
    tabFrom d lo (tset d t k x) = true := by
  induction t generalizing lo with
  | nil => by_cases hx : x = d <;> simp [tset, tabFrom, hx, hk]
  | cons c t ih =>
    obtain ⟨i, v⟩ := c
    have h' := h
    simp only [tabFrom, Bool.and_eq_true, decide_eq_true_eq] at h
    rcases lt_trichotomy k i with hki | hki | hki
    · by_cases hx : x = d
      · simp [tset, hki, hx, h']
      · have : k + 1 ≤ i := hki
        simp [tset, hki, hx, tabFrom, hk, h.1.2, h.2, this]
    · subst hki
      by_cases hx : x = d
      · simpa [tset, hx] using tabFrom_mono h.2 (show lo ≤ k + 1 by omega)
      · simp [tset, hx, tabFrom, hk, h.2]
    · have h1 : ¬ k < i := by omega
      have h2 : k ≠ i := by omega
      simp [tset, h1, h2, tabFrom, h.1.1, h.1.2, ih h.2 (by omega)]

/-- Setting one index keeps a whole set canonical. -/
theorem tabWf_tset {t : Tab α} (h : tabWf d t = true) (k : Nat) (x : α) : tabWf d (tset d t k x) = true :=
  tabFrom_tset h k (Nat.zero_le k) x

/-- What a canonical set reads as after one index is set. -/
theorem tget_tset_wf {t : Tab α} (h : tabWf d t = true) (k j : Nat) (x : α) :
    tget d (tset d t k x) j = if j = k then x else tget d t j := tget_tset h k j x

theorem tabFrom_filter {lo : Nat} {t : Tab α} (h : tabFrom d lo t = true) (p : Nat × α → Bool) :
    tabFrom d lo (t.filter p) = true := by
  induction t generalizing lo with
  | nil => rfl
  | cons c t ih =>
    obtain ⟨i, v⟩ := c
    simp only [tabFrom, Bool.and_eq_true, decide_eq_true_eq] at h
    by_cases hp : p (i, v) = true
    · simp [hp, tabFrom, h.1.1, h.1.2, ih h.2]
    · simpa [hp] using tabFrom_mono (ih h.2) (show lo ≤ i + 1 by omega)

theorem tabFrom_above {lo : Nat} {t : Tab α} (h : tabFrom d lo t = true) {i : Nat} {v : α} (hm : (i, v) ∈ t) : lo ≤ i := by
  induction t generalizing lo with
  | nil => cases hm
  | cons c t ih =>
    obtain ⟨j, w⟩ := c
    simp only [tabFrom, Bool.and_eq_true, decide_eq_true_eq] at h
    rcases List.mem_cons.mp hm with e | e
    · cases e; exact h.1.1
    · have := ih h.2 e; omega

theorem tabFrom_append {lo a : Nat} {t u : Tab α} (h : tabFrom d lo t = true) (hu : tabFrom d a u = true) (hl : lo ≤ a)
    (ht : ∀ c ∈ t, c.1 < a) : tabFrom d lo (t ++ u) = true := by
  induction t generalizing lo with
  | nil => exact tabFrom_mono hu hl
  | cons c t ih =>
    obtain ⟨i, v⟩ := c
    simp only [tabFrom, Bool.and_eq_true, decide_eq_true_eq] at h
    have hi : i < a := ht (i, v) (by simp)
    simp [tabFrom, h.1.1, h.1.2, ih h.2 (by omega) fun c hc => ht c (by simp [hc])]

/-- A set whose entries all lie from `a` on is canonical from `a` on. -/
theorem tabFrom_raise {lo a : Nat} {t : Tab α} (h : tabFrom d lo t = true) (ha : ∀ c ∈ t, a ≤ c.1) : tabFrom d a t = true := by
  cases t with
  | nil => rfl
  | cons c t =>
    obtain ⟨i, v⟩ := c
    have := ha (i, v) (by simp)
    simp only [tabFrom, Bool.and_eq_true, decide_eq_true_eq] at h ⊢
    exact ⟨⟨this, h.1.2⟩, h.2⟩

/-! ### Byte memories -/

/-- A written byte reads back, and every other byte reads as before. -/
theorem Mem.read_write {m : Mem} (h : Memory.wf m = true) (a b : Nat) (v : Byte) :
    (m.write a v).read b = if b = a then v else m.read b := tget_tset h a b v

/-- Writing a byte keeps the canonical form. -/
theorem Mem.write_wf {m : Mem} (h : Memory.wf m = true) (a : Nat) (v : Byte) : Memory.wf (m.write a v) = true := tabWf_tset h a v

/-- The cells of a stored value lie in its bytes, in canonical form. -/
theorem cellsOf_wf (n a v : Nat) : tabFrom memDefault a (cellsOf n a v) = true ∧ ∀ c ∈ cellsOf n a v, a ≤ c.1 ∧ c.1 < a + n := by
  induction n generalizing a v with
  | zero => simp [cellsOf, tabFrom]
  | succ n ih =>
    obtain ⟨h1, h2⟩ := ih (a + 1) (v / 256)
    have h3 : ∀ c ∈ cellsOf n (a + 1) (v / 256), a ≤ c.1 ∧ c.1 < a + (n + 1) := fun c hc => by have := h2 c hc; omega
    unfold cellsOf
    by_cases hv : v = 0
    · simp [hv, tabFrom]
    · by_cases hm : v % 256 = 0
      · simp only [hv, hm, if_false, if_true]
        exact ⟨tabFrom_mono h1 (by omega), h3⟩
      · have hd : BitVec.ofNat 8 v ≠ memDefault := by
          intro e
          have := congrArg BitVec.toNat e
          simp [memDefault] at this
          omega
        simp only [hv, hm, if_false]
        refine ⟨by simp [tabFrom, hd, h1], fun c hc => ?_⟩
        rcases List.mem_cons.mp hc with e | e
        · subst e; simp
        · exact h3 c e

/-- A store keeps the canonical form. -/
theorem Mem.store_canon {m : Mem} (h : Memory.wf m = true) (a n v : Nat) : Memory.wf (m.store a n v) = true := by
  have hc := cellsOf_wf n a v
  have hlow : ∀ c ∈ m.filter fun c => c.1 < a, c.1 < a := fun c hm => by simpa using (List.mem_filter.mp hm).2
  have hhigh : ∀ c ∈ m.filter fun c => a + n ≤ c.1, a + n ≤ c.1 := fun c hm => by simpa using (List.mem_filter.mp hm).2
  unfold Memory.wf tabWf at *
  unfold Mem.store
  rw [List.append_assoc]
  refine tabFrom_append (tabFrom_filter h _) (tabFrom_append hc.1 (tabFrom_raise (tabFrom_filter h _) hhigh) (by omega) fun c hm => ?_)
    (Nat.zero_le a) hlow
  exact (hc.2 c hm).2

/-- Clearing keeps the canonical form. -/
theorem Mem.clear_canon {m : Mem} (h : Memory.wf m = true) (a n : Nat) : Memory.wf (m.clear a n) = true := tabFrom_filter h _

end Sys2Proof.Machine
end

