-- ==== Sys2Proof/Laws/State.lean ====
section
/-! SUPPORT. One lemma for each field of State under each update of it, true by unfolding, so that no proof unfolds a
record update; and what each indexed part reads as after a write. -/

namespace Sys2Proof.Machine

/-! `tick` -/

@[simp] theorem State.tick_pending (s : State) (t : Nat) : (s.tick t).pending = s.pending := rfl
@[simp] theorem State.tick_now (s : State) (t : Nat) : (s.tick t).now = Nat.max s.now t := rfl
@[simp] theorem State.tick_freeCtr (s : State) (t : Nat) : (s.tick t).freeCtr = s.freeCtr := rfl
@[simp] theorem State.tick_ht (s : State) (t : Nat) : (s.tick t).ht = s.ht := rfl
@[simp] theorem State.tick_sos (s : State) (t : Nat) : (s.tick t).sos = s.sos := rfl
@[simp] theorem State.tick_soStart (s : State) (t : Nat) : (s.tick t).soStart = s.soStart := rfl
@[simp] theorem State.tick_soStale (s : State) (t : Nat) : (s.tick t).soStale = s.soStale := rfl
@[simp] theorem State.tick_miss (s : State) (t : Nat) : (s.tick t).miss = s.miss := rfl
@[simp] theorem State.tick_job (s : State) (t : Nat) : (s.tick t).job = s.job := rfl
@[simp] theorem State.tick_ents (s : State) (t : Nat) : (s.tick t).ents = s.ents := rfl
@[simp] theorem State.tick_catchup (s : State) (t : Nat) : (s.tick t).catchup = s.catchup := rfl
@[simp] theorem State.tick_rxHold (s : State) (t : Nat) : (s.tick t).rxHold = s.rxHold := rfl
@[simp] theorem State.tick_cores (s : State) (t : Nat) : (s.tick t).cores = s.cores := rfl
@[simp] theorem State.tick_kstore (s : State) (t : Nat) : (s.tick t).kstore = s.kstore := rfl
@[simp] theorem State.tick_gstore (s : State) (t : Nat) : (s.tick t).gstore = s.gstore := rfl
@[simp] theorem State.tick_scratch (s : State) (t : Nat) : (s.tick t).scratch = s.scratch := rfl
@[simp] theorem State.tick_oasis (s : State) (t : Nat) : (s.tick t).oasis = s.oasis := rfl
@[simp] theorem State.tick_erg (s : State) (t : Nat) : (s.tick t).erg = s.erg := rfl
@[simp] theorem State.tick_dies (s : State) (t : Nat) : (s.tick t).dies = s.dies := rfl
@[simp] theorem State.tick_spills (s : State) (t : Nat) : (s.tick t).spills = s.spills := rfl
@[simp] theorem State.tick_spillOff (s : State) (t : Nat) : (s.tick t).spillOff = s.spillOff := rfl
@[simp] theorem State.tick_com (s : State) (t : Nat) : (s.tick t).com = s.com := rfl
@[simp] theorem State.tick_near (s : State) (t : Nat) : (s.tick t).near = s.near := rfl
@[simp] theorem State.tick_acx (s : State) (t : Nat) : (s.tick t).acx = s.acx := rfl
@[simp] theorem State.tick_guest (s : State) (t : Nat) : (s.tick t).guest = s.guest := rfl
@[simp] theorem State.tick_pcie (s : State) (t : Nat) : (s.tick t).pcie = s.pcie := rfl
@[simp] theorem State.tick_aon (s : State) (t : Nat) : (s.tick t).aon = s.aon := rfl
@[simp] theorem State.tick_isl (s : State) (t : Nat) : (s.tick t).isl = s.isl := rfl
@[simp] theorem State.tick_site (s : State) (t : Nat) : (s.tick t).site = s.site := rfl
@[simp] theorem State.tick_out (s : State) (t : Nat) : (s.tick t).out = s.out := rfl
@[simp] theorem State.tick_core (s : State) (t : Nat) (i : Nat) : (s.tick t).core i = s.core i := rfl
@[simp] theorem State.tick_die (s : State) (t : Nat) (i : Nat) : (s.tick t).die i = s.die i := rfl
@[simp] theorem State.tick_port (s : State) (t : Nat) (i : Nat) : (s.tick t).port i = s.port i := rfl
@[simp] theorem State.tick_so (s : State) (t : Nat) (i : Nat) : (s.tick t).so i = s.so i := rfl
@[simp] theorem State.tick_missRec (s : State) (t : Nat) (i : Nat) : (s.tick t).missRec i = s.missRec i := rfl
@[simp] theorem State.tick_ent (s : State) (t : Nat) (i : Nat) : (s.tick t).ent i = s.ent i := rfl
@[simp] theorem State.tick_frag (s : State) (t : Nat) (i : Nat) : (s.tick t).frag i = s.frag i := rfl
@[simp] theorem State.tick_farPort (s : State) (t : Nat) (i : Nat) : (s.tick t).farPort i = s.farPort i := rfl
@[simp] theorem State.tick_partner (s : State) (t : Nat) (i : Nat) : (s.tick t).partner i = s.partner i := rfl
@[simp] theorem State.tick_sess (s : State) (t : Nat) (i : Nat) : (s.tick t).sess i = s.sess i := rfl
@[simp] theorem State.tick_mbox (s : State) (t : Nat) (i : Nat) : (s.tick t).mbox i = s.mbox i := rfl
@[simp] theorem State.tick_chan (s : State) (t : Nat) (i : Nat) : (s.tick t).chan i = s.chan i := rfl

/-! `emit` -/

@[simp] theorem State.emit_pending (s : State) (o : Out) : (s.emit o).pending = s.pending := rfl
@[simp] theorem State.emit_now (s : State) (o : Out) : (s.emit o).now = s.now := rfl
@[simp] theorem State.emit_freeCtr (s : State) (o : Out) : (s.emit o).freeCtr = s.freeCtr := rfl
@[simp] theorem State.emit_ht (s : State) (o : Out) : (s.emit o).ht = s.ht := rfl
@[simp] theorem State.emit_sos (s : State) (o : Out) : (s.emit o).sos = s.sos := rfl
@[simp] theorem State.emit_soStart (s : State) (o : Out) : (s.emit o).soStart = s.soStart := rfl
@[simp] theorem State.emit_soStale (s : State) (o : Out) : (s.emit o).soStale = s.soStale := rfl
@[simp] theorem State.emit_miss (s : State) (o : Out) : (s.emit o).miss = s.miss := rfl
@[simp] theorem State.emit_job (s : State) (o : Out) : (s.emit o).job = s.job := rfl
@[simp] theorem State.emit_ents (s : State) (o : Out) : (s.emit o).ents = s.ents := rfl
@[simp] theorem State.emit_catchup (s : State) (o : Out) : (s.emit o).catchup = s.catchup := rfl
@[simp] theorem State.emit_rxHold (s : State) (o : Out) : (s.emit o).rxHold = s.rxHold := rfl
@[simp] theorem State.emit_cores (s : State) (o : Out) : (s.emit o).cores = s.cores := rfl
@[simp] theorem State.emit_kstore (s : State) (o : Out) : (s.emit o).kstore = s.kstore := rfl
@[simp] theorem State.emit_gstore (s : State) (o : Out) : (s.emit o).gstore = s.gstore := rfl
@[simp] theorem State.emit_scratch (s : State) (o : Out) : (s.emit o).scratch = s.scratch := rfl
@[simp] theorem State.emit_oasis (s : State) (o : Out) : (s.emit o).oasis = s.oasis := rfl
@[simp] theorem State.emit_erg (s : State) (o : Out) : (s.emit o).erg = s.erg := rfl
@[simp] theorem State.emit_dies (s : State) (o : Out) : (s.emit o).dies = s.dies := rfl
@[simp] theorem State.emit_spills (s : State) (o : Out) : (s.emit o).spills = s.spills := rfl
@[simp] theorem State.emit_spillOff (s : State) (o : Out) : (s.emit o).spillOff = s.spillOff := rfl
@[simp] theorem State.emit_com (s : State) (o : Out) : (s.emit o).com = s.com := rfl
@[simp] theorem State.emit_near (s : State) (o : Out) : (s.emit o).near = s.near := rfl
@[simp] theorem State.emit_acx (s : State) (o : Out) : (s.emit o).acx = s.acx := rfl
@[simp] theorem State.emit_guest (s : State) (o : Out) : (s.emit o).guest = s.guest := rfl
@[simp] theorem State.emit_pcie (s : State) (o : Out) : (s.emit o).pcie = s.pcie := rfl
@[simp] theorem State.emit_aon (s : State) (o : Out) : (s.emit o).aon = s.aon := rfl
@[simp] theorem State.emit_isl (s : State) (o : Out) : (s.emit o).isl = s.isl := rfl
@[simp] theorem State.emit_site (s : State) (o : Out) : (s.emit o).site = s.site := rfl
@[simp] theorem State.emit_out (s : State) (o : Out) : (s.emit o).out = s.out ++ [o] := rfl
@[simp] theorem State.emit_core (s : State) (o : Out) (i : Nat) : (s.emit o).core i = s.core i := rfl
@[simp] theorem State.emit_die (s : State) (o : Out) (i : Nat) : (s.emit o).die i = s.die i := rfl
@[simp] theorem State.emit_port (s : State) (o : Out) (i : Nat) : (s.emit o).port i = s.port i := rfl
@[simp] theorem State.emit_so (s : State) (o : Out) (i : Nat) : (s.emit o).so i = s.so i := rfl
@[simp] theorem State.emit_missRec (s : State) (o : Out) (i : Nat) : (s.emit o).missRec i = s.missRec i := rfl
@[simp] theorem State.emit_ent (s : State) (o : Out) (i : Nat) : (s.emit o).ent i = s.ent i := rfl
@[simp] theorem State.emit_frag (s : State) (o : Out) (i : Nat) : (s.emit o).frag i = s.frag i := rfl
@[simp] theorem State.emit_farPort (s : State) (o : Out) (i : Nat) : (s.emit o).farPort i = s.farPort i := rfl
@[simp] theorem State.emit_partner (s : State) (o : Out) (i : Nat) : (s.emit o).partner i = s.partner i := rfl
@[simp] theorem State.emit_sess (s : State) (o : Out) (i : Nat) : (s.emit o).sess i = s.sess i := rfl
@[simp] theorem State.emit_mbox (s : State) (o : Out) (i : Nat) : (s.emit o).mbox i = s.mbox i := rfl
@[simp] theorem State.emit_chan (s : State) (o : Out) (i : Nat) : (s.emit o).chan i = s.chan i := rfl

/-! `putCore` -/

@[simp] theorem State.putCore_pending (s : State) (k : Nat) (v : Core) : (s.putCore k v).pending = s.pending := rfl
@[simp] theorem State.putCore_now (s : State) (k : Nat) (v : Core) : (s.putCore k v).now = s.now := rfl
@[simp] theorem State.putCore_freeCtr (s : State) (k : Nat) (v : Core) : (s.putCore k v).freeCtr = s.freeCtr := rfl
@[simp] theorem State.putCore_ht (s : State) (k : Nat) (v : Core) : (s.putCore k v).ht = s.ht := rfl
@[simp] theorem State.putCore_sos (s : State) (k : Nat) (v : Core) : (s.putCore k v).sos = s.sos := rfl
@[simp] theorem State.putCore_soStart (s : State) (k : Nat) (v : Core) : (s.putCore k v).soStart = s.soStart := rfl
@[simp] theorem State.putCore_soStale (s : State) (k : Nat) (v : Core) : (s.putCore k v).soStale = s.soStale := rfl
@[simp] theorem State.putCore_miss (s : State) (k : Nat) (v : Core) : (s.putCore k v).miss = s.miss := rfl
@[simp] theorem State.putCore_job (s : State) (k : Nat) (v : Core) : (s.putCore k v).job = s.job := rfl
@[simp] theorem State.putCore_ents (s : State) (k : Nat) (v : Core) : (s.putCore k v).ents = s.ents := rfl
@[simp] theorem State.putCore_catchup (s : State) (k : Nat) (v : Core) : (s.putCore k v).catchup = s.catchup := rfl
@[simp] theorem State.putCore_rxHold (s : State) (k : Nat) (v : Core) : (s.putCore k v).rxHold = s.rxHold := rfl
@[simp] theorem State.putCore_cores (s : State) (k : Nat) (v : Core) : (s.putCore k v).cores = tset Core.reset s.cores k v := rfl
@[simp] theorem State.putCore_kstore (s : State) (k : Nat) (v : Core) : (s.putCore k v).kstore = s.kstore := rfl
@[simp] theorem State.putCore_gstore (s : State) (k : Nat) (v : Core) : (s.putCore k v).gstore = s.gstore := rfl
@[simp] theorem State.putCore_scratch (s : State) (k : Nat) (v : Core) : (s.putCore k v).scratch = s.scratch := rfl
@[simp] theorem State.putCore_oasis (s : State) (k : Nat) (v : Core) : (s.putCore k v).oasis = s.oasis := rfl
@[simp] theorem State.putCore_erg (s : State) (k : Nat) (v : Core) : (s.putCore k v).erg = s.erg := rfl
@[simp] theorem State.putCore_dies (s : State) (k : Nat) (v : Core) : (s.putCore k v).dies = s.dies := rfl
@[simp] theorem State.putCore_spills (s : State) (k : Nat) (v : Core) : (s.putCore k v).spills = s.spills := rfl
@[simp] theorem State.putCore_spillOff (s : State) (k : Nat) (v : Core) : (s.putCore k v).spillOff = s.spillOff := rfl
@[simp] theorem State.putCore_com (s : State) (k : Nat) (v : Core) : (s.putCore k v).com = s.com := rfl
@[simp] theorem State.putCore_near (s : State) (k : Nat) (v : Core) : (s.putCore k v).near = s.near := rfl
@[simp] theorem State.putCore_acx (s : State) (k : Nat) (v : Core) : (s.putCore k v).acx = s.acx := rfl
@[simp] theorem State.putCore_guest (s : State) (k : Nat) (v : Core) : (s.putCore k v).guest = s.guest := rfl
@[simp] theorem State.putCore_pcie (s : State) (k : Nat) (v : Core) : (s.putCore k v).pcie = s.pcie := rfl
@[simp] theorem State.putCore_aon (s : State) (k : Nat) (v : Core) : (s.putCore k v).aon = s.aon := rfl
@[simp] theorem State.putCore_isl (s : State) (k : Nat) (v : Core) : (s.putCore k v).isl = s.isl := rfl
@[simp] theorem State.putCore_site (s : State) (k : Nat) (v : Core) : (s.putCore k v).site = s.site := rfl
@[simp] theorem State.putCore_out (s : State) (k : Nat) (v : Core) : (s.putCore k v).out = s.out := rfl
@[simp] theorem State.putCore_die (s : State) (k : Nat) (v : Core) (i : Nat) : (s.putCore k v).die i = s.die i := rfl
@[simp] theorem State.putCore_port (s : State) (k : Nat) (v : Core) (i : Nat) : (s.putCore k v).port i = s.port i := rfl
@[simp] theorem State.putCore_so (s : State) (k : Nat) (v : Core) (i : Nat) : (s.putCore k v).so i = s.so i := rfl
@[simp] theorem State.putCore_missRec (s : State) (k : Nat) (v : Core) (i : Nat) : (s.putCore k v).missRec i = s.missRec i := rfl
@[simp] theorem State.putCore_ent (s : State) (k : Nat) (v : Core) (i : Nat) : (s.putCore k v).ent i = s.ent i := rfl
@[simp] theorem State.putCore_frag (s : State) (k : Nat) (v : Core) (i : Nat) : (s.putCore k v).frag i = s.frag i := rfl
@[simp] theorem State.putCore_farPort (s : State) (k : Nat) (v : Core) (i : Nat) : (s.putCore k v).farPort i = s.farPort i := rfl
@[simp] theorem State.putCore_partner (s : State) (k : Nat) (v : Core) (i : Nat) : (s.putCore k v).partner i = s.partner i := rfl
@[simp] theorem State.putCore_sess (s : State) (k : Nat) (v : Core) (i : Nat) : (s.putCore k v).sess i = s.sess i := rfl
@[simp] theorem State.putCore_mbox (s : State) (k : Nat) (v : Core) (i : Nat) : (s.putCore k v).mbox i = s.mbox i := rfl
@[simp] theorem State.putCore_chan (s : State) (k : Nat) (v : Core) (i : Nat) : (s.putCore k v).chan i = s.chan i := rfl

/-! `putDie` -/

@[simp] theorem State.putDie_pending (s : State) (k : Nat) (v : Die) : (s.putDie k v).pending = s.pending := rfl
@[simp] theorem State.putDie_now (s : State) (k : Nat) (v : Die) : (s.putDie k v).now = s.now := rfl
@[simp] theorem State.putDie_freeCtr (s : State) (k : Nat) (v : Die) : (s.putDie k v).freeCtr = s.freeCtr := rfl
@[simp] theorem State.putDie_ht (s : State) (k : Nat) (v : Die) : (s.putDie k v).ht = s.ht := rfl
@[simp] theorem State.putDie_sos (s : State) (k : Nat) (v : Die) : (s.putDie k v).sos = s.sos := rfl
@[simp] theorem State.putDie_soStart (s : State) (k : Nat) (v : Die) : (s.putDie k v).soStart = s.soStart := rfl
@[simp] theorem State.putDie_soStale (s : State) (k : Nat) (v : Die) : (s.putDie k v).soStale = s.soStale := rfl
@[simp] theorem State.putDie_miss (s : State) (k : Nat) (v : Die) : (s.putDie k v).miss = s.miss := rfl
@[simp] theorem State.putDie_job (s : State) (k : Nat) (v : Die) : (s.putDie k v).job = s.job := rfl
@[simp] theorem State.putDie_ents (s : State) (k : Nat) (v : Die) : (s.putDie k v).ents = s.ents := rfl
@[simp] theorem State.putDie_catchup (s : State) (k : Nat) (v : Die) : (s.putDie k v).catchup = s.catchup := rfl
@[simp] theorem State.putDie_rxHold (s : State) (k : Nat) (v : Die) : (s.putDie k v).rxHold = s.rxHold := rfl
@[simp] theorem State.putDie_cores (s : State) (k : Nat) (v : Die) : (s.putDie k v).cores = s.cores := rfl
@[simp] theorem State.putDie_kstore (s : State) (k : Nat) (v : Die) : (s.putDie k v).kstore = s.kstore := rfl
@[simp] theorem State.putDie_gstore (s : State) (k : Nat) (v : Die) : (s.putDie k v).gstore = s.gstore := rfl
@[simp] theorem State.putDie_scratch (s : State) (k : Nat) (v : Die) : (s.putDie k v).scratch = s.scratch := rfl
@[simp] theorem State.putDie_oasis (s : State) (k : Nat) (v : Die) : (s.putDie k v).oasis = s.oasis := rfl
@[simp] theorem State.putDie_erg (s : State) (k : Nat) (v : Die) : (s.putDie k v).erg = s.erg := rfl
@[simp] theorem State.putDie_dies (s : State) (k : Nat) (v : Die) : (s.putDie k v).dies = tset Die.reset s.dies k v := rfl
@[simp] theorem State.putDie_spills (s : State) (k : Nat) (v : Die) : (s.putDie k v).spills = s.spills := rfl
@[simp] theorem State.putDie_spillOff (s : State) (k : Nat) (v : Die) : (s.putDie k v).spillOff = s.spillOff := rfl
@[simp] theorem State.putDie_com (s : State) (k : Nat) (v : Die) : (s.putDie k v).com = s.com := rfl
@[simp] theorem State.putDie_near (s : State) (k : Nat) (v : Die) : (s.putDie k v).near = s.near := rfl
@[simp] theorem State.putDie_acx (s : State) (k : Nat) (v : Die) : (s.putDie k v).acx = s.acx := rfl
@[simp] theorem State.putDie_guest (s : State) (k : Nat) (v : Die) : (s.putDie k v).guest = s.guest := rfl
@[simp] theorem State.putDie_pcie (s : State) (k : Nat) (v : Die) : (s.putDie k v).pcie = s.pcie := rfl
@[simp] theorem State.putDie_aon (s : State) (k : Nat) (v : Die) : (s.putDie k v).aon = s.aon := rfl
@[simp] theorem State.putDie_isl (s : State) (k : Nat) (v : Die) : (s.putDie k v).isl = s.isl := rfl
@[simp] theorem State.putDie_site (s : State) (k : Nat) (v : Die) : (s.putDie k v).site = s.site := rfl
@[simp] theorem State.putDie_out (s : State) (k : Nat) (v : Die) : (s.putDie k v).out = s.out := rfl
@[simp] theorem State.putDie_core (s : State) (k : Nat) (v : Die) (i : Nat) : (s.putDie k v).core i = s.core i := rfl
@[simp] theorem State.putDie_port (s : State) (k : Nat) (v : Die) (i : Nat) : (s.putDie k v).port i = s.port i := rfl
@[simp] theorem State.putDie_so (s : State) (k : Nat) (v : Die) (i : Nat) : (s.putDie k v).so i = s.so i := rfl
@[simp] theorem State.putDie_missRec (s : State) (k : Nat) (v : Die) (i : Nat) : (s.putDie k v).missRec i = s.missRec i := rfl
@[simp] theorem State.putDie_ent (s : State) (k : Nat) (v : Die) (i : Nat) : (s.putDie k v).ent i = s.ent i := rfl
@[simp] theorem State.putDie_frag (s : State) (k : Nat) (v : Die) (i : Nat) : (s.putDie k v).frag i = s.frag i := rfl
@[simp] theorem State.putDie_farPort (s : State) (k : Nat) (v : Die) (i : Nat) : (s.putDie k v).farPort i = s.farPort i := rfl
@[simp] theorem State.putDie_partner (s : State) (k : Nat) (v : Die) (i : Nat) : (s.putDie k v).partner i = s.partner i := rfl
@[simp] theorem State.putDie_sess (s : State) (k : Nat) (v : Die) (i : Nat) : (s.putDie k v).sess i = s.sess i := rfl
@[simp] theorem State.putDie_mbox (s : State) (k : Nat) (v : Die) (i : Nat) : (s.putDie k v).mbox i = s.mbox i := rfl
@[simp] theorem State.putDie_chan (s : State) (k : Nat) (v : Die) (i : Nat) : (s.putDie k v).chan i = s.chan i := rfl

/-! `putPort` -/

@[simp] theorem State.putPort_pending (s : State) (k : Nat) (v : NearPort) : (s.putPort k v).pending = s.pending := rfl
@[simp] theorem State.putPort_now (s : State) (k : Nat) (v : NearPort) : (s.putPort k v).now = s.now := rfl
@[simp] theorem State.putPort_freeCtr (s : State) (k : Nat) (v : NearPort) : (s.putPort k v).freeCtr = s.freeCtr := rfl
@[simp] theorem State.putPort_ht (s : State) (k : Nat) (v : NearPort) : (s.putPort k v).ht = s.ht := rfl
@[simp] theorem State.putPort_sos (s : State) (k : Nat) (v : NearPort) : (s.putPort k v).sos = s.sos := rfl
@[simp] theorem State.putPort_soStart (s : State) (k : Nat) (v : NearPort) : (s.putPort k v).soStart = s.soStart := rfl
@[simp] theorem State.putPort_soStale (s : State) (k : Nat) (v : NearPort) : (s.putPort k v).soStale = s.soStale := rfl
@[simp] theorem State.putPort_miss (s : State) (k : Nat) (v : NearPort) : (s.putPort k v).miss = s.miss := rfl
@[simp] theorem State.putPort_job (s : State) (k : Nat) (v : NearPort) : (s.putPort k v).job = s.job := rfl
@[simp] theorem State.putPort_ents (s : State) (k : Nat) (v : NearPort) : (s.putPort k v).ents = s.ents := rfl
@[simp] theorem State.putPort_catchup (s : State) (k : Nat) (v : NearPort) : (s.putPort k v).catchup = s.catchup := rfl
@[simp] theorem State.putPort_rxHold (s : State) (k : Nat) (v : NearPort) : (s.putPort k v).rxHold = s.rxHold := rfl
@[simp] theorem State.putPort_cores (s : State) (k : Nat) (v : NearPort) : (s.putPort k v).cores = s.cores := rfl
@[simp] theorem State.putPort_kstore (s : State) (k : Nat) (v : NearPort) : (s.putPort k v).kstore = s.kstore := rfl
@[simp] theorem State.putPort_gstore (s : State) (k : Nat) (v : NearPort) : (s.putPort k v).gstore = s.gstore := rfl
@[simp] theorem State.putPort_scratch (s : State) (k : Nat) (v : NearPort) : (s.putPort k v).scratch = s.scratch := rfl
@[simp] theorem State.putPort_oasis (s : State) (k : Nat) (v : NearPort) : (s.putPort k v).oasis = s.oasis := rfl
@[simp] theorem State.putPort_erg (s : State) (k : Nat) (v : NearPort) : (s.putPort k v).erg = s.erg := rfl
@[simp] theorem State.putPort_dies (s : State) (k : Nat) (v : NearPort) : (s.putPort k v).dies = s.dies := rfl
@[simp] theorem State.putPort_spills (s : State) (k : Nat) (v : NearPort) : (s.putPort k v).spills = s.spills := rfl
@[simp] theorem State.putPort_spillOff (s : State) (k : Nat) (v : NearPort) : (s.putPort k v).spillOff = s.spillOff := rfl
@[simp] theorem State.putPort_com (s : State) (k : Nat) (v : NearPort) : (s.putPort k v).com = s.com := rfl
@[simp] theorem State.putPort_near (s : State) (k : Nat) (v : NearPort) : (s.putPort k v).near = tset NearPort.reset s.near k v := rfl
@[simp] theorem State.putPort_acx (s : State) (k : Nat) (v : NearPort) : (s.putPort k v).acx = s.acx := rfl
@[simp] theorem State.putPort_guest (s : State) (k : Nat) (v : NearPort) : (s.putPort k v).guest = s.guest := rfl
@[simp] theorem State.putPort_pcie (s : State) (k : Nat) (v : NearPort) : (s.putPort k v).pcie = s.pcie := rfl
@[simp] theorem State.putPort_aon (s : State) (k : Nat) (v : NearPort) : (s.putPort k v).aon = s.aon := rfl
@[simp] theorem State.putPort_isl (s : State) (k : Nat) (v : NearPort) : (s.putPort k v).isl = s.isl := rfl
@[simp] theorem State.putPort_site (s : State) (k : Nat) (v : NearPort) : (s.putPort k v).site = s.site := rfl
@[simp] theorem State.putPort_out (s : State) (k : Nat) (v : NearPort) : (s.putPort k v).out = s.out := rfl
@[simp] theorem State.putPort_core (s : State) (k : Nat) (v : NearPort) (i : Nat) : (s.putPort k v).core i = s.core i := rfl
@[simp] theorem State.putPort_die (s : State) (k : Nat) (v : NearPort) (i : Nat) : (s.putPort k v).die i = s.die i := rfl
@[simp] theorem State.putPort_so (s : State) (k : Nat) (v : NearPort) (i : Nat) : (s.putPort k v).so i = s.so i := rfl
@[simp] theorem State.putPort_missRec (s : State) (k : Nat) (v : NearPort) (i : Nat) : (s.putPort k v).missRec i = s.missRec i := rfl
@[simp] theorem State.putPort_ent (s : State) (k : Nat) (v : NearPort) (i : Nat) : (s.putPort k v).ent i = s.ent i := rfl
@[simp] theorem State.putPort_frag (s : State) (k : Nat) (v : NearPort) (i : Nat) : (s.putPort k v).frag i = s.frag i := rfl
@[simp] theorem State.putPort_farPort (s : State) (k : Nat) (v : NearPort) (i : Nat) : (s.putPort k v).farPort i = s.farPort i := rfl
@[simp] theorem State.putPort_partner (s : State) (k : Nat) (v : NearPort) (i : Nat) : (s.putPort k v).partner i = s.partner i := rfl
@[simp] theorem State.putPort_sess (s : State) (k : Nat) (v : NearPort) (i : Nat) : (s.putPort k v).sess i = s.sess i := rfl
@[simp] theorem State.putPort_mbox (s : State) (k : Nat) (v : NearPort) (i : Nat) : (s.putPort k v).mbox i = s.mbox i := rfl
@[simp] theorem State.putPort_chan (s : State) (k : Nat) (v : NearPort) (i : Nat) : (s.putPort k v).chan i = s.chan i := rfl

/-! `putSo` -/

@[simp] theorem State.putSo_pending (s : State) (k : Nat) (v : SyncObj) : (s.putSo k v).pending = s.pending := rfl
@[simp] theorem State.putSo_now (s : State) (k : Nat) (v : SyncObj) : (s.putSo k v).now = s.now := rfl
@[simp] theorem State.putSo_freeCtr (s : State) (k : Nat) (v : SyncObj) : (s.putSo k v).freeCtr = s.freeCtr := rfl
@[simp] theorem State.putSo_ht (s : State) (k : Nat) (v : SyncObj) : (s.putSo k v).ht = s.ht := rfl
@[simp] theorem State.putSo_sos (s : State) (k : Nat) (v : SyncObj) : (s.putSo k v).sos = tset (SyncObj.start s.soStart) s.sos k v := rfl
@[simp] theorem State.putSo_soStart (s : State) (k : Nat) (v : SyncObj) : (s.putSo k v).soStart = s.soStart := rfl
@[simp] theorem State.putSo_soStale (s : State) (k : Nat) (v : SyncObj) : (s.putSo k v).soStale = s.soStale := rfl
@[simp] theorem State.putSo_miss (s : State) (k : Nat) (v : SyncObj) : (s.putSo k v).miss = s.miss := rfl
@[simp] theorem State.putSo_job (s : State) (k : Nat) (v : SyncObj) : (s.putSo k v).job = s.job := rfl
@[simp] theorem State.putSo_ents (s : State) (k : Nat) (v : SyncObj) : (s.putSo k v).ents = s.ents := rfl
@[simp] theorem State.putSo_catchup (s : State) (k : Nat) (v : SyncObj) : (s.putSo k v).catchup = s.catchup := rfl
@[simp] theorem State.putSo_rxHold (s : State) (k : Nat) (v : SyncObj) : (s.putSo k v).rxHold = s.rxHold := rfl
@[simp] theorem State.putSo_cores (s : State) (k : Nat) (v : SyncObj) : (s.putSo k v).cores = s.cores := rfl
@[simp] theorem State.putSo_kstore (s : State) (k : Nat) (v : SyncObj) : (s.putSo k v).kstore = s.kstore := rfl
@[simp] theorem State.putSo_gstore (s : State) (k : Nat) (v : SyncObj) : (s.putSo k v).gstore = s.gstore := rfl
@[simp] theorem State.putSo_scratch (s : State) (k : Nat) (v : SyncObj) : (s.putSo k v).scratch = s.scratch := rfl
@[simp] theorem State.putSo_oasis (s : State) (k : Nat) (v : SyncObj) : (s.putSo k v).oasis = s.oasis := rfl
@[simp] theorem State.putSo_erg (s : State) (k : Nat) (v : SyncObj) : (s.putSo k v).erg = s.erg := rfl
@[simp] theorem State.putSo_dies (s : State) (k : Nat) (v : SyncObj) : (s.putSo k v).dies = s.dies := rfl
@[simp] theorem State.putSo_spills (s : State) (k : Nat) (v : SyncObj) : (s.putSo k v).spills = s.spills := rfl
@[simp] theorem State.putSo_spillOff (s : State) (k : Nat) (v : SyncObj) : (s.putSo k v).spillOff = s.spillOff := rfl
@[simp] theorem State.putSo_com (s : State) (k : Nat) (v : SyncObj) : (s.putSo k v).com = s.com := rfl
@[simp] theorem State.putSo_near (s : State) (k : Nat) (v : SyncObj) : (s.putSo k v).near = s.near := rfl
@[simp] theorem State.putSo_acx (s : State) (k : Nat) (v : SyncObj) : (s.putSo k v).acx = s.acx := rfl
@[simp] theorem State.putSo_guest (s : State) (k : Nat) (v : SyncObj) : (s.putSo k v).guest = s.guest := rfl
@[simp] theorem State.putSo_pcie (s : State) (k : Nat) (v : SyncObj) : (s.putSo k v).pcie = s.pcie := rfl
@[simp] theorem State.putSo_aon (s : State) (k : Nat) (v : SyncObj) : (s.putSo k v).aon = s.aon := rfl
@[simp] theorem State.putSo_isl (s : State) (k : Nat) (v : SyncObj) : (s.putSo k v).isl = s.isl := rfl
@[simp] theorem State.putSo_site (s : State) (k : Nat) (v : SyncObj) : (s.putSo k v).site = s.site := rfl
@[simp] theorem State.putSo_out (s : State) (k : Nat) (v : SyncObj) : (s.putSo k v).out = s.out := rfl
@[simp] theorem State.putSo_core (s : State) (k : Nat) (v : SyncObj) (i : Nat) : (s.putSo k v).core i = s.core i := rfl
@[simp] theorem State.putSo_die (s : State) (k : Nat) (v : SyncObj) (i : Nat) : (s.putSo k v).die i = s.die i := rfl
@[simp] theorem State.putSo_port (s : State) (k : Nat) (v : SyncObj) (i : Nat) : (s.putSo k v).port i = s.port i := rfl
@[simp] theorem State.putSo_missRec (s : State) (k : Nat) (v : SyncObj) (i : Nat) : (s.putSo k v).missRec i = s.missRec i := rfl
@[simp] theorem State.putSo_ent (s : State) (k : Nat) (v : SyncObj) (i : Nat) : (s.putSo k v).ent i = s.ent i := rfl
@[simp] theorem State.putSo_frag (s : State) (k : Nat) (v : SyncObj) (i : Nat) : (s.putSo k v).frag i = s.frag i := rfl
@[simp] theorem State.putSo_farPort (s : State) (k : Nat) (v : SyncObj) (i : Nat) : (s.putSo k v).farPort i = s.farPort i := rfl
@[simp] theorem State.putSo_partner (s : State) (k : Nat) (v : SyncObj) (i : Nat) : (s.putSo k v).partner i = s.partner i := rfl
@[simp] theorem State.putSo_sess (s : State) (k : Nat) (v : SyncObj) (i : Nat) : (s.putSo k v).sess i = s.sess i := rfl
@[simp] theorem State.putSo_mbox (s : State) (k : Nat) (v : SyncObj) (i : Nat) : (s.putSo k v).mbox i = s.mbox i := rfl
@[simp] theorem State.putSo_chan (s : State) (k : Nat) (v : SyncObj) (i : Nat) : (s.putSo k v).chan i = s.chan i := rfl

/-! `putMissRec` -/

@[simp] theorem State.putMissRec_pending (s : State) (k : Nat) (v : MissRec) : (s.putMissRec k v).pending = s.pending := rfl
@[simp] theorem State.putMissRec_now (s : State) (k : Nat) (v : MissRec) : (s.putMissRec k v).now = s.now := rfl
@[simp] theorem State.putMissRec_freeCtr (s : State) (k : Nat) (v : MissRec) : (s.putMissRec k v).freeCtr = s.freeCtr := rfl
@[simp] theorem State.putMissRec_ht (s : State) (k : Nat) (v : MissRec) : (s.putMissRec k v).ht = s.ht := rfl
@[simp] theorem State.putMissRec_sos (s : State) (k : Nat) (v : MissRec) : (s.putMissRec k v).sos = s.sos := rfl
@[simp] theorem State.putMissRec_soStart (s : State) (k : Nat) (v : MissRec) : (s.putMissRec k v).soStart = s.soStart := rfl
@[simp] theorem State.putMissRec_soStale (s : State) (k : Nat) (v : MissRec) : (s.putMissRec k v).soStale = s.soStale := rfl
@[simp] theorem State.putMissRec_miss (s : State) (k : Nat) (v : MissRec) : (s.putMissRec k v).miss = tset MissRec.reset s.miss k v := rfl
@[simp] theorem State.putMissRec_job (s : State) (k : Nat) (v : MissRec) : (s.putMissRec k v).job = s.job := rfl
@[simp] theorem State.putMissRec_ents (s : State) (k : Nat) (v : MissRec) : (s.putMissRec k v).ents = s.ents := rfl
@[simp] theorem State.putMissRec_catchup (s : State) (k : Nat) (v : MissRec) : (s.putMissRec k v).catchup = s.catchup := rfl
@[simp] theorem State.putMissRec_rxHold (s : State) (k : Nat) (v : MissRec) : (s.putMissRec k v).rxHold = s.rxHold := rfl
@[simp] theorem State.putMissRec_cores (s : State) (k : Nat) (v : MissRec) : (s.putMissRec k v).cores = s.cores := rfl
@[simp] theorem State.putMissRec_kstore (s : State) (k : Nat) (v : MissRec) : (s.putMissRec k v).kstore = s.kstore := rfl
@[simp] theorem State.putMissRec_gstore (s : State) (k : Nat) (v : MissRec) : (s.putMissRec k v).gstore = s.gstore := rfl
@[simp] theorem State.putMissRec_scratch (s : State) (k : Nat) (v : MissRec) : (s.putMissRec k v).scratch = s.scratch := rfl
@[simp] theorem State.putMissRec_oasis (s : State) (k : Nat) (v : MissRec) : (s.putMissRec k v).oasis = s.oasis := rfl
@[simp] theorem State.putMissRec_erg (s : State) (k : Nat) (v : MissRec) : (s.putMissRec k v).erg = s.erg := rfl
@[simp] theorem State.putMissRec_dies (s : State) (k : Nat) (v : MissRec) : (s.putMissRec k v).dies = s.dies := rfl
@[simp] theorem State.putMissRec_spills (s : State) (k : Nat) (v : MissRec) : (s.putMissRec k v).spills = s.spills := rfl
@[simp] theorem State.putMissRec_spillOff (s : State) (k : Nat) (v : MissRec) : (s.putMissRec k v).spillOff = s.spillOff := rfl
@[simp] theorem State.putMissRec_com (s : State) (k : Nat) (v : MissRec) : (s.putMissRec k v).com = s.com := rfl
@[simp] theorem State.putMissRec_near (s : State) (k : Nat) (v : MissRec) : (s.putMissRec k v).near = s.near := rfl
@[simp] theorem State.putMissRec_acx (s : State) (k : Nat) (v : MissRec) : (s.putMissRec k v).acx = s.acx := rfl
@[simp] theorem State.putMissRec_guest (s : State) (k : Nat) (v : MissRec) : (s.putMissRec k v).guest = s.guest := rfl
@[simp] theorem State.putMissRec_pcie (s : State) (k : Nat) (v : MissRec) : (s.putMissRec k v).pcie = s.pcie := rfl
@[simp] theorem State.putMissRec_aon (s : State) (k : Nat) (v : MissRec) : (s.putMissRec k v).aon = s.aon := rfl
@[simp] theorem State.putMissRec_isl (s : State) (k : Nat) (v : MissRec) : (s.putMissRec k v).isl = s.isl := rfl
@[simp] theorem State.putMissRec_site (s : State) (k : Nat) (v : MissRec) : (s.putMissRec k v).site = s.site := rfl
@[simp] theorem State.putMissRec_out (s : State) (k : Nat) (v : MissRec) : (s.putMissRec k v).out = s.out := rfl
@[simp] theorem State.putMissRec_core (s : State) (k : Nat) (v : MissRec) (i : Nat) : (s.putMissRec k v).core i = s.core i := rfl
@[simp] theorem State.putMissRec_die (s : State) (k : Nat) (v : MissRec) (i : Nat) : (s.putMissRec k v).die i = s.die i := rfl
@[simp] theorem State.putMissRec_port (s : State) (k : Nat) (v : MissRec) (i : Nat) : (s.putMissRec k v).port i = s.port i := rfl
@[simp] theorem State.putMissRec_so (s : State) (k : Nat) (v : MissRec) (i : Nat) : (s.putMissRec k v).so i = s.so i := rfl
@[simp] theorem State.putMissRec_ent (s : State) (k : Nat) (v : MissRec) (i : Nat) : (s.putMissRec k v).ent i = s.ent i := rfl
@[simp] theorem State.putMissRec_frag (s : State) (k : Nat) (v : MissRec) (i : Nat) : (s.putMissRec k v).frag i = s.frag i := rfl
@[simp] theorem State.putMissRec_farPort (s : State) (k : Nat) (v : MissRec) (i : Nat) : (s.putMissRec k v).farPort i = s.farPort i := rfl
@[simp] theorem State.putMissRec_partner (s : State) (k : Nat) (v : MissRec) (i : Nat) : (s.putMissRec k v).partner i = s.partner i := rfl
@[simp] theorem State.putMissRec_sess (s : State) (k : Nat) (v : MissRec) (i : Nat) : (s.putMissRec k v).sess i = s.sess i := rfl
@[simp] theorem State.putMissRec_mbox (s : State) (k : Nat) (v : MissRec) (i : Nat) : (s.putMissRec k v).mbox i = s.mbox i := rfl
@[simp] theorem State.putMissRec_chan (s : State) (k : Nat) (v : MissRec) (i : Nat) : (s.putMissRec k v).chan i = s.chan i := rfl

/-! `putEnt` -/

@[simp] theorem State.putEnt_pending (s : State) (k : Nat) (v : EntryState) : (s.putEnt k v).pending = s.pending := rfl
@[simp] theorem State.putEnt_now (s : State) (k : Nat) (v : EntryState) : (s.putEnt k v).now = s.now := rfl
@[simp] theorem State.putEnt_freeCtr (s : State) (k : Nat) (v : EntryState) : (s.putEnt k v).freeCtr = s.freeCtr := rfl
@[simp] theorem State.putEnt_ht (s : State) (k : Nat) (v : EntryState) : (s.putEnt k v).ht = s.ht := rfl
@[simp] theorem State.putEnt_sos (s : State) (k : Nat) (v : EntryState) : (s.putEnt k v).sos = s.sos := rfl
@[simp] theorem State.putEnt_soStart (s : State) (k : Nat) (v : EntryState) : (s.putEnt k v).soStart = s.soStart := rfl
@[simp] theorem State.putEnt_soStale (s : State) (k : Nat) (v : EntryState) : (s.putEnt k v).soStale = s.soStale := rfl
@[simp] theorem State.putEnt_miss (s : State) (k : Nat) (v : EntryState) : (s.putEnt k v).miss = s.miss := rfl
@[simp] theorem State.putEnt_job (s : State) (k : Nat) (v : EntryState) : (s.putEnt k v).job = s.job := rfl
@[simp] theorem State.putEnt_ents (s : State) (k : Nat) (v : EntryState) : (s.putEnt k v).ents = tset EntryState.idle s.ents k v := rfl
@[simp] theorem State.putEnt_catchup (s : State) (k : Nat) (v : EntryState) : (s.putEnt k v).catchup = s.catchup := rfl
@[simp] theorem State.putEnt_rxHold (s : State) (k : Nat) (v : EntryState) : (s.putEnt k v).rxHold = s.rxHold := rfl
@[simp] theorem State.putEnt_cores (s : State) (k : Nat) (v : EntryState) : (s.putEnt k v).cores = s.cores := rfl
@[simp] theorem State.putEnt_kstore (s : State) (k : Nat) (v : EntryState) : (s.putEnt k v).kstore = s.kstore := rfl
@[simp] theorem State.putEnt_gstore (s : State) (k : Nat) (v : EntryState) : (s.putEnt k v).gstore = s.gstore := rfl
@[simp] theorem State.putEnt_scratch (s : State) (k : Nat) (v : EntryState) : (s.putEnt k v).scratch = s.scratch := rfl
@[simp] theorem State.putEnt_oasis (s : State) (k : Nat) (v : EntryState) : (s.putEnt k v).oasis = s.oasis := rfl
@[simp] theorem State.putEnt_erg (s : State) (k : Nat) (v : EntryState) : (s.putEnt k v).erg = s.erg := rfl
@[simp] theorem State.putEnt_dies (s : State) (k : Nat) (v : EntryState) : (s.putEnt k v).dies = s.dies := rfl
@[simp] theorem State.putEnt_spills (s : State) (k : Nat) (v : EntryState) : (s.putEnt k v).spills = s.spills := rfl
@[simp] theorem State.putEnt_spillOff (s : State) (k : Nat) (v : EntryState) : (s.putEnt k v).spillOff = s.spillOff := rfl
@[simp] theorem State.putEnt_com (s : State) (k : Nat) (v : EntryState) : (s.putEnt k v).com = s.com := rfl
@[simp] theorem State.putEnt_near (s : State) (k : Nat) (v : EntryState) : (s.putEnt k v).near = s.near := rfl
@[simp] theorem State.putEnt_acx (s : State) (k : Nat) (v : EntryState) : (s.putEnt k v).acx = s.acx := rfl
@[simp] theorem State.putEnt_guest (s : State) (k : Nat) (v : EntryState) : (s.putEnt k v).guest = s.guest := rfl
@[simp] theorem State.putEnt_pcie (s : State) (k : Nat) (v : EntryState) : (s.putEnt k v).pcie = s.pcie := rfl
@[simp] theorem State.putEnt_aon (s : State) (k : Nat) (v : EntryState) : (s.putEnt k v).aon = s.aon := rfl
@[simp] theorem State.putEnt_isl (s : State) (k : Nat) (v : EntryState) : (s.putEnt k v).isl = s.isl := rfl
@[simp] theorem State.putEnt_site (s : State) (k : Nat) (v : EntryState) : (s.putEnt k v).site = s.site := rfl
@[simp] theorem State.putEnt_out (s : State) (k : Nat) (v : EntryState) : (s.putEnt k v).out = s.out := rfl
@[simp] theorem State.putEnt_core (s : State) (k : Nat) (v : EntryState) (i : Nat) : (s.putEnt k v).core i = s.core i := rfl
@[simp] theorem State.putEnt_die (s : State) (k : Nat) (v : EntryState) (i : Nat) : (s.putEnt k v).die i = s.die i := rfl
@[simp] theorem State.putEnt_port (s : State) (k : Nat) (v : EntryState) (i : Nat) : (s.putEnt k v).port i = s.port i := rfl
@[simp] theorem State.putEnt_so (s : State) (k : Nat) (v : EntryState) (i : Nat) : (s.putEnt k v).so i = s.so i := rfl
@[simp] theorem State.putEnt_missRec (s : State) (k : Nat) (v : EntryState) (i : Nat) : (s.putEnt k v).missRec i = s.missRec i := rfl
@[simp] theorem State.putEnt_frag (s : State) (k : Nat) (v : EntryState) (i : Nat) : (s.putEnt k v).frag i = s.frag i := rfl
@[simp] theorem State.putEnt_farPort (s : State) (k : Nat) (v : EntryState) (i : Nat) : (s.putEnt k v).farPort i = s.farPort i := rfl
@[simp] theorem State.putEnt_partner (s : State) (k : Nat) (v : EntryState) (i : Nat) : (s.putEnt k v).partner i = s.partner i := rfl
@[simp] theorem State.putEnt_sess (s : State) (k : Nat) (v : EntryState) (i : Nat) : (s.putEnt k v).sess i = s.sess i := rfl
@[simp] theorem State.putEnt_mbox (s : State) (k : Nat) (v : EntryState) (i : Nat) : (s.putEnt k v).mbox i = s.mbox i := rfl
@[simp] theorem State.putEnt_chan (s : State) (k : Nat) (v : EntryState) (i : Nat) : (s.putEnt k v).chan i = s.chan i := rfl

/-! `putFrag` -/

@[simp] theorem State.putFrag_pending (s : State) (k : Nat) (v : Fragment) : (s.putFrag k v).pending = s.pending := rfl
@[simp] theorem State.putFrag_now (s : State) (k : Nat) (v : Fragment) : (s.putFrag k v).now = s.now := rfl
@[simp] theorem State.putFrag_freeCtr (s : State) (k : Nat) (v : Fragment) : (s.putFrag k v).freeCtr = s.freeCtr := rfl
@[simp] theorem State.putFrag_ht (s : State) (k : Nat) (v : Fragment) : (s.putFrag k v).ht = s.ht := rfl
@[simp] theorem State.putFrag_sos (s : State) (k : Nat) (v : Fragment) : (s.putFrag k v).sos = s.sos := rfl
@[simp] theorem State.putFrag_soStart (s : State) (k : Nat) (v : Fragment) : (s.putFrag k v).soStart = s.soStart := rfl
@[simp] theorem State.putFrag_soStale (s : State) (k : Nat) (v : Fragment) : (s.putFrag k v).soStale = s.soStale := rfl
@[simp] theorem State.putFrag_miss (s : State) (k : Nat) (v : Fragment) : (s.putFrag k v).miss = s.miss := rfl
@[simp] theorem State.putFrag_job (s : State) (k : Nat) (v : Fragment) : (s.putFrag k v).job = s.job := rfl
@[simp] theorem State.putFrag_ents (s : State) (k : Nat) (v : Fragment) : (s.putFrag k v).ents = s.ents := rfl
@[simp] theorem State.putFrag_catchup (s : State) (k : Nat) (v : Fragment) : (s.putFrag k v).catchup = s.catchup := rfl
@[simp] theorem State.putFrag_rxHold (s : State) (k : Nat) (v : Fragment) : (s.putFrag k v).rxHold = s.rxHold := rfl
@[simp] theorem State.putFrag_cores (s : State) (k : Nat) (v : Fragment) : (s.putFrag k v).cores = s.cores := rfl
@[simp] theorem State.putFrag_kstore (s : State) (k : Nat) (v : Fragment) : (s.putFrag k v).kstore = s.kstore := rfl
@[simp] theorem State.putFrag_gstore (s : State) (k : Nat) (v : Fragment) : (s.putFrag k v).gstore = s.gstore := rfl
@[simp] theorem State.putFrag_scratch (s : State) (k : Nat) (v : Fragment) : (s.putFrag k v).scratch = s.scratch := rfl
@[simp] theorem State.putFrag_oasis (s : State) (k : Nat) (v : Fragment) : (s.putFrag k v).oasis = s.oasis := rfl
@[simp] theorem State.putFrag_erg (s : State) (k : Nat) (v : Fragment) : (s.putFrag k v).erg = s.erg := rfl
@[simp] theorem State.putFrag_dies (s : State) (k : Nat) (v : Fragment) : (s.putFrag k v).dies = s.dies := rfl
@[simp] theorem State.putFrag_spills (s : State) (k : Nat) (v : Fragment) : (s.putFrag k v).spills = s.spills := rfl
@[simp] theorem State.putFrag_spillOff (s : State) (k : Nat) (v : Fragment) : (s.putFrag k v).spillOff = s.spillOff := rfl
@[simp] theorem State.putFrag_com (s : State) (k : Nat) (v : Fragment) : (s.putFrag k v).com = s.com := rfl
@[simp] theorem State.putFrag_near (s : State) (k : Nat) (v : Fragment) : (s.putFrag k v).near = s.near := rfl
@[simp] theorem State.putFrag_acx (s : State) (k : Nat) (v : Fragment) : (s.putFrag k v).acx = { s.acx with frags := tset Fragment.reset s.acx.frags k v } := rfl
@[simp] theorem State.putFrag_guest (s : State) (k : Nat) (v : Fragment) : (s.putFrag k v).guest = s.guest := rfl
@[simp] theorem State.putFrag_pcie (s : State) (k : Nat) (v : Fragment) : (s.putFrag k v).pcie = s.pcie := rfl
@[simp] theorem State.putFrag_aon (s : State) (k : Nat) (v : Fragment) : (s.putFrag k v).aon = s.aon := rfl
@[simp] theorem State.putFrag_isl (s : State) (k : Nat) (v : Fragment) : (s.putFrag k v).isl = s.isl := rfl
@[simp] theorem State.putFrag_site (s : State) (k : Nat) (v : Fragment) : (s.putFrag k v).site = s.site := rfl
@[simp] theorem State.putFrag_out (s : State) (k : Nat) (v : Fragment) : (s.putFrag k v).out = s.out := rfl
@[simp] theorem State.putFrag_core (s : State) (k : Nat) (v : Fragment) (i : Nat) : (s.putFrag k v).core i = s.core i := rfl
@[simp] theorem State.putFrag_die (s : State) (k : Nat) (v : Fragment) (i : Nat) : (s.putFrag k v).die i = s.die i := rfl
@[simp] theorem State.putFrag_port (s : State) (k : Nat) (v : Fragment) (i : Nat) : (s.putFrag k v).port i = s.port i := rfl
@[simp] theorem State.putFrag_so (s : State) (k : Nat) (v : Fragment) (i : Nat) : (s.putFrag k v).so i = s.so i := rfl
@[simp] theorem State.putFrag_missRec (s : State) (k : Nat) (v : Fragment) (i : Nat) : (s.putFrag k v).missRec i = s.missRec i := rfl
@[simp] theorem State.putFrag_ent (s : State) (k : Nat) (v : Fragment) (i : Nat) : (s.putFrag k v).ent i = s.ent i := rfl
@[simp] theorem State.putFrag_farPort (s : State) (k : Nat) (v : Fragment) (i : Nat) : (s.putFrag k v).farPort i = s.farPort i := rfl
@[simp] theorem State.putFrag_partner (s : State) (k : Nat) (v : Fragment) (i : Nat) : (s.putFrag k v).partner i = s.partner i := rfl
@[simp] theorem State.putFrag_sess (s : State) (k : Nat) (v : Fragment) (i : Nat) : (s.putFrag k v).sess i = s.sess i := rfl
@[simp] theorem State.putFrag_mbox (s : State) (k : Nat) (v : Fragment) (i : Nat) : (s.putFrag k v).mbox i = s.mbox i := rfl
@[simp] theorem State.putFrag_chan (s : State) (k : Nat) (v : Fragment) (i : Nat) : (s.putFrag k v).chan i = s.chan i := rfl

/-! `putFarPort` -/

@[simp] theorem State.putFarPort_pending (s : State) (k : Nat) (v : FarPort) : (s.putFarPort k v).pending = s.pending := rfl
@[simp] theorem State.putFarPort_now (s : State) (k : Nat) (v : FarPort) : (s.putFarPort k v).now = s.now := rfl
@[simp] theorem State.putFarPort_freeCtr (s : State) (k : Nat) (v : FarPort) : (s.putFarPort k v).freeCtr = s.freeCtr := rfl
@[simp] theorem State.putFarPort_ht (s : State) (k : Nat) (v : FarPort) : (s.putFarPort k v).ht = s.ht := rfl
@[simp] theorem State.putFarPort_sos (s : State) (k : Nat) (v : FarPort) : (s.putFarPort k v).sos = s.sos := rfl
@[simp] theorem State.putFarPort_soStart (s : State) (k : Nat) (v : FarPort) : (s.putFarPort k v).soStart = s.soStart := rfl
@[simp] theorem State.putFarPort_soStale (s : State) (k : Nat) (v : FarPort) : (s.putFarPort k v).soStale = s.soStale := rfl
@[simp] theorem State.putFarPort_miss (s : State) (k : Nat) (v : FarPort) : (s.putFarPort k v).miss = s.miss := rfl
@[simp] theorem State.putFarPort_job (s : State) (k : Nat) (v : FarPort) : (s.putFarPort k v).job = s.job := rfl
@[simp] theorem State.putFarPort_ents (s : State) (k : Nat) (v : FarPort) : (s.putFarPort k v).ents = s.ents := rfl
@[simp] theorem State.putFarPort_catchup (s : State) (k : Nat) (v : FarPort) : (s.putFarPort k v).catchup = s.catchup := rfl
@[simp] theorem State.putFarPort_rxHold (s : State) (k : Nat) (v : FarPort) : (s.putFarPort k v).rxHold = s.rxHold := rfl
@[simp] theorem State.putFarPort_cores (s : State) (k : Nat) (v : FarPort) : (s.putFarPort k v).cores = s.cores := rfl
@[simp] theorem State.putFarPort_kstore (s : State) (k : Nat) (v : FarPort) : (s.putFarPort k v).kstore = s.kstore := rfl
@[simp] theorem State.putFarPort_gstore (s : State) (k : Nat) (v : FarPort) : (s.putFarPort k v).gstore = s.gstore := rfl
@[simp] theorem State.putFarPort_scratch (s : State) (k : Nat) (v : FarPort) : (s.putFarPort k v).scratch = s.scratch := rfl
@[simp] theorem State.putFarPort_oasis (s : State) (k : Nat) (v : FarPort) : (s.putFarPort k v).oasis = s.oasis := rfl
@[simp] theorem State.putFarPort_erg (s : State) (k : Nat) (v : FarPort) : (s.putFarPort k v).erg = s.erg := rfl
@[simp] theorem State.putFarPort_dies (s : State) (k : Nat) (v : FarPort) : (s.putFarPort k v).dies = s.dies := rfl
@[simp] theorem State.putFarPort_spills (s : State) (k : Nat) (v : FarPort) : (s.putFarPort k v).spills = s.spills := rfl
@[simp] theorem State.putFarPort_spillOff (s : State) (k : Nat) (v : FarPort) : (s.putFarPort k v).spillOff = s.spillOff := rfl
@[simp] theorem State.putFarPort_com (s : State) (k : Nat) (v : FarPort) : (s.putFarPort k v).com = s.com := rfl
@[simp] theorem State.putFarPort_near (s : State) (k : Nat) (v : FarPort) : (s.putFarPort k v).near = s.near := rfl
@[simp] theorem State.putFarPort_acx (s : State) (k : Nat) (v : FarPort) : (s.putFarPort k v).acx = { s.acx with ports := tset FarPort.reset s.acx.ports k v } := rfl
@[simp] theorem State.putFarPort_guest (s : State) (k : Nat) (v : FarPort) : (s.putFarPort k v).guest = s.guest := rfl
@[simp] theorem State.putFarPort_pcie (s : State) (k : Nat) (v : FarPort) : (s.putFarPort k v).pcie = s.pcie := rfl
@[simp] theorem State.putFarPort_aon (s : State) (k : Nat) (v : FarPort) : (s.putFarPort k v).aon = s.aon := rfl
@[simp] theorem State.putFarPort_isl (s : State) (k : Nat) (v : FarPort) : (s.putFarPort k v).isl = s.isl := rfl
@[simp] theorem State.putFarPort_site (s : State) (k : Nat) (v : FarPort) : (s.putFarPort k v).site = s.site := rfl
@[simp] theorem State.putFarPort_out (s : State) (k : Nat) (v : FarPort) : (s.putFarPort k v).out = s.out := rfl
@[simp] theorem State.putFarPort_core (s : State) (k : Nat) (v : FarPort) (i : Nat) : (s.putFarPort k v).core i = s.core i := rfl
@[simp] theorem State.putFarPort_die (s : State) (k : Nat) (v : FarPort) (i : Nat) : (s.putFarPort k v).die i = s.die i := rfl
@[simp] theorem State.putFarPort_port (s : State) (k : Nat) (v : FarPort) (i : Nat) : (s.putFarPort k v).port i = s.port i := rfl
@[simp] theorem State.putFarPort_so (s : State) (k : Nat) (v : FarPort) (i : Nat) : (s.putFarPort k v).so i = s.so i := rfl
@[simp] theorem State.putFarPort_missRec (s : State) (k : Nat) (v : FarPort) (i : Nat) : (s.putFarPort k v).missRec i = s.missRec i := rfl
@[simp] theorem State.putFarPort_ent (s : State) (k : Nat) (v : FarPort) (i : Nat) : (s.putFarPort k v).ent i = s.ent i := rfl
@[simp] theorem State.putFarPort_frag (s : State) (k : Nat) (v : FarPort) (i : Nat) : (s.putFarPort k v).frag i = s.frag i := rfl
@[simp] theorem State.putFarPort_partner (s : State) (k : Nat) (v : FarPort) (i : Nat) : (s.putFarPort k v).partner i = s.partner i := rfl
@[simp] theorem State.putFarPort_sess (s : State) (k : Nat) (v : FarPort) (i : Nat) : (s.putFarPort k v).sess i = s.sess i := rfl
@[simp] theorem State.putFarPort_mbox (s : State) (k : Nat) (v : FarPort) (i : Nat) : (s.putFarPort k v).mbox i = s.mbox i := rfl
@[simp] theorem State.putFarPort_chan (s : State) (k : Nat) (v : FarPort) (i : Nat) : (s.putFarPort k v).chan i = s.chan i := rfl

/-! `putPartner` -/

@[simp] theorem State.putPartner_pending (s : State) (k : Nat) (v : Partner) : (s.putPartner k v).pending = s.pending := rfl
@[simp] theorem State.putPartner_now (s : State) (k : Nat) (v : Partner) : (s.putPartner k v).now = s.now := rfl
@[simp] theorem State.putPartner_freeCtr (s : State) (k : Nat) (v : Partner) : (s.putPartner k v).freeCtr = s.freeCtr := rfl
@[simp] theorem State.putPartner_ht (s : State) (k : Nat) (v : Partner) : (s.putPartner k v).ht = s.ht := rfl
@[simp] theorem State.putPartner_sos (s : State) (k : Nat) (v : Partner) : (s.putPartner k v).sos = s.sos := rfl
@[simp] theorem State.putPartner_soStart (s : State) (k : Nat) (v : Partner) : (s.putPartner k v).soStart = s.soStart := rfl
@[simp] theorem State.putPartner_soStale (s : State) (k : Nat) (v : Partner) : (s.putPartner k v).soStale = s.soStale := rfl
@[simp] theorem State.putPartner_miss (s : State) (k : Nat) (v : Partner) : (s.putPartner k v).miss = s.miss := rfl
@[simp] theorem State.putPartner_job (s : State) (k : Nat) (v : Partner) : (s.putPartner k v).job = s.job := rfl
@[simp] theorem State.putPartner_ents (s : State) (k : Nat) (v : Partner) : (s.putPartner k v).ents = s.ents := rfl
@[simp] theorem State.putPartner_catchup (s : State) (k : Nat) (v : Partner) : (s.putPartner k v).catchup = s.catchup := rfl
@[simp] theorem State.putPartner_rxHold (s : State) (k : Nat) (v : Partner) : (s.putPartner k v).rxHold = s.rxHold := rfl
@[simp] theorem State.putPartner_cores (s : State) (k : Nat) (v : Partner) : (s.putPartner k v).cores = s.cores := rfl
@[simp] theorem State.putPartner_kstore (s : State) (k : Nat) (v : Partner) : (s.putPartner k v).kstore = s.kstore := rfl
@[simp] theorem State.putPartner_gstore (s : State) (k : Nat) (v : Partner) : (s.putPartner k v).gstore = s.gstore := rfl
@[simp] theorem State.putPartner_scratch (s : State) (k : Nat) (v : Partner) : (s.putPartner k v).scratch = s.scratch := rfl
@[simp] theorem State.putPartner_oasis (s : State) (k : Nat) (v : Partner) : (s.putPartner k v).oasis = s.oasis := rfl
@[simp] theorem State.putPartner_erg (s : State) (k : Nat) (v : Partner) : (s.putPartner k v).erg = s.erg := rfl
@[simp] theorem State.putPartner_dies (s : State) (k : Nat) (v : Partner) : (s.putPartner k v).dies = s.dies := rfl
@[simp] theorem State.putPartner_spills (s : State) (k : Nat) (v : Partner) : (s.putPartner k v).spills = s.spills := rfl
@[simp] theorem State.putPartner_spillOff (s : State) (k : Nat) (v : Partner) : (s.putPartner k v).spillOff = s.spillOff := rfl
@[simp] theorem State.putPartner_com (s : State) (k : Nat) (v : Partner) : (s.putPartner k v).com = s.com := rfl
@[simp] theorem State.putPartner_near (s : State) (k : Nat) (v : Partner) : (s.putPartner k v).near = s.near := rfl
@[simp] theorem State.putPartner_acx (s : State) (k : Nat) (v : Partner) : (s.putPartner k v).acx = { s.acx with partners := tset Partner.reset s.acx.partners k v } := rfl
@[simp] theorem State.putPartner_guest (s : State) (k : Nat) (v : Partner) : (s.putPartner k v).guest = s.guest := rfl
@[simp] theorem State.putPartner_pcie (s : State) (k : Nat) (v : Partner) : (s.putPartner k v).pcie = s.pcie := rfl
@[simp] theorem State.putPartner_aon (s : State) (k : Nat) (v : Partner) : (s.putPartner k v).aon = s.aon := rfl
@[simp] theorem State.putPartner_isl (s : State) (k : Nat) (v : Partner) : (s.putPartner k v).isl = s.isl := rfl
@[simp] theorem State.putPartner_site (s : State) (k : Nat) (v : Partner) : (s.putPartner k v).site = s.site := rfl
@[simp] theorem State.putPartner_out (s : State) (k : Nat) (v : Partner) : (s.putPartner k v).out = s.out := rfl
@[simp] theorem State.putPartner_core (s : State) (k : Nat) (v : Partner) (i : Nat) : (s.putPartner k v).core i = s.core i := rfl
@[simp] theorem State.putPartner_die (s : State) (k : Nat) (v : Partner) (i : Nat) : (s.putPartner k v).die i = s.die i := rfl
@[simp] theorem State.putPartner_port (s : State) (k : Nat) (v : Partner) (i : Nat) : (s.putPartner k v).port i = s.port i := rfl
@[simp] theorem State.putPartner_so (s : State) (k : Nat) (v : Partner) (i : Nat) : (s.putPartner k v).so i = s.so i := rfl
@[simp] theorem State.putPartner_missRec (s : State) (k : Nat) (v : Partner) (i : Nat) : (s.putPartner k v).missRec i = s.missRec i := rfl
@[simp] theorem State.putPartner_ent (s : State) (k : Nat) (v : Partner) (i : Nat) : (s.putPartner k v).ent i = s.ent i := rfl
@[simp] theorem State.putPartner_frag (s : State) (k : Nat) (v : Partner) (i : Nat) : (s.putPartner k v).frag i = s.frag i := rfl
@[simp] theorem State.putPartner_farPort (s : State) (k : Nat) (v : Partner) (i : Nat) : (s.putPartner k v).farPort i = s.farPort i := rfl
@[simp] theorem State.putPartner_sess (s : State) (k : Nat) (v : Partner) (i : Nat) : (s.putPartner k v).sess i = s.sess i := rfl
@[simp] theorem State.putPartner_mbox (s : State) (k : Nat) (v : Partner) (i : Nat) : (s.putPartner k v).mbox i = s.mbox i := rfl
@[simp] theorem State.putPartner_chan (s : State) (k : Nat) (v : Partner) (i : Nat) : (s.putPartner k v).chan i = s.chan i := rfl

/-! `putSess` -/

@[simp] theorem State.putSess_pending (s : State) (k : Nat) (v : Session) : (s.putSess k v).pending = s.pending := rfl
@[simp] theorem State.putSess_now (s : State) (k : Nat) (v : Session) : (s.putSess k v).now = s.now := rfl
@[simp] theorem State.putSess_freeCtr (s : State) (k : Nat) (v : Session) : (s.putSess k v).freeCtr = s.freeCtr := rfl
@[simp] theorem State.putSess_ht (s : State) (k : Nat) (v : Session) : (s.putSess k v).ht = s.ht := rfl
@[simp] theorem State.putSess_sos (s : State) (k : Nat) (v : Session) : (s.putSess k v).sos = s.sos := rfl
@[simp] theorem State.putSess_soStart (s : State) (k : Nat) (v : Session) : (s.putSess k v).soStart = s.soStart := rfl
@[simp] theorem State.putSess_soStale (s : State) (k : Nat) (v : Session) : (s.putSess k v).soStale = s.soStale := rfl
@[simp] theorem State.putSess_miss (s : State) (k : Nat) (v : Session) : (s.putSess k v).miss = s.miss := rfl
@[simp] theorem State.putSess_job (s : State) (k : Nat) (v : Session) : (s.putSess k v).job = s.job := rfl
@[simp] theorem State.putSess_ents (s : State) (k : Nat) (v : Session) : (s.putSess k v).ents = s.ents := rfl
@[simp] theorem State.putSess_catchup (s : State) (k : Nat) (v : Session) : (s.putSess k v).catchup = s.catchup := rfl
@[simp] theorem State.putSess_rxHold (s : State) (k : Nat) (v : Session) : (s.putSess k v).rxHold = s.rxHold := rfl
@[simp] theorem State.putSess_cores (s : State) (k : Nat) (v : Session) : (s.putSess k v).cores = s.cores := rfl
@[simp] theorem State.putSess_kstore (s : State) (k : Nat) (v : Session) : (s.putSess k v).kstore = s.kstore := rfl
@[simp] theorem State.putSess_gstore (s : State) (k : Nat) (v : Session) : (s.putSess k v).gstore = s.gstore := rfl
@[simp] theorem State.putSess_scratch (s : State) (k : Nat) (v : Session) : (s.putSess k v).scratch = s.scratch := rfl
@[simp] theorem State.putSess_oasis (s : State) (k : Nat) (v : Session) : (s.putSess k v).oasis = s.oasis := rfl
@[simp] theorem State.putSess_erg (s : State) (k : Nat) (v : Session) : (s.putSess k v).erg = s.erg := rfl
@[simp] theorem State.putSess_dies (s : State) (k : Nat) (v : Session) : (s.putSess k v).dies = s.dies := rfl
@[simp] theorem State.putSess_spills (s : State) (k : Nat) (v : Session) : (s.putSess k v).spills = s.spills := rfl
@[simp] theorem State.putSess_spillOff (s : State) (k : Nat) (v : Session) : (s.putSess k v).spillOff = s.spillOff := rfl
@[simp] theorem State.putSess_com (s : State) (k : Nat) (v : Session) : (s.putSess k v).com = s.com := rfl
@[simp] theorem State.putSess_near (s : State) (k : Nat) (v : Session) : (s.putSess k v).near = s.near := rfl
@[simp] theorem State.putSess_acx (s : State) (k : Nat) (v : Session) : (s.putSess k v).acx = { s.acx with sess := tset Session.reset s.acx.sess k v } := rfl
@[simp] theorem State.putSess_guest (s : State) (k : Nat) (v : Session) : (s.putSess k v).guest = s.guest := rfl
@[simp] theorem State.putSess_pcie (s : State) (k : Nat) (v : Session) : (s.putSess k v).pcie = s.pcie := rfl
@[simp] theorem State.putSess_aon (s : State) (k : Nat) (v : Session) : (s.putSess k v).aon = s.aon := rfl
@[simp] theorem State.putSess_isl (s : State) (k : Nat) (v : Session) : (s.putSess k v).isl = s.isl := rfl
@[simp] theorem State.putSess_site (s : State) (k : Nat) (v : Session) : (s.putSess k v).site = s.site := rfl
@[simp] theorem State.putSess_out (s : State) (k : Nat) (v : Session) : (s.putSess k v).out = s.out := rfl
@[simp] theorem State.putSess_core (s : State) (k : Nat) (v : Session) (i : Nat) : (s.putSess k v).core i = s.core i := rfl
@[simp] theorem State.putSess_die (s : State) (k : Nat) (v : Session) (i : Nat) : (s.putSess k v).die i = s.die i := rfl
@[simp] theorem State.putSess_port (s : State) (k : Nat) (v : Session) (i : Nat) : (s.putSess k v).port i = s.port i := rfl
@[simp] theorem State.putSess_so (s : State) (k : Nat) (v : Session) (i : Nat) : (s.putSess k v).so i = s.so i := rfl
@[simp] theorem State.putSess_missRec (s : State) (k : Nat) (v : Session) (i : Nat) : (s.putSess k v).missRec i = s.missRec i := rfl
@[simp] theorem State.putSess_ent (s : State) (k : Nat) (v : Session) (i : Nat) : (s.putSess k v).ent i = s.ent i := rfl
@[simp] theorem State.putSess_frag (s : State) (k : Nat) (v : Session) (i : Nat) : (s.putSess k v).frag i = s.frag i := rfl
@[simp] theorem State.putSess_farPort (s : State) (k : Nat) (v : Session) (i : Nat) : (s.putSess k v).farPort i = s.farPort i := rfl
@[simp] theorem State.putSess_partner (s : State) (k : Nat) (v : Session) (i : Nat) : (s.putSess k v).partner i = s.partner i := rfl
@[simp] theorem State.putSess_mbox (s : State) (k : Nat) (v : Session) (i : Nat) : (s.putSess k v).mbox i = s.mbox i := rfl
@[simp] theorem State.putSess_chan (s : State) (k : Nat) (v : Session) (i : Nat) : (s.putSess k v).chan i = s.chan i := rfl

/-! `putMbox` -/

@[simp] theorem State.putMbox_pending (s : State) (k : Nat) (v : Mailbox) : (s.putMbox k v).pending = s.pending := rfl
@[simp] theorem State.putMbox_now (s : State) (k : Nat) (v : Mailbox) : (s.putMbox k v).now = s.now := rfl
@[simp] theorem State.putMbox_freeCtr (s : State) (k : Nat) (v : Mailbox) : (s.putMbox k v).freeCtr = s.freeCtr := rfl
@[simp] theorem State.putMbox_ht (s : State) (k : Nat) (v : Mailbox) : (s.putMbox k v).ht = s.ht := rfl
@[simp] theorem State.putMbox_sos (s : State) (k : Nat) (v : Mailbox) : (s.putMbox k v).sos = s.sos := rfl
@[simp] theorem State.putMbox_soStart (s : State) (k : Nat) (v : Mailbox) : (s.putMbox k v).soStart = s.soStart := rfl
@[simp] theorem State.putMbox_soStale (s : State) (k : Nat) (v : Mailbox) : (s.putMbox k v).soStale = s.soStale := rfl
@[simp] theorem State.putMbox_miss (s : State) (k : Nat) (v : Mailbox) : (s.putMbox k v).miss = s.miss := rfl
@[simp] theorem State.putMbox_job (s : State) (k : Nat) (v : Mailbox) : (s.putMbox k v).job = s.job := rfl
@[simp] theorem State.putMbox_ents (s : State) (k : Nat) (v : Mailbox) : (s.putMbox k v).ents = s.ents := rfl
@[simp] theorem State.putMbox_catchup (s : State) (k : Nat) (v : Mailbox) : (s.putMbox k v).catchup = s.catchup := rfl
@[simp] theorem State.putMbox_rxHold (s : State) (k : Nat) (v : Mailbox) : (s.putMbox k v).rxHold = s.rxHold := rfl
@[simp] theorem State.putMbox_cores (s : State) (k : Nat) (v : Mailbox) : (s.putMbox k v).cores = s.cores := rfl
@[simp] theorem State.putMbox_kstore (s : State) (k : Nat) (v : Mailbox) : (s.putMbox k v).kstore = s.kstore := rfl
@[simp] theorem State.putMbox_gstore (s : State) (k : Nat) (v : Mailbox) : (s.putMbox k v).gstore = s.gstore := rfl
@[simp] theorem State.putMbox_scratch (s : State) (k : Nat) (v : Mailbox) : (s.putMbox k v).scratch = s.scratch := rfl
@[simp] theorem State.putMbox_oasis (s : State) (k : Nat) (v : Mailbox) : (s.putMbox k v).oasis = s.oasis := rfl
@[simp] theorem State.putMbox_erg (s : State) (k : Nat) (v : Mailbox) : (s.putMbox k v).erg = s.erg := rfl
@[simp] theorem State.putMbox_dies (s : State) (k : Nat) (v : Mailbox) : (s.putMbox k v).dies = s.dies := rfl
@[simp] theorem State.putMbox_spills (s : State) (k : Nat) (v : Mailbox) : (s.putMbox k v).spills = s.spills := rfl
@[simp] theorem State.putMbox_spillOff (s : State) (k : Nat) (v : Mailbox) : (s.putMbox k v).spillOff = s.spillOff := rfl
@[simp] theorem State.putMbox_com (s : State) (k : Nat) (v : Mailbox) : (s.putMbox k v).com = s.com := rfl
@[simp] theorem State.putMbox_near (s : State) (k : Nat) (v : Mailbox) : (s.putMbox k v).near = s.near := rfl
@[simp] theorem State.putMbox_acx (s : State) (k : Nat) (v : Mailbox) : (s.putMbox k v).acx = s.acx := rfl
@[simp] theorem State.putMbox_guest (s : State) (k : Nat) (v : Mailbox) : (s.putMbox k v).guest = s.guest := rfl
@[simp] theorem State.putMbox_pcie (s : State) (k : Nat) (v : Mailbox) : (s.putMbox k v).pcie = { s.pcie with mboxes := tset Mailbox.reset s.pcie.mboxes k v } := rfl
@[simp] theorem State.putMbox_aon (s : State) (k : Nat) (v : Mailbox) : (s.putMbox k v).aon = s.aon := rfl
@[simp] theorem State.putMbox_isl (s : State) (k : Nat) (v : Mailbox) : (s.putMbox k v).isl = s.isl := rfl
@[simp] theorem State.putMbox_site (s : State) (k : Nat) (v : Mailbox) : (s.putMbox k v).site = s.site := rfl
@[simp] theorem State.putMbox_out (s : State) (k : Nat) (v : Mailbox) : (s.putMbox k v).out = s.out := rfl
@[simp] theorem State.putMbox_core (s : State) (k : Nat) (v : Mailbox) (i : Nat) : (s.putMbox k v).core i = s.core i := rfl
@[simp] theorem State.putMbox_die (s : State) (k : Nat) (v : Mailbox) (i : Nat) : (s.putMbox k v).die i = s.die i := rfl
@[simp] theorem State.putMbox_port (s : State) (k : Nat) (v : Mailbox) (i : Nat) : (s.putMbox k v).port i = s.port i := rfl
@[simp] theorem State.putMbox_so (s : State) (k : Nat) (v : Mailbox) (i : Nat) : (s.putMbox k v).so i = s.so i := rfl
@[simp] theorem State.putMbox_missRec (s : State) (k : Nat) (v : Mailbox) (i : Nat) : (s.putMbox k v).missRec i = s.missRec i := rfl
@[simp] theorem State.putMbox_ent (s : State) (k : Nat) (v : Mailbox) (i : Nat) : (s.putMbox k v).ent i = s.ent i := rfl
@[simp] theorem State.putMbox_frag (s : State) (k : Nat) (v : Mailbox) (i : Nat) : (s.putMbox k v).frag i = s.frag i := rfl
@[simp] theorem State.putMbox_farPort (s : State) (k : Nat) (v : Mailbox) (i : Nat) : (s.putMbox k v).farPort i = s.farPort i := rfl
@[simp] theorem State.putMbox_partner (s : State) (k : Nat) (v : Mailbox) (i : Nat) : (s.putMbox k v).partner i = s.partner i := rfl
@[simp] theorem State.putMbox_sess (s : State) (k : Nat) (v : Mailbox) (i : Nat) : (s.putMbox k v).sess i = s.sess i := rfl
@[simp] theorem State.putMbox_chan (s : State) (k : Nat) (v : Mailbox) (i : Nat) : (s.putMbox k v).chan i = s.chan i := rfl

/-! `putChan` -/

@[simp] theorem State.putChan_pending (s : State) (k : Nat) (v : ErgChannel) : (s.putChan k v).pending = s.pending := rfl
@[simp] theorem State.putChan_now (s : State) (k : Nat) (v : ErgChannel) : (s.putChan k v).now = s.now := rfl
@[simp] theorem State.putChan_freeCtr (s : State) (k : Nat) (v : ErgChannel) : (s.putChan k v).freeCtr = s.freeCtr := rfl
@[simp] theorem State.putChan_ht (s : State) (k : Nat) (v : ErgChannel) : (s.putChan k v).ht = s.ht := rfl
@[simp] theorem State.putChan_sos (s : State) (k : Nat) (v : ErgChannel) : (s.putChan k v).sos = s.sos := rfl
@[simp] theorem State.putChan_soStart (s : State) (k : Nat) (v : ErgChannel) : (s.putChan k v).soStart = s.soStart := rfl
@[simp] theorem State.putChan_soStale (s : State) (k : Nat) (v : ErgChannel) : (s.putChan k v).soStale = s.soStale := rfl
@[simp] theorem State.putChan_miss (s : State) (k : Nat) (v : ErgChannel) : (s.putChan k v).miss = s.miss := rfl
@[simp] theorem State.putChan_job (s : State) (k : Nat) (v : ErgChannel) : (s.putChan k v).job = s.job := rfl
@[simp] theorem State.putChan_ents (s : State) (k : Nat) (v : ErgChannel) : (s.putChan k v).ents = s.ents := rfl
@[simp] theorem State.putChan_catchup (s : State) (k : Nat) (v : ErgChannel) : (s.putChan k v).catchup = s.catchup := rfl
@[simp] theorem State.putChan_rxHold (s : State) (k : Nat) (v : ErgChannel) : (s.putChan k v).rxHold = s.rxHold := rfl
@[simp] theorem State.putChan_cores (s : State) (k : Nat) (v : ErgChannel) : (s.putChan k v).cores = s.cores := rfl
@[simp] theorem State.putChan_kstore (s : State) (k : Nat) (v : ErgChannel) : (s.putChan k v).kstore = s.kstore := rfl
@[simp] theorem State.putChan_gstore (s : State) (k : Nat) (v : ErgChannel) : (s.putChan k v).gstore = s.gstore := rfl
@[simp] theorem State.putChan_scratch (s : State) (k : Nat) (v : ErgChannel) : (s.putChan k v).scratch = s.scratch := rfl
@[simp] theorem State.putChan_oasis (s : State) (k : Nat) (v : ErgChannel) : (s.putChan k v).oasis = s.oasis := rfl
@[simp] theorem State.putChan_erg (s : State) (k : Nat) (v : ErgChannel) : (s.putChan k v).erg = { s.erg with chans := tset ErgChannel.reset s.erg.chans k v } := rfl
@[simp] theorem State.putChan_dies (s : State) (k : Nat) (v : ErgChannel) : (s.putChan k v).dies = s.dies := rfl
@[simp] theorem State.putChan_spills (s : State) (k : Nat) (v : ErgChannel) : (s.putChan k v).spills = s.spills := rfl
@[simp] theorem State.putChan_spillOff (s : State) (k : Nat) (v : ErgChannel) : (s.putChan k v).spillOff = s.spillOff := rfl
@[simp] theorem State.putChan_com (s : State) (k : Nat) (v : ErgChannel) : (s.putChan k v).com = s.com := rfl
@[simp] theorem State.putChan_near (s : State) (k : Nat) (v : ErgChannel) : (s.putChan k v).near = s.near := rfl
@[simp] theorem State.putChan_acx (s : State) (k : Nat) (v : ErgChannel) : (s.putChan k v).acx = s.acx := rfl
@[simp] theorem State.putChan_guest (s : State) (k : Nat) (v : ErgChannel) : (s.putChan k v).guest = s.guest := rfl
@[simp] theorem State.putChan_pcie (s : State) (k : Nat) (v : ErgChannel) : (s.putChan k v).pcie = s.pcie := rfl
@[simp] theorem State.putChan_aon (s : State) (k : Nat) (v : ErgChannel) : (s.putChan k v).aon = s.aon := rfl
@[simp] theorem State.putChan_isl (s : State) (k : Nat) (v : ErgChannel) : (s.putChan k v).isl = s.isl := rfl
@[simp] theorem State.putChan_site (s : State) (k : Nat) (v : ErgChannel) : (s.putChan k v).site = s.site := rfl
@[simp] theorem State.putChan_out (s : State) (k : Nat) (v : ErgChannel) : (s.putChan k v).out = s.out := rfl
@[simp] theorem State.putChan_core (s : State) (k : Nat) (v : ErgChannel) (i : Nat) : (s.putChan k v).core i = s.core i := rfl
@[simp] theorem State.putChan_die (s : State) (k : Nat) (v : ErgChannel) (i : Nat) : (s.putChan k v).die i = s.die i := rfl
@[simp] theorem State.putChan_port (s : State) (k : Nat) (v : ErgChannel) (i : Nat) : (s.putChan k v).port i = s.port i := rfl
@[simp] theorem State.putChan_so (s : State) (k : Nat) (v : ErgChannel) (i : Nat) : (s.putChan k v).so i = s.so i := rfl
@[simp] theorem State.putChan_missRec (s : State) (k : Nat) (v : ErgChannel) (i : Nat) : (s.putChan k v).missRec i = s.missRec i := rfl
@[simp] theorem State.putChan_ent (s : State) (k : Nat) (v : ErgChannel) (i : Nat) : (s.putChan k v).ent i = s.ent i := rfl
@[simp] theorem State.putChan_frag (s : State) (k : Nat) (v : ErgChannel) (i : Nat) : (s.putChan k v).frag i = s.frag i := rfl
@[simp] theorem State.putChan_farPort (s : State) (k : Nat) (v : ErgChannel) (i : Nat) : (s.putChan k v).farPort i = s.farPort i := rfl
@[simp] theorem State.putChan_partner (s : State) (k : Nat) (v : ErgChannel) (i : Nat) : (s.putChan k v).partner i = s.partner i := rfl
@[simp] theorem State.putChan_sess (s : State) (k : Nat) (v : ErgChannel) (i : Nat) : (s.putChan k v).sess i = s.sess i := rfl
@[simp] theorem State.putChan_mbox (s : State) (k : Nat) (v : ErgChannel) (i : Nat) : (s.putChan k v).mbox i = s.mbox i := rfl

/-! `onHt` -/

@[simp] theorem State.onHt_pending (s : State) (f : HtUnit → HtUnit) : (s.onHt f).pending = s.pending := rfl
@[simp] theorem State.onHt_now (s : State) (f : HtUnit → HtUnit) : (s.onHt f).now = s.now := rfl
@[simp] theorem State.onHt_freeCtr (s : State) (f : HtUnit → HtUnit) : (s.onHt f).freeCtr = s.freeCtr := rfl
@[simp] theorem State.onHt_ht (s : State) (f : HtUnit → HtUnit) : (s.onHt f).ht = f s.ht := rfl
@[simp] theorem State.onHt_sos (s : State) (f : HtUnit → HtUnit) : (s.onHt f).sos = s.sos := rfl
@[simp] theorem State.onHt_soStart (s : State) (f : HtUnit → HtUnit) : (s.onHt f).soStart = s.soStart := rfl
@[simp] theorem State.onHt_soStale (s : State) (f : HtUnit → HtUnit) : (s.onHt f).soStale = s.soStale := rfl
@[simp] theorem State.onHt_miss (s : State) (f : HtUnit → HtUnit) : (s.onHt f).miss = s.miss := rfl
@[simp] theorem State.onHt_job (s : State) (f : HtUnit → HtUnit) : (s.onHt f).job = s.job := rfl
@[simp] theorem State.onHt_ents (s : State) (f : HtUnit → HtUnit) : (s.onHt f).ents = s.ents := rfl
@[simp] theorem State.onHt_catchup (s : State) (f : HtUnit → HtUnit) : (s.onHt f).catchup = s.catchup := rfl
@[simp] theorem State.onHt_rxHold (s : State) (f : HtUnit → HtUnit) : (s.onHt f).rxHold = s.rxHold := rfl
@[simp] theorem State.onHt_cores (s : State) (f : HtUnit → HtUnit) : (s.onHt f).cores = s.cores := rfl
@[simp] theorem State.onHt_kstore (s : State) (f : HtUnit → HtUnit) : (s.onHt f).kstore = s.kstore := rfl
@[simp] theorem State.onHt_gstore (s : State) (f : HtUnit → HtUnit) : (s.onHt f).gstore = s.gstore := rfl
@[simp] theorem State.onHt_scratch (s : State) (f : HtUnit → HtUnit) : (s.onHt f).scratch = s.scratch := rfl
@[simp] theorem State.onHt_oasis (s : State) (f : HtUnit → HtUnit) : (s.onHt f).oasis = s.oasis := rfl
@[simp] theorem State.onHt_erg (s : State) (f : HtUnit → HtUnit) : (s.onHt f).erg = s.erg := rfl
@[simp] theorem State.onHt_dies (s : State) (f : HtUnit → HtUnit) : (s.onHt f).dies = s.dies := rfl
@[simp] theorem State.onHt_spills (s : State) (f : HtUnit → HtUnit) : (s.onHt f).spills = s.spills := rfl
@[simp] theorem State.onHt_spillOff (s : State) (f : HtUnit → HtUnit) : (s.onHt f).spillOff = s.spillOff := rfl
@[simp] theorem State.onHt_com (s : State) (f : HtUnit → HtUnit) : (s.onHt f).com = s.com := rfl
@[simp] theorem State.onHt_near (s : State) (f : HtUnit → HtUnit) : (s.onHt f).near = s.near := rfl
@[simp] theorem State.onHt_acx (s : State) (f : HtUnit → HtUnit) : (s.onHt f).acx = s.acx := rfl
@[simp] theorem State.onHt_guest (s : State) (f : HtUnit → HtUnit) : (s.onHt f).guest = s.guest := rfl
@[simp] theorem State.onHt_pcie (s : State) (f : HtUnit → HtUnit) : (s.onHt f).pcie = s.pcie := rfl
@[simp] theorem State.onHt_aon (s : State) (f : HtUnit → HtUnit) : (s.onHt f).aon = s.aon := rfl
@[simp] theorem State.onHt_isl (s : State) (f : HtUnit → HtUnit) : (s.onHt f).isl = s.isl := rfl
@[simp] theorem State.onHt_site (s : State) (f : HtUnit → HtUnit) : (s.onHt f).site = s.site := rfl
@[simp] theorem State.onHt_out (s : State) (f : HtUnit → HtUnit) : (s.onHt f).out = s.out := rfl
@[simp] theorem State.onHt_core (s : State) (f : HtUnit → HtUnit) (i : Nat) : (s.onHt f).core i = s.core i := rfl
@[simp] theorem State.onHt_die (s : State) (f : HtUnit → HtUnit) (i : Nat) : (s.onHt f).die i = s.die i := rfl
@[simp] theorem State.onHt_port (s : State) (f : HtUnit → HtUnit) (i : Nat) : (s.onHt f).port i = s.port i := rfl
@[simp] theorem State.onHt_so (s : State) (f : HtUnit → HtUnit) (i : Nat) : (s.onHt f).so i = s.so i := rfl
@[simp] theorem State.onHt_missRec (s : State) (f : HtUnit → HtUnit) (i : Nat) : (s.onHt f).missRec i = s.missRec i := rfl
@[simp] theorem State.onHt_ent (s : State) (f : HtUnit → HtUnit) (i : Nat) : (s.onHt f).ent i = s.ent i := rfl
@[simp] theorem State.onHt_frag (s : State) (f : HtUnit → HtUnit) (i : Nat) : (s.onHt f).frag i = s.frag i := rfl
@[simp] theorem State.onHt_farPort (s : State) (f : HtUnit → HtUnit) (i : Nat) : (s.onHt f).farPort i = s.farPort i := rfl
@[simp] theorem State.onHt_partner (s : State) (f : HtUnit → HtUnit) (i : Nat) : (s.onHt f).partner i = s.partner i := rfl
@[simp] theorem State.onHt_sess (s : State) (f : HtUnit → HtUnit) (i : Nat) : (s.onHt f).sess i = s.sess i := rfl
@[simp] theorem State.onHt_mbox (s : State) (f : HtUnit → HtUnit) (i : Nat) : (s.onHt f).mbox i = s.mbox i := rfl
@[simp] theorem State.onHt_chan (s : State) (f : HtUnit → HtUnit) (i : Nat) : (s.onHt f).chan i = s.chan i := rfl

/-! `onCom` -/

@[simp] theorem State.onCom_pending (s : State) (f : Commit → Commit) : (s.onCom f).pending = s.pending := rfl
@[simp] theorem State.onCom_now (s : State) (f : Commit → Commit) : (s.onCom f).now = s.now := rfl
@[simp] theorem State.onCom_freeCtr (s : State) (f : Commit → Commit) : (s.onCom f).freeCtr = s.freeCtr := rfl
@[simp] theorem State.onCom_ht (s : State) (f : Commit → Commit) : (s.onCom f).ht = s.ht := rfl
@[simp] theorem State.onCom_sos (s : State) (f : Commit → Commit) : (s.onCom f).sos = s.sos := rfl
@[simp] theorem State.onCom_soStart (s : State) (f : Commit → Commit) : (s.onCom f).soStart = s.soStart := rfl
@[simp] theorem State.onCom_soStale (s : State) (f : Commit → Commit) : (s.onCom f).soStale = s.soStale := rfl
@[simp] theorem State.onCom_miss (s : State) (f : Commit → Commit) : (s.onCom f).miss = s.miss := rfl
@[simp] theorem State.onCom_job (s : State) (f : Commit → Commit) : (s.onCom f).job = s.job := rfl
@[simp] theorem State.onCom_ents (s : State) (f : Commit → Commit) : (s.onCom f).ents = s.ents := rfl
@[simp] theorem State.onCom_catchup (s : State) (f : Commit → Commit) : (s.onCom f).catchup = s.catchup := rfl
@[simp] theorem State.onCom_rxHold (s : State) (f : Commit → Commit) : (s.onCom f).rxHold = s.rxHold := rfl
@[simp] theorem State.onCom_cores (s : State) (f : Commit → Commit) : (s.onCom f).cores = s.cores := rfl
@[simp] theorem State.onCom_kstore (s : State) (f : Commit → Commit) : (s.onCom f).kstore = s.kstore := rfl
@[simp] theorem State.onCom_gstore (s : State) (f : Commit → Commit) : (s.onCom f).gstore = s.gstore := rfl
@[simp] theorem State.onCom_scratch (s : State) (f : Commit → Commit) : (s.onCom f).scratch = s.scratch := rfl
@[simp] theorem State.onCom_oasis (s : State) (f : Commit → Commit) : (s.onCom f).oasis = s.oasis := rfl
@[simp] theorem State.onCom_erg (s : State) (f : Commit → Commit) : (s.onCom f).erg = s.erg := rfl
@[simp] theorem State.onCom_dies (s : State) (f : Commit → Commit) : (s.onCom f).dies = s.dies := rfl
@[simp] theorem State.onCom_spills (s : State) (f : Commit → Commit) : (s.onCom f).spills = s.spills := rfl
@[simp] theorem State.onCom_spillOff (s : State) (f : Commit → Commit) : (s.onCom f).spillOff = s.spillOff := rfl
@[simp] theorem State.onCom_com (s : State) (f : Commit → Commit) : (s.onCom f).com = f s.com := rfl
@[simp] theorem State.onCom_near (s : State) (f : Commit → Commit) : (s.onCom f).near = s.near := rfl
@[simp] theorem State.onCom_acx (s : State) (f : Commit → Commit) : (s.onCom f).acx = s.acx := rfl
@[simp] theorem State.onCom_guest (s : State) (f : Commit → Commit) : (s.onCom f).guest = s.guest := rfl
@[simp] theorem State.onCom_pcie (s : State) (f : Commit → Commit) : (s.onCom f).pcie = s.pcie := rfl
@[simp] theorem State.onCom_aon (s : State) (f : Commit → Commit) : (s.onCom f).aon = s.aon := rfl
@[simp] theorem State.onCom_isl (s : State) (f : Commit → Commit) : (s.onCom f).isl = s.isl := rfl
@[simp] theorem State.onCom_site (s : State) (f : Commit → Commit) : (s.onCom f).site = s.site := rfl
@[simp] theorem State.onCom_out (s : State) (f : Commit → Commit) : (s.onCom f).out = s.out := rfl
@[simp] theorem State.onCom_core (s : State) (f : Commit → Commit) (i : Nat) : (s.onCom f).core i = s.core i := rfl
@[simp] theorem State.onCom_die (s : State) (f : Commit → Commit) (i : Nat) : (s.onCom f).die i = s.die i := rfl
@[simp] theorem State.onCom_port (s : State) (f : Commit → Commit) (i : Nat) : (s.onCom f).port i = s.port i := rfl
@[simp] theorem State.onCom_so (s : State) (f : Commit → Commit) (i : Nat) : (s.onCom f).so i = s.so i := rfl
@[simp] theorem State.onCom_missRec (s : State) (f : Commit → Commit) (i : Nat) : (s.onCom f).missRec i = s.missRec i := rfl
@[simp] theorem State.onCom_ent (s : State) (f : Commit → Commit) (i : Nat) : (s.onCom f).ent i = s.ent i := rfl
@[simp] theorem State.onCom_frag (s : State) (f : Commit → Commit) (i : Nat) : (s.onCom f).frag i = s.frag i := rfl
@[simp] theorem State.onCom_farPort (s : State) (f : Commit → Commit) (i : Nat) : (s.onCom f).farPort i = s.farPort i := rfl
@[simp] theorem State.onCom_partner (s : State) (f : Commit → Commit) (i : Nat) : (s.onCom f).partner i = s.partner i := rfl
@[simp] theorem State.onCom_sess (s : State) (f : Commit → Commit) (i : Nat) : (s.onCom f).sess i = s.sess i := rfl
@[simp] theorem State.onCom_mbox (s : State) (f : Commit → Commit) (i : Nat) : (s.onCom f).mbox i = s.mbox i := rfl
@[simp] theorem State.onCom_chan (s : State) (f : Commit → Commit) (i : Nat) : (s.onCom f).chan i = s.chan i := rfl

/-! `onPcie` -/

@[simp] theorem State.onPcie_pending (s : State) (f : Pcie → Pcie) : (s.onPcie f).pending = s.pending := rfl
@[simp] theorem State.onPcie_now (s : State) (f : Pcie → Pcie) : (s.onPcie f).now = s.now := rfl
@[simp] theorem State.onPcie_freeCtr (s : State) (f : Pcie → Pcie) : (s.onPcie f).freeCtr = s.freeCtr := rfl
@[simp] theorem State.onPcie_ht (s : State) (f : Pcie → Pcie) : (s.onPcie f).ht = s.ht := rfl
@[simp] theorem State.onPcie_sos (s : State) (f : Pcie → Pcie) : (s.onPcie f).sos = s.sos := rfl
@[simp] theorem State.onPcie_soStart (s : State) (f : Pcie → Pcie) : (s.onPcie f).soStart = s.soStart := rfl
@[simp] theorem State.onPcie_soStale (s : State) (f : Pcie → Pcie) : (s.onPcie f).soStale = s.soStale := rfl
@[simp] theorem State.onPcie_miss (s : State) (f : Pcie → Pcie) : (s.onPcie f).miss = s.miss := rfl
@[simp] theorem State.onPcie_job (s : State) (f : Pcie → Pcie) : (s.onPcie f).job = s.job := rfl
@[simp] theorem State.onPcie_ents (s : State) (f : Pcie → Pcie) : (s.onPcie f).ents = s.ents := rfl
@[simp] theorem State.onPcie_catchup (s : State) (f : Pcie → Pcie) : (s.onPcie f).catchup = s.catchup := rfl
@[simp] theorem State.onPcie_rxHold (s : State) (f : Pcie → Pcie) : (s.onPcie f).rxHold = s.rxHold := rfl
@[simp] theorem State.onPcie_cores (s : State) (f : Pcie → Pcie) : (s.onPcie f).cores = s.cores := rfl
@[simp] theorem State.onPcie_kstore (s : State) (f : Pcie → Pcie) : (s.onPcie f).kstore = s.kstore := rfl
@[simp] theorem State.onPcie_gstore (s : State) (f : Pcie → Pcie) : (s.onPcie f).gstore = s.gstore := rfl
@[simp] theorem State.onPcie_scratch (s : State) (f : Pcie → Pcie) : (s.onPcie f).scratch = s.scratch := rfl
@[simp] theorem State.onPcie_oasis (s : State) (f : Pcie → Pcie) : (s.onPcie f).oasis = s.oasis := rfl
@[simp] theorem State.onPcie_erg (s : State) (f : Pcie → Pcie) : (s.onPcie f).erg = s.erg := rfl
@[simp] theorem State.onPcie_dies (s : State) (f : Pcie → Pcie) : (s.onPcie f).dies = s.dies := rfl
@[simp] theorem State.onPcie_spills (s : State) (f : Pcie → Pcie) : (s.onPcie f).spills = s.spills := rfl
@[simp] theorem State.onPcie_spillOff (s : State) (f : Pcie → Pcie) : (s.onPcie f).spillOff = s.spillOff := rfl
@[simp] theorem State.onPcie_com (s : State) (f : Pcie → Pcie) : (s.onPcie f).com = s.com := rfl
@[simp] theorem State.onPcie_near (s : State) (f : Pcie → Pcie) : (s.onPcie f).near = s.near := rfl
@[simp] theorem State.onPcie_acx (s : State) (f : Pcie → Pcie) : (s.onPcie f).acx = s.acx := rfl
@[simp] theorem State.onPcie_guest (s : State) (f : Pcie → Pcie) : (s.onPcie f).guest = s.guest := rfl
@[simp] theorem State.onPcie_pcie (s : State) (f : Pcie → Pcie) : (s.onPcie f).pcie = f s.pcie := rfl
@[simp] theorem State.onPcie_aon (s : State) (f : Pcie → Pcie) : (s.onPcie f).aon = s.aon := rfl
@[simp] theorem State.onPcie_isl (s : State) (f : Pcie → Pcie) : (s.onPcie f).isl = s.isl := rfl
@[simp] theorem State.onPcie_site (s : State) (f : Pcie → Pcie) : (s.onPcie f).site = s.site := rfl
@[simp] theorem State.onPcie_out (s : State) (f : Pcie → Pcie) : (s.onPcie f).out = s.out := rfl
@[simp] theorem State.onPcie_core (s : State) (f : Pcie → Pcie) (i : Nat) : (s.onPcie f).core i = s.core i := rfl
@[simp] theorem State.onPcie_die (s : State) (f : Pcie → Pcie) (i : Nat) : (s.onPcie f).die i = s.die i := rfl
@[simp] theorem State.onPcie_port (s : State) (f : Pcie → Pcie) (i : Nat) : (s.onPcie f).port i = s.port i := rfl
@[simp] theorem State.onPcie_so (s : State) (f : Pcie → Pcie) (i : Nat) : (s.onPcie f).so i = s.so i := rfl
@[simp] theorem State.onPcie_missRec (s : State) (f : Pcie → Pcie) (i : Nat) : (s.onPcie f).missRec i = s.missRec i := rfl
@[simp] theorem State.onPcie_ent (s : State) (f : Pcie → Pcie) (i : Nat) : (s.onPcie f).ent i = s.ent i := rfl
@[simp] theorem State.onPcie_frag (s : State) (f : Pcie → Pcie) (i : Nat) : (s.onPcie f).frag i = s.frag i := rfl
@[simp] theorem State.onPcie_farPort (s : State) (f : Pcie → Pcie) (i : Nat) : (s.onPcie f).farPort i = s.farPort i := rfl
@[simp] theorem State.onPcie_partner (s : State) (f : Pcie → Pcie) (i : Nat) : (s.onPcie f).partner i = s.partner i := rfl
@[simp] theorem State.onPcie_sess (s : State) (f : Pcie → Pcie) (i : Nat) : (s.onPcie f).sess i = s.sess i := rfl
@[simp] theorem State.onPcie_chan (s : State) (f : Pcie → Pcie) (i : Nat) : (s.onPcie f).chan i = s.chan i := rfl

/-! `onAon` -/

@[simp] theorem State.onAon_pending (s : State) (f : Aon → Aon) : (s.onAon f).pending = s.pending := rfl
@[simp] theorem State.onAon_now (s : State) (f : Aon → Aon) : (s.onAon f).now = s.now := rfl
@[simp] theorem State.onAon_freeCtr (s : State) (f : Aon → Aon) : (s.onAon f).freeCtr = s.freeCtr := rfl
@[simp] theorem State.onAon_ht (s : State) (f : Aon → Aon) : (s.onAon f).ht = s.ht := rfl
@[simp] theorem State.onAon_sos (s : State) (f : Aon → Aon) : (s.onAon f).sos = s.sos := rfl
@[simp] theorem State.onAon_soStart (s : State) (f : Aon → Aon) : (s.onAon f).soStart = s.soStart := rfl
@[simp] theorem State.onAon_soStale (s : State) (f : Aon → Aon) : (s.onAon f).soStale = s.soStale := rfl
@[simp] theorem State.onAon_miss (s : State) (f : Aon → Aon) : (s.onAon f).miss = s.miss := rfl
@[simp] theorem State.onAon_job (s : State) (f : Aon → Aon) : (s.onAon f).job = s.job := rfl
@[simp] theorem State.onAon_ents (s : State) (f : Aon → Aon) : (s.onAon f).ents = s.ents := rfl
@[simp] theorem State.onAon_catchup (s : State) (f : Aon → Aon) : (s.onAon f).catchup = s.catchup := rfl
@[simp] theorem State.onAon_rxHold (s : State) (f : Aon → Aon) : (s.onAon f).rxHold = s.rxHold := rfl
@[simp] theorem State.onAon_cores (s : State) (f : Aon → Aon) : (s.onAon f).cores = s.cores := rfl
@[simp] theorem State.onAon_kstore (s : State) (f : Aon → Aon) : (s.onAon f).kstore = s.kstore := rfl
@[simp] theorem State.onAon_gstore (s : State) (f : Aon → Aon) : (s.onAon f).gstore = s.gstore := rfl
@[simp] theorem State.onAon_scratch (s : State) (f : Aon → Aon) : (s.onAon f).scratch = s.scratch := rfl
@[simp] theorem State.onAon_oasis (s : State) (f : Aon → Aon) : (s.onAon f).oasis = s.oasis := rfl
@[simp] theorem State.onAon_erg (s : State) (f : Aon → Aon) : (s.onAon f).erg = s.erg := rfl
@[simp] theorem State.onAon_dies (s : State) (f : Aon → Aon) : (s.onAon f).dies = s.dies := rfl
@[simp] theorem State.onAon_spills (s : State) (f : Aon → Aon) : (s.onAon f).spills = s.spills := rfl
@[simp] theorem State.onAon_spillOff (s : State) (f : Aon → Aon) : (s.onAon f).spillOff = s.spillOff := rfl
@[simp] theorem State.onAon_com (s : State) (f : Aon → Aon) : (s.onAon f).com = s.com := rfl
@[simp] theorem State.onAon_near (s : State) (f : Aon → Aon) : (s.onAon f).near = s.near := rfl
@[simp] theorem State.onAon_acx (s : State) (f : Aon → Aon) : (s.onAon f).acx = s.acx := rfl
@[simp] theorem State.onAon_guest (s : State) (f : Aon → Aon) : (s.onAon f).guest = s.guest := rfl
@[simp] theorem State.onAon_pcie (s : State) (f : Aon → Aon) : (s.onAon f).pcie = s.pcie := rfl
@[simp] theorem State.onAon_aon (s : State) (f : Aon → Aon) : (s.onAon f).aon = f s.aon := rfl
@[simp] theorem State.onAon_isl (s : State) (f : Aon → Aon) : (s.onAon f).isl = s.isl := rfl
@[simp] theorem State.onAon_site (s : State) (f : Aon → Aon) : (s.onAon f).site = s.site := rfl
@[simp] theorem State.onAon_out (s : State) (f : Aon → Aon) : (s.onAon f).out = s.out := rfl
@[simp] theorem State.onAon_core (s : State) (f : Aon → Aon) (i : Nat) : (s.onAon f).core i = s.core i := rfl
@[simp] theorem State.onAon_die (s : State) (f : Aon → Aon) (i : Nat) : (s.onAon f).die i = s.die i := rfl
@[simp] theorem State.onAon_port (s : State) (f : Aon → Aon) (i : Nat) : (s.onAon f).port i = s.port i := rfl
@[simp] theorem State.onAon_so (s : State) (f : Aon → Aon) (i : Nat) : (s.onAon f).so i = s.so i := rfl
@[simp] theorem State.onAon_missRec (s : State) (f : Aon → Aon) (i : Nat) : (s.onAon f).missRec i = s.missRec i := rfl
@[simp] theorem State.onAon_ent (s : State) (f : Aon → Aon) (i : Nat) : (s.onAon f).ent i = s.ent i := rfl
@[simp] theorem State.onAon_frag (s : State) (f : Aon → Aon) (i : Nat) : (s.onAon f).frag i = s.frag i := rfl
@[simp] theorem State.onAon_farPort (s : State) (f : Aon → Aon) (i : Nat) : (s.onAon f).farPort i = s.farPort i := rfl
@[simp] theorem State.onAon_partner (s : State) (f : Aon → Aon) (i : Nat) : (s.onAon f).partner i = s.partner i := rfl
@[simp] theorem State.onAon_sess (s : State) (f : Aon → Aon) (i : Nat) : (s.onAon f).sess i = s.sess i := rfl
@[simp] theorem State.onAon_mbox (s : State) (f : Aon → Aon) (i : Nat) : (s.onAon f).mbox i = s.mbox i := rfl
@[simp] theorem State.onAon_chan (s : State) (f : Aon → Aon) (i : Nat) : (s.onAon f).chan i = s.chan i := rfl

/-! `onIsl` -/

@[simp] theorem State.onIsl_pending (s : State) (f : Island → Island) : (s.onIsl f).pending = s.pending := rfl
@[simp] theorem State.onIsl_now (s : State) (f : Island → Island) : (s.onIsl f).now = s.now := rfl
@[simp] theorem State.onIsl_freeCtr (s : State) (f : Island → Island) : (s.onIsl f).freeCtr = s.freeCtr := rfl
@[simp] theorem State.onIsl_ht (s : State) (f : Island → Island) : (s.onIsl f).ht = s.ht := rfl
@[simp] theorem State.onIsl_sos (s : State) (f : Island → Island) : (s.onIsl f).sos = s.sos := rfl
@[simp] theorem State.onIsl_soStart (s : State) (f : Island → Island) : (s.onIsl f).soStart = s.soStart := rfl
@[simp] theorem State.onIsl_soStale (s : State) (f : Island → Island) : (s.onIsl f).soStale = s.soStale := rfl
@[simp] theorem State.onIsl_miss (s : State) (f : Island → Island) : (s.onIsl f).miss = s.miss := rfl
@[simp] theorem State.onIsl_job (s : State) (f : Island → Island) : (s.onIsl f).job = s.job := rfl
@[simp] theorem State.onIsl_ents (s : State) (f : Island → Island) : (s.onIsl f).ents = s.ents := rfl
@[simp] theorem State.onIsl_catchup (s : State) (f : Island → Island) : (s.onIsl f).catchup = s.catchup := rfl
@[simp] theorem State.onIsl_rxHold (s : State) (f : Island → Island) : (s.onIsl f).rxHold = s.rxHold := rfl
@[simp] theorem State.onIsl_cores (s : State) (f : Island → Island) : (s.onIsl f).cores = s.cores := rfl
@[simp] theorem State.onIsl_kstore (s : State) (f : Island → Island) : (s.onIsl f).kstore = s.kstore := rfl
@[simp] theorem State.onIsl_gstore (s : State) (f : Island → Island) : (s.onIsl f).gstore = s.gstore := rfl
@[simp] theorem State.onIsl_scratch (s : State) (f : Island → Island) : (s.onIsl f).scratch = s.scratch := rfl
@[simp] theorem State.onIsl_oasis (s : State) (f : Island → Island) : (s.onIsl f).oasis = s.oasis := rfl
@[simp] theorem State.onIsl_erg (s : State) (f : Island → Island) : (s.onIsl f).erg = s.erg := rfl
@[simp] theorem State.onIsl_dies (s : State) (f : Island → Island) : (s.onIsl f).dies = s.dies := rfl
@[simp] theorem State.onIsl_spills (s : State) (f : Island → Island) : (s.onIsl f).spills = s.spills := rfl
@[simp] theorem State.onIsl_spillOff (s : State) (f : Island → Island) : (s.onIsl f).spillOff = s.spillOff := rfl
@[simp] theorem State.onIsl_com (s : State) (f : Island → Island) : (s.onIsl f).com = s.com := rfl
@[simp] theorem State.onIsl_near (s : State) (f : Island → Island) : (s.onIsl f).near = s.near := rfl
@[simp] theorem State.onIsl_acx (s : State) (f : Island → Island) : (s.onIsl f).acx = s.acx := rfl
@[simp] theorem State.onIsl_guest (s : State) (f : Island → Island) : (s.onIsl f).guest = s.guest := rfl
@[simp] theorem State.onIsl_pcie (s : State) (f : Island → Island) : (s.onIsl f).pcie = s.pcie := rfl
@[simp] theorem State.onIsl_aon (s : State) (f : Island → Island) : (s.onIsl f).aon = s.aon := rfl
@[simp] theorem State.onIsl_isl (s : State) (f : Island → Island) : (s.onIsl f).isl = f s.isl := rfl
@[simp] theorem State.onIsl_site (s : State) (f : Island → Island) : (s.onIsl f).site = s.site := rfl
@[simp] theorem State.onIsl_out (s : State) (f : Island → Island) : (s.onIsl f).out = s.out := rfl
@[simp] theorem State.onIsl_core (s : State) (f : Island → Island) (i : Nat) : (s.onIsl f).core i = s.core i := rfl
@[simp] theorem State.onIsl_die (s : State) (f : Island → Island) (i : Nat) : (s.onIsl f).die i = s.die i := rfl
@[simp] theorem State.onIsl_port (s : State) (f : Island → Island) (i : Nat) : (s.onIsl f).port i = s.port i := rfl
@[simp] theorem State.onIsl_so (s : State) (f : Island → Island) (i : Nat) : (s.onIsl f).so i = s.so i := rfl
@[simp] theorem State.onIsl_missRec (s : State) (f : Island → Island) (i : Nat) : (s.onIsl f).missRec i = s.missRec i := rfl
@[simp] theorem State.onIsl_ent (s : State) (f : Island → Island) (i : Nat) : (s.onIsl f).ent i = s.ent i := rfl
@[simp] theorem State.onIsl_frag (s : State) (f : Island → Island) (i : Nat) : (s.onIsl f).frag i = s.frag i := rfl
@[simp] theorem State.onIsl_farPort (s : State) (f : Island → Island) (i : Nat) : (s.onIsl f).farPort i = s.farPort i := rfl
@[simp] theorem State.onIsl_partner (s : State) (f : Island → Island) (i : Nat) : (s.onIsl f).partner i = s.partner i := rfl
@[simp] theorem State.onIsl_sess (s : State) (f : Island → Island) (i : Nat) : (s.onIsl f).sess i = s.sess i := rfl
@[simp] theorem State.onIsl_mbox (s : State) (f : Island → Island) (i : Nat) : (s.onIsl f).mbox i = s.mbox i := rfl
@[simp] theorem State.onIsl_chan (s : State) (f : Island → Island) (i : Nat) : (s.onIsl f).chan i = s.chan i := rfl

/-! `onSite` -/

@[simp] theorem State.onSite_pending (s : State) (f : Site → Site) : (s.onSite f).pending = s.pending := rfl
@[simp] theorem State.onSite_now (s : State) (f : Site → Site) : (s.onSite f).now = s.now := rfl
@[simp] theorem State.onSite_freeCtr (s : State) (f : Site → Site) : (s.onSite f).freeCtr = s.freeCtr := rfl
@[simp] theorem State.onSite_ht (s : State) (f : Site → Site) : (s.onSite f).ht = s.ht := rfl
@[simp] theorem State.onSite_sos (s : State) (f : Site → Site) : (s.onSite f).sos = s.sos := rfl
@[simp] theorem State.onSite_soStart (s : State) (f : Site → Site) : (s.onSite f).soStart = s.soStart := rfl
@[simp] theorem State.onSite_soStale (s : State) (f : Site → Site) : (s.onSite f).soStale = s.soStale := rfl
@[simp] theorem State.onSite_miss (s : State) (f : Site → Site) : (s.onSite f).miss = s.miss := rfl
@[simp] theorem State.onSite_job (s : State) (f : Site → Site) : (s.onSite f).job = s.job := rfl
@[simp] theorem State.onSite_ents (s : State) (f : Site → Site) : (s.onSite f).ents = s.ents := rfl
@[simp] theorem State.onSite_catchup (s : State) (f : Site → Site) : (s.onSite f).catchup = s.catchup := rfl
@[simp] theorem State.onSite_rxHold (s : State) (f : Site → Site) : (s.onSite f).rxHold = s.rxHold := rfl
@[simp] theorem State.onSite_cores (s : State) (f : Site → Site) : (s.onSite f).cores = s.cores := rfl
@[simp] theorem State.onSite_kstore (s : State) (f : Site → Site) : (s.onSite f).kstore = s.kstore := rfl
@[simp] theorem State.onSite_gstore (s : State) (f : Site → Site) : (s.onSite f).gstore = s.gstore := rfl
@[simp] theorem State.onSite_scratch (s : State) (f : Site → Site) : (s.onSite f).scratch = s.scratch := rfl
@[simp] theorem State.onSite_oasis (s : State) (f : Site → Site) : (s.onSite f).oasis = s.oasis := rfl
@[simp] theorem State.onSite_erg (s : State) (f : Site → Site) : (s.onSite f).erg = s.erg := rfl
@[simp] theorem State.onSite_dies (s : State) (f : Site → Site) : (s.onSite f).dies = s.dies := rfl
@[simp] theorem State.onSite_spills (s : State) (f : Site → Site) : (s.onSite f).spills = s.spills := rfl
@[simp] theorem State.onSite_spillOff (s : State) (f : Site → Site) : (s.onSite f).spillOff = s.spillOff := rfl
@[simp] theorem State.onSite_com (s : State) (f : Site → Site) : (s.onSite f).com = s.com := rfl
@[simp] theorem State.onSite_near (s : State) (f : Site → Site) : (s.onSite f).near = s.near := rfl
@[simp] theorem State.onSite_acx (s : State) (f : Site → Site) : (s.onSite f).acx = s.acx := rfl
@[simp] theorem State.onSite_guest (s : State) (f : Site → Site) : (s.onSite f).guest = s.guest := rfl
@[simp] theorem State.onSite_pcie (s : State) (f : Site → Site) : (s.onSite f).pcie = s.pcie := rfl
@[simp] theorem State.onSite_aon (s : State) (f : Site → Site) : (s.onSite f).aon = s.aon := rfl
@[simp] theorem State.onSite_isl (s : State) (f : Site → Site) : (s.onSite f).isl = s.isl := rfl
@[simp] theorem State.onSite_site (s : State) (f : Site → Site) : (s.onSite f).site = f s.site := rfl
@[simp] theorem State.onSite_out (s : State) (f : Site → Site) : (s.onSite f).out = s.out := rfl
@[simp] theorem State.onSite_core (s : State) (f : Site → Site) (i : Nat) : (s.onSite f).core i = s.core i := rfl
@[simp] theorem State.onSite_die (s : State) (f : Site → Site) (i : Nat) : (s.onSite f).die i = s.die i := rfl
@[simp] theorem State.onSite_port (s : State) (f : Site → Site) (i : Nat) : (s.onSite f).port i = s.port i := rfl
@[simp] theorem State.onSite_so (s : State) (f : Site → Site) (i : Nat) : (s.onSite f).so i = s.so i := rfl
@[simp] theorem State.onSite_missRec (s : State) (f : Site → Site) (i : Nat) : (s.onSite f).missRec i = s.missRec i := rfl
@[simp] theorem State.onSite_ent (s : State) (f : Site → Site) (i : Nat) : (s.onSite f).ent i = s.ent i := rfl
@[simp] theorem State.onSite_frag (s : State) (f : Site → Site) (i : Nat) : (s.onSite f).frag i = s.frag i := rfl
@[simp] theorem State.onSite_farPort (s : State) (f : Site → Site) (i : Nat) : (s.onSite f).farPort i = s.farPort i := rfl
@[simp] theorem State.onSite_partner (s : State) (f : Site → Site) (i : Nat) : (s.onSite f).partner i = s.partner i := rfl
@[simp] theorem State.onSite_sess (s : State) (f : Site → Site) (i : Nat) : (s.onSite f).sess i = s.sess i := rfl
@[simp] theorem State.onSite_mbox (s : State) (f : Site → Site) (i : Nat) : (s.onSite f).mbox i = s.mbox i := rfl
@[simp] theorem State.onSite_chan (s : State) (f : Site → Site) (i : Nat) : (s.onSite f).chan i = s.chan i := rfl

/-! `onAcx` -/

@[simp] theorem State.onAcx_pending (s : State) (f : Acrix → Acrix) : (s.onAcx f).pending = s.pending := rfl
@[simp] theorem State.onAcx_now (s : State) (f : Acrix → Acrix) : (s.onAcx f).now = s.now := rfl
@[simp] theorem State.onAcx_freeCtr (s : State) (f : Acrix → Acrix) : (s.onAcx f).freeCtr = s.freeCtr := rfl
@[simp] theorem State.onAcx_ht (s : State) (f : Acrix → Acrix) : (s.onAcx f).ht = s.ht := rfl
@[simp] theorem State.onAcx_sos (s : State) (f : Acrix → Acrix) : (s.onAcx f).sos = s.sos := rfl
@[simp] theorem State.onAcx_soStart (s : State) (f : Acrix → Acrix) : (s.onAcx f).soStart = s.soStart := rfl
@[simp] theorem State.onAcx_soStale (s : State) (f : Acrix → Acrix) : (s.onAcx f).soStale = s.soStale := rfl
@[simp] theorem State.onAcx_miss (s : State) (f : Acrix → Acrix) : (s.onAcx f).miss = s.miss := rfl
@[simp] theorem State.onAcx_job (s : State) (f : Acrix → Acrix) : (s.onAcx f).job = s.job := rfl
@[simp] theorem State.onAcx_ents (s : State) (f : Acrix → Acrix) : (s.onAcx f).ents = s.ents := rfl
@[simp] theorem State.onAcx_catchup (s : State) (f : Acrix → Acrix) : (s.onAcx f).catchup = s.catchup := rfl
@[simp] theorem State.onAcx_rxHold (s : State) (f : Acrix → Acrix) : (s.onAcx f).rxHold = s.rxHold := rfl
@[simp] theorem State.onAcx_cores (s : State) (f : Acrix → Acrix) : (s.onAcx f).cores = s.cores := rfl
@[simp] theorem State.onAcx_kstore (s : State) (f : Acrix → Acrix) : (s.onAcx f).kstore = s.kstore := rfl
@[simp] theorem State.onAcx_gstore (s : State) (f : Acrix → Acrix) : (s.onAcx f).gstore = s.gstore := rfl
@[simp] theorem State.onAcx_scratch (s : State) (f : Acrix → Acrix) : (s.onAcx f).scratch = s.scratch := rfl
@[simp] theorem State.onAcx_oasis (s : State) (f : Acrix → Acrix) : (s.onAcx f).oasis = s.oasis := rfl
@[simp] theorem State.onAcx_erg (s : State) (f : Acrix → Acrix) : (s.onAcx f).erg = s.erg := rfl
@[simp] theorem State.onAcx_dies (s : State) (f : Acrix → Acrix) : (s.onAcx f).dies = s.dies := rfl
@[simp] theorem State.onAcx_spills (s : State) (f : Acrix → Acrix) : (s.onAcx f).spills = s.spills := rfl
@[simp] theorem State.onAcx_spillOff (s : State) (f : Acrix → Acrix) : (s.onAcx f).spillOff = s.spillOff := rfl
@[simp] theorem State.onAcx_com (s : State) (f : Acrix → Acrix) : (s.onAcx f).com = s.com := rfl
@[simp] theorem State.onAcx_near (s : State) (f : Acrix → Acrix) : (s.onAcx f).near = s.near := rfl
@[simp] theorem State.onAcx_acx (s : State) (f : Acrix → Acrix) : (s.onAcx f).acx = f s.acx := rfl
@[simp] theorem State.onAcx_guest (s : State) (f : Acrix → Acrix) : (s.onAcx f).guest = s.guest := rfl
@[simp] theorem State.onAcx_pcie (s : State) (f : Acrix → Acrix) : (s.onAcx f).pcie = s.pcie := rfl
@[simp] theorem State.onAcx_aon (s : State) (f : Acrix → Acrix) : (s.onAcx f).aon = s.aon := rfl
@[simp] theorem State.onAcx_isl (s : State) (f : Acrix → Acrix) : (s.onAcx f).isl = s.isl := rfl
@[simp] theorem State.onAcx_site (s : State) (f : Acrix → Acrix) : (s.onAcx f).site = s.site := rfl
@[simp] theorem State.onAcx_out (s : State) (f : Acrix → Acrix) : (s.onAcx f).out = s.out := rfl
@[simp] theorem State.onAcx_core (s : State) (f : Acrix → Acrix) (i : Nat) : (s.onAcx f).core i = s.core i := rfl
@[simp] theorem State.onAcx_die (s : State) (f : Acrix → Acrix) (i : Nat) : (s.onAcx f).die i = s.die i := rfl
@[simp] theorem State.onAcx_port (s : State) (f : Acrix → Acrix) (i : Nat) : (s.onAcx f).port i = s.port i := rfl
@[simp] theorem State.onAcx_so (s : State) (f : Acrix → Acrix) (i : Nat) : (s.onAcx f).so i = s.so i := rfl
@[simp] theorem State.onAcx_missRec (s : State) (f : Acrix → Acrix) (i : Nat) : (s.onAcx f).missRec i = s.missRec i := rfl
@[simp] theorem State.onAcx_ent (s : State) (f : Acrix → Acrix) (i : Nat) : (s.onAcx f).ent i = s.ent i := rfl
@[simp] theorem State.onAcx_mbox (s : State) (f : Acrix → Acrix) (i : Nat) : (s.onAcx f).mbox i = s.mbox i := rfl
@[simp] theorem State.onAcx_chan (s : State) (f : Acrix → Acrix) (i : Nat) : (s.onAcx f).chan i = s.chan i := rfl

/-! `onErg` -/

@[simp] theorem State.onErg_pending (s : State) (f : Erg → Erg) : (s.onErg f).pending = s.pending := rfl
@[simp] theorem State.onErg_now (s : State) (f : Erg → Erg) : (s.onErg f).now = s.now := rfl
@[simp] theorem State.onErg_freeCtr (s : State) (f : Erg → Erg) : (s.onErg f).freeCtr = s.freeCtr := rfl
@[simp] theorem State.onErg_ht (s : State) (f : Erg → Erg) : (s.onErg f).ht = s.ht := rfl
@[simp] theorem State.onErg_sos (s : State) (f : Erg → Erg) : (s.onErg f).sos = s.sos := rfl
@[simp] theorem State.onErg_soStart (s : State) (f : Erg → Erg) : (s.onErg f).soStart = s.soStart := rfl
@[simp] theorem State.onErg_soStale (s : State) (f : Erg → Erg) : (s.onErg f).soStale = s.soStale := rfl
@[simp] theorem State.onErg_miss (s : State) (f : Erg → Erg) : (s.onErg f).miss = s.miss := rfl
@[simp] theorem State.onErg_job (s : State) (f : Erg → Erg) : (s.onErg f).job = s.job := rfl
@[simp] theorem State.onErg_ents (s : State) (f : Erg → Erg) : (s.onErg f).ents = s.ents := rfl
@[simp] theorem State.onErg_catchup (s : State) (f : Erg → Erg) : (s.onErg f).catchup = s.catchup := rfl
@[simp] theorem State.onErg_rxHold (s : State) (f : Erg → Erg) : (s.onErg f).rxHold = s.rxHold := rfl
@[simp] theorem State.onErg_cores (s : State) (f : Erg → Erg) : (s.onErg f).cores = s.cores := rfl
@[simp] theorem State.onErg_kstore (s : State) (f : Erg → Erg) : (s.onErg f).kstore = s.kstore := rfl
@[simp] theorem State.onErg_gstore (s : State) (f : Erg → Erg) : (s.onErg f).gstore = s.gstore := rfl
@[simp] theorem State.onErg_scratch (s : State) (f : Erg → Erg) : (s.onErg f).scratch = s.scratch := rfl
@[simp] theorem State.onErg_oasis (s : State) (f : Erg → Erg) : (s.onErg f).oasis = s.oasis := rfl
@[simp] theorem State.onErg_erg (s : State) (f : Erg → Erg) : (s.onErg f).erg = f s.erg := rfl
@[simp] theorem State.onErg_dies (s : State) (f : Erg → Erg) : (s.onErg f).dies = s.dies := rfl
@[simp] theorem State.onErg_spills (s : State) (f : Erg → Erg) : (s.onErg f).spills = s.spills := rfl
@[simp] theorem State.onErg_spillOff (s : State) (f : Erg → Erg) : (s.onErg f).spillOff = s.spillOff := rfl
@[simp] theorem State.onErg_com (s : State) (f : Erg → Erg) : (s.onErg f).com = s.com := rfl
@[simp] theorem State.onErg_near (s : State) (f : Erg → Erg) : (s.onErg f).near = s.near := rfl
@[simp] theorem State.onErg_acx (s : State) (f : Erg → Erg) : (s.onErg f).acx = s.acx := rfl
@[simp] theorem State.onErg_guest (s : State) (f : Erg → Erg) : (s.onErg f).guest = s.guest := rfl
@[simp] theorem State.onErg_pcie (s : State) (f : Erg → Erg) : (s.onErg f).pcie = s.pcie := rfl
@[simp] theorem State.onErg_aon (s : State) (f : Erg → Erg) : (s.onErg f).aon = s.aon := rfl
@[simp] theorem State.onErg_isl (s : State) (f : Erg → Erg) : (s.onErg f).isl = s.isl := rfl
@[simp] theorem State.onErg_site (s : State) (f : Erg → Erg) : (s.onErg f).site = s.site := rfl
@[simp] theorem State.onErg_out (s : State) (f : Erg → Erg) : (s.onErg f).out = s.out := rfl
@[simp] theorem State.onErg_core (s : State) (f : Erg → Erg) (i : Nat) : (s.onErg f).core i = s.core i := rfl
@[simp] theorem State.onErg_die (s : State) (f : Erg → Erg) (i : Nat) : (s.onErg f).die i = s.die i := rfl
@[simp] theorem State.onErg_port (s : State) (f : Erg → Erg) (i : Nat) : (s.onErg f).port i = s.port i := rfl
@[simp] theorem State.onErg_so (s : State) (f : Erg → Erg) (i : Nat) : (s.onErg f).so i = s.so i := rfl
@[simp] theorem State.onErg_missRec (s : State) (f : Erg → Erg) (i : Nat) : (s.onErg f).missRec i = s.missRec i := rfl
@[simp] theorem State.onErg_ent (s : State) (f : Erg → Erg) (i : Nat) : (s.onErg f).ent i = s.ent i := rfl
@[simp] theorem State.onErg_frag (s : State) (f : Erg → Erg) (i : Nat) : (s.onErg f).frag i = s.frag i := rfl
@[simp] theorem State.onErg_farPort (s : State) (f : Erg → Erg) (i : Nat) : (s.onErg f).farPort i = s.farPort i := rfl
@[simp] theorem State.onErg_partner (s : State) (f : Erg → Erg) (i : Nat) : (s.onErg f).partner i = s.partner i := rfl
@[simp] theorem State.onErg_sess (s : State) (f : Erg → Erg) (i : Nat) : (s.onErg f).sess i = s.sess i := rfl
@[simp] theorem State.onErg_mbox (s : State) (f : Erg → Erg) (i : Nat) : (s.onErg f).mbox i = s.mbox i := rfl

/-! `onJob` -/

@[simp] theorem State.onJob_pending (s : State) (f : Job → Job) : (s.onJob f).pending = s.pending := rfl
@[simp] theorem State.onJob_now (s : State) (f : Job → Job) : (s.onJob f).now = s.now := rfl
@[simp] theorem State.onJob_freeCtr (s : State) (f : Job → Job) : (s.onJob f).freeCtr = s.freeCtr := rfl
@[simp] theorem State.onJob_ht (s : State) (f : Job → Job) : (s.onJob f).ht = s.ht := rfl
@[simp] theorem State.onJob_sos (s : State) (f : Job → Job) : (s.onJob f).sos = s.sos := rfl
@[simp] theorem State.onJob_soStart (s : State) (f : Job → Job) : (s.onJob f).soStart = s.soStart := rfl
@[simp] theorem State.onJob_soStale (s : State) (f : Job → Job) : (s.onJob f).soStale = s.soStale := rfl
@[simp] theorem State.onJob_miss (s : State) (f : Job → Job) : (s.onJob f).miss = s.miss := rfl
@[simp] theorem State.onJob_job (s : State) (f : Job → Job) : (s.onJob f).job = s.job.map f := rfl
@[simp] theorem State.onJob_ents (s : State) (f : Job → Job) : (s.onJob f).ents = s.ents := rfl
@[simp] theorem State.onJob_catchup (s : State) (f : Job → Job) : (s.onJob f).catchup = s.catchup := rfl
@[simp] theorem State.onJob_rxHold (s : State) (f : Job → Job) : (s.onJob f).rxHold = s.rxHold := rfl
@[simp] theorem State.onJob_cores (s : State) (f : Job → Job) : (s.onJob f).cores = s.cores := rfl
@[simp] theorem State.onJob_kstore (s : State) (f : Job → Job) : (s.onJob f).kstore = s.kstore := rfl
@[simp] theorem State.onJob_gstore (s : State) (f : Job → Job) : (s.onJob f).gstore = s.gstore := rfl
@[simp] theorem State.onJob_scratch (s : State) (f : Job → Job) : (s.onJob f).scratch = s.scratch := rfl
@[simp] theorem State.onJob_oasis (s : State) (f : Job → Job) : (s.onJob f).oasis = s.oasis := rfl
@[simp] theorem State.onJob_erg (s : State) (f : Job → Job) : (s.onJob f).erg = s.erg := rfl
@[simp] theorem State.onJob_dies (s : State) (f : Job → Job) : (s.onJob f).dies = s.dies := rfl
@[simp] theorem State.onJob_spills (s : State) (f : Job → Job) : (s.onJob f).spills = s.spills := rfl
@[simp] theorem State.onJob_spillOff (s : State) (f : Job → Job) : (s.onJob f).spillOff = s.spillOff := rfl
@[simp] theorem State.onJob_com (s : State) (f : Job → Job) : (s.onJob f).com = s.com := rfl
@[simp] theorem State.onJob_near (s : State) (f : Job → Job) : (s.onJob f).near = s.near := rfl
@[simp] theorem State.onJob_acx (s : State) (f : Job → Job) : (s.onJob f).acx = s.acx := rfl
@[simp] theorem State.onJob_guest (s : State) (f : Job → Job) : (s.onJob f).guest = s.guest := rfl
@[simp] theorem State.onJob_pcie (s : State) (f : Job → Job) : (s.onJob f).pcie = s.pcie := rfl
@[simp] theorem State.onJob_aon (s : State) (f : Job → Job) : (s.onJob f).aon = s.aon := rfl
@[simp] theorem State.onJob_isl (s : State) (f : Job → Job) : (s.onJob f).isl = s.isl := rfl
@[simp] theorem State.onJob_site (s : State) (f : Job → Job) : (s.onJob f).site = s.site := rfl
@[simp] theorem State.onJob_out (s : State) (f : Job → Job) : (s.onJob f).out = s.out := rfl
@[simp] theorem State.onJob_core (s : State) (f : Job → Job) (i : Nat) : (s.onJob f).core i = s.core i := rfl
@[simp] theorem State.onJob_die (s : State) (f : Job → Job) (i : Nat) : (s.onJob f).die i = s.die i := rfl
@[simp] theorem State.onJob_port (s : State) (f : Job → Job) (i : Nat) : (s.onJob f).port i = s.port i := rfl
@[simp] theorem State.onJob_so (s : State) (f : Job → Job) (i : Nat) : (s.onJob f).so i = s.so i := rfl
@[simp] theorem State.onJob_missRec (s : State) (f : Job → Job) (i : Nat) : (s.onJob f).missRec i = s.missRec i := rfl
@[simp] theorem State.onJob_ent (s : State) (f : Job → Job) (i : Nat) : (s.onJob f).ent i = s.ent i := rfl
@[simp] theorem State.onJob_frag (s : State) (f : Job → Job) (i : Nat) : (s.onJob f).frag i = s.frag i := rfl
@[simp] theorem State.onJob_farPort (s : State) (f : Job → Job) (i : Nat) : (s.onJob f).farPort i = s.farPort i := rfl
@[simp] theorem State.onJob_partner (s : State) (f : Job → Job) (i : Nat) : (s.onJob f).partner i = s.partner i := rfl
@[simp] theorem State.onJob_sess (s : State) (f : Job → Job) (i : Nat) : (s.onJob f).sess i = s.sess i := rfl
@[simp] theorem State.onJob_mbox (s : State) (f : Job → Job) (i : Nat) : (s.onJob f).mbox i = s.mbox i := rfl
@[simp] theorem State.onJob_chan (s : State) (f : Job → Job) (i : Nat) : (s.onJob f).chan i = s.chan i := rfl

/-! A part changed is that part written back, so that the lemmas of the writes serve. -/

@[simp] theorem State.onCore_eq (s : State) (k : Nat) (f : Core → Core) : s.onCore k f = s.putCore k (f (s.core k)) := rfl
@[simp] theorem State.onDie_eq (s : State) (k : Nat) (f : Die → Die) : s.onDie k f = s.putDie k (f (s.die k)) := rfl
@[simp] theorem State.onPort_eq (s : State) (k : Nat) (f : NearPort → NearPort) : s.onPort k f = s.putPort k (f (s.port k)) := rfl
@[simp] theorem State.onSo_eq (s : State) (k : Nat) (f : SyncObj → SyncObj) : s.onSo k f = s.putSo k (f (s.so k)) := rfl
@[simp] theorem State.onMissRec_eq (s : State) (k : Nat) (f : MissRec → MissRec) : s.onMissRec k f = s.putMissRec k (f (s.missRec k)) := rfl
@[simp] theorem State.onEnt_eq (s : State) (k : Nat) (f : EntryState → EntryState) : s.onEnt k f = s.putEnt k (f (s.ent k)) := rfl
@[simp] theorem State.onFrag_eq (s : State) (k : Nat) (f : Fragment → Fragment) : s.onFrag k f = s.putFrag k (f (s.frag k)) := rfl
@[simp] theorem State.onFarPort_eq (s : State) (k : Nat) (f : FarPort → FarPort) : s.onFarPort k f = s.putFarPort k (f (s.farPort k)) := rfl
@[simp] theorem State.onPartner_eq (s : State) (k : Nat) (f : Partner → Partner) : s.onPartner k f = s.putPartner k (f (s.partner k)) := rfl
@[simp] theorem State.onSess_eq (s : State) (k : Nat) (f : Session → Session) : s.onSess k f = s.putSess k (f (s.sess k)) := rfl
@[simp] theorem State.onMbox_eq (s : State) (k : Nat) (f : Mailbox → Mailbox) : s.onMbox k f = s.putMbox k (f (s.mbox k)) := rfl
@[simp] theorem State.onChan_eq (s : State) (k : Nat) (f : ErgChannel → ErgChannel) : s.onChan k f = s.putChan k (f (s.chan k)) := rfl

/-! Reading a part after it was written, in a state whose sets are in canonical form. -/

theorem State.core_putCore {s : State} (h : tabWf Core.reset s.cores = true) (k i : Nat) (v : Core) :
    (s.putCore k v).core i = if i = k then v else s.core i := tget_tset_wf h k i v
theorem State.putCore_wf {s : State} (h : tabWf Core.reset s.cores = true) (k : Nat) (v : Core) :
    tabWf Core.reset (s.putCore k v).cores = true := tabWf_tset h k v
theorem State.die_putDie {s : State} (h : tabWf Die.reset s.dies = true) (k i : Nat) (v : Die) :
    (s.putDie k v).die i = if i = k then v else s.die i := tget_tset_wf h k i v
theorem State.putDie_wf {s : State} (h : tabWf Die.reset s.dies = true) (k : Nat) (v : Die) :
    tabWf Die.reset (s.putDie k v).dies = true := tabWf_tset h k v
theorem State.port_putPort {s : State} (h : tabWf NearPort.reset s.near = true) (k i : Nat) (v : NearPort) :
    (s.putPort k v).port i = if i = k then v else s.port i := tget_tset_wf h k i v
theorem State.putPort_wf {s : State} (h : tabWf NearPort.reset s.near = true) (k : Nat) (v : NearPort) :
    tabWf NearPort.reset (s.putPort k v).near = true := tabWf_tset h k v
theorem State.so_putSo {s : State} (h : tabWf (SyncObj.start s.soStart) s.sos = true) (k i : Nat) (v : SyncObj) :
    (s.putSo k v).so i = if i = k then v else s.so i := tget_tset_wf h k i v
theorem State.putSo_wf {s : State} (h : tabWf (SyncObj.start s.soStart) s.sos = true) (k : Nat) (v : SyncObj) :
    tabWf (SyncObj.start s.soStart) (s.putSo k v).sos = true := tabWf_tset h k v
theorem State.missRec_putMissRec {s : State} (h : tabWf MissRec.reset s.miss = true) (k i : Nat) (v : MissRec) :
    (s.putMissRec k v).missRec i = if i = k then v else s.missRec i := tget_tset_wf h k i v
theorem State.putMissRec_wf {s : State} (h : tabWf MissRec.reset s.miss = true) (k : Nat) (v : MissRec) :
    tabWf MissRec.reset (s.putMissRec k v).miss = true := tabWf_tset h k v
theorem State.ent_putEnt {s : State} (h : tabWf EntryState.idle s.ents = true) (k i : Nat) (v : EntryState) :
    (s.putEnt k v).ent i = if i = k then v else s.ent i := tget_tset_wf h k i v
theorem State.putEnt_wf {s : State} (h : tabWf EntryState.idle s.ents = true) (k : Nat) (v : EntryState) :
    tabWf EntryState.idle (s.putEnt k v).ents = true := tabWf_tset h k v
theorem State.frag_putFrag {s : State} (h : tabWf Fragment.reset s.acx.frags = true) (k i : Nat) (v : Fragment) :
    (s.putFrag k v).frag i = if i = k then v else s.frag i := tget_tset_wf h k i v
theorem State.putFrag_wf {s : State} (h : tabWf Fragment.reset s.acx.frags = true) (k : Nat) (v : Fragment) :
    tabWf Fragment.reset (s.putFrag k v).acx.frags = true := tabWf_tset h k v
theorem State.farPort_putFarPort {s : State} (h : tabWf FarPort.reset s.acx.ports = true) (k i : Nat) (v : FarPort) :
    (s.putFarPort k v).farPort i = if i = k then v else s.farPort i := tget_tset_wf h k i v
theorem State.putFarPort_wf {s : State} (h : tabWf FarPort.reset s.acx.ports = true) (k : Nat) (v : FarPort) :
    tabWf FarPort.reset (s.putFarPort k v).acx.ports = true := tabWf_tset h k v
theorem State.partner_putPartner {s : State} (h : tabWf Partner.reset s.acx.partners = true) (k i : Nat) (v : Partner) :
    (s.putPartner k v).partner i = if i = k then v else s.partner i := tget_tset_wf h k i v
theorem State.putPartner_wf {s : State} (h : tabWf Partner.reset s.acx.partners = true) (k : Nat) (v : Partner) :
    tabWf Partner.reset (s.putPartner k v).acx.partners = true := tabWf_tset h k v
theorem State.sess_putSess {s : State} (h : tabWf Session.reset s.acx.sess = true) (k i : Nat) (v : Session) :
    (s.putSess k v).sess i = if i = k then v else s.sess i := tget_tset_wf h k i v
theorem State.putSess_wf {s : State} (h : tabWf Session.reset s.acx.sess = true) (k : Nat) (v : Session) :
    tabWf Session.reset (s.putSess k v).acx.sess = true := tabWf_tset h k v
theorem State.mbox_putMbox {s : State} (h : tabWf Mailbox.reset s.pcie.mboxes = true) (k i : Nat) (v : Mailbox) :
    (s.putMbox k v).mbox i = if i = k then v else s.mbox i := tget_tset_wf h k i v
theorem State.putMbox_wf {s : State} (h : tabWf Mailbox.reset s.pcie.mboxes = true) (k : Nat) (v : Mailbox) :
    tabWf Mailbox.reset (s.putMbox k v).pcie.mboxes = true := tabWf_tset h k v
theorem State.chan_putChan {s : State} (h : tabWf ErgChannel.reset s.erg.chans = true) (k i : Nat) (v : ErgChannel) :
    (s.putChan k v).chan i = if i = k then v else s.chan i := tget_tset_wf h k i v
theorem State.putChan_wf {s : State} (h : tabWf ErgChannel.reset s.erg.chans = true) (k : Nat) (v : ErgChannel) :
    tabWf ErgChannel.reset (s.putChan k v).erg.chans = true := tabWf_tset h k v

end Sys2Proof.Machine
end

