-- ==== Sys2Proof/Laws/Ops.lean ====
section
/-! SUPPORT. What the shared operations do, said once: raising an event, running a command of a mailbox, starting an entry of
the timetable, executing one instruction of a vector block, and a step of the queue. -/

namespace Sys2Proof.Machine

/-! ### Events -/

theorem State.sendMsix_eq (s : State) (v : Nat) : ∃ p o, s.sendMsix v = { s with pcie := p, out := o } := by
  unfold State.sendMsix
  split
  · exact ⟨_, s.out, rfl⟩
  · exact ⟨s.pcie, _, rfl⟩

theorem State.evInterrupt_eq (s : State) : ∃ p o, s.evInterrupt = { s with pcie := p, out := o } := by
  unfold State.evInterrupt
  split
  · exact ⟨s.pcie, s.out, rfl⟩
  · split
    · obtain ⟨p, o, h⟩ := s.sendMsix_eq s.pcie.evVector
      exact ⟨_, o, by rw [h]; rfl⟩
    · exact ⟨_, s.out, rfl⟩

/-- Raising an event changes only the PCIe unit and what the device has driven (R394). -/
theorem State.raise_eq (s : State) (e : Ev) (unit : Nat) (items : List (Nat × Nat)) (step : Nat) (guest : Bool) :
    ∃ p o, s.raise e unit items step guest = { s with pcie := p, out := o } := by
  unfold State.raise
  dsimp only
  split
  · exact ⟨s.pcie, s.out, rfl⟩
  · split
    · exact ⟨_, s.out, rfl⟩
    · obtain ⟨p, o, h⟩ := State.evInterrupt_eq _
      exact ⟨p, o, by rw [h]⟩

@[simp] theorem State.raise_pending (s : State) (e : Ev) (u : Nat) (l : List (Nat × Nat)) (n : Nat) (g : Bool) :
    (s.raise e u l n g).pending = s.pending := by
  obtain ⟨p, o, h⟩ := s.raise_eq e u l n g
  rw [h]
@[simp] theorem State.raise_now (s : State) (e : Ev) (u : Nat) (l : List (Nat × Nat)) (n : Nat) (g : Bool) :
    (s.raise e u l n g).now = s.now := by
  obtain ⟨p, o, h⟩ := s.raise_eq e u l n g
  rw [h]
@[simp] theorem State.raise_freeCtr (s : State) (e : Ev) (u : Nat) (l : List (Nat × Nat)) (n : Nat) (g : Bool) :
    (s.raise e u l n g).freeCtr = s.freeCtr := by
  obtain ⟨p, o, h⟩ := s.raise_eq e u l n g
  rw [h]
@[simp] theorem State.raise_ht (s : State) (e : Ev) (u : Nat) (l : List (Nat × Nat)) (n : Nat) (g : Bool) :
    (s.raise e u l n g).ht = s.ht := by
  obtain ⟨p, o, h⟩ := s.raise_eq e u l n g
  rw [h]
@[simp] theorem State.raise_sos (s : State) (e : Ev) (u : Nat) (l : List (Nat × Nat)) (n : Nat) (g : Bool) :
    (s.raise e u l n g).sos = s.sos := by
  obtain ⟨p, o, h⟩ := s.raise_eq e u l n g
  rw [h]
@[simp] theorem State.raise_soStart (s : State) (e : Ev) (u : Nat) (l : List (Nat × Nat)) (n : Nat) (g : Bool) :
    (s.raise e u l n g).soStart = s.soStart := by
  obtain ⟨p, o, h⟩ := s.raise_eq e u l n g
  rw [h]
@[simp] theorem State.raise_soStale (s : State) (e : Ev) (u : Nat) (l : List (Nat × Nat)) (n : Nat) (g : Bool) :
    (s.raise e u l n g).soStale = s.soStale := by
  obtain ⟨p, o, h⟩ := s.raise_eq e u l n g
  rw [h]
@[simp] theorem State.raise_miss (s : State) (e : Ev) (u : Nat) (l : List (Nat × Nat)) (n : Nat) (g : Bool) :
    (s.raise e u l n g).miss = s.miss := by
  obtain ⟨p, o, h⟩ := s.raise_eq e u l n g
  rw [h]
@[simp] theorem State.raise_job (s : State) (e : Ev) (u : Nat) (l : List (Nat × Nat)) (n : Nat) (g : Bool) :
    (s.raise e u l n g).job = s.job := by
  obtain ⟨p, o, h⟩ := s.raise_eq e u l n g
  rw [h]
@[simp] theorem State.raise_ents (s : State) (e : Ev) (u : Nat) (l : List (Nat × Nat)) (n : Nat) (g : Bool) :
    (s.raise e u l n g).ents = s.ents := by
  obtain ⟨p, o, h⟩ := s.raise_eq e u l n g
  rw [h]
@[simp] theorem State.raise_catchup (s : State) (e : Ev) (u : Nat) (l : List (Nat × Nat)) (n : Nat) (g : Bool) :
    (s.raise e u l n g).catchup = s.catchup := by
  obtain ⟨p, o, h⟩ := s.raise_eq e u l n g
  rw [h]
@[simp] theorem State.raise_rxHold (s : State) (e : Ev) (u : Nat) (l : List (Nat × Nat)) (n : Nat) (g : Bool) :
    (s.raise e u l n g).rxHold = s.rxHold := by
  obtain ⟨p, o, h⟩ := s.raise_eq e u l n g
  rw [h]
@[simp] theorem State.raise_cores (s : State) (e : Ev) (u : Nat) (l : List (Nat × Nat)) (n : Nat) (g : Bool) :
    (s.raise e u l n g).cores = s.cores := by
  obtain ⟨p, o, h⟩ := s.raise_eq e u l n g
  rw [h]
@[simp] theorem State.raise_kstore (s : State) (e : Ev) (u : Nat) (l : List (Nat × Nat)) (n : Nat) (g : Bool) :
    (s.raise e u l n g).kstore = s.kstore := by
  obtain ⟨p, o, h⟩ := s.raise_eq e u l n g
  rw [h]
@[simp] theorem State.raise_gstore (s : State) (e : Ev) (u : Nat) (l : List (Nat × Nat)) (n : Nat) (g : Bool) :
    (s.raise e u l n g).gstore = s.gstore := by
  obtain ⟨p, o, h⟩ := s.raise_eq e u l n g
  rw [h]
@[simp] theorem State.raise_scratch (s : State) (e : Ev) (u : Nat) (l : List (Nat × Nat)) (n : Nat) (g : Bool) :
    (s.raise e u l n g).scratch = s.scratch := by
  obtain ⟨p, o, h⟩ := s.raise_eq e u l n g
  rw [h]
@[simp] theorem State.raise_oasis (s : State) (e : Ev) (u : Nat) (l : List (Nat × Nat)) (n : Nat) (g : Bool) :
    (s.raise e u l n g).oasis = s.oasis := by
  obtain ⟨p, o, h⟩ := s.raise_eq e u l n g
  rw [h]
@[simp] theorem State.raise_erg (s : State) (e : Ev) (u : Nat) (l : List (Nat × Nat)) (n : Nat) (g : Bool) :
    (s.raise e u l n g).erg = s.erg := by
  obtain ⟨p, o, h⟩ := s.raise_eq e u l n g
  rw [h]
@[simp] theorem State.raise_dies (s : State) (e : Ev) (u : Nat) (l : List (Nat × Nat)) (n : Nat) (g : Bool) :
    (s.raise e u l n g).dies = s.dies := by
  obtain ⟨p, o, h⟩ := s.raise_eq e u l n g
  rw [h]
@[simp] theorem State.raise_spills (s : State) (e : Ev) (u : Nat) (l : List (Nat × Nat)) (n : Nat) (g : Bool) :
    (s.raise e u l n g).spills = s.spills := by
  obtain ⟨p, o, h⟩ := s.raise_eq e u l n g
  rw [h]
@[simp] theorem State.raise_spillOff (s : State) (e : Ev) (u : Nat) (l : List (Nat × Nat)) (n : Nat) (g : Bool) :
    (s.raise e u l n g).spillOff = s.spillOff := by
  obtain ⟨p, o, h⟩ := s.raise_eq e u l n g
  rw [h]
@[simp] theorem State.raise_com (s : State) (e : Ev) (u : Nat) (l : List (Nat × Nat)) (n : Nat) (g : Bool) :
    (s.raise e u l n g).com = s.com := by
  obtain ⟨p, o, h⟩ := s.raise_eq e u l n g
  rw [h]
@[simp] theorem State.raise_near (s : State) (e : Ev) (u : Nat) (l : List (Nat × Nat)) (n : Nat) (g : Bool) :
    (s.raise e u l n g).near = s.near := by
  obtain ⟨p, o, h⟩ := s.raise_eq e u l n g
  rw [h]
@[simp] theorem State.raise_acx (s : State) (e : Ev) (u : Nat) (l : List (Nat × Nat)) (n : Nat) (g : Bool) :
    (s.raise e u l n g).acx = s.acx := by
  obtain ⟨p, o, h⟩ := s.raise_eq e u l n g
  rw [h]
@[simp] theorem State.raise_guest (s : State) (e : Ev) (u : Nat) (l : List (Nat × Nat)) (n : Nat) (g : Bool) :
    (s.raise e u l n g).guest = s.guest := by
  obtain ⟨p, o, h⟩ := s.raise_eq e u l n g
  rw [h]
@[simp] theorem State.raise_aon (s : State) (e : Ev) (u : Nat) (l : List (Nat × Nat)) (n : Nat) (g : Bool) :
    (s.raise e u l n g).aon = s.aon := by
  obtain ⟨p, o, h⟩ := s.raise_eq e u l n g
  rw [h]
@[simp] theorem State.raise_isl (s : State) (e : Ev) (u : Nat) (l : List (Nat × Nat)) (n : Nat) (g : Bool) :
    (s.raise e u l n g).isl = s.isl := by
  obtain ⟨p, o, h⟩ := s.raise_eq e u l n g
  rw [h]
@[simp] theorem State.raise_site (s : State) (e : Ev) (u : Nat) (l : List (Nat × Nat)) (n : Nat) (g : Bool) :
    (s.raise e u l n g).site = s.site := by
  obtain ⟨p, o, h⟩ := s.raise_eq e u l n g
  rw [h]
@[simp] theorem State.raise_core (s : State) (e : Ev) (u : Nat) (l : List (Nat × Nat)) (n : Nat) (g : Bool) (i : Nat) :
    (s.raise e u l n g).core i = s.core i := by
  obtain ⟨p, o, h⟩ := s.raise_eq e u l n g
  rw [h]; rfl
@[simp] theorem State.raise_die (s : State) (e : Ev) (u : Nat) (l : List (Nat × Nat)) (n : Nat) (g : Bool) (i : Nat) :
    (s.raise e u l n g).die i = s.die i := by
  obtain ⟨p, o, h⟩ := s.raise_eq e u l n g
  rw [h]; rfl
@[simp] theorem State.raise_port (s : State) (e : Ev) (u : Nat) (l : List (Nat × Nat)) (n : Nat) (g : Bool) (i : Nat) :
    (s.raise e u l n g).port i = s.port i := by
  obtain ⟨p, o, h⟩ := s.raise_eq e u l n g
  rw [h]; rfl
@[simp] theorem State.raise_so (s : State) (e : Ev) (u : Nat) (l : List (Nat × Nat)) (n : Nat) (g : Bool) (i : Nat) :
    (s.raise e u l n g).so i = s.so i := by
  obtain ⟨p, o, h⟩ := s.raise_eq e u l n g
  rw [h]; rfl
@[simp] theorem State.raise_missRec (s : State) (e : Ev) (u : Nat) (l : List (Nat × Nat)) (n : Nat) (g : Bool) (i : Nat) :
    (s.raise e u l n g).missRec i = s.missRec i := by
  obtain ⟨p, o, h⟩ := s.raise_eq e u l n g
  rw [h]; rfl
@[simp] theorem State.raise_ent (s : State) (e : Ev) (u : Nat) (l : List (Nat × Nat)) (n : Nat) (g : Bool) (i : Nat) :
    (s.raise e u l n g).ent i = s.ent i := by
  obtain ⟨p, o, h⟩ := s.raise_eq e u l n g
  rw [h]; rfl
@[simp] theorem State.raise_frag (s : State) (e : Ev) (u : Nat) (l : List (Nat × Nat)) (n : Nat) (g : Bool) (i : Nat) :
    (s.raise e u l n g).frag i = s.frag i := by
  obtain ⟨p, o, h⟩ := s.raise_eq e u l n g
  rw [h]; rfl
@[simp] theorem State.raise_farPort (s : State) (e : Ev) (u : Nat) (l : List (Nat × Nat)) (n : Nat) (g : Bool) (i : Nat) :
    (s.raise e u l n g).farPort i = s.farPort i := by
  obtain ⟨p, o, h⟩ := s.raise_eq e u l n g
  rw [h]; rfl
@[simp] theorem State.raise_partner (s : State) (e : Ev) (u : Nat) (l : List (Nat × Nat)) (n : Nat) (g : Bool) (i : Nat) :
    (s.raise e u l n g).partner i = s.partner i := by
  obtain ⟨p, o, h⟩ := s.raise_eq e u l n g
  rw [h]; rfl
@[simp] theorem State.raise_sess (s : State) (e : Ev) (u : Nat) (l : List (Nat × Nat)) (n : Nat) (g : Bool) (i : Nat) :
    (s.raise e u l n g).sess i = s.sess i := by
  obtain ⟨p, o, h⟩ := s.raise_eq e u l n g
  rw [h]; rfl
@[simp] theorem State.raise_chan (s : State) (e : Ev) (u : Nat) (l : List (Nat × Nat)) (n : Nat) (g : Bool) (i : Nat) :
    (s.raise e u l n g).chan i = s.chan i := by
  obtain ⟨p, o, h⟩ := s.raise_eq e u l n g
  rw [h]; rfl

/-! ### Commands of a mailbox (R382, R389, R391, R399) -/

/-- A command that nothing turns away runs its body, after HOLD is left where its opcode leaves it (R445). -/
theorem State.command_offered {s : State} {op mb : Nat} {e : Buf} {b0 b1 : Option Buf} {allow : State → Call → Bool}
    (h : s.offers op mb e b0 b1 allow = true) (body : State → Call → State) :
    s.command op mb b0 b1 allow body =
      body (if wakesHold.contains op then (s.begun mb).leaveHold else s.begun mb) ⟨mb, e, b0, b1⟩ := by
  simp only [State.offers, State.posts, Bool.and_eq_true, decide_eq_true_eq] at h
  obtain ⟨⟨⟨⟨⟨⟨h1, h2⟩, h3⟩, h4⟩, h5⟩, h6⟩, h7⟩ := h
  unfold State.command
  split at h1
  · rename_i x hx
    simp only [decide_eq_true_eq] at h1
    subst h1
    rw [hx]
    simp only [Bool.not_eq_true'] at h6
    simp [h2, h3, h4, h5, h6, h7]
  · cases h1

/-- A command whose role the row does not admit ends with ROLE_DENIED (R389). -/
theorem State.command_denied {s : State} {op mb : Nat} {e : Buf} {b0 b1 : Option Buf} {allow : State → Call → Bool}
    (h : s.posts op mb e = true) (ha : allow (s.begun mb) ⟨mb, e, b0, b1⟩ = false) (body : State → Call → State) :
    s.command op mb b0 b1 allow body = (s.begun mb).finish mb 4 := by
  simp only [State.posts, Bool.and_eq_true, decide_eq_true_eq] at h
  obtain ⟨⟨⟨h1, h2⟩, h3⟩, h4⟩ := h
  unfold State.command
  split at h1
  · rename_i x hx
    simp only [decide_eq_true_eq] at h1
    subst h1
    rw [hx]
    simp [h2, h3, h4, ha]
  · cases h1

/-! ### The timetable (R59, R60) -/

/-- An entry that R59 lets start does what its action does. -/
theorem State.dispatch_starts {s : State} {action i : Nat} {j : Job} {e : Entry}
    (h : s.starts action i j e (s.targetIdle e.target) = true) (start : State → Job → Entry → State) :
    s.dispatch i action start = start (s.beginEntry i e (j.sn + e.offset)) j e := by
  simp only [State.starts, Bool.and_eq_true, decide_eq_true_eq] at h
  obtain ⟨⟨⟨⟨⟨⟨⟨⟨⟨⟨h1, h2⟩, h3⟩, h4⟩, h5⟩, h6⟩, h7⟩, h8⟩, h9⟩, h10⟩, h11⟩ := h
  simp only [Bool.not_eq_true'] at h8
  have he : s.entry? i = some (j, e) := by simp [State.entry?, h1, h2, h3, h4]
  have hj : s.judge j i e (s.targetIdle e.target) = .start := by
    simp only [State.judge, State.metPre, h6, h8, h9, h10]
    simp [h11, Int.not_lt.mpr h7]
  simp [State.dispatch, he, h5, hj]

/-! ### The vector engine (R127, R133) -/

/-- The block's next instruction runs when `act` says so, and the core counts its cycle. -/
theorem State.vecStep_runs {s : State} {core op : Nat} {f : VFields} {k : Kernel} {it : Item} {b : VBlock}
    (h : s.runsVec core op f k it b = true) (act : State → VCtx → State × Bool) :
    s.vecStep core op f act =
      if (act s ⟨core, k, it, b, f⟩).2 then
        (act s ⟨core, k, it, b, f⟩).1.onCore core
          (Core.vecRan (vecCycles it.body op) (vecCycles it.body op - (if op = 0x42 || op = 0x43 then 4 else 1)))
      else (act s ⟨core, k, it, b, f⟩).1 := by
  simp only [State.runsVec, Bool.and_eq_true, decide_eq_true_eq] at h
  obtain ⟨⟨h1, h2⟩, h3⟩ := h
  unfold State.vecStep
  simp only [h1, h2, h3]
  generalize act s ⟨core, k, it, b, f⟩ = r
  obtain ⟨t, ran⟩ := r
  generalize vecCycles it.body op = n
  generalize (n - if (decide (op = 66) || decide (op = 67)) = true then 4 else 1) = m
  cases ran
  · simp only [Bool.not_false, Bool.false_eq_true, if_true, if_false, ne_eq, not_true_eq_false]
  · simp only [Bool.not_true, Bool.false_eq_true, if_false, if_true, ne_eq, not_true_eq_false]
    refine congrArg (t.onCore core) (funext fun c => ?_)
    unfold Core.vecRan
    cases c.kernel with
    | none => rfl
    | some k =>
      cases c.vact with
      | none => rfl
      | some v => rfl

/-! ### The queue -/

theorem step_front {s : State} {c : Instr} {q : List Instr} (h : s.pending = c :: q) :
    step s = exec c { s with pending := q } := by
  simp [step, h]

theorem step_empty {s : State} (h : s.pending = []) : step s = .next s := by simp [step, h]

end Sys2Proof.Machine
end

