-- ==== Sys2Proof/Tests/Slice0.lean ====
section
/-! SUPPORT. The model's own tests, each a named theorem: an ill-formed term for each check of WellFormed, worked
examples of the spec on the operations, one step of the queue, and for every statement with hypotheses the states and
operands that meet them (`witness_<statement>`; a list of the hypotheses, all true, under the values that meet them). -/

namespace Sys2Proof.Tests

open Sys2Proof.Machine

set_option linter.unusedVariables false
set_option synthInstance.maxSize 100000
set_option synthInstance.maxHeartbeats 4000000
set_option maxHeartbeats 4000000
set_option maxRecDepth 100000
set_option Elab.async false

/-! ### Well-formedness: an ill-formed term for each check, which the check refuses -/

theorem test_wf_units :
    (Instr.devInfo 0 17 none none).wf = false ∧ (Instr.mbFetch 0 17 none).wf = false ∧ (Instr.completionWrite 0 17).wf = false ∧
      (Instr.mbDoorbell 0 16 0).wf = false ∧ (Instr.doorbellStuck 0 16).wf = false ∧ (Instr.coreDmaDescriptor 0 ⟨128, []⟩).wf = false ∧
      (Instr.accumulationComplete 0 5 2).wf = false ∧ (Instr.ergLineWrite 0 32 .maint).wf = false ∧ (Instr.avsUpdate 0 8 0).wf = false ∧
      (Instr.dieTemperatureChange 0 10 30).wf = false ∧ (Instr.controlSlot 0 8).wf = false ∧ (Instr.openFlitSend 0 2 4 0).wf = false ∧
      (Instr.openFlitSend 0 2 1 2).wf = false ∧ (Instr.acrixIdleSlice 0 4).wf = false ∧ (Instr.farRouteLinkUp 0 1 2).wf = false ∧
      (Instr.ackTimer 0 16).wf = false ∧ (Instr.acrixEncodeComplete 0 64).wf = false ∧ (Instr.railPowerGood 0 16).wf = false := by
  decide +kernel

theorem test_wf_values :
    (Instr.mbDoorbell 0 3 0x10000).wf = false ∧ (Instr.mbCplHead 0 3 0x10000).wf = false ∧ (Instr.evRingEnable 0 (2 ^ 32)).wf = false ∧
      (Instr.registerWrite 0 0 9 0).wf = false ∧ (Instr.registerWrite 0 0 4 (2 ^ 32)).wf = false ∧
      (Instr.registerWrite 0 0xFFFD 4 0).wf = false ∧ (Instr.soSignal 0 0x10000 3 false).wf = false ∧
      (Instr.carryComplete 0 256).wf = false ∧ (Instr.catchupSlot 0 (2 ^ 20) []).wf = false ∧ (Instr.rtoExpiry 0 1 (2 ^ 48)).wf = false ∧
      (Instr.weirBudgetEffective 0 0x10000).wf = false ∧ (Instr.linkTrainingDone 0 1 256).wf = false ∧
      (Instr.receiveBlockComplete 0 1 (2 ^ 24)).wf = false ∧ (Instr.neighbourNotice 0 1 (2 ^ 64) 0 0).wf = false := by
  decide +kernel

theorem test_wf_payloads :
    (Instr.devInfo 0 3 (some ⟨1, 256⟩) none).wf = false ∧ (Instr.mbFetch 0 3 (some ⟨0, 1⟩)).wf = false ∧
      (Instr.ctrlFlitRx 0 1 ⟨256, 2 ^ 2048⟩).wf = false ∧ (Instr.ackRx 0 1 0 ⟨2, 65536⟩).wf = false ∧
      (Instr.floodResult 0 ⟨1, 256⟩).wf = false ∧ (Instr.ergLineRead 0 3 .maint [⟨8, 0, 1⟩]).wf = false ∧
      (Instr.ergLineRead 0 3 .maint [⟨0, 10, 1⟩]).wf = false ∧ (Instr.radd 0 5 ⟨32, 0, 0, 0, 0, 0⟩).wf = false ∧
      (Instr.radd 0 5 ⟨0, 0, 0, 8, 0, 0⟩).wf = false ∧ (Instr.ergBringup 0 []).wf = false ∧
      (Instr.timingSymbolRx 0 1 ⟨2 ^ 80, 0, 0, 0, 0, 0, 0, true⟩).wf = false ∧
      (Instr.timingSymbolRx 0 1 ⟨0, 0, 0, 8, 0, 0, 0, true⟩).wf = false ∧
      (Instr.bgCommandComplete 0 0x10000 ⟨0, 0, 0, Buf.empty⟩).wf = false ∧ (Instr.radd 0 5 ⟨31, 0, 0, 0, 7, 1⟩).wf = true := by
  decide +kernel

theorem test_wf_disturbances :
    (Instr.coreDmaDescriptor 0 ⟨5, [⟨.scratch 5 786432, 0, 1⟩]⟩).wf = false ∧ (Instr.coreDmaDescriptor 0 ⟨5, [⟨.scratch 128 0, 0, 1⟩]⟩).wf = false ∧
      (Instr.matrixDescriptor 0 ⟨5, [⟨.scratch 5 9, 10, 1⟩]⟩).wf = false ∧ (Instr.matrixDescriptor 0 ⟨128, []⟩).wf = false ∧
      (Instr.drainStart 0 ⟨5, []⟩ 2).wf = false ∧ (Instr.drainStart 0 ⟨5, [⟨.basin 5 2 0 0, 0, 1⟩]⟩ 0).wf = false ∧
      (Instr.drainStart 0 ⟨5, [⟨.basin 128 0 0 0, 0, 1⟩]⟩ 0).wf = false ∧ (Instr.drainStart 0 ⟨5, [⟨.basin 5 0 9216 0, 0, 1⟩]⟩ 0).wf = false ∧
      (Instr.drainStart 0 ⟨5, [⟨.basin 5 0 0 10, 0, 1⟩]⟩ 0).wf = false ∧ (Instr.drainStart 0 ⟨5, [⟨.oasis 402653184, 0, 1⟩]⟩ 0).wf = false ∧
      (Instr.drainStart 0 ⟨5, [⟨.basin 5 1 9215 9, 9, 255⟩, ⟨.oasis 402653183, 0, 1⟩]⟩ 0).wf = true ∧
      (Instr.flitLost 0 1 [8] Buf.empty).wf = false ∧ (Instr.flitLost 0 1 [0, 7] Buf.empty).wf = true ∧
      (Instr.linkFrameStart 0 ⟨8, 0⟩).wf = false ∧ (Instr.timingSymbolSend 0 ⟨8, 0⟩).wf = false := by
  decide +kernel

/-! ### States and images of the tests -/

/-- A device that is up, with its options loaded. -/
def up : State := { State.reset with aon := { Aon.reset with phase := .up, railsOrder := 7, optsDone := true, chainAddr := 5, resetCause := 1 } }

/-- A command entry: opcode, parameters, and the descriptors of BUF0 and BUF1 (R390). -/
def ent (op params : Nat) (d0 : Nat := 0) (d1 : Nat := 0) : Buf := ⟨256, packBits [(16, op), (16, 7), (32, 0), (64, 192), (128, d0), (128, d1), (128, 0), (1536, params)]⟩

/-- A buffer descriptor of `n` bytes that the device reads, or writes (R391). -/
def rd (n : Nat) : Nat := packBits [(64, 0x1000), (32, n)]
@[inherit_doc rd] def wr (n : Nat) : Nat := packBits [(64, 0x1000), (32, n), (1, 1)]

/-- A command waiting first in a mailbox of a role. -/
def posted (s : State) (role : Nat) (e : Buf) (mb : Nat := 0) : State :=
  (s.putMbox mb { s.mbox mb with state := .open_, role, cmds := [⟨e, .waiting, 0, .empty, 0, 0, .empty, .empty⟩] }).onPcie fun p => { p with rotor := 15 }

/-- An image of sections given as type, record count and bytes (R360). -/
def dirOf : Nat → List (Nat × Nat × Buf) → List Buf
  | _, [] => []
  | off, (ty, n, b) :: l => packBuf 16 [(16, ty), (16, 0), (32, off), (32, b.len), (32, n)] :: dirOf (off + b.len) l
@[inherit_doc dirOf] def mkImg (job id cw : Nat) (l : List (Nat × Nat × Buf)) (sizes : Nat := 0x01010101) : Buf :=
  let dir := Buf.cat (dirOf (64 + 16 * l.length) l)
  let body := Buf.cat (l.map (·.2.2))
  (packBuf 64 [(32, 0x424A4C4F), (16, 3), (8, l.length), (8, 0), (64, job), (64, id), (32, sizes), (32, cw), (32, 64 + dir.len + body.len)]).app
    (dir.app body)

/-- A timetable section with its entries (R53, R54). -/
def ttSect (period : Nat) (l : List Buf) (guestSo : Nat := 0) : Nat × Nat × Buf :=
  (1, l.length, (packBuf 64 [(64, 0), (40, period), (24, 0), (21, l.length), (11, 0), (16, 100), (16, guestSo)]).app (Buf.cat l))
@[inherit_doc ttSect] def tent (action target : Nat) (arg : Nat := 0) (offset : Nat := 0) (duration : Nat := 1000) (policy : Nat := 0) (guard : Nat := 0)
    (pre : Option (Nat × Nat) := none) (sig : Option Nat := none) (catchup : Nat := 0) : Buf :=
  packBuf 32 [(40, offset), (8, guard / 8), (16, (pre.getD (0, 0)).1), (28, duration), (4, policy), (12, target), (8, action),
    (1, b2n pre.isSome), (1, b2n sig.isSome), (10, 0), (32, (pre.getD (0, 0)).2), (16, sig.getD 0), (16, 0), (20, catchup), (12, 0), (32, arg)]

/-- A running job of an image, at a step that began at JT 0 ns of it. -/
def jobOf (img : Buf) (step : Nat := 3) (phase : JobPhase := .running) : Job :=
  { image := img, epoch := 0, hasEpoch := true, seed := 9, sfLimit := 4, phase, fresh := false, step, sn := 0, xNext := 0, xPrev := 0,
    sfRun := 0, missThis := false, relayout := none, oldImage := none, drainStep := 0, stopMb := none }

/-- An image with a timetable alone, and a device that runs it. -/
def img0 : Buf := mkImg 0x77 0x88 0 [ttSect 3900000 []]
@[inherit_doc img0] def running (img : Buf := img0) : State := { up with job := some (jobOf img), ht := { HtUnit.reset with state := .locked } }

/-- An image whose timetable holds these entries, beside other sections. -/
def imgOf (l : List Buf) (secs : List (Nat × Nat × Buf) := []) : Buf := mkImg 0x77 0x88 0 (ttSect 3900000 l :: secs)

/-- A kernel of one END-like word on core 5 that draws as entry 0 (R368). -/
def kernSect : Nat × Nat × Buf := (2, 2, (packBuf 16 [(32, 0), (16, 1), (5, 0), (11, 0), (20, 0), (1, 1), (11, 0), (7, 5)]).app
  ((packBuf 16 [(32, 64), (16, 1), (5, 0), (11, 0), (20, 0), (1, 0), (11, 0), (7, 5)]).app (Buf.zeros 128)))

/-- A main-job kernel on a core. -/
def kern (guest : Bool := false) : Kernel :=
  { index := 0, entry := 0, guest, base := 0, nprof := 0, codeLen := 64, step := 3, startCc := 0, plannedJt := 0, limitJt := 10000, pos := 0,
    nextIndex := 0, lastIssue := 0, issuedAny := false, stopped := false, ended := false, lastDone := 0, qCount := 0, passed := 0,
    waitFrom := none, lockFrom := none, vwaitFrom := none }

/-- A guest of the image with kernels, and a commit decision for step 3. -/
def guest0 : Guest := ⟨imgOf [] [kernSect], 1, [], true, false, none, false, 5⟩
@[inherit_doc guest0] def decided (d : Decision) : State → State := fun s => s.onCom fun c => { c with decision := some ⟨3, d, if d = .finite then 0 else 4, one32⟩ }

/-- An image with a commit block: its micro-batches and watch slots (R248, R253). -/
def comImg (l mbs slots : List Buf) (ovr : Nat := 0) (clip : Nat := 0x3F800000) (secs : List (Nat × Nat × Buf) := []) (nw : Nat := 0) : Buf :=
  let tt := ttSect 3900000 l
  let o := 64 + 32 + 16 * secs.length + tt.2.2.len + 64
  mkImg 0x77 0x88 0 (tt :: (0xC, 1, ((packBuf 64 [(8, 16), (8, 0xF0), (8, 24), (8, 3), (16, 4), (16, 0), (32, 0), (32, clip), (2, ovr), (14, 0),
    (16, 0), (16, nw), (16, 50), (8, mbs.length), (16, slots.length), (40, 0), (32, o), (32, o + 16 * mbs.length)]).app (Buf.cat mbs)).app
      (Buf.cat slots)) :: secs)

/-- A micro-batch entry, and a watch slot of tensors 0 to 9. -/
def mbEnt : Buf := packBuf 16 [(16, 5), (32, 2), (40, 500), (16, 30), (16, 6)]
@[inherit_doc mbEnt] def slotRec : Buf := packBuf 32 [(20, 0), (20, 9), (32, 0), (16, 100), (8, 0), (48, 1000)]

/-- Core 5 in this state under the running job, and its kernel store with this code. -/
def at5 (c : Core) (img : Buf := img0) : State := { running img with cores := [(5, c)] }
@[inherit_doc at5] def withCode (b : Buf) (s : State) : State := { s with kstore := s.kstore.store (5 * 2 ^ 18) b.len b.val }

/-- A matrix descriptor of 1 by 1 by 1 FP32 products into tile 0. -/
def mat1 : Mat :=
  { fmtA := 0, fmtB := 0, fmtD := 0, scaleA := 0, scaleB := 0, transA := false, transB := false, cont := false, drain := false, tile := 0,
    shape := 0, profile := 0, intsat := 0, sigEn := false, waitEn := false, tscaleA := 127, tscaleB := 127, m := 1, n := 1, k := 1,
    aAddr := 0, bAddr := 64, aScale := 0, bScale := 0, dAddr := 128, dScale := 0, aLd := 1, bLd := 1, dLd := 1, aSld := 0, bSld := 0,
    dSld := 0, sigSo := 0, waitSo := 0, waitCount := 0, tag := 33 }

/-- A core DMA descriptor of 4 rows of 8 bytes from scratch 0 to scratch 4096 of the same core. -/
def dma1 (sig wait : Bool := false) : Buf :=
  packBuf 64 [(8, 0x44), (2, 0), (2, 0), (4, 0), (4, 0), (2, 0), (1, 0), (1, b2n sig), (1, b2n wait), (7, 0), (32, 0), (32, 4096), (16, 4), (16, 8),
    (24, 8), (8, 0), (24, 8), (8, 0), (16, 44), (16, 9), (32, 1), (16, 34)]

/-- A vector block of these instruction words. -/
def vblk (l : List Nat) (rep : Nat := 0) (adv : Nat := 0) (ts : Nat := 0) : Buf :=
  let n := (8 + 8 * l.length + 63) / 64 * 64
  packBuf n ([(8, 0x56), (12, l.length), (16, rep), (16, adv), (12, ts)] ++ l.map fun w => (64, w))

/-- A core that runs a kernel, its parts as given. -/
def busy5 (k : Kernel := kern) : Core := { Core.reset with kernel := some k }

/-- A vector instruction running on core 5: some registers hold values, and mask MK1 enables the even lanes. -/
def vecOn (op : Nat) (f : VFields) (v : VState := { VState.reset with
    regs := ((List.range 64).map fun l => (l, BitVec.ofNat 32 (0x3F800000 + 0x00800000 * (l % 7) + l))) ++
      (List.range 64).map fun l => (64 + l, BitVec.ofNat 32 (0x40000000 + 0x01000001 * l))
    masks := [(1, BitVec.ofNat 64 0x5555555555555555)] }) (ts : Nat := 0) : State :=
  at5 { busy5 with vact := some (⟨0, 1, vblk [vecWord op f] 3 2 ts, 7, some 8⟩, ⟨0, 1, 1⟩), v }

/-- Erg in service, channel 5 in this state, under a running job. -/
def ergOn (c : ErgChannel) (img : Buf := img0) (ram : Ram := ⟨[], []⟩) : State :=
  { running img with erg := { Erg.reset with ready := true, capacity := 64, density := 16, ranks := 2, rate := 12800, ram, chans := [(5, c)] } }

/-- A line request of Rilseti at ELA 5 pages. -/
def req (write : Bool := false) (dest : ErgDest := .engine) (reread : Bool := false) (user : ErgUser := .openRilseti) : ErgReq :=
  ⟨user, write, 5 * 2 ^ 21 + 128, 77, false, reread, dest⟩

/-- A DIMM that the list of R148 has. -/
def dimm (rates : List Nat := [12800, 10400]) : Dimm := ⟨true, true, 64, 16, 4, 2, true, rates⟩

/-- Port 2 in this state under the running job. -/
def portOn (n : NearPort) (img : Buf := img0) : State := { running img with near := [(2, n)] }

/-- A port in UP, and a block bound on it. -/
def upPort : NearPort := { NearPort.reset with signal := true, state := .up, width := 8, lanesOk := 255 }
@[inherit_doc upPort] def bound1 (op : Nat := 0) (got : List Nat := []) (done : Bool := false) (fin : Nat := 5000) : Bind :=
  ⟨0, packBuf 64 [(24, 7), (4, op), (2, 1), (2, 0), (32, 0), (32, 4096), (24, 480), (8, 0), (32, 8192)], 3, got, [], 2, [], [], 5, false, done, fin⟩

/-- An image with a CHECKPOINT region of two halves of 2 MiB (R409). -/
def imgCk : Buf := mkImg 0x77 0x88 1 [ttSect 3900000 [], (0xC, 1, Buf.zeros 64),
  (0xD, 1, packBuf 32 [(4, 0), (4, 0), (8, 5), (16, 0), (64, 2 ^ 26), (64, 2 ^ 23)]), (0xE, 8, packBuf 64 [(4, 8)])] (sizes := 0x01010201)

/-- Erg with a complete checkpoint of step 7 in a half, made by this job. -/
def withCkpt (s : State) (h : Nat := 0) : State :=
  let l := s.exportRecs imgCk 7 (7 * 3900000)
  let b := Buf.cat ((l ++ [endRec l (imgEpoch imgCk) 7]).map Rec.bytes)
  s.ergWrite (ckptBase imgCk h) b.len b.val

/-- A job image with one fragment and one shard of 256 elements, on site 1 of sites 0 to 2, with NORM_EN 1 (R182, R244, R295). -/
def imgFar (phase : Nat := 0) (more : List (Nat × Nat × Buf) := []) : Buf := mkImg 0x77 0x88 0 ([ttSect 3900000 [],
  (9, 1, packBuf 64 [(20, 5), (6, 0), (2, 0), (1, 0), (1, 0), (1, 1), (1, 0), (3, 2), (4, 0), (9, 0), (16, 0), (16, 16), (16, 16), (16, 0), (16, 0),
    (16, 1), (16, 1), (16, 0), (16, 0), (16, 1), (16, 1), (43, 2097152), (21, 0), (32, 0), (32, 4096), (32, 8192), (32, 12288), (32, 20480)]),
  (0xA, 1, (packBuf 64 [(3, 1), (5, 0), (5, 7), (3, 0), (7, 1)]).app (packBuf 32 [(16, 100), (16, phase), (13, 2), (3, 0), (16, 50), (16, 5), (3, 2), (1, 0), (4, 0),
    (8, 0), (16, 0), (16, 0), (32, 2 ^ 20)])),
  (0xC, 1, packBuf 64 [(128, 0), (2, 0), (1, 1)])] ++ more)

/-- The running job of `imgFar` with one session to site 0 on far port 0, and its fragment. -/
def farOn (x : Fragment := { Fragment.reset with jstate := 3 }) (y : Session → Session := id) (img : Buf := imgFar) : State :=
  let port : FarPort := { FarPort.reset with
    routeA := { FarRoute.reset with linkUp := true, ip6 := 77, mac := 78 }
    partner := 0
    slice := some (1, 63, 10 ^ 9) }
  let partner : Partner := { Partner.reset with used := true, quota := 100, rate := 100000, burst := 64, addrA := 99 }
  let ra : SessRoute := { SessRoute.reset with inUse := true, rxOk := true, peerOk := true }
  let ses : Session := { Session.reset with
    used := true, localId := 5, peerId := 6, state := .open_, keyTx := 98, keyRx := 99, keyRxNext := 97
    tokens := 10 ^ 9, rate := 100000, burst := 64, quota := 100, ra := ra }
  let a : Acrix := { Acrix.reset with frags := [(0, x)], ports := [(0, port)], partners := [(0, partner)], sess := [(0, y ses)] }
  { ergOn ErgChannel.reset img with acx := a }

/-- A datagram received, and nothing but zeros where it was dropped. -/
def gotOf (s : State) (dg : Buf) (ty : Nat) : Got :=
  match s.rxDatagram 0 0 dg (fun x => x = ty) with
  | (some g, _) => g
  | (none, _) => ⟨0, ⟨0, false, 0, false, false, 0, 0, 0, 0, 0, 0, 0, 0, 0, 0, 0, 0, 0⟩, Buf.empty, false⟩

/-- The first chunk of the image's far plan. -/
def chunk0 (b : Buf) : Chunk :=
  (chunkPlan b 0).headD ⟨Shard.ofBuf Buf.empty, 0, 0, 0, 0⟩

/-- A datagram of that session, sealed under its receiving key. -/
def dgram (type seq : Nat) (text : Buf) (round : Nat := 0) (chunk : Nat := 0) (last : Bool := true) (key : Nat := 99) (epoch : Nat := 0) : Buf :=
  let h : AcxHdr := { type, retx := false, route := 0, last, echo := false, session := 5, epoch, seq, txCount := 0, ackBase := 0, sack := 0, round, frag := 0,
                      site := 0, plen := text.len, chunk, tsVal := 3, tsEcr := 0 }
  h.bytes.app (gcmSeal (keyOf key) (acxNonce key seq 0) h.bytes text)
/-- A test key: a modulus of 3,072 bits. -/
def keyN : Nat := 0xbcc19303f77bbaccc5f6b198f3e6cdc4b28f0758c8408b66c8e88b7b330a8b0e5152826de6990811cd9bc52dc1c15c85e6c5e6a5007964d3dc18ccf416f220acde819224a3af6975316427f1e7206b12cf19d750f4e785377a96ffdde8544de5ba032e2ef9ffa46d5378dd5e06194dd4b4a9c44a6ef57e3d16cd0566b7d03ce26a5bb3151b4e7d08cbadf6606cc1fe88ac6d93907e2486a30195b8fed62c9ac71bb2777de7bd54be5f8dd756996243426aff61b098374a07bafc1ab0c7053e95d67ed8e1df5d8bac02440abd5f159ef3e1fcfc934597bbadcfebb8c21f051b836056b66af170f744561d5691c3a0fa55c14bfe9587206c23d288c5e8c17230779fec99e1edfd22736428da1bbd64b7342cf651a7fd7252c645fb5b8df8882ef65406f87582b392a55598fcbe206c1475ee5bbe85fd6765e4de0f26f627070650c80390be6a86afea2e0b3103ad99844d669e5c33637541b8f9da608ea75ca1e5d5180509e2316300ebae905af985c19b945a547d96ec401171f7da1b5341f873

/-- A certificate of ROLE 3 or 4 for that key, before it is signed (R464). -/
def certBody (role job : Nat) : Buf := Buf.cat [packBuf 64 [(32, 0x43524C4F), (3, role), (1, 1), (28, 0), (64, job), (64, 0), (64, 2 ^ 64 - 1)], Buf.ofBe 384 keyN]

def sigCert3 : Nat := 0x286e8efed708257793626b732a4ad90ed065f0dc39bbe898a3303ffcfb061ed0646489ceeffaec6f24b7f34d0961c183fa86ed1051a452d0ad334e8f4ca7cd8154eb66a13d4e8e522a89e7ab907ccc701969ffb3225d48d11377461a37b5f6d09042f4163fc327af96cc9e0d00e3cce113bf97988bdc65cd4f0b62404546f765d3a1415c09d4d4a3f2c16cc3ffb15b820d13ac41cbb439cf6d4591a9834e6bde3c8759cdef3cac4446ca656db0f156a59b8599ff4c41c91b0b986179f092beabc4dfa9abfda164998852aa7f422ab556711bd5d2454882cfbc54215833242af017cfbc1c2176b1ae8ef5842c1557dc70b8cf851ee7612fef5b2f7b400ee424e3f6281af9aeef4dd5c6e8fad6d805296976be40aac6f0633876101ff7eaf7088d6a77a0b485c6a9f740bb781bb9861232abbea9af0b3d07e24a1b73062aa7103649739c42bc6b105ef91149cf513bfebbec984f6abde8a2aa5ab154a08b15cda517d38402c9cd8c9469daba05ef0b7449fe562c587016a680543ae76b1c8bee2
def sigCert4 : Nat := 0xb7e407660172a7de9c8d36124098ecc0cce03d1252e4269b405e6d106bba6e22df3ac0ea8f46cf6b546acfb78a60357d5ba49cce0d896990179f55a555fa87cedfc0b8be35dd2a931103c24437c1ad85c5ed8cdaa242f6878311b41d1ae4e18e4936cbf380625c1a41c5fc5064157f674be5eb7a8a23deee3c59bc67cfd2f0399a1a117959b7e3641cd3a9e26d74cc39eb294d06225eff1ea2fceb290e40930739818dc8f7e1fa30ff9a0951a97a8358f186a130339b91c33984e958b9531cb15fd64cd959a2f5b41ba397e76ca7aa5927477b60f2ddee091beb93ed31fcc053e19b85caae9d99a4f024a2b6934eac2e1f9aaf3ac9854f1ba797a239ba44ba68404b4850c9510439eb7e49614a7960a5c582c2e60fb1c41174d78523e26bc0c8a84a622f1010d9c1e4e85514e145a0cf45b3a528ec1b50e8c43ef0ca4e61c94026c901de87a6b832ea14dc1d76454c4ff7cee48a7f8a149dd6b6eff4694507e9a9af222f001480041307fbffb13a57ba82214624ab6a8dc761eeebc14576f95
/-- Certificates that the Owner key issued. -/
def cert3 : Buf := (certBody 3 0).app (Buf.ofBe 384 sigCert3)
@[inherit_doc cert3] def cert4 : Buf := (certBody 4 0x99).app (Buf.ofBe 384 sigCert4)

/-- An image whose sections lie at multiples of 64 bytes (R360). -/
def dirAl : Nat → List (Nat × Nat × Buf) → List Buf
  | _, [] => []
  | off, (ty, n, b) :: l => packBuf 16 [(16, ty), (16, 0), (32, off), (32, b.len), (32, n)] :: dirAl (off + alignUp b.len 64) l
@[inherit_doc dirAl] def pad64 (b : Buf) : Buf := b.app (Buf.zeros (alignUp b.len 64 - b.len))
@[inherit_doc dirAl] def mkAl (guest job id : Nat) (l : List (Nat × Nat × Buf)) : Buf :=
  let d := pad64 ((Buf.zeros 64).app (Buf.cat (dirAl 0 l)))
  let dir := (Buf.cat (dirAl d.len l))
  let body := Buf.cat (l.map fun x => pad64 x.2.2)
  ((packBuf 64 [(32, 0x424A4C4F), (16, 3), (8, l.length), (1, guest), (7, 0), (64, job), (64, id), (32, 0x01010101), (32, 0),
    (32, d.len + body.len)]).app dir).app ((Buf.zeros (d.len - 64 - dir.len)).app body)

/-- The refresh entries of 32 channels in a step of 3,900 ns (R57). -/
def refreshes : Buf := Buf.cat ((List.range 32).flatMap fun c =>
  [tent 0x31 (0x90 + c) 0 0 320 3, tent 0x32 (0x90 + c) 0 1950 320 3])
@[inherit_doc refreshes] def armTt (id guestSo : Nat) : Nat × Nat × Buf :=
  (1, 64, ((packBuf 32 [(32, 0x54544C4F), (16, 3), (16, 0), (40, 3900), (24, 0), (21, 64), (11, 0), (16, 100), (16, guestSo), (64, id)]).app (sha256Buf refreshes)).app refreshes)

/-- Commit data in range with one micro-batch and one watch slot (R244). -/
def armCommit (off : Nat) : Nat × Nat × Buf :=
  (0xC, 1, Buf.cat [packBuf 64 [(8, 0), (8, 0), (8, 1), (8, 1), (16, 0), (16, 0), (32, 0), (32, 0), (3, 0), (13, 0), (32, 0), (16, 1), (8, 1), (16, 1), (8, 0), (32, 0), (32, off + 64), (32, off + 80)], Buf.zeros 16, packBuf 32 [(20, 0), (20, 2 ^ 20 - 1)]])

/-- An image that passes every check of an arm (R362). -/
def imgArm (id : Nat := 0x88) (sh : List Buf := []) (gso : Nat := 4) (more : List Buf := []) : Buf := mkAl 0 0x77 id [armTt id gso, (2, 0, Buf.empty), (3, 0, Buf.empty),
  armCommit 2304, (9, sh.length, Buf.cat sh),
  (0xD, 8 + more.length, Buf.cat (((List.range 8).map fun d => packBuf 32 [(4, 1), (4, 1), (8, 1), (16, 0), (64, d * oasisSize), (64, 2 ^ 24)]) ++ more)), (0xE, 8, Buf.zeros 64)]

/-- A device that can arm that image. -/
def armOn : State :=
  let e : Erg := { Erg.reset with ready := true, capacity := 64, density := 16, ranks := 2, rate := 12800 }
  let i : Island := { up.isl with ownerKey := keyN }
  { up with ht := { HtUnit.reset with state := .locked }, erg := e, isl := i }

def sigArm : Nat := 0x233e2c2fc3d3f5b844a450f1e2dc93ef1dbbc89bbe63797209e900b5b62c1300637c1e84cd1f47dff95a637d4083926a4cc4419d968999c4ce97cb54d8e33bccc9380618ab703504053aba9ae9aefca72b0ac52c342ea9036ab31db928eea6c3daeb0c878d6aee718fd7ea1246aab244928b02037a9930bd2d0724424e4e3bc89e2e3c8e4ad9484acc07b03ea3e76edd6124464c190f450dca8361d20714301fe4c1225dbcc5111852bf81a5114a310f327c327035943693c18ca7ba87e66e68f5dfe66c4606dea60a0d49969b7783b3236cdbedbc63d22074bbe535bff2017d2a444e18d9920e3996802ab491ba3485fd7719552f57e7b04fc808091b06ad9fd0a7b82f9ebcc0fd3808a1f22a0b4c31a6d67bc9c1f2adf5bb37dc9595b902d8f13e84dccdf143c0503c81855dba3e478cc7acabf062c4ce099d0d885b04712829f5376643dceec0d1742d47c4e6e12a63a900d7dbf0e93ce3afa324ab2efab4f105a4ba950de734940f10a480027ce4a61f17703bbd494f22b7d78d879fea87
/-- An image with its trailer. -/
def signed (b : Buf) (cert : Buf) (sig : Nat) : Buf := Buf.cat [pad64 b, cert, Buf.ofBe 384 sig]

/-- The same job in a newer layout, whose one shard has EPOCH 1 (R404). -/
def imgRe : Buf := imgArm 0x89 [packBuf 64 [(20, 5), (6, 0), (2, 0), (1, 0), (1, 0), (1, 1), (1, 0), (3, 2), (4, 0), (9, 0), (16, 1), (16, 8), (16, 32), (16, 0), (16, 0),
    (16, 1), (16, 1), (16, 0), (16, 0), (16, 0), (16, 0), (43, 0), (21, 0), (32, 0), (32, 4096), (32, 2 ^ 25), (32, 2 ^ 25 + 4096), (32, 0)]] 4
  [packBuf 32 [(4, 1), (4, 0), (8, 0), (16, 0), (64, 2 ^ 25), (64, 2 ^ 21)]]
def sigRe : Nat := 0x50845c6da4c1cc0cf5e0b7f752a5b2853a4f167265a204421eb8028a0151ade1a83cbd2d2cc1906549877a6f2c2eba6285fb81d0e5f112d89f998752ecad8ab0d39ce89358f078ff88dacdf1bdd2dae761a5a852894640d186e99979c32b28bb2d1fd18da0cbcb83dd73eaf1f88974e762c15099a8566a882ed8ee146cc03acd3f92d937a0255059344f6c15b1d38f558a9157725a5f0e829b4333f0e64f4899a31dcfd89d90c577e1265582c7a6279eaea13a4e4e20b77732589acff7055e8e38b0d8d8a530e2c78dbeb7f0364dcb6c390d95ccf34e9d6f83dca124a86e19684411a912f7e4761b6bb1254660ae4a59481aeda62addfbe198c8c5320dce91bc13853c48da59784d2017fe8939dbe90719465103f76942c2be8b35e54b945546c0bdd5ec7bca95dff6ee4d2edb306ba5d8356c9c9a881e08d9fcdde240c65207d87d6f6f391c6c674b1631f361d35cba7955f1ab88fced4c9e3e75ded8c2b0fda936912212e082b0a7e3a4c738611d2353b77334d37eda78791dbe35f5dee9be

/-- A guest's image (R480). -/
def imgGuest : Buf := mkAl 1 0x99 0x9A [(2, 0, Buf.empty), (3, 0, Buf.empty)]
def sigGuest : Nat := 0x5b219501bb7c3d25b7fb658197be58bc11cb9592b8709d2b7893369cdb253d96a32db4f2c88b710c0a54f7a06b3295ac3c923ed9d766f78893132fe9069b12b1cdbfad6d7c8e5925243d17445913ada0a502c2a4970852922c61ccf312aa2b5f170e1ea45e477cc0f799ca905e852a9a866925e0443677ff3aacfe79078dd8a3a1de92c8c4b76cc2b907ba26c78e0a7e4622e0adf085ea52d49dc9cd145359dabfa611f6559b9b6230e14548fc1cfef7f9393b99a2751e25b5629739a53364046d7cc557ca359ef5eaf1685d28562cff3ac033b68a95d27c978881a0210bacfe4fbc43a29aa471431e039fb95b8d0bc26b3c4de2453d7f42be1104b9292620e37ae4bb5c48bd348aa060d3cbf3352ea0513fb55fd9e7a681da71c93c63684cb4ce45046ead24056a11e8c08bf91b2b13e5d65456d26612525ff8e13b12ca77976cbe26b772d3c3661e91dfab83faf6d8d21a1c8b44644af85618e12a566f6b245687d5ecfce9c028eeeeadbb50fd7310d7c3ea56b6d52999ce3826c8de80e30

/-- A key set that admits the test key (R480). -/
def keys1 : Buf := (Buf.ofLe 8 1).app (sha256Buf (Buf.ofBe 384 keyN))

/-- A transfer record to the Owner key `key`, and a debug grant, before they are signed. -/
def xferBody (seq : Nat) (key : Nat) : Buf := Buf.cat [packBuf 64 [(32, 0x58544C4F), (16, seq)], Buf.ofBe 32 armOn.ownKeyDigest, Buf.ofBe 384 key, packBuf 64 [(32, 5)]]
def sigXfer : Nat := 0x2b2407650b19d877be3805766fe174fca51f8189e3baad97e201bf0f4ac71d7bcbb25fc7649d28ffa0d403e6a576acfda4f3b73e83c25bc1a303d4682ec9d54e06c354bbb4991cf9be6805a659eb0ea93f06424c3ee6cbe7df62d1fb58fe5d700431a415e79172dea2774af5e069fa3e95e3488c012cf265fe52303162ba649a7c0f637f6dd0ef7aaaf0fc7d595ccfbe3e74734e12f1b6d77fb6c8912038b4cbe6d689b32fa511fa67288b93d516c29dde2060b3ca9292a71e4c67504e97985cb7507fb3615d9f2c172ebb4bcc1000d0cbcad963657643bc9452f40c9b23ba8aa2b10801e3aeaca94e1fb3f05ccff8fdd514d662ded643f9d5e55b7e0971cbb6981b25522f3d1f62ed17170b64632d8b841f591ea62b88c35cd03eff96c3a7783154d162d9cc876d1335a45035702c24308a3f0d55c42db9f42983468426806499f75bfde403ba058001c890e355450c770482bc083029ef9b1e5d70cd6aa011e647e6526c7dfb1aa7909a5b092f8ffcb75b8c21b68b42a88448b3d461c4f7f3
def sigMap : Nat := 0x9d69db7fac011278f16091ffc4b3a05ff060f69ed0cc196b7c4f0e7571e4cc79e2c6f586875db39336661d68353b44b61b5c2f0440ed173c9634cdeed039eb5dc7433d81b3a90254920cbd9b653cb0f0bbb357927d5e8445d8571ad32ff0d79e1982a51bcf7663ae65eef83859761670e660a72ff6655416d9889bbe2b6a5a349681781129348894e37a9c97fa6f21228d3ae38581fd48717b74139260f90f06a7f4745f46c9d75b3252da46f90a38599a98e389eb5b57a762dd74ffe733d79c6d1e4656476036af789fc419981219a52c062c98c7c1b594f77995a540cd321ad09a5e2499d3e6b878e6256c2f0bc70fbfd02d6b2797500c511f49bf8b5369ae27be0ea832a4e632656c2d8c228e32de044fc87b1ca037345ced000685e918f4765a67bde359d4ac66d5d88e6b9c1e0ac5d3adb2ca08d76c37920fe7defa12cb55d9e6afab3a8e8c986c4a5b0ddf0e480106fa9ce40afb9fc31427b7694c6d4eb2017ca438a0f7b55875a374517505a67f5f34ce16663560ad2c091d292cf737
def grantBody : Buf := (packBuf 16 [(32, 0x47444C4F), (16, 1), (16, 0), (64, 2 ^ 64 - 1)]).app ((Buf.ofBe 32 armOn.ownKeyDigest).app (Buf.zeros 16))
def sigGrant : Nat := 0x440174daa58cb2539cab10feb3d6418d6da9765e293f2da128c3503dd29b36ead85c6a6e5cd89fa656a1f48228aef5d24df7f14f5b2433566aae8c8c3accd91bf101a969c39bd903bf075fb00a817d2175fe269e2bd23c06ecaf296d671343a9dc797741e9bd8442a271067d91ccda24e1896e8439983ff6b1e2b5ac973136a5d1c896ffa59d8d863538e28a7bdaab74a6dbbbced7e20f514b2b281e737fb7c8c588362a29baf5062922ab59450e30b771a6841ceec2bf0825c1c73e54cf49543f18cd9c912b9d705f7ac268e47c144531559ae6b8cc19aa72b129c8abb92ccfeb41a8b597b9c62b78fde92bbfe8078734c38856867ab431df74116e6d4940a31500c431f856a4d6ef052fe62b24fce24afb063be00c9b0ef3854b341238cdf28360099a889708034261650f2ab5872dc3c2bf17956bd68a5582637091a062ff82f9b0e1a62ed987ff5b2c9be6ccc4e6260d612fb7b4f68e646f68c1ec51046cb2909d1599f2a292b8c54d5c123ddc6e7c44e699f0d607ae22dd2b90122b6371

/-- The proof of a role over the nonce 5 (R398). -/
def proofBody (cert : Buf) : Buf := Buf.cat [Buf.ofLe 32 5, cert.slice 0 448, Buf.ofBe 32 armOn.ownKeyDigest]
def sigProof3 : Nat := 0x2f7ee8c8363ba593b9e12585105752ff92de935bfc72a38e9f4cd570176efafeee1a1a9489615cc1c9f7ace8cd2fdb19a8c5d2a97dfd361486e01b2678ed3045a40993be3740d495bd0d2067bb7259bacce774aabb2221c1d509009f8c10fe5b3eeea95af9f4e8c53955d38e26d69dea816622b1d6702261a99eacc69fc735c86f5b0a22f2540cbd0aec06e1e64e924f39b0e4da06732ed1c42c7c9458e275690fcfb6e7863d961ff9dbe4ae9061830dadb234253784a43c441fe13daf20dbedebf969ccf5673fefa39f9a214e780583a368502299f04f922dfd8282a7f0cd434b73a58cbd81e1c97a35d2993079ee8a9d820078ebfcb96165bedfedaefb1d23e278e00c2678db1c208642af5fa6ea6214f502329a176bcc2177da2d10ae005a635bac14533988f7840e6805bd92ad78c424c6c326c9aad20679b18800b080e39eb847eb3b574cf457e3c69b7de94a81e0186f9aaa3edf9f054b78510a8780b615a16d3aaabe04cd5eefa573464c066d330ec8fbb990abf30072c1323f5fdb4e
def sigProof4 : Nat := 0x32b7e7750d3270cf822639257ba9761a3fe242c1241a8e17c648b8090e781d3ac0ab447135820656324fefa957942cce74b475d2d0b40b21156efb9c0c7dcd8d0390072b135ca6a418a544c48fc145868d6d26a301494461b8c334c82829fffe5daa5a9d90b108f7c28191a9288cdedaf3d5bf5ad56da4832d5437cf647a56f033c0ad50dfd9933f1cc804d8ae835afd2ffdc9f01193344fdfbca09da2f500d6c6316025b77d779cd6ac3e3cb9ef667ab9f40f3faf6466128aca9958ad08508a0c48166660a90f24f22da1091bf255680a712562eb961ef4473f717c5b126b49b76c11d2f1c76ae2a30e30a0af431fb21baa49ac29d2c974288c741454fbd9f8e69b602412d9411d3464d5cf1f14245e9d99f6c479c0c7eb5f03ff3a2663ff81dba8365a246ab653e74887afd54e7f07156bec8c6140cf4277148b84d4a357255bd483d0a092865dae98478a1e2d84b99c4100657632694830428ac283611ffd72d330e5d5890017866e02eeb3439f59251c7a96eef517864f986e02272937b2

/-- Certificates of a peer's identity: ROLE 5 as a root with the test key issues it, ROLE 0 as that one does (R465). -/
def peerBody (role : Nat) : Buf := Buf.cat [packBuf 32 [(32, 0x43524C4F), (3, role), (29, 0), (64, 0), (64, 0), (64, 2 ^ 64 - 1)],
  (if role = 0 then sha256Buf (Buf.ofBe 384 keyN) else Buf.zeros 32), Buf.ofBe 384 keyN]
def sigPeer5 : Nat := 0x55ce51dbe7d32532c706f360d9c1456037d79d2351ee19ba9ed3944d7d9b3702db613a216ad9a9956ff15674095402fa44ace3bef6f086e5d48f5d9e4c90daf2f8d478c6da451e599dca8e2ce5c0bb2eb0139af6c2a244056239d9720e6449006c2e43a4b383a23fafdfbeae21d6bd639ed34629da6a4d11737feedc3282c68c16145258ec59ae8bf74fb442b2805c00d1a76e490f62e5bea0fd23645efdbfcd9b47588b89147cf1272cc5a1c3b33e9c6c8199dfc7f66afb44f865b8f258ee7bf2f73e09e32a9ebdc25b8179af8d093d5006137fcdc744aa2867363b8b4ca8069515c13ebc677cf00cee7ff8f2b5d2ce9dfa0b828411fad73ef07312a8fa0280cc0a957ef02269727f0ed0d9902ad686a392b55989839e36e2fcb3bfd5b5f28a57dd7a5292c1e36a21d5f5619c1172a060d9dc1e3c26ce391c55fac2cf96833618e0080062a83808706c7d85f7d2551cec044de80b3a13144bd6c68d2ab24707851a78a1d2555680913ccb206021ba0de8d53bef4dc5f5a98a0a316274b09861
def sigPeer0 : Nat := 0x51a70b30b21f0a6d4909f71f1014219ba2959c02116410d3cf82badbbbdc7bb8d09d165c8f0207790160f2cb27f013becbae16d560f16bb3cf262ee1e44ec9a76f06b1a7531c67c831716326476b717d4df0acb255b74300f9a97f30cdc3aa699a9f552b37bc67f2ec4d24a84eca58c907e003a5301faa969bbea10baf36ff274199dbd726428c0086790aba6de5e43533520dc37ab5f6c3e59241dc3dd163292856f3a8dad6583fad9e8358e3962a0152d96dd5cc817c12835b2111950fd8c1d83e0a168c5ec54683d44ab0716809a30518c46c754ef43c577446127d9100474e34ba71af950c0e2ee3823646bcfa51cd1102068718202270e005ec7818181968c6d0635b01f072cde5d25d9ec255f2361c5fd9cdae4edcf0842c3640932bcda1b2d7d0567a601eeded9abbca29da68d4c8b4dbbb638712b91a0a7f8e4d1a6fbe65d1f505fbd0181a40a2623cb0bbb6c300711fe72f73e980bb7e2290f5b935f0f72563420adc1cdf717758fac96b47e2b02087bf670341946791b8b92ac1e9
def peerChain : Buf := Buf.cat [peerBody 0, Buf.ofBe 384 sigPeer0, peerBody 5, Buf.ofBe 384 sigPeer5]

/-- A device with an identity and a partner at site 1 of the test key; the INIT of that partner, and the ACCEPT of a storage endpoint (R335). -/
def helloOn : State :=
  ((armOn.onIsl fun x => { x with hasId := true, idOk := true }).putPartner 1
    { Partner.reset with used := true, keyDigest := keyDigest keyN, rate := 100000, burst := 64, quota := 100 }).putPartner 8
    { Partner.reset with used := true, keyDigest := keyDigest keyN, rate := 100000, burst := 64, quota := 100 }
def initBody : Buf := (helloHead 9 helloOn.imageId 1 helloOn.cw 55).app peerChain
def sigInit : Nat := 0x6338623148654c99415d5fc4bb9e4689fa6108f29419e5cd780a16c9cac5ddbf8f013cfe6dd2d5bfb99a6f1cf484cae296f456295360d9acbd098ad9eb86021d98f35ff2e2ed184bb70839a299151cf88228ce8b6646e9591c74c98b84302b627ae42dc1053d648ed816582162224c699fb750d90cbfa268486a62bd39af494f7c282781561bedb887d819808c02a29819bc19337284fe97accc51e4fe28f81e0bd0e5229639c62001136530859d8e309dffcd4892a13df3b63981f240c4e407bda6814672783f91ff8f579d5c336eeebe4266e210bd39720baadeaa674c1d3fb5b50604dcf76efe69c12f48d346f1b2e8be83776cf61f6c9d970817ca450cf947d1d5d578fb71dd1cf3696fef278821aa1d5d565bf81abd138450c998ae945d9fc82219b54622028aacbc734fabf56ac6bbbc7a472cbc657b6359aca11ec42a087249dbe52ee81e9428141a4d3f899cb5649a0d5e86232c9077078cc98015337f5dc9701525be07e46a8c1787152bf6051b5ddb5802035c7e2f0f2f81091544
def initMsg : Buf := initBody.app (Buf.ofBe 384 sigInit)
def acceptOn : State := helloOn.putSess 0 { Session.reset with used := true, localId := 5, state := .opening, initiator := true, peer := 8, initPay := Buf.zeros 8 }
def acceptBody : Buf := Buf.cat [helloHead 9 helloOn.imageId 1 helloOn.cw 55, peerChain, Buf.zeros 384]
def sigAccept : Nat := 0x3110c8e407cdb501d74d71eb953a10032bebe33af0d4d0ead5133afa034fa2f349f862513871e6c0cf242d523815c8d66c82e07a3ff3cd96da941a9fe30742939d65ee4d565596944e95d26071dfd535273cab05d2904ea286223fe4ed99b5d745c2fb204c21cdad2497a9fa31211a48ec9d87cacd806d9197cccae66e455f283f214826b9d564a63ebc756a3edab85ba018ad4f039dad5e342354e900c9a400262278510d191e359e8a10e826d0b768aea0ef7a88e92020d19bfad3e662bc01837a59d551e95f15d3dabf04320fd8db044b96b9ed358626b7f27db5cc0ba5512b8b714a4589dd954f7d2cafd7c4648c908b91698a3bb1690a3b248dd17335878cd85554881e96e0e749ab1b28f7eeffe1149aa77bfa415f908d4350340085f1ace4f806db5278e75d480500b4cba311f650d11186b2c3e24858960d898c79c294b3b8a3ef18e45a30628c760f5a0307f6423f34e2a8df864874978b2fcce82da6f5f1235cbb0ee9ee8b6c1502e9c69f36127322b8de87f2437ff9d2552ccd5b
def acceptMsg : Buf := acceptBody.app (Buf.ofBe 384 sigAccept)

/-- Every session place taken by a session that has not closed. -/
def helloFull : State := (List.range 16).foldl (fun s k => s.putSess k { Session.reset with used := true, peer := 6, state := .opening, localId := k + 1 }) helloOn

/-! ### Worked examples of the spec -/

/-- R10's example: JT 3,905 ns lies in CORE cycle 6,638, and 1,000 ns is 1,700 cycles. -/
theorem test_core_cycles : coreCycle 3905 = 6638 ∧ coreCycle 1000 = 1700 ∧ coreCycle 54724130 = 93031021 := by decide +kernel

/-- The worked entry A after R66: its four little-endian words. -/
theorem test_entry_words :
    Entry.ofBuf ⟨32, 0x032C32000001D4C0 + 0x0010102500009C40 * 2 ^ 64 + 2 * 2 ^ 128 + 0x0000001100000000 * 2 ^ 192⟩ =
      { offset := 120000, guard := 400, preSo := 812, duration := 40000, policy := 0, target := 0x025, action := 0x01, preEn := true,
        sigEn := false, preCount := 2, sigSo := 0, catchup := 0, arg := 17 } := by decide +kernel

/-- The first descriptor of the worked example of Cores and the matrix engine, as eight little-endian words. -/
theorem test_matrix_words :
    let d := Mat.ofBuf ⟨64, packBits [(64, 0x000000430AA7224D), (64, 0x0000100000600060), (64, 0x0006180000000000), (64, 0x000C6000000C3000),
      (64, 0x00000000000C9000), (64, 0x0002000300410041), (64, 0x0000080000000002), (64, 0x0000001700000000)]⟩
    d.fmtA = 2 ∧ d.fmtB = 2 ∧ d.fmtD = 7 ∧ d.scaleA = 2 ∧ d.scaleB = 2 ∧ d.transB = true ∧ d.transA = false ∧ d.drain = true ∧
      d.cont = false ∧ d.profile = 3 ∧ d.sigEn = true ∧ d.m = 96 ∧ d.n = 96 ∧ d.k = 4096 ∧ d.bAddr = 0x61800 ∧ d.aScale = 0xC3000 ∧
      d.bScale = 0xC6000 ∧ d.dAddr = 0xC9000 ∧ d.aLd = 65 ∧ d.bLd = 65 ∧ d.dLd = 3 ∧ d.aSld = 2 ∧ d.bSld = 2 ∧ d.sigSo = 2048 ∧
      d.tag = 23 := by decide +kernel

/-- "A negative block sum" of Exact accumulation: the addition, its pending carry, and the raw value. -/
theorem test_negative_block_sum :
    let a : Acc := (⟨2 ^ 288, 0, 0, 0⟩ : Acc).addDot 6 6 0x7E 0x7F [7, 3, 1] [0xB, 3, 1]
    a = ⟨(2 ^ 64 - 1) * 2 ^ 320 + 0xFFFFFFFDC0000000 * 2 ^ 256, 3 <<< 8, 0, 0⟩ ∧ a.int = -9 * 2 ^ 286 ∧
      a.raw.slice 32 8 = Buf.ofBe 8 0x000000C0FDFFFFFF ∧ a.raw.slice 40 37 = ⟨37, 2 ^ 288 - 1⟩ := by decide +kernel

/-- "Oversized product, NaN and ordinary terms" of Exact accumulation. -/
theorem test_oversized_product :
    ((⟨0, 0, 0, 0⟩ : Acc).addDot 3 3 0xFE 0xFE [0x7B] [0x7B]).addDot 3 3 0x7F 0x7F [0x7E, 0x40, 0xC2] [0x3C, 0x44, 0x3E] =
      ⟨0x0000000380000000 * 2 ^ 256 + 0x3100000000000000 * 2 ^ 512, 0, 3, 0⟩ := by decide +kernel

/-- The profile of "Scale, bias, squared ReLU, clip and E4M3". -/
def profE4m3 : Profile := ⟨2, false, false, false, 0, 1, 0x3F000000, 0, 0, 0xFF800000, 0x43C80000⟩

/-- The four columns of that example, as codes and flags. -/
theorem test_drain_e4m3 :
    let out (v : Fv) := stageBack profE4m3 0 0 (stageFront profE4m3 v 0 (dec32 0x3F000000) (fBF16.decode 0xBE80))
    (out (.fin false 11 (-1))).1 = 0x4C ∧ (out (.fin true 3 0)).1 = 0x00 ∧ (out (.fin false 50 0)).1 = 0x7C ∧
      (out (.fin false 50 0)).2.1.clip = true ∧ (out (.fin false 257 (-9))).1 = 0x00 ∧ (out (.fin false 257 (-9))).2.2 = true := by
  decide +kernel

/-- "An MXFP4 destination block". -/
theorem test_drain_mxfp4 :
    let l := [0x41500000, 0xBF4CCCCD, 0x3E99999A, 0x40300000].map fun x => x
    let r := mxBlock 6 false false (l ++ List.replicate 28 0)
    r.1 = 0x80 ∧ (r.2.take 4).map (·.1) = [7, 9, 0, 3] ∧ (r.2.map (·.2.2)).take 4 = [false, false, true, false] := by decide +kernel

/-- The example of R164 and R165: check symbols, and a flipped bit of symbol 5 located. -/
theorem test_symbol_code :
    checkSymbols 0xF1DEBC9A78563412 = (0x8A, 0x8B) ∧ gfTimesPow 5 0x40 = 0xE8 ∧ decodeSyn none 0x40 0xE8 = .single 5 0x40 := by
  decide +kernel

/-- The example of R151: channel and frame of an ELA. -/
theorem test_ela : elaChannel 0x00000123456789C0 = 11 ∧ elaFrame 0x00000123456789C0 = 18641 := by decide +kernel

/-- The example after R184: the copies of a shard. -/
theorem test_state_run :
    let x : Shard := { (Shard.ofBuf Buf.empty) with lbRows := 1024, lbCols := 1024, owNr := 1, owNc := 2, adam := true, snaps := 2, wErg := true }
    [Copy.inner, .second, .anchor, .outer, .residual, .snapshot 0, .snapshot 1, .weight].map x.copyOff =
      [0x0000000, 0x0400000, 0x0C00000, 0x1400000, 0x1C00000, 0x2000000, 0x2400000, 0x2800000] := by decide +kernel

/-- "An order-independent sum": the three elements. -/
theorem test_afx_elements :
    (afxConvert false 0x3F80 0 1 false).1 = 2 ^ 39 ∧ (afxConvert false 0x2C40 0 1 false).1 = 2 ∧
      (afxConvert false 0xBF80 0 1 false).1 = -(2 ^ 39) := by decide +kernel

/-- The example of R225. -/
theorem test_stochastic_rounding :
    srRound 0x3F801234 0xF000 = (0x3F81, false) ∧ srRound 0x3F801234 0x1000 = (0x3F80, false) ∧ srRound 0xBF801234 0xF000 = (0xBF81, false) ∧
      srRound 0xBF801234 0x1000 = (0xBF80, false) ∧ srRound 0x3F801234 0xEDCC = (0x3F81, false) ∧
      srRound 0x3F801234 0xEDCB = (0x3F80, false) ∧ srRound 0x7F7FFFF0 0x0020 = (0x7F7F, true) := by decide +kernel

/-- "Growth, a NaN loss and an AFX overflow": LEXP, GOOD_RUN, BIAS, SKIP_RUN and COMMITS after each of five steps. -/
theorem test_loss_scale :
    let p : Buf := packBuf 64 [(8, 16), (8, 0), (8, 24), (8, 0), (16, 0), (16, 0), (32, 2000)]
    let h0 : ScaleHist := { ScaleHist.reset with lexp := 16, goodRun := 1998, commits := 40950 }
    let h1 := h0.finite p 0 41000
    let h2 := h1.finite p 0 41001
    let h3 := (h2.skip p 5 41002).1
    let h4 := (h3.skip p 2 41003).1
    let h5 := h4.finite p 0 41004
    [h1, h2, h3, h4, h5].map (fun h => (h.lexp, h.goodRun, h.bias, h.skipRun, h.commits)) =
      [(16, 1999, 0, 0, 40951), (17, 0, 0, 0, 40952), (16, 0, 0, 1, 40952), (15, 0, 8, 2, 40952), (15, 1, 0, 0, 40953)] := by
  decide +kernel

/-- The worked example of Near links: the least DURATION of 278 flits on eight lanes. -/
theorem test_send_duration : sendNs 278 8 = 364 := by decide +kernel

/-- "Encode, sum and apply": the group that site 0 encodes, and its residuals. -/
theorem test_codec_block :
    let g := encodeGroup false ([.fin false 3 (-2), .fin true 13 (-6), .fin false 1 (-4), .fin false 5 (-4)] ++ List.replicate 252 (.fin false 0 0))
    g.1.byte 0 = 0x7C ∧ g.1.byte 8 = 0xB7 ∧ g.1.byte 9 = 0x41 ∧ g.1.byte 10 = 0 ∧ g.2.take 4 = [0x0000, 0xBC80, 0x0000, 0x3D80] := by
  decide +kernel

/-- The outer step of that example: u', a', the rebase, and the two weights. -/
theorem test_outer_step :
    let p : Pass := { (Pass.ofBuf Buf.empty) with beta1 := 0x3F600000, lr := 0x3F400000 }
    p.outer 0x8000000000 1 2 0x3E800000 0x40000000 = some (0x3F380000, 0x3F93A000) ∧
      rebase 0x3F93A000 0x3FC00000 0x3FA00000 = some 0x3FB3A000 ∧ srRound 0x3FB3A000 0x6000 = (0x3FB4, false) ∧
      srRound 0x3FB3A000 0x5FFF = (0x3FB3, false) := by decide +kernel

/-- "A resend across a key change": the header of the first transmission and the two nonces. -/
theorem test_acrix_header :
    AcxHdr.ofBuf (Buf.ofBe 48 0x310801020007000000123456000000000009876000000000000000000000004109002000000001541A2B3C4D1A289E00) =
        ⟨1, false, 0, false, true, 0x0102, 7, 0x123456, 0, 0x98760, 0, 65, 9, 0, 0x2000, 340, 0x1A2B3C4D, 0x1A289E00⟩ ∧
      Buf.ofBe 12 (acxNonce (0xD4C3B2A1 * 2 ^ 256) 0x123456 0) = Buf.ofBe 12 0xA1B2C3D40000001234560000 ∧
      Buf.ofBe 12 (acxNonce (0x81706F5E * 2 ^ 256) 0x123456 1) = Buf.ofBe 12 0x5E6F70810000001234560001 := by decide +kernel

/-- "BUSY": MB_STATUS before and after the completion of entry 64. -/
theorem test_mb_status :
    let m : Mailbox := { Mailbox.reset with state := .open_, role := 3, cmdHead := 64, cmds := List.replicate 64 ⟨Buf.empty, .waiting, 0, .empty, 0, 0, .empty, .empty⟩ }
    m.status = 0x0000000000403140 ∧ ({ m with cmdHead := 65, cplTail := 1 } : Mailbox).status = 0x0000000100413140 := by decide +kernel

/-- The worked example of R458: the requests of steps 500 and 501. -/
theorem test_cap_request :
    capRequest 1500 7800000 0 13260000000000 0 = 381 ∧ capRequest 1500 7800000 1485900 13260000000000 (430 * 1485900 * 1000) = 374 := by
  decide +kernel

/-- The worked example of R487: H from the largest HT_X. -/
theorem test_resume : resumeAt 61800000000 = 61900000500 := by decide +kernel

/-- The example of R508: the error bound at 10 hops in LOCKED and after 100 ms of HOLDOVER. -/
theorem test_error_bound :
    ({ up with ht := { HtUnit.reset with state := .locked, hops := 10 } } : State).errBound = 95 ∧
      ({ up with now := 10 ^ 8, ht := { HtUnit.reset with state := .holdover, hops := 10, holdSince := 0 } } : State).errBound = 595 := by
  decide +kernel

/-! ### One step of the queue, and a command the table's word cannot spell -/

theorem test_step_idle : step up = .next up := rfl

theorem test_step_front : step { up with pending := [.functionLevelReset 5, .busMasterClear 6] } = exec (.functionLevelReset 5) { up with pending := [.busMasterClear 6] } := rfl

theorem test_no_word : decodeTableWord 32 0 = none := rfl

/-! ### Witnesses that rest on a constant of Config

The root key and the identity's private key have no value in the model, so these two name one for them: the key pair of
these tests, and a decryption that succeeds. -/

/-- The INIT of a peer whose certificates verify under the root key, with no place free and with one free. -/
theorem witness_SessionsOpenAndFramesAnswer_init (h : Config.rootModulus = keyN) :
    (helloOn.tick 10).initGood 0 initMsg = true ∧ ((helloOn.tick 10).newPlace (initMsg.byte 10) false).isSome = true := by
  constructor
  · simp only [State.initGood, State.chainGood, h]
    decide +kernel
  · decide +kernel

/-- The same INIT where every session place is taken and none of them is CLOSED. -/
theorem witness_SessionsOpenAndFramesAnswer_full (h : Config.rootModulus = keyN) :
    (helloFull.tick 10).initGood 0 initMsg = true ∧ (helloFull.tick 10).newPlace (initMsg.byte 10) false = none := by
  constructor
  · simp only [State.initGood, State.chainGood, h]
    decide +kernel
  · decide +kernel

/-- The ACCEPT that a session waits for. -/
theorem witness_SessionsOpenAndFramesAnswer_accept :
    ((acceptOn.tick 10).places.find? fun k => ((acceptOn.tick 10).sess k).port = 0 && (acceptOn.tick 10).acceptGood k acceptMsg) =
      some 0 := by
  decide +kernel

/-! ### Witnesses of the statements -/

/-- Each clause of `StepRunsFrontCommand` has a state and operands that meet its hypotheses. -/
theorem witness_StepRunsFrontCommand :
    (let s : State := { up with pending := [.attn 0 .empty, .watchdog 5] }
     let c : Instr := .attn 0 .empty
     let q : List Instr := [.watchdog 5]
     [(decide (s.pending = c :: q))].all id) = true ∧
    (let s : State := up
     [(decide (s.pending = []))].all id) = true := by
  refine ⟨?_, ?_⟩ <;> decide +kernel

/-- Each clause of `ResponseQueriesComplete` has a state and operands that meet its hypotheses. -/
theorem witness_ResponseQueriesComplete :
    (let s : State := posted (up) 0 (ent 0x0101 (0) (0) (0))
     let at_ : Nat := 0
     let mb : Nat := 0
     let e : Buf := ent 0x0101 (0) (0) (0)
     let b0 : Option Buf := none
     let b1 : Option Buf := none
     [(decide (((s.tick at_).offers 0x0101 mb e b0 b1 mayUn = true)))].all id) = true ∧
    (let s : State := posted (up) 3 (ent 0x0104 (0) (0) (0))
     let at_ : Nat := 0
     let mb : Nat := 0
     let e : Buf := ent 0x0104 (0) (0) (0)
     let b0 : Option Buf := none
     let b1 : Option Buf := none
     [(decide (((s.tick at_).offers 0x0104 mb e b0 b1 mayAny = true)))].all id) = true ∧
    (let s : State := posted (up) 0 (ent 0x0201 (0) (0) (0))
     let at_ : Nat := 0
     let mb : Nat := 0
     let e : Buf := ent 0x0201 (0) (0) (0)
     let b0 : Option Buf := none
     let b1 : Option Buf := none
     [(decide (((s.tick at_).offers 0x0201 mb e b0 b1 mayUn = true)))].all id) = true ∧
    (let s : State := posted (running) 3 (ent 0x0406 (0) (0) (0))
     let at_ : Nat := 0
     let mb : Nat := 0
     let e : Buf := ent 0x0406 (0) (0) (0)
     let b0 : Option Buf := none
     let b1 : Option Buf := none
     [(decide (((s.tick at_).offers 0x0406 mb e b0 b1 mayAny = true))),
      (decide (s.job.isSome = true))].all id) = true ∧
    (let s : State := posted (up) 3 (ent 0x0503 (0) (0) (0))
     let at_ : Nat := 0
     let mb : Nat := 0
     let e : Buf := ent 0x0503 (0) (0) (0)
     let b0 : Option Buf := none
     let b1 : Option Buf := none
     [(decide (((s.tick at_).offers 0x0503 mb e b0 b1 mayAny = true))),
      (decide (s.guest = none))].all id) = true ∧
    (let s : State := posted ({ up with guest := some (⟨img0, 1, [], false, false, none, false, 5⟩ : Guest) }) 3 (ent 0x0503 (0) (0) (0))
     let at_ : Nat := 0
     let mb : Nat := 0
     let e : Buf := ent 0x0503 (0) (0) (0)
     let b0 : Option Buf := none
     let b1 : Option Buf := none
     let g := (⟨img0, 1, [], false, false, none, false, 5⟩ : Guest)
     [(decide (((s.tick at_).offers 0x0503 mb e b0 b1 mayAny = true))),
      (decide (s.guest = some g))].all id) = true ∧
    (let s : State := posted (up) 3 (ent 0x0608 (0) (0) (0))
     let at_ : Nat := 0
     let mb : Nat := 0
     let e : Buf := ent 0x0608 (0) (0) (0)
     let b0 : Option Buf := none
     let b1 : Option Buf := none
     [(decide (((s.tick at_).offers 0x0608 mb e b0 b1 mayAny = true)))].all id) = true ∧
    (let s : State := posted (up) 3 (ent 0x0804 (0) (0) (0))
     let at_ : Nat := 0
     let mb : Nat := 0
     let e : Buf := ent 0x0804 (0) (0) (0)
     let b0 : Option Buf := none
     let b1 : Option Buf := none
     [(decide (((s.tick at_).offers 0x0804 mb e b0 b1 mayAny = true)))].all id) = true := by
  refine ⟨?_, ?_, ?_, ?_, ?_, ?_, ?_, ?_⟩ <;> decide +kernel

/-- Each clause of `BufferQueriesComplete` has a state and operands that meet its hypotheses. -/
theorem witness_BufferQueriesComplete :
    (let s : State := posted ({ up with miss := [(208, ⟨1, 2, 3, 4, 5, 6, 7⟩)] }) 3 (ent 0x0204 (1) (wr 8192) (0))
     let at_ : Nat := 0
     let mb : Nat := 0
     let e : Buf := ent 0x0204 (1) (wr 8192) (0)
     let b0 : Option Buf := none
     let b1 : Option Buf := none
     let c : Call := ⟨mb, e, b0, b1⟩
     let t := (s.tick at_).begun mb
     let b := Buf.cat (missTargets.map fun k => (t.missRec k).record)
     [(decide (b = Buf.cat (missTargets.map fun k => (t.missRec k).record))),
      (decide (b.len ≤ c.buf0.size)),
      (decide (((s.tick at_).offers 0x0204 mb e b0 b1 mayOpIfSet = true)))].all id) = true ∧
    (let s : State := posted (up) 3 (ent 0x0301 (0) (wr 8192) (0))
     let at_ : Nat := 0
     let mb : Nat := 0
     let e : Buf := ent 0x0301 (0) (wr 8192) (0)
     let b0 : Option Buf := none
     let b1 : Option Buf := none
     let c : Call := ⟨mb, e, b0, b1⟩
     let t := (s.tick at_).begun mb
     let b := (Buf.cat ((List.range 32).map t.chanRecord)).app (Buf.cat ((List.range 8).map fun k => (t.die k).memRecord))
     [(decide (b = (Buf.cat ((List.range 32).map t.chanRecord)).app (Buf.cat ((List.range 8).map fun k => (t.die k).memRecord)))),
      (decide (b.len ≤ c.buf0.size)),
      (decide (((s.tick at_).offers 0x0301 mb e b0 b1 mayAny = true)))].all id) = true ∧
    (let s : State := posted (running) 3 (ent 0x0407 (0) (wr 16384) (0))
     let at_ : Nat := 0
     let mb : Nat := 0
     let e : Buf := ent 0x0407 (0) (wr 16384) (0)
     let b0 : Option Buf := none
     let b1 : Option Buf := none
     let c : Call := ⟨mb, e, b0, b1⟩
     let t := (s.tick at_).begun mb
     let b := Buf.cat ((List.range 128).map fun k => (t.core k).record)
     [(decide (s.job.isSome = true)),
      (decide (c.par 0 2 = 0 ∧ b = Buf.cat ((List.range 128).map fun k => (t.core k).record) ∨
                 c.par 0 2 = 1 ∧ b = Buf.cat ((List.range 8).map fun k => (t.die k).trainRecord) ∨
                 c.par 0 2 = 2 ∧ b = Buf.cat ((List.range 8).map fun k => (t.die k).updateRecord))),
      (decide (b.len ≤ c.buf0.size)),
      (decide (((s.tick at_).offers 0x0407 mb e b0 b1 mayAny = true)))].all id) = true ∧
    (let s : State := posted (running) 3 (ent 0x0701 (0) (wr 16384) (0))
     let at_ : Nat := 0
     let mb : Nat := 0
     let e : Buf := ent 0x0701 (0) (wr 16384) (0)
     let b0 : Option Buf := none
     let b1 : Option Buf := none
     let c : Call := ⟨mb, e, b0, b1⟩
     let t := (s.tick at_).begun mb
     let b := Buf.cat ((imgSlots img0).zipIdx.map fun p => t.watchRecord img0 p.2 p.1)
     let j := jobOf img0
     [(decide (s.job = some j)),
      (decide (b = Buf.cat ((imgSlots j.image).zipIdx.map fun p => t.watchRecord j.image p.2 p.1))),
      (decide (b.len ≤ c.buf0.size)),
      (decide (((s.tick at_).offers 0x0701 mb e b0 b1 mayAny = true)))].all id) = true ∧
    (let s : State := posted (running) 3 (ent 0x0702 (2 ^ 20) (wr 16384) (0))
     let at_ : Nat := 0
     let mb : Nat := 0
     let e : Buf := ent 0x0702 (2 ^ 20) (wr 16384) (0)
     let b0 : Option Buf := none
     let b1 : Option Buf := none
     let c : Call := ⟨mb, e, b0, b1⟩
     let t := (s.tick at_).begun mb
     let b := t.com.hist.record
     [(decide (s.job.isSome = true)),
      (decide (c.par 20 1 = 1)),
      (decide (b = t.com.hist.record)),
      (decide (b.len ≤ c.buf0.size)),
      (decide (((s.tick at_).offers 0x0702 mb e b0 b1 mayAny = true)))].all id) = true ∧
    (let s : State := posted ({ running imgFar with oasis := (State.reset.oasis.strike (((imgShard imgFar 5).getD (Shard.ofBuf Buf.empty)).shAddr / 8 + 1) 3 5).writeAt ((imgShard imgFar 5).getD (Shard.ofBuf Buf.empty)).shAddr 8 99 }) 3 (ent 0x0702 (5) (wr 16384) (0))
     let at_ : Nat := 0
     let mb : Nat := 0
     let e : Buf := ent 0x0702 (5) (wr 16384) (0)
     let b0 : Option Buf := none
     let b1 : Option Buf := none
     let c : Call := ⟨mb, e, b0, b1⟩
     let t := (s.tick at_).begun mb
     let j := jobOf imgFar
     let x := ((imgShard imgFar 5).getD (Shard.ofBuf Buf.empty))
     let b := (Buf.ofLe 4160 (t.oasisRead x.shAddr 4160 .maint).1)
     [(decide (s.job = some j)),
      (decide (c.par 20 1 = 0)),
      (decide (imgShard j.image (c.par 0 20) = some x)),
      (decide (b.len ≤ c.buf0.size)),
      (decide (((s.tick at_).offers 0x0702 mb e b0 b1 mayAny = true)))].all id) = true ∧
    (let s : State := posted (running) 3 (ent 0x0606 (0) (wr 16384) (0))
     let at_ : Nat := 0
     let mb : Nat := 0
     let e : Buf := ent 0x0606 (0) (wr 16384) (0)
     let b0 : Option Buf := none
     let b1 : Option Buf := none
     let c : Call := ⟨mb, e, b0, b1⟩
     let t := (s.tick at_).begun mb
     let b := Buf.cat ((List.range (imgFcount img0)).map fun f => (t.frag f).record)
     let j := jobOf img0
     [(decide (s.job = some j)),
      (decide (b = Buf.cat ((List.range (imgFcount j.image)).map fun f => (t.frag f).record))),
      (decide (b.len ≤ c.buf0.size)),
      (decide (((s.tick at_).offers 0x0606 mb e b0 b1 mayAny = true)))].all id) = true ∧
    (let s : State := posted (up) 3 (ent 0x0607 (0) (wr 16384) (0))
     let at_ : Nat := 0
     let mb : Nat := 0
     let e : Buf := ent 0x0607 (0) (wr 16384) (0)
     let b0 : Option Buf := none
     let b1 : Option Buf := none
     let c : Call := ⟨mb, e, b0, b1⟩
     let t := (s.tick at_).begun mb
     let b := Buf.cat ((List.range 16).map fun k => (t.sess k).record)
     [(decide (b = Buf.cat ((List.range 16).map fun k => (t.sess k).record))),
      (decide (b.len ≤ c.buf0.size)),
      (decide (((s.tick at_).offers 0x0607 mb e b0 b1 mayAny = true)))].all id) = true ∧
    (let s : State := posted (up) 3 (ent 0x0609 (1) (wr 16384) (0))
     let at_ : Nat := 0
     let mb : Nat := 0
     let e : Buf := ent 0x0609 (1) (wr 16384) (0)
     let b0 : Option Buf := none
     let b1 : Option Buf := none
     let c : Call := ⟨mb, e, b0, b1⟩
     let t := (s.tick at_).begun mb
     let b := Buf.cat ((List.range 8).map fun k => (t.port k).record)
     [(decide (b = Buf.cat ((List.range 8).map fun k => (t.port k).record))),
      (decide (b.len ≤ c.buf0.size)),
      (decide (((s.tick at_).offers 0x0609 mb e b0 b1 mayOpIfSet = true)))].all id) = true ∧
    (let s : State := posted (up.onIsl fun x => { x with ledger := [Buf.zeros 512, Buf.zeros 512] }) 3 (ent 0x0901 (1) (wr 1024) (0))
     let at_ : Nat := 0
     let mb : Nat := 0
     let e : Buf := ent 0x0901 (1) (wr 1024) (0)
     let b0 : Option Buf := none
     let b1 : Option Buf := none
     let c : Call := ⟨mb, e, b0, b1⟩
     let l := [Buf.zeros 512]
     [(decide (c.par 0 32 ≤ s.isl.ledger.length)),
      (decide (l = (s.isl.ledger.drop (c.par 0 32)).take (c.buf0.size / 512))),
      (decide ((Buf.cat l).len ≤ c.buf0.size)),
      (decide (((s.tick at_).offers 0x0901 mb e b0 b1 mayAny = true)))].all id) = true ∧
    (let s : State := posted (up.onPcie fun p => { p with masks := [1, 2] }) 3 (ent 0x0C02 (0) (wr 1024) (0))
     let at_ : Nat := 0
     let mb : Nat := 0
     let e : Buf := ent 0x0C02 (0) (wr 1024) (0)
     let b0 : Option Buf := none
     let b1 : Option Buf := none
     let c : Call := ⟨mb, e, b0, b1⟩
     let b := packBuf (2 * s.pcie.masks.length) (s.pcie.masks.map fun m => (16, m))
     [(decide (b = packBuf (2 * s.pcie.masks.length) (s.pcie.masks.map fun m => (16, m)))),
      (decide (b.len ≤ c.buf0.size)),
      (decide (((s.tick at_).offers 0x0C02 mb e b0 b1 mayAny = true)))].all id) = true := by
  refine ⟨?_, ?_, ?_, ?_, ?_, ?_, ?_, ?_, ?_, ?_, ?_⟩ <;> decide +kernel

/-- Each clause of `SettingCommandsComplete` has a state and operands that meet its hypotheses. -/
theorem witness_SettingCommandsComplete :
    (let s : State := posted ({ up with ht := { HtUnit.reset with root := true } }) 3 (ent 0x0202 (5000000000) (0) (0))
     let at_ : Nat := 0
     let mb : Nat := 0
     let e : Buf := ent 0x0202 (5000000000) (0) (0)
     let b0 : Option Buf := none
     let b1 : Option Buf := none
     let c : Call := ⟨mb, e, b0, b1⟩
     [(decide (((s.tick at_).offers 0x0202 mb e b0 b1 mayOp = true))),
      (decide (s.ht.root = true)),
      (decide (s.ht.state = .unset ∨ s.ht.state = .acquiring)),
      (decide (c.par 0 64 % 1000000000 = 0))].all id) = true ∧
    (let s : State := posted (up) 3 (ent 0x0203 (packBits [(1, 1), (1, 1), (1, 1), (1, 1), (28, 0), (32, 1000000), (16, 1000), (48, 0), (16, 5), (16, 65000)]) (0) (0))
     let at_ : Nat := 0
     let mb : Nat := 0
     let e : Buf := ent 0x0203 (packBits [(1, 1), (1, 1), (1, 1), (1, 1), (28, 0), (32, 1000000), (16, 1000), (48, 0), (16, 5), (16, 65000)]) (0) (0)
     let b0 : Option Buf := none
     let b1 : Option Buf := none
     let c : Call := ⟨mb, e, b0, b1⟩
     [(decide (((s.tick at_).offers 0x0203 mb e b0 b1 mayOp = true))),
      (decide (s.ledgerSpent = false)),
      (decide (c.par 0 1 = 1 → c.par 32 32 ≤ 1000000)),
      (decide (c.par 1 1 = 1 → ((List.range 8).all (fun i => decide (sext 16 (c.par (128 + 16 * i) 16) ≠ -32768)) = true))),
      (decide (c.par 2 1 = 1 → 1 ≤ c.par 64 16 ∧ c.par 64 16 ≤ 1000)),
      (decide (c.par 0 1 = 1 ∨ c.par 1 1 = 1 → s.job = none))].all id) = true ∧
    (let s : State := posted (up) 3 (ent 0x0601 (packBits [(2, 1), (1, 1), (13, 0), (48, 17), (48, 18), (12, 3), (3, 1), (1, 1), (8, 4), (8, 64), (16, 0), (32, 0), (128, 99)]) (0) (0))
     let at_ : Nat := 0
     let mb : Nat := 0
     let e : Buf := ent 0x0601 (packBits [(2, 1), (1, 1), (13, 0), (48, 17), (48, 18), (12, 3), (3, 1), (1, 1), (8, 4), (8, 64), (16, 0), (32, 0), (128, 99)]) (0) (0)
     let b0 : Option Buf := none
     let b1 : Option Buf := none
     let c : Call := ⟨mb, e, b0, b1⟩
     [(decide (((s.tick at_).offers 0x0601 mb e b0 b1 mayOp = true))),
      (decide (c.par 136 8 ≠ 0)),
      (decide (s.portInUse (c.par 0 2) = false)),
      (decide (s.ledgerSpent = false))].all id) = true ∧
    (let s : State := posted (up) 3 (ent 0x0802 (packBits [(16, 1), (5, 3)]) (0) (0))
     let at_ : Nat := 0
     let mb : Nat := 0
     let e : Buf := ent 0x0802 (packBits [(16, 1), (5, 3)]) (0) (0)
     let b0 : Option Buf := none
     let b1 : Option Buf := none
     let c : Call := ⟨mb, e, b0, b1⟩
     [(decide (((s.tick at_).offers 0x0802 mb e b0 b1 mayOp = true))),
      (decide (dozeOk c.params = true))].all id) = true ∧
    (let s : State := posted (up) 3 (ent 0x0803 (600) (0) (0))
     let at_ : Nat := 0
     let mb : Nat := 0
     let e : Buf := ent 0x0803 (600) (0) (0)
     let b0 : Option Buf := none
     let b1 : Option Buf := none
     let c : Call := ⟨mb, e, b0, b1⟩
     [(decide (((s.tick at_).offers 0x0803 mb e b0 b1 mayOp = true))),
      (decide (c.par 0 16 = 0 ∨ 600 ≤ c.par 0 16 ∧ c.par 0 16 ≤ 1850)),
      (decide (s.job = none ∨ (((match s.job with | some j => decide ((j.phase = .stopped ∨ j.phase = .restarting)) | none => false) = true))))].all id) = true ∧
    (let s : State := posted (running) 3 (ent 0x0803 (600) (0) (0))
     let at_ : Nat := 0
     let mb : Nat := 0
     let e : Buf := ent 0x0803 (600) (0) (0)
     let b0 : Option Buf := none
     let b1 : Option Buf := none
     let c : Call := ⟨mb, e, b0, b1⟩
     let j := jobOf img0
     [(decide (((s.tick at_).offers 0x0803 mb e b0 b1 mayOp = true))),
      (decide (c.par 0 16 = 0 ∨ 600 ≤ c.par 0 16 ∧ c.par 0 16 ≤ 1850)),
      (decide (s.job = some j)),
      (decide (j.phase = .armed ∨ j.phase = .running ∨ j.phase = .stopping))].all id) = true ∧
    (let s : State := posted (up.onIsl fun x => { x with redirect := [(3, 1, 2), (4, 1, 2)], marks := [(3, 0, 1)] }) 3 (ent 0x0304 (3) (0) (0))
     let at_ : Nat := 0
     let mb : Nat := 0
     let e : Buf := ent 0x0304 (3) (0) (0)
     let b0 : Option Buf := none
     let b1 : Option Buf := none
     [(decide (((s.tick at_).offers 0x0304 mb e b0 b1 mayOp = true))),
      (decide (s.job = none)),
      (decide (s.ledgerSpent = false))].all id) = true ∧
    (let s : State := posted (up) 3 (ent 0x0C01 (2) (rd 8) (0))
     let at_ : Nat := 0
     let mb : Nat := 0
     let e : Buf := ent 0x0C01 (2) (rd 8) (0)
     let b0 : Option Buf := some (packBuf 8 [(16, 0x8001), (1, 1), (15, 0), (16, 0x2001)])
     let b1 : Option Buf := none
     let c : Call := ⟨mb, e, b0, b1⟩
     let l := (packBuf 8 [(16, 0x8001), (1, 1), (15, 0), (16, 0x2001)]).recs 4 2
     [(decide (((s.tick at_).offers 0x0C01 mb e b0 b1 mayOp = true))),
      (decide (1 ≤ c.par 0 16)),
      (decide (c.par 0 16 ≤ 256)),
      (decide (4 * c.par 0 16 ≤ c.buf0.data.len)),
      (decide (l = c.buf0.data.recs 4 (c.par 0 16))),
      (decide (∀ x ∈ l, x.fld 17 15 = 0)),
      (decide (∀ x ∈ l, x.fld 0 16 ∈ eventCodes))].all id) = true := by
  refine ⟨?_, ?_, ?_, ?_, ?_, ?_, ?_, ?_⟩ <;> decide +kernel

/-- Each clause of `SiteRestartComplete` has a state and operands that meet its hypotheses. -/
theorem witness_SiteRestartComplete :
    (let s : State := { running (mkImg 0x77 0x88 1 [ttSect 3900000 [], (0xE, 8, packBuf 64 [(4, 8), (60, 0), (4, 8), (60, 0), (4, 8)])] (sizes := 0x01010201)) with job := some (jobOf (mkImg 0x77 0x88 1 [ttSect 3900000 [], (0xE, 8, packBuf 64 [(4, 8), (60, 0), (4, 8), (60, 0), (4, 8)])] (sizes := 0x01010201)) (phase := .restarting)), ht := { HtUnit.reset with state := .locked }, site := { Site.reset with phase := .idle } }
     let j : Job := (jobOf (mkImg 0x77 0x88 1 [ttSect 3900000 [], (0xE, 8, packBuf 64 [(4, 8), (60, 0), (4, 8), (60, 0), (4, 8)])] (sizes := 0x01010201)) (phase := .restarting))
     let b := siteNotice 1 0 (2) 0x78 5000 7 6 0 0
     [(decide (s.job = some j)),
      (decide (ntKind b ≠ 1 ∨ ntJob b ≠ imgJobId j.image))].all id) = true ∧
    (let s : State := running (mkImg 0x77 0x88 1 [ttSect 3900000 [], (0xE, 8, packBuf 64 [(4, 8), (60, 0), (4, 8), (60, 0), (4, 8)])] (sizes := 0x01010201))
     let j : Job := (jobOf (mkImg 0x77 0x88 1 [ttSect 3900000 [], (0xE, 8, packBuf 64 [(4, 8), (60, 0), (4, 8), (60, 0), (4, 8)])] (sizes := 0x01010201)))
     let b := siteNotice 1 0 (2) 0x77 5000 7 6 0 0
     [(decide (s.job = some j)),
      (decide (ntKind b = 1)),
      (decide (ntJob b = imgJobId j.image))].all id) = true ∧
    (let s : State := { running (mkImg 0x77 0x88 1 [ttSect 3900000 [], (0xE, 8, packBuf 64 [(4, 8), (60, 0), (4, 8), (60, 0), (4, 8)])] (sizes := 0x01010201)) with job := some (jobOf (mkImg 0x77 0x88 1 [ttSect 3900000 [], (0xE, 8, packBuf 64 [(4, 8), (60, 0), (4, 8), (60, 0), (4, 8)])] (sizes := 0x01010201)) (phase := .restarting)), ht := { HtUnit.reset with state := .locked }, site := { Site.reset with phase := .fault 5 } }
     let at_ : Nat := 1000000
     let j : Job := (jobOf (mkImg 0x77 0x88 1 [ttSect 3900000 [], (0xE, 8, packBuf 64 [(4, 8), (60, 0), (4, 8), (60, 0), (4, 8)])] (sizes := 0x01010201)) (phase := .restarting))
     let t := s.tick at_
     let since := 5
     [(decide (s.job = some j)),
      (decide (s.site.phase = .fault since)),
      (decide (since + 100000 ≤ t.now)),
      (decide (s.site.stopReq = false))].all id) = true ∧
    (let s : State := { running (mkImg 0x77 0x88 1 [ttSect 3900000 [], (0xE, 8, packBuf 64 [(4, 8), (60, 0), (4, 8), (60, 0), (4, 8)])] (sizes := 0x01010201)) with job := some (jobOf (mkImg 0x77 0x88 1 [ttSect 3900000 [], (0xE, 8, packBuf 64 [(4, 8), (60, 0), (4, 8), (60, 0), (4, 8)])] (sizes := 0x01010201)) (phase := .restarting)), ht := { HtUnit.reset with state := .locked }, site := { Site.reset with phase := .fault 900000, stopReq := true } }
     let at_ : Nat := 1000000
     let j : Job := (jobOf (mkImg 0x77 0x88 1 [ttSect 3900000 [], (0xE, 8, packBuf 64 [(4, 8), (60, 0), (4, 8), (60, 0), (4, 8)])] (sizes := 0x01010201)) (phase := .restarting))
     let t := s.tick at_
     let since := 900000
     [(decide (s.job = some j)),
      (decide (s.site.phase = .fault since)),
      (decide (since + 100000 ≤ t.now)),
      (decide (s.site.stopReq = true))].all id) = true ∧
    (let s : State := { running (mkImg 0x77 0x88 1 [ttSect 3900000 [], (0xE, 8, packBuf 64 [(4, 8), (60, 0), (4, 8), (60, 0), (4, 8)])] (sizes := 0x01010201)) with job := some (jobOf (mkImg 0x77 0x88 1 [ttSect 3900000 [], (0xE, 8, packBuf 64 [(4, 8), (60, 0), (4, 8), (60, 0), (4, 8)])] (sizes := 0x01010201)) (phase := .restarting)), ht := { HtUnit.reset with state := .locked }, site := { Site.reset with phase := .warm 5, copy := some (Buf.zeros 2000, 1, 4) } }
     let at_ : Nat := 1000000
     let j : Job := (jobOf (mkImg 0x77 0x88 1 [ttSect 3900000 [], (0xE, 8, packBuf 64 [(4, 8), (60, 0), (4, 8), (60, 0), (4, 8)])] (sizes := 0x01010201)) (phase := .restarting))
     let t := s.tick at_
     let since := 5
     let raw := Buf.zeros 2000
     let seed := 1
     let sfl := 4
     let b := raw.slice 0 (imgLen raw)
     [(decide (s.job = some j)),
      (decide (s.site.phase = .warm since)),
      (decide (s.site.copy = some (raw, seed, sfl))),
      (decide (s.rilsetiReady = true)),
      (decide (s.ht.state = .locked)),
      (decide (s.site.stopReq = false)),
      ((!t.imageGood raw (imgLen raw) (mainSigner raw)) || (armFailure t b none).isSome)].all id) = true ∧
    (let s : State := { armOn with job := some (jobOf imgArm 3 .restarting), site := { Site.reset with phase := .warm 5000, copy := some (signed imgArm cert3 sigArm, 5, 4) } }
     let at_ : Nat := 1000000
     let j : Job := jobOf imgArm 3 .restarting
     let t := s.tick at_
     let since := 5000
     let raw := signed imgArm cert3 sigArm
     let seed := 5
     let sfl := 4
     let b := raw.slice 0 (imgLen raw)
     [(decide (s.job = some j)),
      (decide (s.site.phase = .warm since)),
      (decide (s.site.copy = some (raw, seed, sfl))),
      (decide (s.rilsetiReady = true)),
      (decide (s.ht.state = .locked)),
      (decide (s.site.stopReq = false)),
      (decide (t.imageGood raw (imgLen raw) (mainSigner raw) = true)),
      (decide (armFailure t b none = none))].all id) = true ∧
    (let s : State := { running (mkImg 0x77 0x88 1 [ttSect 3900000 [], (0xE, 8, packBuf 64 [(4, 8), (60, 0), (4, 8), (60, 0), (4, 8)])] (sizes := 0x01010201)) with job := some (jobOf (mkImg 0x77 0x88 1 [ttSect 3900000 [], (0xE, 8, packBuf 64 [(4, 8), (60, 0), (4, 8), (60, 0), (4, 8)])] (sizes := 0x01010201)) (phase := .restarting)), ht := { HtUnit.reset with state := .locked }, site := { Site.reset with phase := .ckpt 5, ckpts := [(1, 7, 6)] } }
     let j : Job := (jobOf (mkImg 0x77 0x88 1 [ttSect 3900000 [], (0xE, 8, packBuf 64 [(4, 8), (60, 0), (4, 8), (60, 0), (4, 8)])] (sizes := 0x01010201)) (phase := .restarting))
     let b := siteNotice 2 0 (2) 0x77 5000 7 6 0 0
     [(decide (s.job = some j)),
      (decide (ntKind b = 2)),
      (decide (ntJob b = imgJobId j.image)),
      (decide (s.site.phase ≠ .idle)),
      (decide (∀ c ∈ s.site.ckpts, c.1 ≠ ntCw b)),
      (decide (s.site.stopReq = false))].all id) = true ∧
    (let s : State := { running (mkImg 0x77 0x88 1 [ttSect 3900000 [], (0xE, 8, packBuf 64 [(4, 8), (60, 0), (4, 8), (60, 0), (4, 8)])] (sizes := 0x01010201)) with job := some (jobOf (mkImg 0x77 0x88 1 [ttSect 3900000 [], (0xE, 8, packBuf 64 [(4, 8), (60, 0), (4, 8), (60, 0), (4, 8)])] (sizes := 0x01010201)) (phase := .restarting)), ht := { HtUnit.reset with state := .locked }, site := { Site.reset with phase := .loading 5 } }
     let at_ : Nat := 1000000
     let j : Job := (jobOf (mkImg 0x77 0x88 1 [ttSect 3900000 [], (0xE, 8, packBuf 64 [(4, 8), (60, 0), (4, 8), (60, 0), (4, 8)])] (sizes := 0x01010201)) (phase := .restarting))
     let t := s.tick at_
     let since := 5
     let b := j.image
     let half := if t.halfStep b 0 = some s.site.step then 0 else 1
     [(decide (s.job = some j)),
      (decide (s.site.phase = .loading since)),
      (decide (s.site.stopReq = false)),
      (decide (t.halfRecs b half = none))].all id) = true ∧
    (let s : State := (withCkpt ((({ ergOn ErgChannel.reset imgCk with job := some (jobOf imgCk (phase := .restarting)) } : State).onSite fun x => { x with phase := .loading 5, step := 7 })) 1).onSite fun x => { x with step := 6 }
     let at_ : Nat := 1000000
     let j : Job := (jobOf imgCk (phase := .restarting))
     let t := s.tick at_
     let since := 5
     let b := j.image
     let half := if t.halfStep b 0 = some s.site.step then 0 else 1
     let l := (t.halfRecs b half).get!
     [(decide (s.job = some j)),
      (decide (s.site.phase = .loading since)),
      (decide (s.site.stopReq = false)),
      (decide (t.halfRecs b half = some l)),
      (decide (recsStep l ≠ some s.site.step ∨ (importStatus b l).isSome = true))].all id) = true ∧
    (let s : State := withCkpt ((({ ergOn ErgChannel.reset imgCk with job := some (jobOf imgCk (phase := .restarting)) } : State).onSite fun x => { x with phase := .loading 5, step := 7 }))
     let at_ : Nat := 1000000
     let j : Job := (jobOf imgCk (phase := .restarting))
     let t := s.tick at_
     let since := 5
     let b := j.image
     let half := if t.halfStep b 0 = some s.site.step then 0 else 1
     let l := (t.halfRecs b half).get!
     [(decide (s.job = some j)),
      (decide (s.site.phase = .loading since)),
      (decide (s.site.stopReq = false)),
      (decide (t.halfRecs b half = some l)),
      (decide (recsStep l = some s.site.step)),
      (decide (importStatus b l = none))].all id) = true ∧
    (let s : State := { running (mkImg 0x77 0x88 1 [ttSect 3900000 [], (0xE, 8, packBuf 64 [(4, 8), (60, 0), (4, 8), (60, 0), (4, 8)])] (sizes := 0x01010201)) with job := some (jobOf (mkImg 0x77 0x88 1 [ttSect 3900000 [], (0xE, 8, packBuf 64 [(4, 8), (60, 0), (4, 8), (60, 0), (4, 8)])] (sizes := 0x01010201)) (phase := .restarting)), ht := { HtUnit.reset with state := .locked }, site := { Site.reset with phase := .ready 5, readies := [] } }
     let j : Job := (jobOf (mkImg 0x77 0x88 1 [ttSect 3900000 [], (0xE, 8, packBuf 64 [(4, 8), (60, 0), (4, 8), (60, 0), (4, 8)])] (sizes := 0x01010201)) (phase := .restarting))
     let b := siteNotice 3 0 (2) 0x77 5000 7 6 0 0
     [(decide (s.job = some j)),
      (decide (ntKind b = 3)),
      (decide (ntJob b = imgJobId j.image)),
      (decide (s.site.phase ≠ .idle)),
      (decide (∀ r ∈ s.site.readies, r.1 ≠ ntCw b)),
      (decide (s.site.stopReq = false))].all id) = true ∧
    (let s : State := { running (mkImg 0x77 0x88 1 [ttSect 3900000 [], (0xE, 8, packBuf 64 [(4, 8), (60, 0), (4, 8), (60, 0), (4, 8)])] (sizes := 0x01010201)) with job := some (jobOf (mkImg 0x77 0x88 1 [ttSect 3900000 [], (0xE, 8, packBuf 64 [(4, 8), (60, 0), (4, 8), (60, 0), (4, 8)])] (sizes := 0x01010201)) (phase := .restarting)), ht := { HtUnit.reset with state := .locked }, site := { Site.reset with phase := .ready 5, readies := [(1, 61800000000)], ownReady := 900000 } }
     let at_ : Nat := 1000000
     let j : Job := (jobOf (mkImg 0x77 0x88 1 [ttSect 3900000 [], (0xE, 8, packBuf 64 [(4, 8), (60, 0), (4, 8), (60, 0), (4, 8)])] (sizes := 0x01010201)) (phase := .restarting))
     let t := s.tick at_
     let pass (u : State) (p : Nat) (b : Buf) : State :=
       if u.site.seen.contains (ntKind b, ntCw b) then u
       else (u.onSite fun x => { x with seen := (ntKind b, ntCw b) :: x.seen }).sendNotice (b.slice 0 64) (some p)
     let p := 2
     let b := siteNotice 3 0 (2) 0x77 61799999999 7 6 0 0
     let u := (pass (t.takeMessage p 2) p b).onSite fun x => { x with readies := x.readies ++ [(ntCw b, ntHtx b)] }
     let since := 5
     let h := 3900 * ((u.site.readies.foldl (fun a x => Nat.max a x.2) 0 + 100000000 + 3899) / 3900)
     [(decide (s.job = some j)),
      (decide (ntKind b = 3)),
      (decide (ntJob b = imgJobId j.image)),
      (decide (s.site.phase ≠ .idle)),
      (decide (∀ r ∈ s.site.readies, r.1 ≠ ntCw b)),
      (decide (s.site.stopReq = false)),
      (decide (s.site.phase = .ready since)),
      (decide (u.site.readies.length = siteSize j.image)),
      (decide (s.site.ownReady + 10000000 ≤ h))].all id) = true ∧
    (let s : State := { running (mkImg 0x77 0x88 1 [ttSect 3900000 [], (0xE, 8, packBuf 64 [(4, 8), (60, 0), (4, 8), (60, 0), (4, 8)])] (sizes := 0x01010201)) with job := some (jobOf (mkImg 0x77 0x88 1 [ttSect 3900000 [], (0xE, 8, packBuf 64 [(4, 8), (60, 0), (4, 8), (60, 0), (4, 8)])] (sizes := 0x01010201)) (phase := .restarting)), ht := { HtUnit.reset with state := .acquiring }, site := { Site.reset with phase := .warm 5 } }
     let at_ : Nat := 70000000000
     let j : Job := (jobOf (mkImg 0x77 0x88 1 [ttSect 3900000 [], (0xE, 8, packBuf 64 [(4, 8), (60, 0), (4, 8), (60, 0), (4, 8)])] (sizes := 0x01010201)) (phase := .restarting))
     let t := s.tick at_
     [(decide (s.job = some j)),
      (s.restartExpired || t.restartExpired)].all id) = true := by
  refine ⟨?_, ?_, ?_, ?_, ?_, ?_, ?_, ?_, ?_, ?_, ?_, ?_, ?_⟩ <;> decide +kernel

/-- Each clause of `ReplicasCompareAndRepair` has a state and operands that meet its hypotheses. -/
theorem witness_ReplicasCompareAndRepair :
    (let s : State := running (mkImg 0x77 0x88 1 [ttSect 3900000 [], (0xE, 8, packBuf 64 [(4, 8), (60, 0), (4, 8), (60, 0), (4, 8)])] (sizes := 0x01010201))
     let j : Job := (jobOf (mkImg 0x77 0x88 1 [ttSect 3900000 [], (0xE, 8, packBuf 64 [(4, 8), (60, 0), (4, 8), (60, 0), (4, 8)])] (sizes := 0x01010201)))
     let b := siteNotice 4 0 (2) 0x77 0 1 0 55 66
     [(decide (s.job = some j)),
      (decide (ntKind b = 4)),
      (decide (ntJob b = imgJobId j.image)),
      (decide (ntCw b ≠ imgCw j.image)),
      (decide (j.step ≤ ntStep b + 2)),
      (decide (∀ d ∈ s.site.digests, ¬ (d.1 = ntCw b ∧ d.2.1 = ntStep b)))].all id) = true ∧
    (let s : State := ergOn ErgChannel.reset (mkImg 0x77 0x88 1 [ttSect 3900000 [], (9, 1, packBuf 64 [(20, 5), (6, 0), (2, 0), (1, 0), (1, 0), (1, 1), (1, 0), (3, 2), (4, 0), (9, 0), (16, 0), (16, 16), (16, 16), (16, 0), (16, 0), (16, 1), (16, 1), (16, 0), (16, 0), (16, 1), (16, 1), (43, 2097152), (21, 0), (32, 0), (32, 4096), (32, 8192), (32, 12288), (32, 20480)]), (0xE, 8, packBuf 64 [(4, 8)])] (sizes := 0x01010201))
     let at_ : Nat := 1000000
     let p : Nat := 2
     let j : Job := (jobOf (mkImg 0x77 0x88 1 [ttSect 3900000 [], (9, 1, packBuf 64 [(20, 5), (6, 0), (2, 0), (1, 0), (1, 0), (1, 1), (1, 0), (3, 2), (4, 0), (9, 0), (16, 0), (16, 16), (16, 16), (16, 0), (16, 0), (16, 1), (16, 1), (16, 0), (16, 0), (16, 1), (16, 1), (43, 2097152), (21, 0), (32, 0), (32, 4096), (32, 8192), (32, 12288), (32, 20480)]), (0xE, 8, packBuf 64 [(4, 8)])] (sizes := 0x01010201)))
     let t := s.tick at_
     let t := t.takeMessage p 2
     let m := .askShards 1
     [(decide (s.job = some j)),
      (decide (repairAsks m = true)),
      (decide (repairCw m = imgCw j.image)),
      ((t.repairAnswer j m).isSome)].all id) = true ∧
    (let s : State := ergOn ErgChannel.reset (mkImg 0x77 0x88 1 [ttSect 3900000 [], (9, 1, packBuf 64 [(20, 5), (6, 0), (2, 0), (1, 0), (1, 0), (1, 1), (1, 0), (3, 2), (4, 0), (9, 0), (16, 0), (16, 16), (16, 16), (16, 0), (16, 0), (16, 1), (16, 1), (16, 0), (16, 0), (16, 1), (16, 1), (43, 2097152), (21, 0), (32, 0), (32, 4096), (32, 8192), (32, 12288), (32, 20480)]), (0xE, 8, packBuf 64 [(4, 8)])] (sizes := 0x01010201))
     let j : Job := (jobOf (mkImg 0x77 0x88 1 [ttSect 3900000 [], (9, 1, packBuf 64 [(20, 5), (6, 0), (2, 0), (1, 0), (1, 0), (1, 1), (1, 0), (3, 2), (4, 0), (9, 0), (16, 0), (16, 16), (16, 16), (16, 0), (16, 0), (16, 1), (16, 1), (16, 0), (16, 0), (16, 1), (16, 1), (43, 2097152), (21, 0), (32, 0), (32, 4096), (32, 8192), (32, 12288), (32, 20480)]), (0xE, 8, packBuf 64 [(4, 8)])] (sizes := 0x01010201)))
     let m := .askShards 2
     [(decide (s.job = some j)),
      (decide (repairAsks m = true)),
      (decide (repairCw m ≠ imgCw j.image))].all id) = true ∧
    (let s : State := ergOn ErgChannel.reset (mkImg 0x77 0x88 1 [ttSect 3900000 [], (9, 1, packBuf 64 [(20, 5), (6, 0), (2, 0), (1, 0), (1, 0), (1, 1), (1, 0), (3, 2), (4, 0), (9, 0), (16, 0), (16, 16), (16, 16), (16, 0), (16, 0), (16, 1), (16, 1), (16, 0), (16, 0), (16, 1), (16, 1), (43, 2097152), (21, 0), (32, 0), (32, 4096), (32, 8192), (32, 12288), (32, 20480)]), (0xE, 8, packBuf 64 [(4, 8)])] (sizes := 0x01010201))
     let j : Job := (jobOf (mkImg 0x77 0x88 1 [ttSect 3900000 [], (9, 1, packBuf 64 [(20, 5), (6, 0), (2, 0), (1, 0), (1, 0), (1, 1), (1, 0), (3, 2), (4, 0), (9, 0), (16, 0), (16, 16), (16, 16), (16, 0), (16, 0), (16, 1), (16, 1), (16, 0), (16, 0), (16, 1), (16, 1), (43, 2097152), (21, 0), (32, 0), (32, 4096), (32, 8192), (32, 12288), (32, 20480)]), (0xE, 8, packBuf 64 [(4, 8)])] (sizes := 0x01010201)))
     let m := .shards 2 []
     [(decide (s.job = some j)),
      (decide (repairAsks m = false)),
      (decide (s.site.source ≠ some (repairCw m)))].all id) = true ∧
    (let s : State := (ergOn ErgChannel.reset (mkImg 0x77 0x88 1 [ttSect 3900000 [], (9, 1, packBuf 64 [(20, 5), (6, 0), (2, 0), (1, 0), (1, 0), (1, 1), (1, 0), (3, 2), (4, 0), (9, 0), (16, 0), (16, 16), (16, 16), (16, 0), (16, 0), (16, 1), (16, 1), (16, 0), (16, 0), (16, 1), (16, 1), (43, 2097152), (21, 0), (32, 0), (32, 4096), (32, 8192), (32, 12288), (32, 20480)]), (0xE, 8, packBuf 64 [(4, 8)])] (sizes := 0x01010201))).onSite fun x => { x with source := some 2, asks := 1 }
     let j : Job := (jobOf (mkImg 0x77 0x88 1 [ttSect 3900000 [], (9, 1, packBuf 64 [(20, 5), (6, 0), (2, 0), (1, 0), (1, 0), (1, 1), (1, 0), (3, 2), (4, 0), (9, 0), (16, 0), (16, 16), (16, 16), (16, 0), (16, 0), (16, 1), (16, 1), (16, 0), (16, 0), (16, 1), (16, 1), (43, 2097152), (21, 0), (32, 0), (32, 4096), (32, 8192), (32, 12288), (32, 20480)]), (0xE, 8, packBuf 64 [(4, 8)])] (sizes := 0x01010201)))
     let m := .shards 2 [(5, 9)]
     [(decide (s.job = some j)),
      (decide (repairAsks m = false)),
      (decide (s.site.source = some (repairCw m)))].all id) = true := by
  refine ⟨?_, ?_, ?_, ?_, ?_⟩ <;> decide +kernel

/-- Each clause of `AcrixReception` has a state and operands that meet its hypotheses. -/
theorem witness_AcrixReception :
    (let s : State := farOn
     let p : Nat := 0
     let r : Nat := 0
     let dg : Buf := dgram 6 0 (Buf.zeros 8)
     let want : Nat → Bool := (fun x => x = 6)
     let g := gotOf s dg 6
     let u := (s.rxDatagram 0 0 dg want).2
     [(decide (s.rxDatagram p r dg want = (some g, u)))].all id) = true ∧
    (let s : State := farOn (y := fun y => { y with ackBase := 5 })
     let p : Nat := 0
     let dg : Buf := dgram 6 2097157 (Buf.zeros 8)
     let want : Nat → Bool := (fun x => x = 6)
     let h := AcxHdr.ofBuf (dg.slice 0 48)
     let k := 0
     let key := 99
     let next := false
     [(decide (64 ≤ dg.len)),
      (decide (want h.type = true)),
      (decide ((dg.slice 0 48).fld 4 4 = 3)),
      (decide (s.placeOf p h.session = some k)),
      (decide ((s.sess k).listens = true)),
      (decide ((s.farPort p).slice.isSome = true)),
      (decide ((s.sess k).rxKey h.epoch s.now = some (key, next))),
      (decide ((s.sess k).ackBase + 2097152 ≤ h.seq))].all id) = true ∧
    (let s : State := farOn (y := fun y => { y with ackBase := 5, authEvAt := some 0 })
     let p : Nat := 0
     let dg : Buf := dgram 6 2097156 (Buf.zeros 8) (key := 1)
     let want : Nat → Bool := (fun x => x = 6)
     let h := AcxHdr.ofBuf (dg.slice 0 48)
     let k := 0
     let key := 99
     let next := false
     [(decide (64 ≤ dg.len)),
      (decide (want h.type = true)),
      (decide ((dg.slice 0 48).fld 4 4 = 3)),
      (decide (s.placeOf p h.session = some k)),
      (decide ((s.sess k).listens = true)),
      (decide ((s.farPort p).slice.isSome = true)),
      (decide ((s.sess k).rxKey h.epoch s.now = some (key, next))),
      (decide (h.seq < (s.sess k).ackBase + 2097152)),
      (decide ((s.sess k).authEvAt = some s.now)),
      (decide (gcmOpen (keyOf key) (acxNonce key h.seq h.txCount) (dg.slice 0 48) (dg.drop 48) = none))].all id) = true ∧
    (let s : State := farOn (y := fun y => { y with rxEpoch := 2 })
     let p : Nat := 0
     let dg : Buf := dgram 6 2 (Buf.zeros 8) (key := 1)
     let want : Nat → Bool := (fun x => x = 6)
     let h := AcxHdr.ofBuf (dg.slice 0 48)
     let k := 0
     [(decide (64 ≤ dg.len)),
      (decide (want h.type = true)),
      (decide ((dg.slice 0 48).fld 4 4 = 3)),
      (decide (s.placeOf p h.session = some k)),
      (decide ((s.sess k).listens = true)),
      (decide ((s.farPort p).slice.isSome = true)),
      (decide (h.epoch < (s.sess k).rxEpoch)),
      (decide ((s.sess k).rxKey h.epoch s.now = none))].all id) = true := by
  refine ⟨?_, ?_, ?_, ?_⟩ <;> decide +kernel

/-- Each clause of `AcrixDatagramsComplete` has a state and operands that meet its hypotheses. -/
theorem witness_AcrixDatagramsComplete :
    (let s : State := farOn ({ Fragment.reset with jstate := 3 }) (id) (imgFar)
     let at_ : Nat := 10
     let p : Nat := 0
     let r : Nat := 0
     let dg : Buf := (dgram 1 0 ((((chunk0 imgFar).header false 0 0).app (Buf.mk 136 (packBits [(64, 0x7F7F7F7F7F7F7F7F), (1024, 0x1234)])))) 0 0)
     let g : Got := gotOf (s.tick at_) dg 1
     let u : State := ((s.tick at_).rxDatagram 0 0 dg (fun x => x = 1)).2
     let f := g.h.frag
     let x := u.frag f
     let j := jobOf (imgFar)
     let c := chunk0 j.image
     [((match (s.tick at_).rxDatagram p r dg (fun x => x = 1) with | (some g2, u2) => decide (g2 = g) && decide (u2 = u) | _ => false)),
      (decide (u.job = some j)),
      (decide ((chunkPlan j.image f)[g.h.chunk]? = some c)),
      (decide (c.good (imgFragCfg j.image f).twoBit g.text = true)),
      (decide (chunkRound g.text = g.h.round)),
      (decide (x.jstate ≠ 0)),
      (true),
      (decide (u.rxPlaces = none))].all id) = true ∧
    (let s : State := farOn ({ Fragment.reset with jstate := 3 }) (id) (imgFar 0 [(0xD, 1, packBuf 32 [(4, 0), (4, 2), (8, 0), (16, 0), (64, 2 ^ 26), (64, 8191)])])
     let at_ : Nat := 10
     let p : Nat := 0
     let r : Nat := 0
     let dg : Buf := (dgram 1 0 ((((chunk0 imgFar).header false 0 0).app (Buf.mk 136 (packBits [(64, 0x7F7F7F7F7F7F7F7F), (1024, 0x1234)])))) 0 0)
     let g : Got := gotOf (s.tick at_) dg 1
     let u : State := ((s.tick at_).rxDatagram 0 0 dg (fun x => x = 1)).2
     let f := g.h.frag
     let x := u.frag f
     let j := jobOf (imgFar 0 [(0xD, 1, packBuf 32 [(4, 0), (4, 2), (8, 0), (16, 0), (64, 2 ^ 26), (64, 8191)])])
     let c := chunk0 j.image
     let site := chunkSite g.text
     let key := carKey g.h.round site
     let base := 2 ^ 26
     let n := 0
     [((match (s.tick at_).rxDatagram p r dg (fun x => x = 1) with | (some g2, u2) => decide (g2 = g) && decide (u2 = u) | _ => false)),
      (decide (u.job = some j)),
      (decide ((chunkPlan j.image f)[g.h.chunk]? = some c)),
      (decide (c.good (imgFragCfg j.image f).twoBit g.text = true)),
      (decide (chunkRound g.text = g.h.round)),
      (decide (x.jstate ≠ 0)),
      (true),
      (decide (u.rxPlaces = some (base, n))),
      (decide (u.rxPlaceFor n f key g.h.chunk = none))].all id) = true ∧
    (let s : State := farOn ({ Fragment.reset with jstate := 3 }) (id) (imgFar 0 [(0xD, 1, packBuf 32 [(4, 0), (4, 2), (8, 0), (16, 0), (64, 2 ^ 26), (64, 8192)])])
     let at_ : Nat := 10
     let p : Nat := 0
     let r : Nat := 0
     let dg : Buf := (dgram 1 0 ((((chunk0 imgFar).header false 0 0).app (Buf.mk 136 (packBits [(64, 0x7F7F7F7F7F7F7F7F), (1024, 0x1234)])))) 0 0)
     let g : Got := gotOf (s.tick at_) dg 1
     let u : State := ((s.tick at_).rxDatagram 0 0 dg (fun x => x = 1)).2
     let f := g.h.frag
     let x := u.frag f
     let j := jobOf (imgFar 0 [(0xD, 1, packBuf 32 [(4, 0), (4, 2), (8, 0), (16, 0), (64, 2 ^ 26), (64, 8192)])])
     let c := chunk0 j.image
     let site := chunkSite g.text
     let key := carKey g.h.round site
     let base := 2 ^ 26
     let n := 1
     let k := 0
     [((match (s.tick at_).rxDatagram p r dg (fun x => x = 1) with | (some g2, u2) => decide (g2 = g) && decide (u2 = u) | _ => false)),
      (decide (u.job = some j)),
      (decide ((chunkPlan j.image f)[g.h.chunk]? = some c)),
      (decide (c.good (imgFragCfg j.image f).twoBit g.text = true)),
      (decide (chunkRound g.text = g.h.round)),
      (decide (x.jstate ≠ 0)),
      (true),
      (decide (u.rxPlaces = some (base, n))),
      (decide (u.rxPlaceFor n f key g.h.chunk = some k))].all id) = true ∧
    (let s : State := farOn ({ Fragment.reset with jstate := 3, nextAdopt := 1, adopted := [(packBuf 64 [(8, 0x4D), (6, 0), (2, 0), (3, 1), (5, 7), (5, 7), (3, 0), (32, 0), (4, 1), (60, 0), (64, 0), (64, 0), (3, 0), (29, 0), (32, 0), (32, 1), (32, 0), (128, 55)])] }) (id) (imgFar)
     let at_ : Nat := 10
     let p : Nat := 0
     let r : Nat := 0
     let dg : Buf := (dgram 2 0 (manSwap (packBuf 64 [(8, 0x4D), (6, 0), (2, 0), (3, 0), (5, 7), (5, 7), (3, 0), (32, 0), (4, 1), (60, 0), (64, 0), (64, 0), (3, 0), (29, 0), (32, 0), (32, 1), (32, 0), (128, 55)])) 0 0)
     let g : Got := gotOf (s.tick at_) dg 2
     let u : State := ((s.tick at_).rxDatagram 0 0 dg (fun x => x = 2)).2
     let f := g.h.frag
     let x := u.frag f
     let j := jobOf (imgFar)
     let m := manSwap g.text
     let a := (packBuf 64 [(8, 0x4D), (6, 0), (2, 0), (3, 1), (5, 7), (5, 7), (3, 0), (32, 0), (4, 1), (60, 0), (64, 0), (64, 0), (3, 0), (29, 0), (32, 0), (32, 1), (32, 0), (128, 55)])
     [((match (s.tick at_).rxDatagram p r dg (fun x => x = 2) with | (some g2, u2) => decide (g2 = g) && decide (u2 = u) | _ => false)),
      (decide (u.job = some j)),
      (decide (g.fresh = true)),
      (decide (manGood g.text = true)),
      (decide (x.jstate ≠ 0)),
      (decide (manFrag m = f)),
      (decide (manRound m < x.nextAdopt)),
      (decide (x.jstate ≠ 1)),
      (decide (x.manifest (manRound m) = some a)),
      (decide (a ≠ m))].all id) = true ∧
    (let s : State := farOn ({ Fragment.reset with jstate := 3, active := 7 }) (id) (imgFar)
     let at_ : Nat := 10
     let p : Nat := 0
     let r : Nat := 0
     let dg : Buf := (dgram 2 0 (manSwap (packBuf 64 [(8, 0x4D), (6, 0), (2, 0), (3, 0), (5, 7), (5, 7), (3, 0), (32, 0), (4, 1), (60, 0), (64, 0), (64, 0), (3, 0), (29, 0), (32, 0), (32, 1), (32, 0), (128, 55)])) 0 0)
     let g : Got := gotOf (s.tick at_) dg 2
     let u : State := ((s.tick at_).rxDatagram 0 0 dg (fun x => x = 2)).2
     let f := g.h.frag
     let x := u.frag f
     let j := jobOf (imgFar)
     let m := manSwap g.text
     [((match (s.tick at_).rxDatagram p r dg (fun x => x = 2) with | (some g2, u2) => decide (g2 = g) && decide (u2 = u) | _ => false)),
      (decide (u.job = some j)),
      (decide (g.fresh = true)),
      (decide (manGood g.text = true)),
      (decide (x.jstate ≠ 0)),
      (decide (manFrag m = f)),
      (decide (x.nextAdopt ≤ manRound m ∨ x.jstate = 1)),
      (decide (m ∉ x.held))].all id) = true ∧
    (let s : State := farOn ({ Fragment.reset with jstate := 3 }) (id) (imgFar)
     let at_ : Nat := 10
     let p : Nat := 0
     let r : Nat := 0
     let dg : Buf := (dgram 3 0 (Buf.zeros 32) 0 0)
     let g : Got := gotOf (s.tick at_) dg 3
     let u : State := ((s.tick at_).rxDatagram 0 0 dg (fun x => x = 3)).2
     let f := g.h.frag
     let x := u.frag f
     [((match (s.tick at_).rxDatagram p r dg (fun x => x = 3) with | (some g2, u2) => decide (g2 = g) && decide (u2 = u) | _ => false)),
      (decide (g.fresh = true)),
      (decide (x.jstate ≠ 0))].all id) = true ∧
    (let s : State := farOn ({ Fragment.reset with jstate := 3 }) (id) (imgFar)
     let at_ : Nat := 10
     let p : Nat := 0
     let r : Nat := 0
     let dg : Buf := (dgram 4 0 (Buf.ofBe 4 6) 0 0)
     let g : Got := gotOf (s.tick at_) dg 4
     let u : State := ((s.tick at_).rxDatagram 0 0 dg (fun x => x = 4)).2
     let f := g.h.frag
     let x := u.frag f
     let j := jobOf (imgFar)
     [((match (s.tick at_).rxDatagram p r dg (fun x => x = 4) with | (some g2, u2) => decide (g2 = g) && decide (u2 = u) | _ => false)),
      (decide (u.job = some j)),
      (decide (g.fresh = true)),
      (decide (g.text.be 0 4 ≠ pullMark))].all id) = true ∧
    (let s : State := farOn ({ Fragment.reset with jstate := 3 }) (id) (mkImg 0x77 0x88 0 [ttSect 3900000 [], (9, 1, Buf.zeros 64), (0xC, 1, Buf.zeros 64)])
     let at_ : Nat := 10
     let p : Nat := 0
     let r : Nat := 0
     let dg : Buf := (dgram 4 0 (Buf.ofBe 4 0xFFFFFFFE) 0 0)
     let g : Got := gotOf (s.tick at_) dg 4
     let u : State := ((s.tick at_).rxDatagram 0 0 dg (fun x => x = 4)).2
     let f := g.h.frag
     let x := u.frag f
     let j := jobOf (mkImg 0x77 0x88 0 [ttSect 3900000 [], (9, 1, Buf.zeros 64), (0xC, 1, Buf.zeros 64)])
     [((match (s.tick at_).rxDatagram p r dg (fun x => x = 4) with | (some g2, u2) => decide (g2 = g) && decide (u2 = u) | _ => false)),
      (decide (u.job = some j)),
      (decide (g.fresh = true)),
      (decide (g.text.be 0 4 = pullMark)),
      (decide (u.roundOwner = false))].all id) = true ∧
    (let s : State := farOn ({ Fragment.reset with jstate := 3 }) (id) (imgFar)
     let at_ : Nat := 10
     let p : Nat := 0
     let r : Nat := 0
     let dg : Buf := (dgram 4 0 (Buf.ofBe 4 0xFFFFFFFE) 0 0)
     let g : Got := gotOf (s.tick at_) dg 4
     let u : State := ((s.tick at_).rxDatagram 0 0 dg (fun x => x = 4)).2
     let f := g.h.frag
     let x := u.frag f
     let j := jobOf (imgFar)
     [((match (s.tick at_).rxDatagram p r dg (fun x => x = 4) with | (some g2, u2) => decide (g2 = g) && decide (u2 = u) | _ => false)),
      (decide (u.job = some j)),
      (decide (g.fresh = true)),
      (decide (g.text.be 0 4 = pullMark)),
      (decide (u.roundOwner = true)),
      (decide (x.jstate = 3)),
      (decide (u.applying j f = false)),
      (decide (((u.sess g.k).flight ++ (u.sess g.k).queue ++ (u.sess g.k).outStream).any (fun d => d.type = 8) = false))].all id) = true ∧
    (let s : State := farOn ({ Fragment.reset with jstate := 3 }) (id) (mkImg 0x77 0x88 0 [ttSect 3900000 [], (9, 1, Buf.zeros 64), (0xC, 1, Buf.zeros 64)])
     let at_ : Nat := 10
     let p : Nat := 0
     let r : Nat := 0
     let dg : Buf := (dgram 5 0 ((Buf.ofBe 1 1).app (Buf.zeros 7)) 0 0)
     let g : Got := gotOf (s.tick at_) dg 5
     let u : State := ((s.tick at_).rxDatagram 0 0 dg (fun x => x = 5)).2
     let f := g.h.frag
     let x := u.frag f
     [((match (s.tick at_).rxDatagram p r dg (fun x => x = 5) with | (some g2, u2) => decide (g2 = g) && decide (u2 = u) | _ => false)),
      (decide (g.fresh = true)),
      (decide (u.roundOwner = false))].all id) = true ∧
    (let s : State := farOn ({ Fragment.reset with jstate := 3, caravans := [(carKey 0 1, [(0, ⟨168, 9⟩)])], chunksOf := [(carKey 0 1, 1)] }) (id) (imgFar)
     let at_ : Nat := 10
     let p : Nat := 0
     let r : Nat := 0
     let dg : Buf := (dgram 5 0 ((Buf.ofBe 1 1).app (Buf.zeros 7)) 0 0)
     let g : Got := gotOf (s.tick at_) dg 5
     let u : State := ((s.tick at_).rxDatagram 0 0 dg (fun x => x = 5)).2
     let f := g.h.frag
     let x := u.frag f
     [((match (s.tick at_).rxDatagram p r dg (fun x => x = 5) with | (some g2, u2) => decide (g2 = g) && decide (u2 = u) | _ => false)),
      (decide (g.fresh = true)),
      (decide (u.roundOwner = true))].all id) = true ∧
    (let s : State := farOn ({ Fragment.reset with jstate := 3 }) ((fun y => { y with nextSeq := 9, flight := (List.range 3).map fun i => { newDatagram 1 0 0 i true (Buf.zeros 8) with seq := i, txCount := 1 } })) (imgFar)
     let at_ : Nat := 10
     let p : Nat := 0
     let r : Nat := 0
     let dg : Buf := (dgram 6 0 (Buf.cat [Buf.ofBe 2 1, Buf.zeros 6, Buf.ofBe 6 1, Buf.ofBe 2 1]) 0 0)
     let g : Got := gotOf (s.tick at_) dg 6
     let u : State := ((s.tick at_).rxDatagram 0 0 dg (fun x => x = 6)).2
     let f := g.h.frag
     let x := u.frag f
     [((match (s.tick at_).rxDatagram p r dg (fun x => x = 6) with | (some g2, u2) => decide (g2 = g) && decide (u2 = u) | _ => false))].all id) = true ∧
    (let s : State := farOn ({ Fragment.reset with jstate := 3 }) (id) (imgFar)
     let at_ : Nat := 10
     let p : Nat := 0
     let r : Nat := 0
     let dg : Buf := (dgram 7 0 (Buf.cat [Buf.ofBe 6 0, ⟨1, 3⟩, Buf.zeros 1]) 0 0)
     let g : Got := gotOf (s.tick at_) dg 7
     let u : State := ((s.tick at_).rxDatagram 0 0 dg (fun x => x = 7)).2
     let f := g.h.frag
     let x := u.frag f
     [((match (s.tick at_).rxDatagram p r dg (fun x => x = 7) with | (some g2, u2) => decide (g2 = g) && decide (u2 = u) | _ => false))].all id) = true ∧
    (let s : State := farOn ({ Fragment.reset with jstate := 3 }) (id) (imgFar)
     let at_ : Nat := 10
     let p : Nat := 0
     let r : Nat := 0
     let dg : Buf := (dgram 8 0 (⟨64, 9⟩) 0 1)
     let g : Got := gotOf (s.tick at_) dg 8
     let u : State := ((s.tick at_).rxDatagram 0 0 dg (fun x => x = 8)).2
     let f := g.h.frag
     let x := u.frag f
     [((match (s.tick at_).rxDatagram p r dg (fun x => x = 8) with | (some g2, u2) => decide (g2 = g) && decide (u2 = u) | _ => false)),
      (decide (g.fresh = true))].all id) = true ∧
    (let s : State := farOn ({ Fragment.reset with jstate := 3 }) (id) (imgFar)
     let at_ : Nat := 10
     let p : Nat := 0
     let r : Nat := 0
     let dg : Buf := (dgram 9 0 (Buf.zeros 8) 0 0)
     let g : Got := gotOf (s.tick at_) dg 9
     let u : State := ((s.tick at_).rxDatagram 0 0 dg (fun x => x = 9)).2
     let f := g.h.frag
     let x := u.frag f
     [((match (s.tick at_).rxDatagram p r dg (fun x => x = 9) with | (some g2, u2) => decide (g2 = g) && decide (u2 = u) | _ => false)),
      (decide (g.fresh = true))].all id) = true := by
  refine ⟨?_, ?_, ?_, ?_, ?_, ?_, ?_, ?_, ?_, ?_, ?_, ?_, ?_, ?_, ?_⟩ <;> decide +kernel

/-- Each clause of `SessionsOpenAndFramesAnswer` has a state and operands that meet its hypotheses. -/
theorem witness_SessionsOpenAndFramesAnswer :
    (let s : State := farOn
     let at_ : Nat := 10
     let p : Nat := 0
     let b : Buf := Buf.empty
     let t := s.tick at_
     [(decide (t.initGood p b = false))].all id) = true ∧
    (let s : State := farOn
     let at_ : Nat := 10
     let p : Nat := 0
     let b : Buf := Buf.empty
     let t := s.tick at_
     [(decide (t.places.find? (fun k => (t.sess k).port = p && t.acceptGood k b) = none))].all id) = true ∧
    (let b : Buf := Buf.zeros 64
     [(decide (goodFrame b = none))].all id) = true ∧
    (let s : State := farOn
     let at_ : Nat := 10
     let p : Nat := 0
     let r : Nat := 0
     let b : Buf := withFcs (Buf.zeros 60)
     let t := s.tick at_
     let f := (Buf.zeros 60)
     [(decide (goodFrame b = some f)),
      (decide (isForeign ((t.farPort p).route r) f = true))].all id) = true ∧
    (let s : State := farOn
     let at_ : Nat := 10
     let p : Nat := 0
     let r : Nat := 0
     let b : Buf := withFcs (Buf.cat [Buf.ofBe 6 0x3333FF00004D, Buf.ofBe 6 99, Buf.ofBe 2 0x86DD, Buf.ofBe 4 0x60000000, Buf.ofBe 2 24, Buf.ofBe 1 58, Buf.ofBe 1 255, Buf.ofBe 16 66, Buf.ofBe 16 (solicited 77), Buf.ofBe 1 135, Buf.zeros 7, Buf.ofBe 16 77])
     let t := s.tick at_
     let f := (Buf.cat [Buf.ofBe 6 0x3333FF00004D, Buf.ofBe 6 99, Buf.ofBe 2 0x86DD, Buf.ofBe 4 0x60000000, Buf.ofBe 2 24, Buf.ofBe 1 58, Buf.ofBe 1 255, Buf.ofBe 16 66, Buf.ofBe 16 (solicited 77), Buf.ofBe 1 135, Buf.zeros 7, Buf.ofBe 16 77])
     [(decide (((t.farPort p).route r).linkUp = true)),
      (decide (goodFrame b = some f)),
      (decide (f.len ≠ 0)),
      (decide (forRoute ((t.farPort p).route r) f = true)),
      (decide (f.byte (ipOff f + 6) = 58)),
      (decide (f.byte (ipOff f + 40) = 135)),
      (decide (f.be (ipOff f + 48) 16 = ((t.farPort p).route r).ip6))].all id) = true ∧
    (let s : State := (farOn).putPartner 2 { Partner.reset with used := true, budgets := [(9, 5, 6), (0, 7, 8)], port := 3 }
     let at_ : Nat := 10
     let b : Buf := Buf.empty
     let t := s.tick at_
     let target := 2
     let c := (0, 7, 8)
     [(decide (target < 5)),
      (decide ((t.partner target).budgets.find? (fun b => b.1 ≤ t.htNow && (t.partner target).budgets.all fun c => b.1 ≤ c.1) = some c))].all id) = true ∧
    (let s : State := farOn (y := fun y => { y with bulk := true, peer := 9, budgets := [(0, 7, 8)] })
     let at_ : Nat := 10
     let b : Buf := Buf.empty
     let t := s.tick at_
     let target := 0x105
     let k := 0
     let c := (0, 7, 8)
     [(decide (5 ≤ target)),
      (decide (t.places.find? (fun k => (t.sess k).localId = target - 0x100 && (t.sess k).bulk) = some k)),
      (decide ((t.sess k).budgets.find? (fun b => b.1 ≤ t.htNow && (t.sess k).budgets.all fun c => b.1 ≤ c.1) = some c))].all id) = true := by
  refine ⟨?_, ?_, ?_, ?_, ?_, ?_, ?_⟩ <;> decide +kernel

/-- Each clause of `SessionTimersComplete` has a state and operands that meet its hypotheses. -/
theorem witness_SessionTimersComplete :
    (let s : State := farOn (y := fun y => { y with state := .opening, initiator := true, initGap := 10 ^ 9, waitMb := some 2 })
     let at_ : Nat := 31 * 10 ^ 9
     let k : Nat := 0
     let t := s.tick at_
     let x := s.sess k
     [(decide (x.state = .opening)),
      (decide (x.initiator = true)),
      (decide (x.initAt + x.initGap ≤ t.now)),
      (decide (x.waitMb.isSome = true)),
      (decide (x.openSince + 30000000000 ≤ t.now))].all id) = true ∧
    (let s : State := farOn (y := fun y => { y with state := .opening, initiator := true, initGap := 10 ^ 9 })
     let at_ : Nat := 10 ^ 9
     let k : Nat := 0
     let t := s.tick at_
     let x := s.sess k
     [(decide (x.state = .opening)),
      (decide (x.initiator = true)),
      (decide (x.initAt + x.initGap ≤ t.now)),
      (decide (x.waitMb = none ∨ t.now < x.openSince + 30000000000))].all id) = true ∧
    (let s : State := farOn (y := fun y => { y with unrep := 1, gotAbove := [8, 6, 5] })
     let at_ : Nat := 10 ^ 9
     let k : Nat := 0
     let t := s.tick at_
     let x := s.sess k
     [(decide (x.state = .open_)),
      (decide (x.unrep ≠ 0)),
      (decide (x.ackAt + 100000 ≤ t.now ∨ 64 ≤ x.unrep))].all id) = true ∧
    (let s : State := farOn
     let at_ : Nat := 10 ^ 9
     let k : Nat := 0
     let t := s.tick at_
     let x := s.sess k
     [(decide (x.state = .open_ ∨ x.state = .held)),
      (decide (x.hbAt + 500000 ≤ t.now))].all id) = true ∧
    (let s : State := farOn (y := fun y => { y with flight := [({ newDatagram 1 0 0 2 true (Buf.zeros 8) with seq := 4, txCount := 1, sentAt := 5, rtoNs := 10 ^ 6, timeouts := 1 } : Datagram)] })
     let at_ : Nat := 1999999
     let k : Nat := 0
     let t := s.tick at_
     let x := s.sess k
     let seq := 4
     let d := ({ newDatagram 1 0 0 2 true (Buf.zeros 8) with seq := 4, txCount := 1, sentAt := 5, rtoNs := 10 ^ 6, timeouts := 1 } : Datagram)
     [(decide (x.flight.find? (fun d => d.seq = seq && !d.lost) = some d)),
      (decide (t.now < d.sentAt + Nat.min (d.rtoNs * 2 ^ d.timeouts) 2000000000))].all id) = true ∧
    (let s : State := farOn (y := fun y => { y with flight := [({ newDatagram 1 0 0 2 true (Buf.zeros 8) with seq := 4, txCount := 1, sentAt := 5, rtoNs := 10 ^ 6, timeouts := 1 } : Datagram)] })
     let at_ : Nat := 2000005
     let k : Nat := 0
     let t := s.tick at_
     let x := s.sess k
     let seq := 4
     let d := ({ newDatagram 1 0 0 2 true (Buf.zeros 8) with seq := 4, txCount := 1, sentAt := 5, rtoNs := 10 ^ 6, timeouts := 1 } : Datagram)
     [(decide (x.flight.find? (fun d => d.seq = seq && !d.lost) = some d)),
      (decide (d.sentAt + Nat.min (d.rtoNs * 2 ^ d.timeouts) 2000000000 ≤ t.now))].all id) = true ∧
    (let s : State := farOn
     let at_ : Nat := 10 ^ 9
     let k : Nat := 0
     let t := s.tick at_
     let x := s.sess k
     let route := 0
     let lost := true
     [(decide (x.state = .open_ ∨ x.state = .held)),
      (decide ((x.route route).failed = false)),
      (decide (lost = true ∨ (x.route route).lastRx + 1500000 ≤ t.now))].all id) = true ∧
    (let s : State := (farOn (y := fun y => { y with state := .held, waitMb := some 1 }))
     let at_ : Nat := 10 ^ 11
     let k : Nat := 0
     let t := s.tick at_
     let x := s.sess k
     [(decide (x.state = .held)),
      (decide (x.heldAt + (s.partner x.peer).timeoutS * 1000000000 ≤ t.now))].all id) = true ∧
    (let s : State := farOn (y := fun y => { y with epochSent := 2 ^ 32 })
     let at_ : Nat := 10 ^ 9
     let k : Nat := 0
     let t := s.tick at_
     let x := s.sess k
     [(decide (x.state = .open_ ∨ x.state = .held)),
      (decide (2 ^ 32 ≤ x.epochSent ∨ x.epochAt + 600000000000 ≤ t.htNow)),
      (decide (x.txEpoch + 1 < 0xFFF0))].all id) = true ∧
    (let s : State := farOn (y := fun y => { y with epochSent := 2 ^ 32, txEpoch := 0xFFEF })
     let at_ : Nat := 10 ^ 9
     let k : Nat := 0
     let t := s.tick at_
     let x := s.sess k
     [(decide (x.state = .open_ ∨ x.state = .held)),
      (decide (2 ^ 32 ≤ x.epochSent ∨ x.epochAt + 600000000000 ≤ t.htNow)),
      (decide (0xFFF0 ≤ x.txEpoch + 1))].all id) = true ∧
    (let s : State := farOn (y := fun y => { y with keyRxOld := some (5, 10 ^ 9) })
     let at_ : Nat := 10 ^ 9
     let k : Nat := 0
     let t := s.tick at_
     let x := s.sess k
     let key := 5
     let till := 10 ^ 9
     [(decide (x.keyRxOld = some (key, till))),
      (decide (till ≤ t.now))].all id) = true := by
  refine ⟨?_, ?_, ?_, ?_, ?_, ?_, ?_, ?_, ?_, ?_, ?_⟩ <;> decide +kernel

/-- Each clause of `OuterRoundsComplete` has a state and operands that meet its hypotheses. -/
theorem witness_OuterRoundsComplete :
    (let s : State := farOn { Fragment.reset with jstate := 3, active := 3, encoding := some 0, out := [⟨0, 100, false⟩] }
     let at_ : Nat := 10
     let f : Nat := 0
     let t := s.tick at_
     let x := s.frag f
     let j := jobOf imgFar
     let r := 0
     [(decide (s.job = some j)),
      (decide (x.encoding = some r)),
      (decide (x.encHeld = false)),
      (decide (t.sliceRuns 2 = true)),
      ((match x.out.find? (fun o => o.round = r) with | some o => decide (o.snapStep = j.step) && !(t.snapCopied j f) | none => false) |> not)].all id) = true ∧
    (let s : State := farOn { Fragment.reset with jstate := 3, active := 3, caravans := [(carKey 0 0, [(0, Buf.zeros 168)])], chunksOf := [(carKey 0 0, 1)], adopted := [(packBuf 64 [(8, 0x4D), (6, 0), (2, 0), (3, 0), (5, 7), (5, 7), (3, 0), (32, 0), (4, 1), (60, 0), (64, 0), (64, 0), (3, 0), (29, 0), (32, 0), (32, 1), (32, 0), (128, ({ Fragment.reset with jstate := 3, active := 3, caravans := [(carKey 0 0, [(0, Buf.zeros 168)])], chunksOf := [(carKey 0 0, 1)] } : Fragment).cdigest 0 0)])] }
     let at_ : Nat := 10
     let f : Nat := 0
     let t := s.tick at_
     let x := s.frag f
     let j := jobOf imgFar
     let m := (packBuf 64 [(8, 0x4D), (6, 0), (2, 0), (3, 0), (5, 7), (5, 7), (3, 0), (32, 0), (4, 1), (60, 0), (64, 0), (64, 0), (3, 0), (29, 0), (32, 0), (32, 1), (32, 0), (128, ({ Fragment.reset with jstate := 3, active := 3, caravans := [(carKey 0 0, [(0, Buf.zeros 168)])], chunksOf := [(carKey 0 0, 1)] } : Fragment).cdigest 0 0)])
     [(decide (s.job = some j)),
      (decide (x.manifest x.closed = some m)),
      (decide (2 ≤ x.jstate)),
      (decide (x.bootReady = false)),
      (decide (x.sumReady = false)),
      (decide (manContribs m ≠ 0)),
      (decide (imgNormEn j.image = true)),
      (decide (x.allHeld m = true)),
      (decide (t.sliceRuns 3 = true))].all id) = true ∧
    (let s : State := { farOn { Fragment.reset with jstate := 3, active := 3, adopted := [(packBuf 64 [(8, 0x4D), (6, 0), (2, 0), (3, 0), (5, 7), (5, 7), (3, 0), (32, 0), (4, 1), (60, 0), (64, 0), (64, 0), (3, 0), (29, 0), (32, 0), (32, 1), (32, 0), (128, 55)])] } with job := some { jobOf imgFar with step := 300 } }
     let f : Nat := 0
     let x := s.frag f
     let j := { jobOf imgFar with step := 300 }
     let m := (packBuf 64 [(8, 0x4D), (6, 0), (2, 0), (3, 0), (5, 7), (5, 7), (3, 0), (32, 0), (4, 1), (60, 0), (64, 0), (64, 0), (3, 0), (29, 0), (32, 0), (32, 1), (32, 0), (128, 55)])
     let c := imgFragCfg j.image f
     [(decide (s.job = some j)),
      (decide (x.manifest x.closed = some m)),
      (decide (2 ≤ x.jstate)),
      (decide (x.sumReady = false)),
      (decide (x.allHeld m = false)),
      (decide (((x.out.find? fun o => o.round = x.closed).map (·.snapStep)).getD (c.phase + x.closed * c.h) + 4 * c.tauMax ≤ j.step))].all id) = true ∧
    (let s : State := farOn { Fragment.reset with jstate := 1, bootData := [Buf.zeros 64], bootRound := 2, donor := some 1 }
     let f : Nat := 0
     let x := s.frag f
     [(decide (x.jstate = 1)),
      (decide (x.bootData ≠ []))].all id) = true ∧
    (let s : State := farOn { Fragment.reset with jstate := 3, shifting := true }
     let at_ : Nat := 10
     let f : Nat := 0
     let t := s.tick at_
     let x := s.frag f
     [(decide (x.shifting = true)),
      (decide (t.sliceRuns 4 = true))].all id) = true ∧
    (let s : State := { farOn with job := none }
     let p := 0
     [(decide (s.job = none)),
      (decide (s.acx.idlePort = p))].all id) = true ∧
    (let s : State := { farOn with dies := [(0, { Die.reset with pass := some (2, 100, 5) })] }
     let die := 0
     let j := jobOf imgFar
     let i := 2
     let step := 100
     let fin := 5
     [(decide (s.job = some j)),
      (decide ((s.die die).pass = some (i, step, fin)))].all id) = true := by
  refine ⟨?_, ?_, ?_, ?_, ?_, ?_, ?_⟩ <;> decide +kernel

/-- Each clause of `SyncObjectRule` has a state and operands that meet its hypotheses. -/
theorem witness_SyncObjectRule :
    (let s : State := { up with sos := [(3, ⟨5, 2, false⟩), (7, ⟨9, 1, true⟩)] }
     let k : Nat := 3
     let m : Int := 6
     let o := s.so k
     [(decide (o.step < m))].all id) = true ∧
    (let s : State := { up with sos := [(3, ⟨5, 2, false⟩), (7, ⟨9, 1, true⟩)] }
     let k : Nat := 3
     let m : Int := 5
     let o := s.so k
     [(decide (m = o.step))].all id) = true ∧
    (let s : State := { up with sos := [(3, ⟨5, 2, false⟩), (7, ⟨9, 1, true⟩)] }
     let k : Nat := 3
     let m : Int := 4
     let o := s.so k
     [(decide (m < o.step))].all id) = true ∧
    (let s : State := (withCkpt { ergOn ErgChannel.reset imgCk with job := some { jobOf imgCk with phase := .stopped } })
     let e : Buf := ent 0x0403 (packBits [(64, 39000000), (2, 0)])
     let in1 : Buf := Buf.empty
     let recs : Option (List Rec) := (withCkpt { ergOn ErgChannel.reset imgCk with job := some { jobOf imgCk with phase := .stopped } }).halfRecs imgCk 0
     [(decide ((s.restoreFrom e in1 recs).1 = 0))].all id) = true := by
  refine ⟨?_, ?_, ?_, ?_⟩ <;> decide +kernel

/-- Each clause of `SymbolDecoderRule` has a state and operands that meet its hypotheses. -/
theorem witness_SymbolDecoderRule :
    (let s0 := 255
     let s1 := gfTimesPow 9 255
     let j := 9
     [(decide (0 < s0)),
      (decide (s0 < 256)),
      (decide (j < 10)),
      (decide (s1 = gfTimesPow j s0))].all id) = true ∧
    (let s0 := 1
     let s1 := 0
     [(decide (0 < s0)),
      (decide (s0 < 256)),
      (decide (s1 < 256)),
      (decide (((List.range 10).all (fun j => decide (gfTimesPow j s0 ≠ s1)) = true)))].all id) = true ∧
    (let s1 := 1
     [(decide (0 < s1)),
      (decide (s1 < 256)),
      (decide (s1 ≠ 0x27))].all id) = true ∧
    (let r : Ram := ⟨(Mem.store [] 0 16 0x1122334455667788), [(2, 0x5A)]⟩
     let w : Nat := 1
     let j : Nat := 8
     let e : Nat := 0x5A
     [(decide (r.status w = .single j e)),
      (decide (Memory.wf r.chk = true))].all id) = true := by
  refine ⟨?_, ?_, ?_, ?_⟩ <;> decide +kernel

/-- `DoorbellsLoseNoCommand` has operands that meet its hypotheses. -/
theorem witness_DoorbellsLoseNoCommand :
    (let s : State := up.onMbox 0 fun m => { m with state := .open_, cmdHead := 65530, cmdTail := 65530 }
     let mb : Nat := 0
     let l : List (Nat × Nat) := [(3, 2), (4, 65594), (5, 58)]
     let tail : Nat := 60
     let h := (s.mbox mb).cmdHead
     let ahead (x : Nat) : Nat := (x % 2 ^ 16 + 2 ^ 16 - h) % 2 ^ 16
     [(decide (s.barUp = true)),
      (decide ((s.mbox mb).state = .open_)),
      (decide (l ≠ [])),
      (decide (h < 2 ^ 16)),
      (decide (∀ x ∈ l, ahead x.2 ≤ 64)),
      (decide (64 < ahead tail))].all id) = true := by
  decide +kernel

/-- Each clause of `CommandsTurnedAway` has a state and operands that meet its hypotheses. -/
theorem witness_CommandsTurnedAway :
    (let row : Nat × (State → Call → Bool) × (Nat → Nat → Option Buf → Option Buf → Instr) := (0x0304, mayOp, fun a b c d => .ergRetireClear a b c d)
     let s : State := posted up 0 (ent 0x0304 0 0 0)
     let at_ : Nat := 0
     let mb : Nat := 0
     let e : Buf := ent 0x0304 0 0 0
     let b0 : Option Buf := none
     let b1 : Option Buf := none
     let u := s.tick at_
     let c : Call := ⟨mb, e, b0, b1⟩
     [(decide (u.posts row.1 mb e = true)),
      (decide (row.2.1 (u.begun mb) c = false))].all id) = true ∧
    (let row : Nat × (State → Call → Bool) × (Nat → Nat → Option Buf → Option Buf → Instr) := (0x0204, mayOpIfSet, fun a b c d => .slotMiss a b c d)
     let s : State := posted up 3 (ent 0x0204 0 (wr 8192) 0) 16
     let at_ : Nat := 0
     let mb : Nat := 16
     let e : Buf := ent 0x0204 0 (wr 8192) 0
     let b0 : Option Buf := none
     let b1 : Option Buf := none
     let u := s.tick at_
     let c : Call := ⟨mb, e, b0, b1⟩
     [(decide (u.posts row.1 mb e = true)),
      (decide (row.2.1 (u.begun mb) c = true)),
      (decide (mb = 16)),
      (decide (needsBuffer e = true))].all id) = true ∧
    (let row : Nat × (State → Call → Bool) × (Nat → Nat → Option Buf → Option Buf → Instr) := (0x0204, mayOpIfSet, fun a b c d => .slotMiss a b c d)
     let s : State := posted up 3 (ent 0x0204 0 (rd 8) 0)
     let at_ : Nat := 0
     let mb : Nat := 0
     let e : Buf := ent 0x0204 0 (rd 8) 0
     let b0 : Option Buf := none
     let b1 : Option Buf := none
     let u := s.tick at_
     let c : Call := ⟨mb, e, b0, b1⟩
     [(decide (u.posts row.1 mb e = true)),
      (decide (row.2.1 (u.begun mb) c = true)),
      (decide (¬ (mb = 16 ∧ needsBuffer e = true))),
      (decide (c.bufStatus ≠ 0))].all id) = true ∧
    (let s : State := State.reset
     let at_ : Nat := 0
     let mb : Nat := 0
     let u := s.tick at_
     [((u.startable mb).isNone)].all id) = true := by
  refine ⟨?_, ?_, ?_, ?_⟩ <;> decide +kernel

/-- Each clause of `MemoriesReadBack` has a state and operands that meet its hypotheses. -/
theorem witness_MemoriesReadBack :
    (let m : Mem := [(3, 5), (7, 1), (20, 9), (300, 3)]
     [(decide (Memory.wf m = true))].all id) = true ∧
    (let m : Mem := [(3, 5), (7, 1), (20, 9), (300, 3)]
     let a : Nat := 5
     let n : Nat := 4
     let x := 30
     [(decide (Memory.wf m = true)),
      (decide (x < a ∨ a + n ≤ x))].all id) = true ∧
    (let r : Ram := ⟨[(3, 5), (7, 1), (20, 9), (300, 3)], [(0, 1), (1, 2), (2, 9), (5, 3)]⟩
     let a : Nat := 8
     let n : Nat := 16
     [(decide (Memory.wf r.data = true)),
      (decide (Memory.wf r.chk = true)),
      (decide (a % 8 = 0)),
      (decide (n % 8 = 0))].all id) = true ∧
    (let r : Ram := ⟨[(3, 5), (7, 1), (20, 9), (300, 3)], [(0, 1), (1, 2), (2, 9), (5, 3)]⟩
     let a : Nat := 8
     let n : Nat := 16
     let x := 30
     [(decide (Memory.wf r.data = true)),
      (decide (Memory.wf r.chk = true)),
      (decide (a % 8 = 0)),
      (decide (n % 8 = 0)),
      (decide (x < a ∨ a + n ≤ x))].all id) = true ∧
    (let r : Ram := ⟨[(3, 5), (7, 1), (20, 9), (300, 3)], [(0, 1), (1, 2), (2, 9), (5, 3)]⟩
     let a : Nat := 8
     let n : Nat := 16
     let k := 9
     [(decide (Memory.wf r.data = true)),
      (decide (Memory.wf r.chk = true)),
      (decide (a % 8 = 0)),
      (decide (n % 8 = 0)),
      (decide (k < a / 8 ∨ (a + n) / 8 ≤ k))].all id) = true := by
  refine ⟨?_, ?_, ?_, ?_, ?_⟩ <;> decide +kernel

/-- Each clause of `SymbolCodeCorrects` has a state and operands that meet its hypotheses. -/
theorem witness_SymbolCodeCorrects :
    (let d : Nat := 0
     [(decide (d < 2 ^ 64))].all id) = true ∧
    (let d : Nat := 0
     let p := 9
     let e := 255
     [(decide (d < 2 ^ 64)),
      (decide (p < 10)),
      (decide (0 < e)),
      (decide (e < 256))].all id) = true := by
  refine ⟨?_, ?_⟩ <;> decide +kernel

/-- Each clause of `StochasticRoundingRule` has a state and operands that meet its hypotheses. -/
theorem witness_StochasticRoundingRule :
    (let y : Nat := 0
     let r : Nat := 0
     [(decide (y < 2 ^ 32)),
      (decide (r < 2 ^ 16)),
      (decide (y % 2 ^ 31 = 0))].all id) = true ∧
    (let y : Nat := 0x7F800000
     let r : Nat := 0
     let z := y % 2 ^ 31 + r
     [(decide (y < 2 ^ 32)),
      (decide (r < 2 ^ 16)),
      (decide (y % 2 ^ 31 ≠ 0)),
      (decide (z / 2 ^ 23 % 256 = 255))].all id) = true ∧
    (let y : Nat := 0x7F7FFFFF
     let r : Nat := 0
     let z := y % 2 ^ 31 + r
     [(decide (y < 2 ^ 32)),
      (decide (r < 2 ^ 16)),
      (decide (y % 2 ^ 31 ≠ 0)),
      (decide (z / 2 ^ 23 % 256 ≠ 255))].all id) = true ∧
    (let y : Nat := 0
     let r : Nat := 0
     [(decide (y < 2 ^ 32)),
      (decide (r < 2 ^ 16)),
      (decide (y % 2 ^ 31 < 0x7F800000)),
      (decide (y % 2 ^ 31 = 0 ∨ 2 ^ 23 ≤ y % 2 ^ 31))].all id) = true ∧
    (let y : Nat := 0x3F800001
     [(decide (y < 2 ^ 32)),
      (decide (2 ^ 23 ≤ y % 2 ^ 31)),
      (decide (y % 2 ^ 31 ≤ 0x7F7F0000))].all id) = true := by
  refine ⟨?_, ?_, ?_, ?_, ?_⟩ <;> decide +kernel

/-- Each clause of `FloodRecordsCombineInAnyOrder` has a state and operands that meet its hypotheses. -/
theorem witness_FloodRecordsCombineInAnyOrder :
    (let a : Buf := (Buf.mk 64 (packBits [(80, 5), (400, 123456789123456789123456789)]))
     let b : Buf := (Buf.mk 64 (packBits [(80, 5), (400, 123456789123456789123456789)]))
     let c : Buf := (Buf.mk 64 (packBits [(80, 5), (400, 123456789123456789123456789)]))
     [(decide (a.fld 0 80 = b.fld 0 80)),
      (decide (b.fld 0 80 = c.fld 0 80))].all id) = true := by
  decide +kernel

/-- `BasinSumsAreExact` has operands that meet its hypotheses. -/
theorem witness_BasinSumsAreExact :
    ([(true),
      (true)].all id) = true := by
  decide +kernel

/-- Each clause of `AfxSumsInAnyOrder` has a state and operands that meet its hypotheses. -/
theorem witness_AfxSumsInAnyOrder :
    (let a : Buf := ((⟨-5, true, false, false, 3, 5, 6, 7, 8, 9, 9⟩ : AfxHdr).block ((List.range 256).map fun i => ((2 ^ 31 : Int) / 3 - (i : Int) - 2 : Int)))
     let l : List Buf := [((⟨-5, true, true, false, 2 ^ 32 - 2, 5, 6, 7, 8, 9, 2 ^ 64 - 1⟩ : AfxHdr).block ((List.range 256).map fun i => (-((2 ^ 31 : Int) / 3) + (i : Int) : Int))),((⟨-5, true, false, false, 7, 5, 6, 7, 8, 9, 5⟩ : AfxHdr).block ((List.range 256).map fun i => (5 - (i : Int) : Int)))]
     [(true),
      (decide (∀ x ∈ l, afxId x = afxId a)),
      ((List.range 256).all fun i => decide (((a :: l).map fun x => (afxElem x i).natAbs).sum < 2 ^ (afxF (afx32 a) + afxH (afx32 a)))),
      (true)].all id) = true ∧
    (let a : Buf := ((⟨-5, true, false, false, 3, 5, 6, 7, 8, 9, 9⟩ : AfxHdr).block ((List.range 256).map fun i => ((2 ^ 31 : Int) / 3 - (i : Int) - 2 : Int)))
     let b : Buf := ((⟨-5, true, true, false, 2 ^ 32 - 2, 5, 6, 7, 8, 9, 2 ^ 64 - 1⟩ : AfxHdr).block ((List.range 256).map fun i => (-((2 ^ 31 : Int) / 3) + (i : Int) : Int)))
     let l : List Buf := []
     let m : List Buf := [((⟨-5, true, false, false, 7, 5, 6, 7, 8, 9, 5⟩ : AfxHdr).block ((List.range 256).map fun i => (5 - (i : Int) : Int)))]
     [(true),
      (decide (∀ x ∈ l ++ b :: m, afxId x = afxId a)),
      (true)].all id) = true := by
  refine ⟨?_, ?_⟩ <;> decide +kernel

/-- Each clause of `FieldsRoundTrip` has a state and operands that meet its hypotheses. -/
theorem witness_FieldsRoundTrip :
    (let op : Nat := 255
     let f : VFields := ⟨31, 31, 31, 7, 7, 2 ^ 32 - 1⟩
     [(decide (op < 256)),
      (decide (f.wf = true))].all id) = true ∧
    (let d : Mat := Mat.ofBuf ⟨64, 2 ^ 512 - 1⟩
     [(decide (d.fits = true))].all id) = true ∧
    (let h : AcxHdr := ⟨15, true, 1, false, true, 65535, 2 ^ 16 - 1, 2 ^ 48 - 1, 65534, 5, 2 ^ 64 - 1, 2 ^ 32 - 1, 63, 7, 65535, 9, 2 ^ 32 - 1, 0⟩
     [(decide (h.fits = true))].all id) = true ∧
    (let h : AfxHdr := ⟨-32768, true, true, false, 2 ^ 32 - 1, 2 ^ 20 - 1, 65535, 1, 2, 3, 2 ^ 64 - 1⟩
     let els : List Int := (List.range 256).map fun i => (2 ^ 31 - 1 : Int) - (i : Int) * (2 ^ 24)
     [(decide (h.fits = true)),
      (decide (els.length = 256)),
      (decide (∀ i ∈ els, -((2 ^ (afxF h.w32 + afxH h.w32) : Nat) : Int) ≤ i ∧ i < ((2 ^ (afxF h.w32 + afxH h.w32) : Nat) : Int)))].all id) = true := by
  refine ⟨?_, ?_, ?_, ?_⟩ <;> decide +kernel

/-- Each clause of `JobCommandsComplete` has a state and operands that meet its hypotheses. -/
theorem witness_JobCommandsComplete :
    (let s : State := posted (armOn) 3 (ent 0x0401 (packBits [(64, 39000000), (128, 5)]) (rd (signed imgArm cert3 sigArm).len) (0)) 0
     let at_ : Nat := 0
     let mb : Nat := 0
     let e : Buf := ent 0x0401 (packBits [(64, 39000000), (128, 5)]) (rd (signed imgArm cert3 sigArm).len) (0)
     let b0 : Option Buf := some (signed imgArm cert3 sigArm)
     let b1 : Option Buf := none
     let c : Call := ⟨mb, e, b0, b1⟩
     let t := (s.tick at_).begun mb
     let u := t.leaveHold
     let raw := c.buf0.data
     let img := raw.slice 0 (imgLen raw)
     [(decide (((s.tick at_).offers 0x0401 mb e b0 b1 mayJbImage = true))),
      (decide (s.job = none)),
      (decide (64 ≤ raw.len)),
      (decide (signedLen (imgLen raw) ≤ raw.len)),
      (decide (c.par 192 8 ≤ 64)),
      (decide (u.imageGood raw (imgLen raw) (mainSigner raw) = true)),
      (decide (armFailure u img (some (sext 64 (c.par 0 64))) = none))].all id) = true ∧
    (let s : State := posted ({ armOn with job := some (jobOf imgArm 3 .running) }) 3 (ent 0x0402 (0) (0) (0)) 0
     let at_ : Nat := 0
     let mb : Nat := 0
     let e : Buf := ent 0x0402 (0) (0) (0)
     let b0 : Option Buf := none
     let b1 : Option Buf := none
     let j := jobOf imgArm 3 .running
     [(decide (((s.tick at_).offers 0x0402 mb e b0 b1 mayJb = true))),
      (decide (s.job = some j))].all id) = true ∧
    (let s : State := posted ({ armOn with job := some (jobOf imgArm) }) 3 (ent 0x0404 (0) (0) (0)) 0
     let at_ : Nat := 0
     let mb : Nat := 0
     let e : Buf := ent 0x0404 (0) (0) (0)
     let b0 : Option Buf := none
     let b1 : Option Buf := none
     let c : Call := ⟨mb, e, b0, b1⟩
     let j := jobOf imgArm
     [(decide (((s.tick at_).offers 0x0404 mb e b0 b1 mayJb = true))),
      (decide (s.job = some j)),
      (decide (c.par 64 1 = 0)),
      (decide (s.com.ckptLocal = none)),
      (decide (s.com.ckptWait = none)),
      (decide (s.com.ckptWriting = none)),
      (decide (s.com.ckptTail = none)),
      (decide (c.par 0 64 = 0 ∨ j.step < c.par 0 64))].all id) = true ∧
    (let s : State := posted ((farOn (y := fun y => { y with bulk := true, peer := 9 }))) 3 (ent 0x0404 (packBits [(64, 0), (1, 1), (15, 0), (16, 5), (32, 77)]) (0) (0)) 0
     let at_ : Nat := 0
     let mb : Nat := 0
     let e : Buf := ent 0x0404 (packBits [(64, 0), (1, 1), (15, 0), (16, 5), (32, 77)]) (0) (0)
     let b0 : Option Buf := none
     let b1 : Option Buf := none
     let c : Call := ⟨mb, e, b0, b1⟩
     let j := jobOf imgFar
     let k := 0
     [(decide (((s.tick at_).offers 0x0404 mb e b0 b1 mayJb = true))),
      (decide (s.job = some j)),
      (decide (c.par 64 1 = 1)),
      (decide (s.com.ckptExport = none)),
      (decide (s.com.exports = [])),
      (decide (c.par 0 64 = 0 ∨ j.step < c.par 0 64)),
      (decide (k ∈ s.places)),
      (decide ((s.sess k).localId = c.par 80 16)),
      (decide ((s.sess k).bulk = true)),
      (decide ((s.sess k).state = .open_))].all id) = true ∧
    (let s : State := posted ({ armOn with job := some (jobOf imgArm) }) 3 (ent 0x0405 (packBits [(64, 4)]) (rd (signed imgRe cert3 sigRe).len) (0)) 0
     let at_ : Nat := 0
     let mb : Nat := 0
     let e : Buf := ent 0x0405 (packBits [(64, 4)]) (rd (signed imgRe cert3 sigRe).len) (0)
     let b0 : Option Buf := some (signed imgRe cert3 sigRe)
     let b1 : Option Buf := none
     let c : Call := ⟨mb, e, b0, b1⟩
     let t := (s.tick at_).begun mb
     let raw := c.buf0.data
     let img := raw.slice 0 (imgLen raw)
     let j := jobOf imgArm
     [(decide (((s.tick at_).offers 0x0405 mb e b0 b1 mayJb = true))),
      (decide (s.job = some j)),
      (decide (j.relayout = none)),
      (decide (j.oldImage = none)),
      (decide (64 ≤ raw.len)),
      (decide (signedLen (imgLen raw) ≤ raw.len)),
      (decide (j.step < c.par 0 64)),
      (decide (t.imageGood raw (imgLen raw) (mainSigner raw) = true)),
      (decide (checkFormat img false = [])),
      (decide (State.relayout.relayoutChecks t img = [])),
      ((List.range 4).all fun a => imgSize img a = imgSize j.image a),
      (decide (imgCw img = imgCw j.image)),
      (decide (((List.range 4).all (fun a => decide (imgSize img a = imgSize j.image a)) = true))),
      (decide (imgEpoch img = imgEpoch j.image + 1)),
      (decide (∀ x ∈ imgShards img, x.epoch = imgEpoch img))].all id) = true ∧
    (let s : State := posted (withCkpt { ergOn ErgChannel.reset imgCk with job := some { jobOf imgCk with phase := .stopped } }) 3 (ent 0x0403 (packBits [(64, 39000000), (2, 1)]) (0) (0)) 0
     let at_ : Nat := 0
     let mb : Nat := 0
     let e : Buf := ent 0x0403 (packBits [(64, 39000000), (2, 1)]) (0) (0)
     let b0 : Option Buf := none
     let b1 : Option Buf := none
     let c : Call := ⟨mb, e, b0, b1⟩
     let j := { jobOf imgCk with phase := .stopped }
     [(decide (((s.tick at_).offers 0x0403 mb e b0 b1 mayJb = true))),
      (decide (s.job = some j)),
      (decide (j.phase = .stopped ∨ j.phase = .armed ∧ j.fresh = true)),
      (decide (s.com.ckptPending = false)),
      (decide (s.inBackground 0x0403 = false)),
      (decide (c.par 64 2 = 1))].all id) = true ∧
    (let s : State := posted (withCkpt { ergOn ErgChannel.reset imgCk with job := some { jobOf imgCk with phase := .stopped } }) 3 (ent 0x0403 (packBits [(64, 39000000), (2, 0)]) (0) (0)) 0
     let at_ : Nat := 0
     let mb : Nat := 0
     let e : Buf := ent 0x0403 (packBits [(64, 39000000), (2, 0)]) (0) (0)
     let b0 : Option Buf := none
     let b1 : Option Buf := none
     let c : Call := ⟨mb, e, b0, b1⟩
     let t := (s.tick at_).begun mb
     let u := t.leaveHold
     let j := { jobOf imgCk with phase := .stopped }
     let h := 0
     [(decide (((s.tick at_).offers 0x0403 mb e b0 b1 mayJb = true))),
      (decide (s.job = some j)),
      (decide (j.phase = .stopped ∨ j.phase = .armed ∧ j.fresh = true)),
      (decide (s.com.ckptPending = false)),
      (decide (s.inBackground 0x0403 = false)),
      (decide (c.par 64 2 = 0)),
      (decide (u.newestHalf j.image = some h))].all id) = true ∧
    (let s : State := posted ({ farOn (y := fun y => { y with bulk := true, peer := 9 }) with job := some (jobOf imgFar 3 .stopped) }) 3 (ent 0x0403 (packBits [(64, 39000000), (2, 2), (30, 0), (16, 5), (16, 0), (32, 88)]) (0) (0)) 0
     let at_ : Nat := 0
     let mb : Nat := 0
     let e : Buf := ent 0x0403 (packBits [(64, 39000000), (2, 2), (30, 0), (16, 5), (16, 0), (32, 88)]) (0) (0)
     let b0 : Option Buf := none
     let b1 : Option Buf := none
     let c : Call := ⟨mb, e, b0, b1⟩
     let t := (s.tick at_).begun mb
     let u := t.leaveHold
     let j := jobOf imgFar 3 .stopped
     let k := 0
     [(decide (((s.tick at_).offers 0x0403 mb e b0 b1 mayJb = true))),
      (decide (s.job = some j)),
      (decide (j.phase = .stopped ∨ j.phase = .armed ∧ j.fresh = true)),
      (decide (s.com.ckptPending = false)),
      (decide (s.inBackground 0x0403 = false)),
      (decide (c.par 64 2 = 2)),
      (decide (u.places.find? (fun k => (u.sess k).localId = c.par 96 16 && (u.sess k).bulk && (u.sess k).state = .open_) = some k))].all id) = true := by
  refine ⟨?_, ?_, ?_, ?_, ?_, ?_, ?_, ?_⟩ <;> decide +kernel

/-- Each clause of `GuestAndPowerCommandsComplete` has a state and operands that meet its hypotheses. -/
theorem witness_GuestAndPowerCommandsComplete :
    (let s : State := posted ({ armOn with job := some (jobOf (imgArm 0x88 [] (4 + 2 ^ 16))) }) 3 (ent 0x0501 (5) (rd (signed imgGuest cert4 sigGuest).len) (rd 40)) 0
     let at_ : Nat := 0
     let mb : Nat := 0
     let e : Buf := ent 0x0501 (5) (rd (signed imgGuest cert4 sigGuest).len) (rd 40)
     let b0 : Option Buf := some (signed imgGuest cert4 sigGuest)
     let b1 : Option Buf := some keys1
     let c : Call := ⟨mb, e, b0, b1⟩
     let t := (s.tick at_).begun mb
     let raw := c.buf0.data
     let img := raw.slice 0 (imgLen raw)
     let j := jobOf (imgArm 0x88 [] (4 + 2 ^ 16))
     let keys := [keySetDigest keyN]
     [(decide (((s.tick at_).offers 0x0501 mb e b0 b1 mayJbImage = true))),
      (decide (s.job = some j)),
      (decide (j.phase ≠ .restarting)),
      (decide (imgGuestSoCount j.image ≠ 0)),
      (decide (s.guest = none)),
      (decide (64 ≤ raw.len)),
      (decide (signedLen (imgLen raw) ≤ raw.len)),
      (decide (t.imageGood raw (imgLen raw) (fun x => certRole x = 4 && certJob x = imgJobId raw) = true)),
      (decide (keySet c.buf1.data = some keys)),
      (decide (keys.contains (keySetDigest (certModulus (trailerCert raw (imgLen raw)))) = true)),
      (decide (t.guestChecks j.image img = true))].all id) = true ∧
    (let s : State := posted ({ armOn with job := some (jobOf (imgArm 0x88 [] (4 + 2 ^ 16))), guest := some guest0 }) 3 (ent 0x0502 (0) (0) (0)) 0
     let at_ : Nat := 0
     let mb : Nat := 0
     let e : Buf := ent 0x0502 (0) (0) (0)
     let b0 : Option Buf := none
     let b1 : Option Buf := none
     let g := guest0
     [(decide (((s.tick at_).offers 0x0502 mb e b0 b1 mayJbGuest = true))),
      (decide (s.guest = some g))].all id) = true ∧
    (let s : State := posted (armOn) 3 (ent 0x0801 (0) (0) (0)) 0
     let at_ : Nat := 0
     let mb : Nat := 0
     let e : Buf := ent 0x0801 (0) (0) (0)
     let b0 : Option Buf := none
     let b1 : Option Buf := none
     let c : Call := ⟨mb, e, b0, b1⟩
     [(decide (((s.tick at_).offers 0x0801 mb e b0 b1 mayOp = true))),
      (decide (c.par 0 2 = 0))].all id) = true ∧
    (let s : State := posted ({ armOn with aon := { armOn.aon with power := .hold } }) 3 (ent 0x0801 (1) (0) (0)) 0
     let at_ : Nat := 0
     let mb : Nat := 0
     let e : Buf := ent 0x0801 (1) (0) (0)
     let b0 : Option Buf := none
     let b1 : Option Buf := none
     let c : Call := ⟨mb, e, b0, b1⟩
     [(decide (((s.tick at_).offers 0x0801 mb e b0 b1 mayOp = true))),
      (decide (c.par 0 2 = 1)),
      (decide (s.aon.power = .hold))].all id) = true ∧
    (let s : State := posted (armOn) 3 (ent 0x0801 (1) (0) (0)) 0
     let at_ : Nat := 0
     let mb : Nat := 0
     let e : Buf := ent 0x0801 (1) (0) (0)
     let b0 : Option Buf := none
     let b1 : Option Buf := none
     let c : Call := ⟨mb, e, b0, b1⟩
     let t := (s.tick at_).begun mb
     [(decide (((s.tick at_).offers 0x0801 mb e b0 b1 mayOp = true))),
      (decide (c.par 0 2 = 2 ∨ c.par 0 2 = 1 ∧ s.aon.power ≠ .hold)),
      (decide (t.refusers (c.par 0 2) 1 = 0))].all id) = true := by
  refine ⟨?_, ?_, ?_, ?_, ?_⟩ <;> decide +kernel

/-- Each clause of `SecurityCommandsComplete` has a state and operands that meet its hypotheses. -/
theorem witness_SecurityCommandsComplete :
    (let s : State := posted (armOn) 0 (ent 0x0102 (0) (0) (0)) 0
     let at_ : Nat := 0
     let mb : Nat := 0
     let e : Buf := ent 0x0102 (0) (0) (0)
     let b0 : Option Buf := none
     let b1 : Option Buf := none
     [(decide (((s.tick at_).offers 0x0102 mb e b0 b1 mayUn = true)))].all id) = true ∧
    (let s : State := posted ((armOn.onMbox 0 fun m => { m with nonce := some 5, role := 0 })) 0 (ent 0x0103 (3) (rd ((cert3.app (Buf.ofBe 384 sigProof3))).len) (0)) 0
     let at_ : Nat := 0
     let mb : Nat := 0
     let e : Buf := ent 0x0103 (3) (rd ((cert3.app (Buf.ofBe 384 sigProof3))).len) (0)
     let b0 : Option Buf := some ((cert3.app (Buf.ofBe 384 sigProof3)))
     let b1 : Option Buf := none
     let c : Call := ⟨mb, e, b0, b1⟩
     let t := (s.tick at_).begun mb
     [(decide (((s.tick at_).offers 0x0103 mb e b0 b1 mayUn = true))),
      (decide ((s.mbox mb).role = 0)),
      (decide (1 ≤ c.par 0 3)),
      (decide (c.par 0 3 ≤ 4)),
      (decide (c.par 0 3 = 4 ∨ c.par 64 64 = 0)),
      (decide (1216 ≤ c.buf0.data.len)),
      (decide ((t.onMbox mb fun m => { m with nonce := none }).proofGood (t.mbox mb).nonce (c.par 0 3) (c.par 64 64) (c.buf0.data.slice 0 1216) = true))].all id) = true ∧
    (let s : State := posted (armOn.onIsl fun x => { x with hasId := true, idOk := true }) 3 (ent 0x0902 5 (wr 8192) 0)
     let at_ : Nat := 0
     let mb : Nat := 0
     let e : Buf := ent 0x0902 5 (wr 8192) 0
     let b0 : Option Buf := none
     let b1 : Option Buf := none
     let c : Call := ⟨mb, e, b0, b1⟩
     let t := (s.tick at_).begun mb
     [(decide (((s.tick at_).offers 0x0902 mb e b0 b1 mayAny = true))),
      (decide (t.hasIdentity = true)),
      (decide ((t.quote (c.par 0 256)).len ≤ c.buf0.size))].all id) = true ∧
    (let s : State := posted (armOn) 2 (ent 0x0903 (0) (rd ((Buf.app (packBuf 64 [(32, 0x57464C4F), (32, 0), (32, 3), (32, 64)]) (Buf.zeros 1344))).len) (0)) 0
     let at_ : Nat := 0
     let mb : Nat := 0
     let e : Buf := ent 0x0903 (0) (rd ((Buf.app (packBuf 64 [(32, 0x57464C4F), (32, 0), (32, 3), (32, 64)]) (Buf.zeros 1344))).len) (0)
     let b0 : Option Buf := some ((Buf.app (packBuf 64 [(32, 0x57464C4F), (32, 0), (32, 3), (32, 64)]) (Buf.zeros 1344)))
     let b1 : Option Buf := none
     let c : Call := ⟨mb, e, b0, b1⟩
     [(decide (((s.tick at_).offers 0x0903 mb e b0 b1 mayFw = true))),
      (decide (mb ≠ 16)),
      (decide (s.inBackground 0x0903 = false)),
      (decide (64 ≤ c.buf0.data.len)),
      (decide (signedLen (fwLen c.buf0.data) ≤ c.buf0.data.len))].all id) = true ∧
    (let s : State := posted { armOn with aon := { armOn.aon with phase := .recovery, stage := Mem.store [] 0 1408 (Buf.app (packBuf 64 [(32, 0x57464C4F), (32, 0), (32, 3), (32, 64)]) (Buf.zeros 1344)).val, stageLen := 1408, stageGot := [(0, 1408)] } } 2 (ent 0x0903 0) 16
     let at_ : Nat := 0
     let mb : Nat := 16
     let e : Buf := ent 0x0903 0
     let b0 : Option Buf := none
     let b1 : Option Buf := none
     let t := (s.tick at_).begun mb
     let img := (t.stagedImage.getD .empty)
     [(decide (((s.tick at_).offers 0x0903 mb e b0 b1 mayFw = true))),
      (decide (mb = 16)),
      (decide (s.inBackground 0x0903 = false)),
      (decide (64 ≤ img.len)),
      (decide (signedLen (fwLen img) ≤ img.len))].all id) = true ∧
    (let s : State := posted (armOn.onIsl fun x => { x with lifecycle := 1 }) 2 (ent 0x0904 (0) (rd ((xferBody 1 0xABC).app (Buf.ofBe 384 sigXfer)).len) (0)) 0
     let at_ : Nat := 0
     let mb : Nat := 0
     let e : Buf := ent 0x0904 (0) (rd ((xferBody 1 0xABC).app (Buf.ofBe 384 sigXfer)).len) (0)
     let b0 : Option Buf := some ((xferBody 1 0xABC).app (Buf.ofBe 384 sigXfer))
     let b1 : Option Buf := none
     let c : Call := ⟨mb, e, b0, b1⟩
     let t := (s.tick at_).begun mb
     let r := (c.buf0.data)
     let key := ((if s.isl.lifecycle = 0 ∧ (s.mbox mb).role = 1 then (s.mbox mb).actorKey else s.isl.ownerKey))
     let seq := (r.fld 32 16)
     [(decide (((s.tick at_).offers 0x0904 mb e b0 b1 mayOw = true))),
      (decide (s.isl.lifecycle ≠ 2)),
      (decide (928 ≤ r.len)),
      (decide (r.fld 0 32 = 0x58544C4F)),
      (decide (r.fld 48 464 = 0)),
      (decide (r.be 64 32 = t.ownKeyDigest)),
      (decide (((List.range 16).all (fun j => decide (r.fld (3840 + 32 * j) 32 < 2 ^ 14)) = true))),
      (decide (key ≠ 0)),
      (decide (pssVerify key (sha256 (r.slice 0 544)) (r.be 544 384) = true)),
      (decide (seq = s.isl.transfers + 1)),
      (decide (s.isl.transfers < 16)),
      (decide (s.ledgerSpent = false))].all id) = true ∧
    (let s : State := posted (armOn.onIsl fun x => { x with lifecycle := 1 }) 2 (ent 0x0904 (0) (rd ((xferBody 0 keyN).app (Buf.ofBe 384 sigMap)).len) (0)) 0
     let at_ : Nat := 0
     let mb : Nat := 0
     let e : Buf := ent 0x0904 (0) (rd ((xferBody 0 keyN).app (Buf.ofBe 384 sigMap)).len) (0)
     let b0 : Option Buf := some ((xferBody 0 keyN).app (Buf.ofBe 384 sigMap))
     let b1 : Option Buf := none
     let c : Call := ⟨mb, e, b0, b1⟩
     let t := (s.tick at_).begun mb
     let r := (c.buf0.data)
     let key := ((if s.isl.lifecycle = 0 ∧ (s.mbox mb).role = 1 then (s.mbox mb).actorKey else s.isl.ownerKey))
     [(decide (((s.tick at_).offers 0x0904 mb e b0 b1 mayOw = true))),
      (decide (s.isl.lifecycle ≠ 2)),
      (decide (928 ≤ r.len)),
      (decide (r.fld 0 32 = 0x58544C4F)),
      (decide (r.fld 48 464 = 0)),
      (decide (r.be 64 32 = t.ownKeyDigest)),
      (decide (((List.range 16).all (fun j => decide (r.fld (3840 + 32 * j) 32 < 2 ^ 14)) = true))),
      (decide (key ≠ 0)),
      (decide (pssVerify key (sha256 (r.slice 0 544)) (r.be 544 384) = true)),
      (decide (r.fld 32 16 = 0)),
      (decide (r.be 96 384 = s.isl.ownerKey)),
      (decide (s.ledgerSpent = false))].all id) = true ∧
    (let s : State := posted (armOn) 1 (ent 0x0905 (1) (0) (0)) 0
     let at_ : Nat := 0
     let mb : Nat := 0
     let e : Buf := ent 0x0905 (1) (0) (0)
     let b0 : Option Buf := none
     let b1 : Option Buf := none
     let c : Call := ⟨mb, e, b0, b1⟩
     [(decide (((s.tick at_).offers 0x0905 mb e b0 b1 mayLife = true))),
      (decide (c.par 0 2 = 1)),
      (decide (s.isl.lifecycle = 0)),
      (decide (s.isl.ownerKey ≠ 0)),
      (decide (s.ledgerSpent = false))].all id) = true ∧
    (let s : State := posted (armOn.onIsl fun x => { x with lifecycle := 1 }) 2 (ent 0x0905 (2) (0) (0)) 0
     let at_ : Nat := 0
     let mb : Nat := 0
     let e : Buf := ent 0x0905 (2) (0) (0)
     let b0 : Option Buf := none
     let b1 : Option Buf := none
     let c : Call := ⟨mb, e, b0, b1⟩
     [(decide (((s.tick at_).offers 0x0905 mb e b0 b1 mayLife = true))),
      (decide (c.par 0 2 = 2)),
      (decide (s.isl.lifecycle = 1)),
      (decide (s.job = none)),
      (decide (s.ledgerSpent = false))].all id) = true ∧
    (let s : State := posted ((armOn.onMbox 0 fun m => { m with actorKey := keyN }).onIsl fun x => { x with lifecycle := 1 }) 2 (ent 0x0A01 (0) (rd ((grantBody.app (Buf.ofBe 384 sigGrant))).len) (0)) 0
     let at_ : Nat := 0
     let mb : Nat := 0
     let e : Buf := ent 0x0A01 (0) (rd ((grantBody.app (Buf.ofBe 384 sigGrant))).len) (0)
     let b0 : Option Buf := some ((grantBody.app (Buf.ofBe 384 sigGrant)))
     let b1 : Option Buf := none
     let c : Call := ⟨mb, e, b0, b1⟩
     let t := (s.tick at_).begun mb
     let g := (c.buf0.data)
     [(decide (((s.tick at_).offers 0x0A01 mb e b0 b1 mayVeOw = true))),
      (decide (448 ≤ g.len)),
      (decide (s.isl.grants < 32)),
      (decide (g.fld 0 32 = 0x47444C4F)),
      (decide (g.fld 32 16 = s.isl.grants + 1)),
      (decide (g.fld 48 16 = 0)),
      (decide (t.grantInTime (g.fld 64 64) = true)),
      (decide (g.be 16 32 = t.ownKeyDigest)),
      (decide (g.fld 384 128 = 0)),
      (decide (pssVerify (s.mbox mb).actorKey (sha256 (g.slice 0 64)) (g.be 64 384) = true)),
      (decide (s.ledgerSpent = false))].all id) = true ∧
    (let s : State := posted (armOn.onIsl fun x => { x with debug := true }) 3 (ent 0x0A03 (0) (0) (0)) 0
     let at_ : Nat := 0
     let mb : Nat := 0
     let e : Buf := ent 0x0A03 (0) (0) (0)
     let b0 : Option Buf := none
     let b1 : Option Buf := none
     [(decide (((s.tick at_).offers 0x0A03 mb e b0 b1 mayAny = true))),
      (decide (s.isl.debug = true))].all id) = true ∧
    (let s : State := posted (armOn.onIsl fun x => { x with debug := true }) 2 (ent 0x0A02 (packBits [(7, 5), (1, 0), (14, 9215), (14, 1)]) (wr 8192))
     let at_ : Nat := 0
     let mb : Nat := 0
     let e : Buf := ent 0x0A02 (packBits [(7, 5), (1, 0), (14, 9215), (14, 1)]) (wr 8192)
     let b0 : Option Buf := none
     let b1 : Option Buf := none
     let c : Call := ⟨mb, e, b0, b1⟩
     let t := (s.tick at_).begun mb
     let w := ((t.leaveHold.settleTile (c.par 0 7) (c.par 7 1)).noteBasin (c.par 0 7) (c.par 7 1)
           (fun i => c.par 8 14 ≤ i && i < c.par 8 14 + c.par 22 14) .maint)
     let tile := ((w.core (c.par 0 7)).tile (c.par 7 1))
     let data := ((Buf.cat ((List.range (c.par 22 14)).map fun i => (tget Acc.reset tile.acc (c.par 8 14 + i)).raw)).app tile.record)
     [(decide (((s.tick at_).offers 0x0A02 mb e b0 b1 mayVeOw = true))),
      (decide (s.isl.debug = true)),
      (decide (1 ≤ c.par 22 14)),
      (decide (c.par 8 14 + c.par 22 14 ≤ 9216)),
      (decide (data.len ≤ c.buf0.size))].all id) = true := by
  refine ⟨?_, ?_, ?_, ?_, ?_, ?_, ?_, ?_, ?_, ?_, ?_, ?_⟩ <;> decide +kernel

/-- Each clause of `MemoryAndTestCommandsComplete` has a state and operands that meet its hypotheses. -/
theorem witness_MemoryAndTestCommandsComplete :
    (let s : State := posted (ergOn ErgChannel.reset) 3 (ent 0x0302 (packBits [(64, 32 * 30389 * 2 ^ 21 - 128), (32, 128)]) (wr 128))
     let at_ : Nat := 0
     let mb : Nat := 0
     let e : Buf := ent 0x0302 (packBits [(64, 32 * 30389 * 2 ^ 21 - 128), (32, 128)]) (wr 128)
     let b0 : Option Buf := none
     let b1 : Option Buf := none
     let c : Call := ⟨mb, e, b0, b1⟩
     let ela := c.par 0 43
     let len := c.par 64 32
     let legal : Bool := decide (
        s.erg.ready = true ∧ len ≠ 0 ∧ ela % 64 = 0 ∧ len % 64 = 0 ∧ ela + len ≤ s.erg.bytes)
     [(decide (((s.tick at_).offers 0x0302 mb e b0 b1 mayOp = true))),
      (decide (legal)),
      (decide (s.inBackground 0x0302 = false)),
      (decide (len ≤ c.buf0.size))].all id) = true ∧
    (let s : State := posted (ergOn ErgChannel.reset) 3 (ent 0x0303 (packBits [(64, 128), (32, 128)]) (rd (Buf.zeros 128).len) (0)) 0
     let at_ : Nat := 0
     let mb : Nat := 0
     let e : Buf := ent 0x0303 (packBits [(64, 128), (32, 128)]) (rd (Buf.zeros 128).len) (0)
     let b0 : Option Buf := some (Buf.zeros 128)
     let b1 : Option Buf := none
     let c : Call := ⟨mb, e, b0, b1⟩
     let ela := c.par 0 43
     let len := c.par 64 32
     let legal : Bool := decide (
        s.erg.ready = true ∧ len ≠ 0 ∧ ela % 64 = 0 ∧ len % 64 = 0 ∧ ela + len ≤ s.erg.bytes)
     [(decide (((s.tick at_).offers 0x0303 mb e b0 b1 mayOp = true))),
      (decide (legal)),
      (decide (s.inPlan ela len = false)),
      (decide (s.inBackground 0x0303 = false)),
      (decide (len ≤ c.buf0.data.len))].all id) = true ∧
    (let s : State := posted (armOn) 3 (ent 0x0B01 (packBits [(8, 0x50), (2, 0), (6, 0), (32, 1)]) (0) (0)) 0
     let at_ : Nat := 0
     let mb : Nat := 0
     let e : Buf := ent 0x0B01 (packBits [(8, 0x50), (2, 0), (6, 0), (32, 1)]) (0) (0)
     let b0 : Option Buf := none
     let b1 : Option Buf := none
     let c : Call := ⟨mb, e, b0, b1⟩
     [(decide (((s.tick at_).offers 0x0B01 mb e b0 b1 mayOp = true))),
      (decide (loopbackOk c = true)),
      (decide (s.job = none)),
      (decide (s.loopBusy (c.par 0 8) = false)),
      (decide (s.inBackground 0x0B01 = false))].all id) = true ∧
    (let s : State := posted (armOn) 3 (ent 0x0B02 (0) (0) (0)) 0
     let at_ : Nat := 0
     let mb : Nat := 0
     let e : Buf := ent 0x0B02 (0) (0) (0)
     let b0 : Option Buf := none
     let b1 : Option Buf := none
     [(decide (((s.tick at_).offers 0x0B02 mb e b0 b1 mayOp = true))),
      (decide (s.job = none)),
      (decide (s.inBackground 0x0B02 = false))].all id) = true := by
  refine ⟨?_, ?_, ?_, ?_⟩ <;> decide +kernel

/-- Each clause of `TransportCommandsComplete` has a state and operands that meet its hypotheses. -/
theorem witness_TransportCommandsComplete :
    (let s : State := posted (armOn) 3 (ent 0x0602 (packBits [(3, 1), (1, 0), (2, 2), (26, 0), (32, 1), (32, 100), (16, 16), (6, 0), (10, 0), (16, 0), (48, 0), (256, 7), (128, 8), (128, 0), (43, 2 ^ 21), (21, 0), (8, 1)]) (0) (0)) 0
     let at_ : Nat := 0
     let mb : Nat := 0
     let e : Buf := ent 0x0602 (packBits [(3, 1), (1, 0), (2, 2), (26, 0), (32, 1), (32, 100), (16, 16), (6, 0), (10, 0), (16, 0), (48, 0), (256, 7), (128, 8), (128, 0), (43, 2 ^ 21), (21, 0), (8, 1)]) (0) (0)
     let b0 : Option Buf := none
     let b1 : Option Buf := none
     let c : Call := ⟨mb, e, b0, b1⟩
     let t := (s.tick at_).begun mb
     let k := 1
     let p := ({ used := true, port := c.par 4 2, quota := c.par 32 32, rate := c.par 64 32, burst := c.par 96 16, retryMax := if c.par 112 6 = 0 then 16 else c.par 112 6, timeoutS := if c.par 128 16 = 0 then 30 else c.par 128 16, keyDigest := (Buf.ofLe 32 (c.par 192 256)).be 0 32, addrA := c.par 448 128, addrB := c.par 576 128, budgets := [] } : Partner)
     let a := ((if c.par 704 43 = 0 then t.putPartner k p
           else (t.putPartner k p).onAcx fun x => { x with cistEla := c.par 704 43, cistLen := c.par 768 8 * 2 ^ 30 }))
     [(decide (((s.tick at_).offers 0x0602 mb e b0 b1 mayOp = true))),
      (decide (partnerOk c = true)),
      (decide (s.portInUse (c.par 4 2) = false)),
      (decide (s.ledgerSpent = false)),
      (decide (c.par 704 43 = 0 ∨ s.job = none)),
      (decide (k = (if c.par 3 1 = 1 then 8 else 0) + c.par 0 3)),
      (decide (p = ({ used := true, port := c.par 4 2, quota := c.par 32 32, rate := c.par 64 32, burst := c.par 96 16,
                      retryMax := if c.par 112 6 = 0 then 16 else c.par 112 6, timeoutS := if c.par 128 16 = 0 then 30 else c.par 128 16,
                      keyDigest := (Buf.ofLe 32 (c.par 192 256)).be 0 32, addrA := c.par 448 128, addrB := c.par 576 128, budgets := [] } : Partner))),
      (decide ((a.acx.partners.map fun x => x.2.quota).sum ≤ a.cistSlots))].all id) = true ∧
    (let s : State := posted (farOn) 3 (ent 0x0603 (1) (rd (packBuf 32 [(3, 0), (1, 0), (28, 0), (32, 100), (16, 16), (48, 0), (64, 99)]).len) (0)) 0
     let at_ : Nat := 0
     let mb : Nat := 0
     let e : Buf := ent 0x0603 (1) (rd (packBuf 32 [(3, 0), (1, 0), (28, 0), (32, 100), (16, 16), (48, 0), (64, 99)]).len) (0)
     let b0 : Option Buf := some (packBuf 32 [(3, 0), (1, 0), (28, 0), (32, 100), (16, 16), (48, 0), (64, 99)])
     let b1 : Option Buf := none
     let c : Call := ⟨mb, e, b0, b1⟩
     let t := (s.tick at_).begun mb
     let n := (c.par 0 4)
     let l := [packBuf 32 [(3, 0), (1, 0), (28, 0), (32, 100), (16, 16), (48, 0), (64, 99)]]
     let z := (l.foldl State.queueBudget t)
     [(decide (((s.tick at_).offers 0x0603 mb e b0 b1 mayOp = true))),
      (decide (1 ≤ n)),
      (decide (n ≤ 8)),
      (decide (32 * n ≤ c.buf0.data.len)),
      (decide (l = c.buf0.data.recs 32 n)),
      (decide (l.all t.budgetOk = true)),
      (decide (∀ r ∈ l, t.htNow < r.fld 128 64)),
      (decide (∀ p ∈ z.acx.partners, p.2.budgets.length ≤ 8)),
      (decide (∀ x ∈ z.acx.sess, x.2.budgets.length ≤ 8))].all id) = true ∧
    (let s : State := posted (((armOn.onIsl fun x => { x with hasId := true, idOk := true }).putPartner 8 { Partner.reset with used := true, port := 1 })) 3 (ent 0x0604 (packBits [(3, 0), (1, 0), (2, 1)]) (0) (0)) 0
     let at_ : Nat := 0
     let mb : Nat := 0
     let e : Buf := ent 0x0604 (packBits [(3, 0), (1, 0), (2, 1)]) (0) (0)
     let b0 : Option Buf := none
     let b1 : Option Buf := none
     let c : Call := ⟨mb, e, b0, b1⟩
     let t := (s.tick at_).begun mb
     let k := 0
     [(decide (((s.tick at_).offers 0x0604 mb e b0 b1 mayJb = true))),
      (decide ((s.partner (8 + c.par 0 3)).used = true)),
      (decide (t.leaveHold.hasIdentity = true)),
      (decide ((t.leaveHold.initSession (8 + c.par 0 3) (c.par 4 2) true (some mb)).2 = some k))].all id) = true ∧
    (let s : State := posted (farOn) 3 (ent 0x0605 (packBits [(16, 5), (16, 0), (32, 7)]) (0) (0)) 0
     let at_ : Nat := 0
     let mb : Nat := 0
     let e : Buf := ent 0x0605 (packBits [(16, 5), (16, 0), (32, 7)]) (0) (0)
     let b0 : Option Buf := none
     let b1 : Option Buf := none
     let c : Call := ⟨mb, e, b0, b1⟩
     let k := 0
     [(decide (((s.tick at_).offers 0x0605 mb e b0 b1 mayOp = true))),
      (decide (s.places.find? (fun k => (s.sess k).used && (s.sess k).localId = c.par 0 16 && (s.sess k).state ≠ SessState.closed) = some k))].all id) = true := by
  refine ⟨?_, ?_, ?_, ?_⟩ <;> decide +kernel

/-- Each clause of `MailboxRegisterCommandsComplete` has a state and operands that meet its hypotheses. -/
theorem witness_MailboxRegisterCommandsComplete :
    (let s : State := (up.putMbox 0 { Mailbox.reset with state := .closed, cmdBase := 0x10000, cplBase := 0x20000, role := 3 })
     let mb : Nat := 0
     let m := s.mbox mb
     [(decide (s.barUp = true)),
      (decide (m.state = .closed)),
      (decide (s.rilsetiReady = true)),
      (decide (m.cmdBase ≠ 0)),
      (decide (m.cplBase ≠ 0))].all id) = true ∧
    (let s : State := (up.putMbox 0 { Mailbox.reset with state := .open_, cmdBase := 0x10000, cplBase := 0x20000, role := 3 })
     let mb : Nat := 0
     let m := s.mbox mb
     [(decide (s.barUp = true)),
      (decide (m.state ≠ .closed))].all id) = true ∧
    (let s : State := (up.putMbox 0 { Mailbox.reset with state := .open_, cmdBase := 0x10000, cplBase := 0x20000, role := 3, cmds := [⟨ent 0x0101 0, .running, 0, .empty, 0, 0, .empty, .empty⟩, ⟨ent 0x0104 0, .waiting, 0, .empty, 0, 0, .empty, .empty⟩] })
     let mb : Nat := 0
     let m := s.mbox mb
     [(decide (s.barUp = true)),
      (decide (m.state = .open_ ∨ m.state = .stopped)),
      (decide (m.cmds ≠ [] ∨ m.busy ≠ []))].all id) = true ∧
    (let s : State := (up.putMbox 0 { Mailbox.reset with state := .open_, cmdBase := 0x10000, cplBase := 0x20000, role := 3 })
     let mb : Nat := 0
     let m := s.mbox mb
     [(decide (s.barUp = true)),
      (decide (m.state = .open_ ∨ m.state = .stopped)),
      (decide (m.cmds = [])),
      (decide (m.busy = []))].all id) = true ∧
    (let s : State := (up.putMbox 0 { Mailbox.reset with state := .open_, cmdBase := 0x10000, cplBase := 0x20000, role := 3 })
     [(decide (s.barUp = true))].all id) = true ∧
    (let s : State := (up.putMbox 0 { Mailbox.reset with state := .open_, cmdBase := 0x10000, cplBase := 0x20000, role := 3, dbAt := some 0, cmdHead := 65530 })
     let at_ : Nat := 64
     let mb : Nat := 0
     let h := (s.tick at_).onPcie fun p => { p with linkUp := true }
     let m := s.mbox mb
     let tail := 58
     [(decide (s.barUp = true)),
      (decide (((match m.dbAt with | some d => decide (d + 64 ≤ h.now) | none => true) = true))),
      (decide (m.state = .open_)),
      (decide ((tail % 2 ^ 16 + 2 ^ 16 - m.cmdHead) % 2 ^ 16 ≤ 64))].all id) = true ∧
    (let s : State := (up.putMbox 0 { Mailbox.reset with state := .open_, cmdBase := 0x10000, cplBase := 0x20000, role := 3, dbAt := some 0, cmdHead := 65530 })
     let at_ : Nat := 64
     let mb : Nat := 0
     let h := (s.tick at_).onPcie fun p => { p with linkUp := true }
     let m := s.mbox mb
     let tail := 59
     [(decide (s.barUp = true)),
      (decide (((match m.dbAt with | some d => decide (d + 64 ≤ h.now) | none => true) = true))),
      (decide (m.state = .open_)),
      (decide (64 < (tail % 2 ^ 16 + 2 ^ 16 - m.cmdHead) % 2 ^ 16))].all id) = true ∧
    (let s : State := (up.putMbox 0 { Mailbox.reset with state := .closed, cmdBase := 0x10000, cplBase := 0x20000, role := 3 })
     let at_ : Nat := 0
     let mb : Nat := 0
     let h := (s.tick at_).onPcie fun p => { p with linkUp := true }
     let m := s.mbox mb
     [(decide (s.barUp = true)),
      (decide (((match m.dbAt with | some d => decide (d + 64 ≤ h.now) | none => true) = true))),
      (decide (m.state = .closed))].all id) = true := by
  refine ⟨?_, ?_, ?_, ?_, ?_, ?_, ?_, ?_⟩ <;> decide +kernel

/-- Each clause of `BarRegisterCommandsComplete` has a state and operands that meet its hypotheses. -/
theorem witness_BarRegisterCommandsComplete :
    (let s : State := up
     [(decide (s.barUp = true)),
      (decide (s.pcie.evEnable = false)),
      (decide (s.aon.railRec = none)),
      (decide (s.pcie.heldReset = false))].all id) = true ∧
    (let s : State := up.onPcie fun p => { p with heldReset := true, evBase := 64 }
     [(decide (s.barUp = true)),
      (decide (s.pcie.evEnable = false)),
      (decide (s.aon.railRec = none)),
      (decide (s.pcie.heldReset = true))].all id) = true ∧
    (let s : State := { up with ht := { HtUnit.reset with state := .locked, off := 99 } }
     [(decide (s.barUp = true)),
      (decide (s.htValid = true))].all id) = true ∧
    (let s : State := up.onAon fun a => { a with resetCause := 7, wakeCause := 31 }
     let at_ : Nat := 5
     let t := s.tick at_
     let v := 2 ^ 33 + 5
     let n := 2
     [(decide (s.barUp = true)),
      (decide (n < 512)),
      (decide (((List.range 9).all (fun k => decide (n.testBit k = (s.aon.resetCause.testBit k && !(v.testBit k && tget 0 s.aon.causeAt k ≠ t.nocNow + 1)))) = true)))].all id) = true ∧
    (let s : State := up.onAon fun a => { a with resetCause := 7, wakeCause := 31 }
     let at_ : Nat := 5
     let t := s.tick at_
     let v := 2 ^ 33 + 5
     let n := 26
     [(decide (s.barUp = true)),
      (decide (n < 32)),
      (decide (((List.range 5).all (fun k => decide (n.testBit k = (s.aon.wakeCause.testBit k && !(v.testBit k && tget 0 s.aon.causeAt (16 + k) ≠ t.nocNow + 1)))) = true)))].all id) = true ∧
    (let s : State := up.onAon fun a => { a with resetCause := 7, wakeCause := 31 }
     [(decide (s.barUp = true))].all id) = true ∧
    (let s : State := up.onAon fun a => { a with resetCause := 7, wakeCause := 31 }
     [(decide (s.barUp = true)),
      (decide (s.pcie.evEnable = false))].all id) = true ∧
    (let s : State := up
     let off := 0x12
     let width := 4
     [(decide (s.barUp = true)),
      (decide (width ≠ 4 ∧ width ≠ 8 ∨ off % width ≠ 0))].all id) = true ∧
    (let s : State := (up.putMbox 0 { Mailbox.reset with state := .open_, cmdBase := 0x10000, cplBase := 0x20000, role := 3, dbFast := some 3 })
     let at_ : Nat := 10000003
     let t := s.tick at_
     let mb := 0
     let d := 3
     [(decide ((s.mbox mb).dbFast = some d)),
      (decide ((s.mbox mb).dbStuck = false)),
      (decide (d + 10 * oneMs ≤ t.now))].all id) = true ∧
    (let s : State := up.onPcie fun p => { p with linkUp := true, evEnable := true, evIrqDue := true, evIrqEn := true, evHold := 5, evIrqAt := some 3, evVector := 2 }
     let at_ : Nat := 5003
     let t := s.tick at_
     [(decide (s.pcie.evIrqDue = true)),
      (decide (s.pcie.evIrqEn = true)),
      (decide (((match s.pcie.evIrqAt with | some d => decide (d + s.pcie.evHold * oneUs ≤ t.now) | none => true) = true)))].all id) = true := by
  refine ⟨?_, ?_, ?_, ?_, ?_, ?_, ?_, ?_, ?_, ?_⟩ <;> decide +kernel

/-- Each clause of `FetchAndCompletionComplete` has a state and operands that meet its hypotheses. -/
theorem witness_FetchAndCompletionComplete :
    (let s : State := (up.putMbox 0 { Mailbox.reset with state := .open_, cmdBase := 0x10000, cplBase := 0x20000, role := 3, cmdHead := 65535, cmdTail := 0 })
     let mb : Nat := 0
     let m := s.mbox mb
     [(decide (mb < 16)),
      (decide (m.state = .open_)),
      (decide (m.posted ≠ 0)),
      (decide (m.unread < 64)),
      (decide (m.cmds.length < 64))].all id) = true ∧
    (let s : State := (up.putMbox 0 { Mailbox.reset with state := .open_, cmdBase := 0x10000, cplBase := 0x20000, role := 3, cmdTail := 1 })
     let mb : Nat := 0
     let m := s.mbox mb
     [(decide (mb < 16)),
      (decide (m.state = .open_)),
      (decide (m.posted ≠ 0)),
      (decide (m.unread < 64))].all id) = true ∧
    (let s : State := (up.putMbox 0 { Mailbox.reset with state := .open_, cmdBase := 0x10000, cplBase := 0x20000, role := 3, cmds := [⟨(ent 0x0101 0).put 4 1 1, .finished, 5, ⟨8, 77⟩, 3, 9, .empty, .empty⟩], irqEn := true, cplTail := 63 })
     let mb : Nat := 0
     let m := s.mbox mb
     let c := ⟨(ent 0x0101 0).put 4 1 1, .finished, 5, ⟨8, 77⟩, 3, 9, .empty, .empty⟩
     let l := []
     [(decide (mb < 16)),
      (decide (m.state = .open_)),
      (decide (m.busy = [])),
      (decide (m.cmds = c :: l)),
      (decide (c.phase = .finished)),
      (decide (m.unread < 64)),
      (decide (tabWf Mailbox.reset s.pcie.mboxes = true))].all id) = true ∧
    (let s : State := (up.putMbox 0 { Mailbox.reset with state := .open_, cmdBase := 0x10000, cplBase := 0x20000, role := 3, cmds := [⟨ent 0x0101 0, .finished, 0, .empty, 0, 0, .empty, .empty⟩, ⟨ent 0x0104 0, .waiting, 0, .empty, 0, 0, .empty, .empty⟩], cplTail := 64, cplHead := 0 })
     let mb : Nat := 0
     let m := s.mbox mb
     let c := ⟨ent 0x0101 0, .finished, 0, .empty, 0, 0, .empty, .empty⟩
     let l := [⟨ent 0x0104 0, .waiting, 0, .empty, 0, 0, .empty, .empty⟩]
     [(decide (mb < 16)),
      (decide (m.state = .open_)),
      (decide (m.busy = [])),
      (decide (m.cmds = c :: l)),
      (decide (c.phase = .finished)),
      (decide (64 ≤ m.unread))].all id) = true := by
  refine ⟨?_, ?_, ?_, ?_⟩ <;> decide +kernel

/-- Each clause of `HostGoneClosesMailboxes` has a state and operands that meet its hypotheses. -/
theorem witness_HostGoneClosesMailboxes :
    (let s : State := (let s := (up.putMbox 0 { Mailbox.reset with state := .open_, cmdBase := 0x10000, cplBase := 0x20000, role := 3, cmds := [⟨ent 0x0101 0, .running, 0, .empty, 0, 0, .empty, .empty⟩], nonce := some 5 }); (({ s with job := some (jobOf img0) } : State).onPcie fun p => { p with evEnable := true, evBase := 64, running := some 0, bg := [(0x0B02, 0, 0), (0x0B01, 16, 0)] }).putMbox 16 { Mailbox.reset with state := .open_ })
     [(decide (tabWf Mailbox.reset s.pcie.mboxes = true))].all id) = true := by
  decide +kernel

/-- Each clause of `ColdResetLeaves` has a state and operands that meet its hypotheses. -/
theorem witness_ColdResetLeaves :
    (let s : State := { running with miss := [(3, ⟨1, 2, 3, 4, 5, 6, 7⟩)], sos := [(3, ⟨2, 1, false⟩)], scratch := ⟨[(5, 6)], []⟩, cores := [(1, { Core.reset with busy := 9 })], isl := { Island.reset with debug := true, fwRunning := ⟨64, 1⟩, logCount := 5 } }
     let out_ : Bool := decide (
        s.aon.phase = .up ∨ s.aon.phase = .recovery)
     let low := 1000
     [(decide (out_)),
      (decide (s.aon.railsOrder ≠ 0)),
      (decide (1000 ≤ low))].all id) = true ∧
    (let s : State := { running with miss := [(3, ⟨1, 2, 3, 4, 5, 6, 7⟩)], sos := [(3, ⟨2, 1, false⟩)], scratch := ⟨[(5, 6)], []⟩, cores := [(1, { Core.reset with busy := 9 })], isl := { Island.reset with debug := true, fwRunning := ⟨64, 1⟩, logCount := 5 } }
     let out_ : Bool := decide (
        s.aon.phase = .up ∨ s.aon.phase = .recovery)
     let temp := 115
     [(decide (out_)),
      (decide (115 ≤ temp))].all id) = true ∧
    (let s : State := { running with miss := [(3, ⟨1, 2, 3, 4, 5, 6, 7⟩)], sos := [(3, ⟨2, 1, false⟩)], scratch := ⟨[(5, 6)], []⟩, cores := [(1, { Core.reset with busy := 9 })], isl := { Island.reset with debug := true, fwRunning := ⟨64, 1⟩, logCount := 5 } }
     let out_ : Bool := decide (
        s.aon.phase = .up ∨ s.aon.phase = .recovery)
     let f := chainFrame 5 0 2 false 7 (.empty)
     [(decide (out_)),
      (decide (s.chainRuns = true)),
      (decide (s.aon.chainLoop = false)),
      (decide (frOk f = true)),
      (decide (frType f = 2)),
      (decide (s.aon.optsDone = true)),
      (decide (s.aon.power ≠ .doze)),
      (decide (s.frForMe f = true))].all id) = true ∧
    (let s : State := State.reset
     [(decide (s.aon.phase = .powerOff)),
      (decide (s.aon.railsOrder = 0))].all id) = true ∧
    (let s : State := { up with aon := { up.aon with phase := .powerOff, railsOrder := 1, power := .doze, dozeAt := 5, dozePeriod := 2, dozeEnable := 31, dozeHi := 50, dozeLo := -10, dozeMask := 15, dozeFar := true, dozeFirst := true } }
     let at_ : Nat := 2000005
     let t := s.tick at_
     let i := ⟨8, [(0, 10000)], [60, 3]⟩
     let m := (s.aon.dozeMatch i)
     [(decide (s.aon.phase = .powerOff)),
      (decide (s.aon.railsOrder ≠ 0)),
      (decide (s.aon.power = .doze)),
      (decide (s.aon.dozeAt + s.aon.dozePeriod * oneMs ≤ t.now)),
      (decide (m = s.aon.dozeMatch i)),
      (decide (m ≠ 0))].all id) = true := by
  refine ⟨?_, ?_, ?_, ?_, ?_⟩ <;> decide +kernel

/-- Each clause of `WarmAndHostResetLeave` has a state and operands that meet its hypotheses. -/
theorem witness_WarmAndHostResetLeave :
    (let s : State := { running with miss := [(3, ⟨1, 2, 3, 4, 5, 6, 7⟩)], sos := [(3, ⟨2, 1, false⟩)], scratch := ⟨[(5, 6)], []⟩, cores := [(1, { Core.reset with busy := 9 })], isl := { Island.reset with debug := true, fwRunning := ⟨64, 1⟩, logCount := 5 } }
     [(decide (s.aon.phase = .up ∨ s.aon.phase = .recovery))].all id) = true ∧
    (let s : State := { running with miss := [(3, ⟨1, 2, 3, 4, 5, 6, 7⟩)], sos := [(3, ⟨2, 1, false⟩)], scratch := ⟨[(5, 6)], []⟩, cores := [(1, { Core.reset with busy := 9 })], isl := { Island.reset with debug := true, fwRunning := ⟨64, 1⟩, logCount := 5 } }
     let f := chainFrame 5 0 3 false 7 (.empty)
     [(decide (s.aon.phase = .up ∨ s.aon.phase = .recovery)),
      (decide (s.chainRuns = true)),
      (decide (s.aon.chainLoop = false)),
      (decide (frOk f = true)),
      (decide (frType f = 3)),
      (decide (s.aon.optsDone = true)),
      (decide (s.aon.power ≠ .doze)),
      (decide (s.frForMe f = true))].all id) = true ∧
    (let s : State := (let s := (up.putMbox 0 { Mailbox.reset with state := .open_, cmdBase := 0x10000, cplBase := 0x20000, role := 3 }); s)
     let low := 1000
     [(decide (s.aon.phase = .up)),
      (decide (tabWf Mailbox.reset s.pcie.mboxes = true)),
      (decide (1000 ≤ low))].all id) = true ∧
    (let s : State := up
     let low := 999
     [(decide (low < 1000)),
      (decide (s.aon.phase ≠ .powerOff)),
      (decide (s.aon.railsOrder ≠ 0))].all id) = true := by
  refine ⟨?_, ?_, ?_, ?_⟩ <;> decide +kernel

/-- Each clause of `BootSequenceCompletes` has a state and operands that meet its hypotheses. -/
theorem witness_BootSequenceCompletes :
    (let s : State := { up with aon := { up.aon with phase := .inReset .cold 10000 false, railsOrder := 1 } }
     let o := 1
     let cls := .cold
     let e := 10000
     let f := false
     [(decide (s.aon.phase = .inReset cls e f)),
      (decide (1 ≤ o)),
      (decide (o ≤ 6)),
      (decide (s.aon.railsOrder = o))].all id) = true ∧
    (let s : State := { up with aon := { up.aon with phase := .inReset .cold 10000 false, railsOrder := 7, optsDone := false } }
     let at_ : Nat := 20000
     let t := s.tick at_
     let cls := .cold
     let e := 10000
     let f := false
     [(decide (s.aon.phase = .inReset cls e f)),
      (decide (e ≤ t.now)),
      (decide (s.aon.railsOrder = 7)),
      (decide (s.aon.tripHeld = false))].all id) = true ∧
    (let s : State := { up with aon := { up.aon with phase := .inReset .cold 10000 false, railsOrder := 7, optsDone := false } }
     let at_ : Nat := 20000
     let t := s.tick at_
     let cls := .cold
     let e := 10000
     let f := false
     [(decide (s.aon.phase = .inReset cls e f)),
      (decide (e ≤ t.now)),
      (decide (s.aon.railsOrder = 7)),
      (decide (s.aon.tripHeld = false)),
      (decide (cls = .cold)),
      (decide (s.isl.hasId = false)),
      (decide (s.isl.lifecycle ≠ 2)),
      (decide (s.isl.slotA.present = false)),
      (decide (s.isl.slotB.present = false)),
      (decide (s.isl.ledger.length < 65536))].all id) = true ∧
    (let s : State := { up with aon := { up.aon with phase := .loading 5 .cold, straps := 4 } }
     let n := 5
     let cls := .cold
     [(decide (s.aon.phase = .loading n cls))].all id) = true ∧
    (let s : State := { up with aon := { up.aon with phase := .booting .cold } }
     let cls := .cold
     [(decide (s.aon.phase = .booting cls)),
      (decide (s.pcie.heldStop = false))].all id) = true ∧
    (let s : State := { running with near := [(1, { NearPort.reset with signal := true, state := .quiet, width := 4 })] }
     let i := .extest
     [(decide (takesPins i = true)),
      (decide (s.aon.bscan = false)),
      (decide (s.aon.phase ≠ .powerOff)),
      (decide (tabWf Mailbox.reset s.pcie.mboxes = true))].all id) = true ∧
    (let i := .idcode
     [(decide (takesPins i = false))].all id) = true := by
  refine ⟨?_, ?_, ?_, ?_, ?_, ?_, ?_⟩ <;> decide +kernel

/-- Each clause of `ChainFramesComplete` has a state and operands that meet its hypotheses. -/
theorem witness_ChainFramesComplete :
    (let s : State := up
     let f : Buf := chainFrame 5 0 1 false 7 (enumPayload 9 false true)
     let good (type : Nat) : Bool := decide (
        s.chainRuns = true ∧ s.aon.chainLoop = false ∧ frOk f = true ∧ frType f = type ∧
       s.aon.optsDone = true ∧ s.aon.power ≠ .doze)
     let next := 9
     [(decide (good 1)),
      (decide (s.ownHead = false)),
      (decide (frHops f < 4095)),
      (decide (next = (frPayload f).fld 0 16)),
      (decide (1 ≤ next)),
      (decide (next ≤ 4095))].all id) = true ∧
    (let s : State := { up with aon := { up.aon with straps := 5, chainAddr := 1, headWalk := true, walkAt := some 10 } }
     let f : Buf := chainFrame 5 0 1 false 7 (enumPayload 9 false false)
     let good (type : Nat) : Bool := decide (
        s.chainRuns = true ∧ s.aon.chainLoop = false ∧ frOk f = true ∧ frType f = type ∧
       s.aon.optsDone = true ∧ s.aon.power ≠ .doze)
     [(decide (good 1)),
      (decide (s.ownHead = true)),
      (decide ((frPayload f).flag 16 = false)),
      (decide ((frPayload f).flag 17 = false))].all id) = true ∧
    (let s : State := { up with aon := { up.aon with straps := 5, chainAddr := 1, headWalk := true, walkAt := some 10 } }
     let at_ : Nat := 50000000
     let t := s.tick at_
     [(decide (s.ownHead = true)),
      (decide (s.aon.headWalk = true)),
      (decide (((match s.aon.walkAt with | some d => decide (d + 25 * oneMs ≤ t.now) | none => true) = true)))].all id) = true ∧
    (let s : State := up
     let f : Buf := chainFrame 6 0 5 false 7 (Buf.zeros 256)
     [(decide (s.chainRuns = true)),
      (decide (s.aon.chainLoop = false)),
      (decide (frOk f = true)),
      (decide (1 ≤ frType f)),
      (decide (frType f ≤ 10)),
      (decide (s.frForMe f = false)),
      (decide (s.ownHead = false)),
      (decide (frHops f < 4095))].all id) = true ∧
    (let s : State := up
     let f : Buf := chainFrame 5 0 5 false 7 (ent 0x0101 0)
     let good (type : Nat) : Bool := decide (
        s.chainRuns = true ∧ s.aon.chainLoop = false ∧ frOk f = true ∧ frType f = type ∧
       s.aon.optsDone = true ∧ s.aon.power ≠ .doze)
     [(decide (good 5)),
      (decide (s.frMine f = true)),
      (decide (frLen f = 256)),
      (decide (s.aon.phase = .up)),
      (decide (s.aon.cmdsHeld = [])),
      (decide ((s.mbox 16).cmds.length < 64))].all id) = true ∧
    (let s : State := (up.putMbox 16 { Mailbox.reset with state := .open_, cmds := List.replicate 64 ⟨ent 0x0101 0, .finished, 5, ⟨8, 77⟩, 3, 9, .empty, .empty⟩ })
     let f : Buf := chainFrame 5 0 5 false 7 (ent 0x0101 0)
     let good (type : Nat) : Bool := decide (
        s.chainRuns = true ∧ s.aon.chainLoop = false ∧ frOk f = true ∧ frType f = type ∧
       s.aon.optsDone = true ∧ s.aon.power ≠ .doze)
     [(decide (good 5)),
      (decide (s.frMine f = true)),
      (decide (frLen f = 256)),
      (decide (s.aon.phase = .up)),
      (decide (s.aon.cmdsHeld = [])),
      (decide (64 ≤ (s.mbox 16).cmds.length))].all id) = true ∧
    (let s : State := ((up.onAon fun a => { a with cmdSeqs := [9] }).putMbox 16 { Mailbox.reset with state := .open_, cmds := [⟨ent 0x0101 0, .finished, 5, ⟨8, 77⟩, 3, 9, .empty, .empty⟩] })
     let c := ⟨ent 0x0101 0, .finished, 5, ⟨8, 77⟩, 3, 9, .empty, .empty⟩
     let l := []
     let seq := 9
     let q := []
     [(decide ((s.mbox 16).busy = [])),
      (decide ((s.mbox 16).cmds = c :: l)),
      (decide (c.phase = .finished)),
      (decide (s.aon.cmdSeqs = seq :: q))].all id) = true ∧
    (let s : State := up
     let at_ : Nat := 50000000
     let f : Buf := chainFrame 5 0 4 false 7 (.empty)
     let t := s.tick at_
     let good (type : Nat) : Bool := decide (
        s.chainRuns = true ∧ s.aon.chainLoop = false ∧ frOk f = true ∧ frType f = type ∧
       s.aon.optsDone = true ∧ s.aon.power ≠ .doze)
     [(decide (good 4)),
      (decide (s.frForMe f = true)),
      (decide (s.aon.phase = .up)),
      (decide (s.aon.attnAside = false)),
      (decide (((match s.aon.attnAt with | some d => decide (d + 10 * oneUs ≤ t.now) | none => true) = true)))].all id) = true ∧
    (let s : State := up.onAon fun a => { a with attnFast := some 10 }
     let at_ : Nat := 100000010
     let t := s.tick at_
     let d := 10
     [(decide (s.aon.attnFast = some d)),
      (decide (s.aon.attnAside = false)),
      (decide (d + 100 * oneMs ≤ t.now))].all id) = true ∧
    (let s : State := up
     let f : Buf := chainFrame 5 0 7 false 7 (.empty)
     let good (type : Nat) : Bool := decide (
        s.chainRuns = true ∧ s.aon.chainLoop = false ∧ frOk f = true ∧ frType f = type ∧
       s.aon.optsDone = true ∧ s.aon.power ≠ .doze)
     [(decide (good 7)),
      (decide (s.frForMe f = true))].all id) = true ∧
    (let s : State := up
     let f : Buf := chainFrame 5 0 9 false 7 (packBuf 6 [(16, 1000), (5, 31), (4, 15), (7, 0), (8, 100), (8, 200)])
     let good (type : Nat) : Bool := decide (
        s.chainRuns = true ∧ s.aon.chainLoop = false ∧ frOk f = true ∧ frType f = type ∧
       s.aon.optsDone = true ∧ s.aon.power ≠ .doze)
     [(decide (good 9)),
      (decide (s.frForMe f = true)),
      (decide (s.aon.phase = .up)),
      (decide (dozeOk (frPayload f) = true))].all id) = true ∧
    (let s : State := up
     let f : Buf := chainFrame 5 0 10 false 7 (packBuf 12 [(32, 0), (32, 100), (32, 0xABCDEF)])
     let good (type : Nat) : Bool := decide (
        s.chainRuns = true ∧ s.aon.chainLoop = false ∧ frOk f = true ∧ frType f = type ∧
       s.aon.optsDone = true ∧ s.aon.power ≠ .doze)
     let off := 0
     let total := 100
     let n := 4
     [(decide (good 10)),
      (decide (s.frForMe f = true)),
      (decide (off = (frPayload f).fld 0 32)),
      (decide (total = (frPayload f).fld 32 32)),
      (decide (n = frLen f - 8)),
      (decide (8 < frLen f)),
      (decide (total ≤ 0x1000000)),
      (decide (off + n ≤ total))].all id) = true := by
  refine ⟨?_, ?_, ?_, ?_, ?_, ?_, ?_, ?_, ?_, ?_, ?_, ?_⟩ <;> decide +kernel

/-- Each clause of `PowerEventsComplete` has a state and operands that meet its hypotheses. -/
theorem witness_PowerEventsComplete :
    (let s : State := ((up.onAon fun a => { a with entering := some (1, 0, 9) }).putMbox 0 { Mailbox.reset with state := .open_, cmds := [⟨ent 0x0101 0, .running, 0, .empty, 0, 0, .empty, .empty⟩] })
     let at_ : Nat := 500000000
     let t := s.tick at_
     let mb := 0
     let d := 9
     let u := ((t.onAon fun a => { a with entering := none }))
     [(decide (s.aon.entering = some (1, mb, d))),
      (decide (u.refusers 1 (if (s.mbox mb).cmds.isEmpty then 0 else 1) = 0))].all id) = true ∧
    (let s : State := ((up.onAon fun a => { a with entering := some (2, 0, 9) }).putMbox 0 { Mailbox.reset with state := .open_, cmds := [⟨ent 0x0101 0, .running, 0, .empty, 0, 0, .empty, .empty⟩] })
     let at_ : Nat := 500000000
     let t := s.tick at_
     let mb := 0
     let d := 9
     let u := ((t.onAon fun a => { a with entering := none }))
     [(decide (s.aon.entering = some (2, mb, d))),
      (decide (u.refusers 2 (if (s.mbox mb).cmds.isEmpty then 0 else 1) = 0))].all id) = true ∧
    (let s : State := { up with aon := { up.aon with phase := .powerOff, railsOrder := 1, power := .doze, dozeAt := 5, dozePeriod := 2, dozeEnable := 31, dozeHi := 50, dozeLo := -10 } }
     let at_ : Nat := 2000005
     let t := s.tick at_
     let i := ⟨8, [(0, 10000)], [60, 3]⟩
     [(decide (s.aon.power = .doze)),
      (decide (s.aon.dozeAt + s.aon.dozePeriod * oneMs ≤ t.now)),
      (decide (s.aon.dozeMatch i = 0))].all id) = true ∧
    (let s : State := (up.onIsl fun x => { x with regmap := packBits [(7, 1), (1, 1), (6, 2), (18, 0), (7, 2), (1, 1), (6, 9)] })
     let at_ : Nat := 500000000
     let t := s.tick at_
     let l := [(0, 0), (1, 8)]
     let found := ((l.filterMap fun (x : Nat × Nat) => (s.isl.regulator x.1).map fun r => (r, x.2)))
     let x := (0, 8)
     [(decide (s.aon.phase ≠ .powerOff)),
      (decide (s.aon.alertAside = false)),
      (decide (((match s.aon.alertAt with | some d => decide (d + oneMs ≤ t.now) | none => true) = true))),
      (decide (found.find? (fun y => statusFault y.2) = some x))].all id) = true ∧
    (let s : State := (up.onIsl fun x => { x with regmap := packBits [(7, 1), (1, 1), (6, 2), (18, 0), (7, 2), (1, 1), (6, 9)] })
     let at_ : Nat := 500000000
     let t := s.tick at_
     let l := [(0, 0), (1, 4), (7, 4)]
     let found := ((l.filterMap fun (x : Nat × Nat) => (s.isl.regulator x.1).map fun r => (r, x.2)))
     [(decide (s.aon.phase ≠ .powerOff)),
      (decide (s.aon.alertAside = false)),
      (decide (((match s.aon.alertAt with | some d => decide (d + oneMs ≤ t.now) | none => true) = true))),
      (decide (found.find? (fun y => statusFault y.2) = none))].all id) = true ∧
    (let s : State := up.onAon fun a => { a with alertSince := some 7 }
     let at_ : Nat := 500000000
     let t := s.tick at_
     let d := 7
     [(decide (s.aon.alertSince = some d)),
      (decide (s.aon.alertAside = false)),
      (decide (d + 100 * oneMs < t.now))].all id) = true ∧
    (let s : State := up
     let at_ : Nat := 500000000
     let t := s.tick at_
     let die := 3
     [(decide (s.aon.railsOrder = 7)),
      (decide (((match (s.die die).avsAt with | some d => decide (d + 10 * oneMs ≤ t.now) | none => true) = true)))].all id) = true ∧
    (let s : State := up
     let at_ : Nat := 500000000
     let t := s.tick at_
     let die := 3
     [(decide ((s.die die).gateOn = false)),
      (decide ((s.die die).gateEnd = 0 ∨ 8 ≤ coreCycle t.now - coreCycle (s.die die).gateEnd))].all id) = true ∧
    (let s : State := (up.putDie 3 { Die.reset with gateOn := true, gateStart := 499999998, droopEvAt := some 100 })
     let at_ : Nat := 500000000
     let t := s.tick at_
     let die := 3
     let d := (s.die die)
     let r := 100
     [(decide (d.gateOn = true)),
      (decide (d.droopEvAt = some r)),
      (decide (t.now < r + oneS))].all id) = true ∧
    (let s : State := (up.putDie 3 { Die.reset with gateOn := true, gateStart := 499999998, droopEvAt := none })
     let at_ : Nat := 500000000
     let t := s.tick at_
     let die := 3
     let d := (s.die die)
     [(decide (d.gateOn = true)),
      (decide (((match d.droopEvAt with | some r => decide (r + oneS ≤ t.now) | none => true) = true)))].all id) = true ∧
    (let s : State := up
     let at_ : Nat := 500000000
     let t := s.tick at_
     let die := 9
     let temp := 105
     let u := t.setTemp die temp
     [(decide (s.aon.optsDone = true)),
      (decide (∃ x ∈ u.temps, 105 ≤ x))].all id) = true ∧
    (let s : State := { up with aon := { up.aon with hotN := true } }
     let at_ : Nat := 500000000
     let t := s.tick at_
     let die := 3
     let temp := 99
     let u := t.setTemp die temp
     [(decide (s.aon.optsDone = true)),
      (decide (∀ x ∈ u.temps, x < 100))].all id) = true ∧
    (let s : State := State.reset
     [(decide (s.aon.optsDone = false))].all id) = true := by
  refine ⟨?_, ?_, ?_, ?_, ?_, ?_, ?_, ?_, ?_, ?_, ?_, ?_, ?_⟩ <;> decide +kernel

/-- Each clause of `HallTimeEventsComplete` has a state and operands that meet its hypotheses. -/
theorem witness_HallTimeEventsComplete :
    (let s : State := { up with ht := { HtUnit.reset with edgeLast := some 49500001 } }
     let at_ : Nat := 50000000
     let t := s.tick at_
     [(decide (s.pinsLive = true)),
      (decide (((match s.ht.edgeLast with | some d => decide (t.now < d + 500000) | none => false) = true)))].all id) = true ∧
    (let s : State := { up with ht := { HtUnit.reset with edgeLast := some 49500000 } }
     let at_ : Nat := 50000000
     let t := s.tick at_
     let high := 12001
     [(decide (s.pinsLive = true)),
      (decide (((match s.ht.edgeLast with | some d => decide (d + 500000 ≤ t.now) | none => true) = true))),
      (decide (¬ (8000 ≤ high ∧ high ≤ 12000))),
      (decide (¬ (80000 ≤ high ∧ high ≤ 120000)))].all id) = true ∧
    (let s : State := up
     let at_ : Nat := 50000000
     let t := s.tick at_
     let high := 8000
     [(decide (s.pinsLive = true)),
      (decide (((match s.ht.edgeLast with | some d => decide (d + 500000 ≤ t.now) | none => true) = true))),
      (decide (8000 ≤ high ∧ high ≤ 12000 ∨ 80000 ≤ high ∧ high ≤ 120000)),
      (decide (s.ht.inDropped = false)),
      (decide (s.ht.root = false))].all id) = true ∧
    (let s : State := { up with ht := { HtUnit.reset with root := true, pendingSet := some (5000000000, 7) } }
     let at_ : Nat := 50000000
     let t := s.tick at_
     let high := 80000
     let v := 5000000000
     let d := 7
     [(decide (s.pinsLive = true)),
      (decide (((match s.ht.edgeLast with | some d => decide (d + 500000 ≤ t.now) | none => true) = true))),
      (decide (80000 ≤ high)),
      (decide (high ≤ 120000)),
      (decide (s.ht.inDropped = false)),
      (decide (s.ht.root = true)),
      (decide (s.ht.state = .unset)),
      (decide (s.ht.pendingSet = some (v, d))),
      (decide (t.now ≤ d + 1500000000))].all id) = true ∧
    (let s : State := { up with ht := { HtUnit.reset with root := true, state := .locked, source := 8, off := 3 } }
     let at_ : Nat := 50000000
     let t := s.tick at_
     let high := 100000
     let skew := 0
     let u := t.onHt fun h => { h with edgeLast := some t.now }
     let marker := (decide (80000 ≤ high))
     [(decide (s.pinsLive = true)),
      (decide (((match s.ht.edgeLast with | some d => decide (d + 500000 ≤ t.now) | none => true) = true))),
      (decide (8000 ≤ high ∧ high ≤ 12000 ∨ 80000 ≤ high ∧ high ≤ 120000)),
      (decide (s.ht.inDropped = false)),
      (decide (s.ht.root = true)),
      (decide (s.ht.state = .locked)),
      (decide (s.ht.source = 8)),
      (decide (2000 * 131072 < (u.edgeOffset marker skew).natAbs))].all id) = true ∧
    (let s : State := { up with ht := { HtUnit.reset with root := true, state := .locked, source := 8, off := 3 } }
     [(decide (s.pinsLive = true))].all id) = true ∧
    (let s : State := { up with ht := { HtUnit.reset with pendingSet := some (5000000000, 7) } }
     let at_ : Nat := 1500000007
     let t := s.tick at_
     let v := 5000000000
     let d := 7
     [(decide (s.ht.pendingSet = some (v, d))),
      (decide (d + 1500000000 ≤ t.now))].all id) = true ∧
    (let s : State := { up with ht := { HtUnit.reset with state := .locked, source := 2, hops := 1, off := 3 }, near := [(2, { NearPort.reset with signal := true, state := .up, width := 4, ownStamp := 0 })] }
     let at_ : Nat := 49999869
     let t := s.tick at_
     let p := 2
     let frac := 65535
     let n := (s.port p)
     [(decide (frac < 65536)),
      (decide (n.state ≠ .down)),
      (decide (n.ownStamp = 0 ∨ n.ownStamp / 65536 / 4096 ≠ t.htNow / 4096)),
      (decide (n.state = .up → 100 * (65536 * (t.htNow % 4096) + frac) < 128 * 65536))].all id) = true ∧
    (let s : State := { up with ht := { HtUnit.reset with state := .locked, source := 2, hops := 1, off := 3 }, near := [(2, { NearPort.reset with signal := true, state := .up, width := 4, ownStamp := 0 })] }
     let at_ : Nat := 50000000
     let t := s.tick at_
     let p := 2
     let sym := (⟨49999000 * 65536, 5, 7, 2, 0, 0, 3, true⟩ : TimingSymbol)
     let n := (s.port p)
     let own := (t.htNow * 65536 + sym.arriveFrac)
     let n' := ({ n with peerState := sym.state % 8, peerHops := sym.hops % 256, peerTag := sym.epochTag % 65536, peerReady := sym.ready, peerStamp := sym.depart % 2 ^ 80, peerAt := own, peerSeen := true })
     [(decide ((t.putPort p n').tagMismatch p = false)),
      (decide (n.ownStamp = 0 ∨ sym.echo = 0 ∨ sym.echo < s.ht.setAt ∨ own < sym.echo))].all id) = true ∧
    (let s : State := { up with ht := { HtUnit.reset with state := .locked, source := 2, hops := 1, off := 3 }, near := [(2, { NearPort.reset with signal := true, state := .up, width := 4, ownStamp := (49900000 * 65536) })] }
     let at_ : Nat := 50000000
     let t := s.tick at_
     let p := 2
     let sym := (⟨49999000 * 65536, 49900000 * 65536, 7000 * 65536, 2, 0, 0, 3, true⟩ : TimingSymbol)
     let n := (s.port p)
     let own := (t.htNow * 65536 + sym.arriveFrac)
     let n' := ({ n with peerState := sym.state % 8, peerHops := sym.hops % 256, peerTag := sym.epochTag % 65536, peerReady := sym.ready, peerStamp := sym.depart % 2 ^ 80, peerAt := own, peerSeen := true })
     [(decide ((t.putPort p n').tagMismatch p = false)),
      (decide (n.ownStamp ≠ 0)),
      (decide (sym.echo ≠ 0)),
      (decide (s.ht.setAt ≤ sym.echo)),
      (decide (sym.echo ≤ own))].all id) = true ∧
    (let s : State := { up with ht := { HtUnit.reset with state := .acquiring, srcLostAt := some 5, off := 4 } }
     let at_ : Nat := 50000000
     let t := s.tick at_
     let d := 5
     [(decide (s.ht.state = .acquiring)),
      (decide (s.ht.srcLostAt = some d)),
      (decide (d + 10 * oneMs ≤ t.now))].all id) = true ∧
    (let s : State := { running with ht := { HtUnit.reset with state := .holdover, holdSince := 7 } }
     let at_ : Nat := 100000007
     let t := s.tick at_
     [(decide (s.ht.state = .holdover)),
      (decide (s.ht.holdSince + s.isl.holdMs * oneMs ≤ t.now))].all id) = true := by
  refine ⟨?_, ?_, ?_, ?_, ?_, ?_, ?_, ?_, ?_, ?_, ?_, ?_⟩ <;> decide +kernel

/-- Each clause of `DieAndCoreActionsStart` has a state and operands that meet its hypotheses. -/
theorem witness_DieAndCoreActionsStart :
    (let s : State := (running (imgOf [tent 1 5 0] [kernSect]) : State)
     let at_ : Nat := 0
     let i : Nat := 0
     let j : Job := (jobOf (imgOf [tent 1 5 0] [kernSect]))
     let e : Entry := (imgEntry (imgOf [tent 1 5 0] [kernSect]) 0)
     let t := s.tick at_
     [(decide (t.starts 0x01 i j e (t.targetIdle e.target) = true)),
      (decide (e.target < 128))].all id) = true ∧
    (let s : State := (running (imgOf [tent 2 5 4] []) : State)
     let at_ : Nat := 0
     let i : Nat := 0
     let j : Job := (jobOf (imgOf [tent 2 5 4] []))
     let e : Entry := (imgEntry (imgOf [tent 2 5 4] []) 0)
     let t := s.tick at_
     [(decide (t.starts 0x02 i j e (t.targetIdle e.target) = true)),
      (decide (t.guest = none))].all id) = true ∧
    (let s : State := ({ running (imgOf [tent 2 5 4] []) with guest := some { guest0 with leaving := true } } : State)
     let at_ : Nat := 0
     let i : Nat := 0
     let j : Job := (jobOf (imgOf [tent 2 5 4] []))
     let e : Entry := (imgEntry (imgOf [tent 2 5 4] []) 0)
     let t := s.tick at_
     let g := { guest0 with leaving := true }
     [(decide (t.starts 0x02 i j e (t.targetIdle e.target) = true)),
      (decide (t.guest = some g)),
      (decide (g.stopped = true ∨ g.leaving = true))].all id) = true ∧
    (let s : State := ({ running (imgOf [tent 2 5 4] []) with guest := some guest0, cores := [(5, { Core.reset with guest := ⟨some (kern true), 1⟩ })], scratch := ((State.reset.scratch.writeAt (scratchKey 5 guestSaveAddr) 8512 ({ VState.reset with fClip := true } : VState).image).strike (scratchKey 5 guestSaveAddr / 8) 3 5 |>.strike (scratchKey 5 guestSaveAddr / 8) 4 5) } : State)
     let at_ : Nat := 0
     let i : Nat := 0
     let j : Job := (jobOf (imgOf [tent 2 5 4] []))
     let e : Entry := (imgEntry (imgOf [tent 2 5 4] []) 0)
     let t := s.tick at_
     let b := t.beginEntry i e (j.sn + e.offset)
     let g := guest0
     let k := kern true
     let w := ({ b with guest := some { g with pending := false } } : State).putCore e.target
       { b.core e.target with bubble := some e.arg, bubbleEntry := i, bubbleQ := 0, closing := false }
     let r := w.scratchRead e.target guestSaveAddr 8512 (.core e.target true)
     [(decide (t.starts 0x02 i j e (t.targetIdle e.target) = true)),
      (decide (t.guest = some g)),
      (decide (g.stopped = false)),
      (decide (g.leaving = false)),
      (decide ((b.core e.target).guest.kernel = some k)),
      (decide (r.2.guest.any (·.stopped) = true))].all id) = true ∧
    (let s : State := ({ running (imgOf [tent 2 5 4] []) with guest := some guest0, cores := [(5, { Core.reset with guest := ⟨some (kern true), 1⟩ })], scratch := ((State.reset.scratch.writeAt (scratchKey 5 guestSaveAddr) 8512 ({ VState.reset with fClip := true } : VState).image)) } : State)
     let at_ : Nat := 0
     let i : Nat := 0
     let j : Job := (jobOf (imgOf [tent 2 5 4] []))
     let e : Entry := (imgEntry (imgOf [tent 2 5 4] []) 0)
     let t := s.tick at_
     let b := t.beginEntry i e (j.sn + e.offset)
     let g := guest0
     let k := kern true
     let w := ({ b with guest := some { g with pending := false } } : State).putCore e.target
       { b.core e.target with bubble := some e.arg, bubbleEntry := i, bubbleQ := 0, closing := false }
     let r := w.scratchRead e.target guestSaveAddr 8512 (.core e.target true)
     [(decide (t.starts 0x02 i j e (t.targetIdle e.target) = true)),
      (decide (t.guest = some g)),
      (decide (g.stopped = false)),
      (decide (g.leaving = false)),
      (decide ((b.core e.target).guest.kernel = some k)),
      (decide (r.2.guest.any (·.stopped) = false))].all id) = true ∧
    (let s : State := ({ running (imgOf [tent 2 5 4] []) with guest := some guest0, cores := [(5, { Core.reset with guest := ⟨none, 1⟩ })] } : State)
     let at_ : Nat := 0
     let i : Nat := 0
     let j : Job := (jobOf (imgOf [tent 2 5 4] []))
     let e : Entry := (imgEntry (imgOf [tent 2 5 4] []) 0)
     let t := s.tick at_
     let b := t.beginEntry i e (j.sn + e.offset)
     let g := guest0
     let k := ((({ b with guest := some { g with pending := false } } : State).putCore e.target { b.core e.target with bubble := some e.arg, bubbleEntry := i, bubbleQ := 0, closing := false }).guestKernel { g with pending := false } e.target 1 i 0).get!
     let w := ({ b with guest := some { g with pending := false } } : State).putCore e.target
       { b.core e.target with bubble := some e.arg, bubbleEntry := i, bubbleQ := 0, closing := false }
     [(decide (t.starts 0x02 i j e (t.targetIdle e.target) = true)),
      (decide (t.guest = some g)),
      (decide (g.stopped = false)),
      (decide (g.leaving = false)),
      (decide ((b.core e.target).guest.kernel = none)),
      (decide (w.guestKernel { g with pending := false } e.target (b.core e.target).guest.next i 0 = some k))].all id) = true ∧
    (let s : State := ({ running (imgOf [tent 2 5 4] []) with guest := some guest0, cores := [(5, { Core.reset with guest := ⟨none, 2⟩ })] } : State)
     let at_ : Nat := 0
     let i : Nat := 0
     let j : Job := (jobOf (imgOf [tent 2 5 4] []))
     let e : Entry := (imgEntry (imgOf [tent 2 5 4] []) 0)
     let t := s.tick at_
     let b := t.beginEntry i e (j.sn + e.offset)
     let g := guest0
     let w := ({ b with guest := some { g with pending := false } } : State).putCore e.target
       { b.core e.target with bubble := some e.arg, bubbleEntry := i, bubbleQ := 0, closing := false }
     [(decide (t.starts 0x02 i j e (t.targetIdle e.target) = true)),
      (decide (t.guest = some g)),
      (decide (g.stopped = false)),
      (decide (g.leaving = false)),
      (decide ((b.core e.target).guest.kernel = none)),
      (decide (w.guestKernel { g with pending := false } e.target (b.core e.target).guest.next i 0 = none))].all id) = true ∧
    (let s : State := ({ running (imgOf [tent 3 5] []) with cores := [(5, { Core.reset with kernel := some (kern true), bubble := some 4 })] } : State)
     let at_ : Nat := 0
     let i : Nat := 0
     let j : Job := (jobOf (imgOf [tent 3 5] []))
     let e : Entry := (imgEntry (imgOf [tent 3 5] []) 0)
     let t := s.tick at_
     let b := t.beginEntry i e (j.sn + e.offset)
     let k := kern true
     [(decide (t.starts 0x03 i j e true = true)),
      (decide ((b.core e.target).kernel = some k)),
      (decide (k.guest = true))].all id) = true ∧
    (let s : State := ({ running (imgOf [tent 3 5] []) with cores := [(5, { Core.reset with bubble := some 4 })] } : State)
     let at_ : Nat := 0
     let i : Nat := 0
     let j : Job := (jobOf (imgOf [tent 3 5] []))
     let e : Entry := (imgEntry (imgOf [tent 3 5] []) 0)
     let t := s.tick at_
     let b := t.beginEntry i e (j.sn + e.offset)
     [(decide (t.starts 0x03 i j e true = true)),
      (decide (((match (b.core e.target).kernel with | some k => decide (k.guest = false) | none => true) = true)))].all id) = true ∧
    (let s : State := (running (imgOf [tent 0x10 0x83 0] [(8, 1, (packBuf 64 [(4, 1)]).app (Buf.zeros 64))]) : State)
     let at_ : Nat := 0
     let i : Nat := 0
     let j : Job := (jobOf (imgOf [tent 0x10 0x83 0] [(8, 1, (packBuf 64 [(4, 1)]).app (Buf.zeros 64))]))
     let e : Entry := (imgEntry (imgOf [tent 0x10 0x83 0] [(8, 1, (packBuf 64 [(4, 1)]).app (Buf.zeros 64))]) 0)
     let t := s.tick at_
     let die := e.target - 0x80
     [(decide (t.starts 0x10 i j e (t.targetIdle e.target && t.coresIdle die) = true)),
      (decide (t.decided = false))].all id) = true ∧
    (let s : State := (decided .skip (running (imgOf [tent 0x10 0x83 0] [(8, 1, (packBuf 64 [(4, 1)]).app (Buf.zeros 64))])) : State)
     let at_ : Nat := 0
     let i : Nat := 0
     let j : Job := (jobOf (imgOf [tent 0x10 0x83 0] [(8, 1, (packBuf 64 [(4, 1)]).app (Buf.zeros 64))]))
     let e : Entry := (imgEntry (imgOf [tent 0x10 0x83 0] [(8, 1, (packBuf 64 [(4, 1)]).app (Buf.zeros 64))]) 0)
     let t := s.tick at_
     let die := e.target - 0x80
     let d := t.com.decision.get!
     [(decide (t.starts 0x10 i j e (t.targetIdle e.target && t.coresIdle die) = true)),
      (decide (t.decided = true)),
      (decide (t.com.decision = some d)),
      (decide (d.decision ≠ .finite))].all id) = true ∧
    (let s : State := (decided .finite (running (imgOf [tent 0x10 0x83 0] [(8, 1, (packBuf 64 [(4, 4)]).app (Buf.zeros 64))])) : State)
     let at_ : Nat := 0
     let i : Nat := 0
     let j : Job := (jobOf (imgOf [tent 0x10 0x83 0] [(8, 1, (packBuf 64 [(4, 4)]).app (Buf.zeros 64))]))
     let e : Entry := (imgEntry (imgOf [tent 0x10 0x83 0] [(8, 1, (packBuf 64 [(4, 4)]).app (Buf.zeros 64))]) 0)
     let t := s.tick at_
     let die := e.target - 0x80
     let d := t.com.decision.get!
     let p := Pass.ofBuf (imgPass j.image e.arg)
     [(decide (t.starts 0x10 i j e (t.targetIdle e.target && t.coresIdle die) = true)),
      (decide (t.decided = true)),
      (decide (t.com.decision = some d)),
      (decide (d.decision = .finite)),
      (decide (p.rule = 4))].all id) = true ∧
    (let s : State := (decided .finite (running (imgOf [tent 0x10 0x83 0] [(8, 1, (packBuf 64 [(4, 1), (3, 4), (89, 0), (32, 0x7F800000)]).app (Buf.zeros 64))])) : State)
     let at_ : Nat := 0
     let i : Nat := 0
     let j : Job := (jobOf (imgOf [tent 0x10 0x83 0] [(8, 1, (packBuf 64 [(4, 1), (3, 4), (89, 0), (32, 0x7F800000)]).app (Buf.zeros 64))]))
     let e : Entry := (imgEntry (imgOf [tent 0x10 0x83 0] [(8, 1, (packBuf 64 [(4, 1), (3, 4), (89, 0), (32, 0x7F800000)]).app (Buf.zeros 64))]) 0)
     let t := s.tick at_
     let die := e.target - 0x80
     let d := t.com.decision.get!
     let p := Pass.ofBuf (imgPass j.image e.arg)
     [(decide (t.starts 0x10 i j e (t.targetIdle e.target && t.coresIdle die) = true)),
      (decide (t.decided = true)),
      (decide (t.com.decision = some d)),
      (decide (d.decision = .finite)),
      (decide (p.rule ≠ 4)),
      (decide (p.scalars t.com.hist.commits = none))].all id) = true ∧
    (let s : State := (decided .finite (running (imgOf [tent 0x10 0x83 0] [(8, 1, (packBuf 64 [(4, 1), (60, 0), (32, 0x3A83126F), (32, 0x3F666666), (32, 0x3F7FBE77)]).app (Buf.zeros 64))])) : State)
     let at_ : Nat := 0
     let i : Nat := 0
     let j : Job := (jobOf (imgOf [tent 0x10 0x83 0] [(8, 1, (packBuf 64 [(4, 1), (60, 0), (32, 0x3A83126F), (32, 0x3F666666), (32, 0x3F7FBE77)]).app (Buf.zeros 64))]))
     let e : Entry := (imgEntry (imgOf [tent 0x10 0x83 0] [(8, 1, (packBuf 64 [(4, 1), (60, 0), (32, 0x3A83126F), (32, 0x3F666666), (32, 0x3F7FBE77)]).app (Buf.zeros 64))]) 0)
     let t := s.tick at_
     let die := e.target - 0x80
     let d := t.com.decision.get!
     let p := Pass.ofBuf (imgPass j.image e.arg)
     let sc := (p.scalars t.com.hist.commits).get!
     [(decide (t.starts 0x10 i j e (t.targetIdle e.target && t.coresIdle die) = true)),
      (decide (t.decided = true)),
      (decide (t.com.decision = some d)),
      (decide (d.decision = .finite)),
      (decide (p.rule ≠ 4)),
      (decide (p.scalars t.com.hist.commits = some sc))].all id) = true ∧
    (let s : State := (running (imgOf [tent 0x20 0x8B (2 ^ 31)] [(7, 1, (packBuf 64 [(32, 0), (16, 1)]).app (Buf.zeros 32))]) : State)
     let at_ : Nat := 0
     let i : Nat := 0
     let j : Job := (jobOf (imgOf [tent 0x20 0x8B (2 ^ 31)] [(7, 1, (packBuf 64 [(32, 0), (16, 1)]).app (Buf.zeros 32))]))
     let e : Entry := (imgEntry (imgOf [tent 0x20 0x8B (2 ^ 31)] [(7, 1, (packBuf 64 [(32, 0), (16, 1)]).app (Buf.zeros 32))]) 0)
     let t := s.tick at_
     [(decide (t.starts 0x20 i j e (t.targetIdle e.target) = true)),
      (decide (t.listImage j e = none))].all id) = true ∧
    (let s : State := (running (imgOf [tent 0x20 0x8B 0] [(7, 1, (packBuf 64 [(32, 0), (16, 1)]).app (Buf.zeros 32))]) : State)
     let at_ : Nat := 0
     let i : Nat := 0
     let j : Job := (jobOf (imgOf [tent 0x20 0x8B 0] [(7, 1, (packBuf 64 [(32, 0), (16, 1)]).app (Buf.zeros 32))]))
     let e : Entry := (imgEntry (imgOf [tent 0x20 0x8B 0] [(7, 1, (packBuf 64 [(32, 0), (16, 1)]).app (Buf.zeros 32))]) 0)
     let t := s.tick at_
     let img := (imgOf [tent 0x20 0x8B 0] [(7, 1, (packBuf 64 [(32, 0), (16, 1)]).app (Buf.zeros 32))])
     [(decide (t.starts 0x20 i j e (t.targetIdle e.target) = true)),
      (decide (t.listImage j e = some img))].all id) = true ∧
    (let s : State := (running (imgOf [tent 0x30 0x95 3 0 900] []) : State)
     let at_ : Nat := 0
     let i : Nat := 0
     let j : Job := (jobOf (imgOf [tent 0x30 0x95 3 0 900] []))
     let e : Entry := (imgEntry (imgOf [tent 0x30 0x95 3 0 900] []) 0)
     let t := s.tick at_
     [(decide (t.starts 0x30 i j e (t.targetIdle e.target) = true))].all id) = true ∧
    (let s : State := (running (imgOf [tent 0x31 0x95] []) : State)
     let at_ : Nat := 0
     let i : Nat := 0
     let j : Job := (jobOf (imgOf [tent 0x31 0x95] []))
     let e : Entry := (imgEntry (imgOf [tent 0x31 0x95] []) 0)
     let t := s.tick at_
     [(decide (t.inPeriod = true)),
      (decide (t.starts 0x31 i j e (t.targetIdle e.target) = true))].all id) = true ∧
    (let s : State := (running (imgOf [tent 0x32 0x95] []) : State)
     let at_ : Nat := 0
     let i : Nat := 0
     let j : Job := (jobOf (imgOf [tent 0x32 0x95] []))
     let e : Entry := (imgEntry (imgOf [tent 0x32 0x95] []) 0)
     let t := s.tick at_
     [(decide (t.inPeriod = true)),
      (decide (t.starts 0x32 i j e (t.targetIdle e.target) = true))].all id) = true ∧
    (let s : State := { up with ht := { HtUnit.reset with state := .locked }, erg := { Erg.reset with ready := true, chans := [(5, { ErgChannel.reset with highRate := true })] } }
     let at_ : Nat := 39000
     let i : Nat := 5
     let t := s.tick at_
     [(decide (t.inPeriod = false)),
      (decide (s.erg.ready = true)),
      (decide (t.htRefreshes = true)),
      (decide (t.htNow % 3900 = 0 ∨ (s.chan i).lastRefresh + 3900 ≤ t.now))].all id) = true ∧
    (let s : State := { up with ht := { HtUnit.reset with state := .locked }, erg := { Erg.reset with ready := true, chans := [(5, { ErgChannel.reset with highRate := true })] } }
     let at_ : Nat := 40950
     let i : Nat := 5
     let t := s.tick at_
     [(decide (t.inPeriod = false)),
      (decide (s.erg.ready = true)),
      (decide (t.htRefreshes = true)),
      (decide ((s.chan i).highRate = true)),
      (decide (t.htNow % 3900 = 1950 ∨ (s.chan i).lastRefresh + 1950 ≤ t.now))].all id) = true := by
  refine ⟨?_, ?_, ?_, ?_, ?_, ?_, ?_, ?_, ?_, ?_, ?_, ?_, ?_, ?_, ?_, ?_, ?_, ?_, ?_, ?_, ?_⟩ <;> decide +kernel

/-- Each clause of `PortActionsStart` has a state and operands that meet its hypotheses. -/
theorem witness_PortActionsStart :
    (let s : State := ({ running (imgOf [tent 0x40 0xB2 0 0 3000] [(4, 1, packBuf 64 [(24, 7), (4, 0), (2, 1), (2, 0), (32, 0), (32, 0), (32, 480)])]) with near := [(2, { NearPort.reset with signal := true, state := .up, width := 8 })] } : State)
     let at_ : Nat := 0
     let i : Nat := 0
     let j : Job := (jobOf (imgOf [tent 0x40 0xB2 0 0 3000] [(4, 1, packBuf 64 [(24, 7), (4, 0), (2, 1), (2, 0), (32, 0), (32, 0), (32, 480)])]))
     let e : Entry := (imgEntry (imgOf [tent 0x40 0xB2 0 0 3000] [(4, 1, packBuf 64 [(24, 7), (4, 0), (2, 1), (2, 0), (32, 0), (32, 0), (32, 480)])]) 0)
     let t := s.tick at_
     let b := t.beginEntry i e (j.sn + e.offset)
     let gather := none
     let data := (b.blkRead (Blk.ofBuf (imgBlock j.image e.arg)) 0 480).1
     let p := e.target - 0xB0
     let d := Blk.ofBuf (imgBlock j.image e.arg)
     let c := if d.space = 2 then b.onCom fun c => { c with floodSent := true } else b
     let src := match j.movesFrom d.epoch with
       | some o => c.formRecords o ⟨d.len, data⟩ (d.len / 96 + 1) 0
       | none => data
     let v := match gather.bind (imgShard j.image) with
       | some x => setBits src 0 256 (c.versionTag j x)
       | none => src
     let l := blockFlits d j.step v
     let u := (l.foldl (fun s f => s.emit (.flit p f)) c).onPort p fun n =>
       { n with
         sent := n.sent ++ [⟨i, d.block, j.step, b.htNow, l, [], false⟩]
         txBusy := if l = [] then n.txBusy else b.htNow + flitEnd n.width (l.length - 1) }
     [(decide (t.starts 0x40 i j e (t.targetIdle e.target) = true)),
      (decide (b.sumIdle j e = false)),
      (decide (b.blkRead d 0 d.len = (data, b))),
      (decide (d.isAfx j.image = false)),
      (decide (∀ f ∈ l, b.jt + flitEnd (b.port p).width (flitIdx f) ≤ j.sn + e.finish)),
      (decide ((u.port p).replayUsed u.htNow ≤ 4096))].all id) = true ∧
    (let s : State := ({ running (imgOf [tent 0x40 0xB2 0 0 3000, tent 0x10 0x80 0 200] [(4, 1, packBuf 64 [(24, 7), (4, 0), (2, 1), (2, 0), (32, 0), (32, 2 ^ 20), (32, 480)]), (0xA, 1, (packBuf 64 [(3, 1), (5, 0), (5, 7), (3, 0), (7, 1)]).app (packBuf 32 [(16, 100), (16, 0), (13, 2), (3, 0), (16, 50), (16, 5), (3, 2), (1, 0), (4, 0), (8, 0), (16, 0), (16, 0), (32, 2 ^ 20)])), (0xC, 1, packBuf 64 [(128, 0), (2, 0), (1, 1)]), (8, 1, packBuf 64 [(4, 4)])]) with near := [(2, { NearPort.reset with signal := true, state := .up, width := 8 })] } : State)
     let at_ : Nat := 0
     let i : Nat := 0
     let j : Job := (jobOf (imgOf [tent 0x40 0xB2 0 0 3000, tent 0x10 0x80 0 200] [(4, 1, packBuf 64 [(24, 7), (4, 0), (2, 1), (2, 0), (32, 0), (32, 2 ^ 20), (32, 480)]), (0xA, 1, (packBuf 64 [(3, 1), (5, 0), (5, 7), (3, 0), (7, 1)]).app (packBuf 32 [(16, 100), (16, 0), (13, 2), (3, 0), (16, 50), (16, 5), (3, 2), (1, 0), (4, 0), (8, 0), (16, 0), (16, 0), (32, 2 ^ 20)])), (0xC, 1, packBuf 64 [(128, 0), (2, 0), (1, 1)]), (8, 1, packBuf 64 [(4, 4)])]))
     let e : Entry := (imgEntry (imgOf [tent 0x40 0xB2 0 0 3000, tent 0x10 0x80 0 200] [(4, 1, packBuf 64 [(24, 7), (4, 0), (2, 1), (2, 0), (32, 0), (32, 2 ^ 20), (32, 480)]), (0xA, 1, (packBuf 64 [(3, 1), (5, 0), (5, 7), (3, 0), (7, 1)]).app (packBuf 32 [(16, 100), (16, 0), (13, 2), (3, 0), (16, 50), (16, 5), (3, 2), (1, 0), (4, 0), (8, 0), (16, 0), (16, 0), (32, 2 ^ 20)])), (0xC, 1, packBuf 64 [(128, 0), (2, 0), (1, 1)]), (8, 1, packBuf 64 [(4, 4)])]) 0)
     let t := s.tick at_
     let b := t.beginEntry i e (j.sn + e.offset)
     [(decide (t.starts 0x40 i j e (t.targetIdle e.target) = true)),
      (decide (b.sumIdle j e = true))].all id) = true ∧
    (let s : State := ({ running (imgOf [tent 0x48 0xBA 0] [(4, 1, packBuf 64 [(24, 7), (4, 0), (2, 1), (2, 0), (32, 0), (32, 0), (32, 480)])]) with near := [(2, { NearPort.reset with signal := true, state := .up, width := 8 })] } : State)
     let at_ : Nat := 0
     let i : Nat := 0
     let j : Job := (jobOf (imgOf [tent 0x48 0xBA 0] [(4, 1, packBuf 64 [(24, 7), (4, 0), (2, 1), (2, 0), (32, 0), (32, 0), (32, 480)])]))
     let e : Entry := (imgEntry (imgOf [tent 0x48 0xBA 0] [(4, 1, packBuf 64 [(24, 7), (4, 0), (2, 1), (2, 0), (32, 0), (32, 0), (32, 480)])]) 0)
     let t := s.tick at_
     [(decide (t.starts 0x48 i j e (t.targetIdle e.target) = true))].all id) = true ∧
    (let s : State := ({ running (imgOf [tent 0x41 0xB2 6] []) with near := [(2, { NearPort.reset with signal := true, state := .up, width := 8 })] } : State)
     let at_ : Nat := 0
     let i : Nat := 0
     let j : Job := (jobOf (imgOf [tent 0x41 0xB2 6] []))
     let e : Entry := (imgEntry (imgOf [tent 0x41 0xB2 6] []) 0)
     let t := s.tick at_
     [(decide (t.starts 0x41 i j e (t.targetIdle e.target) = true))].all id) = true ∧
    (let s : State := ({ running (imgOf [tent 0x49 0xBA 6] []) with near := [(2, { NearPort.reset with signal := true, state := .up, width := 8 })] } : State)
     let at_ : Nat := 0
     let i : Nat := 0
     let j : Job := (jobOf (imgOf [tent 0x49 0xBA 6] []))
     let e : Entry := (imgEntry (imgOf [tent 0x49 0xBA 6] []) 0)
     let t := s.tick at_
     [(decide (t.starts 0x49 i j e (t.targetIdle e.target) = true))].all id) = true ∧
    (let s : State := (running (imgOf [tent 0x50 0xC1 0] [(0xB, 1, packBuf 16 [(6, 1)])]) : State)
     let at_ : Nat := 0
     let i : Nat := 0
     let j : Job := (jobOf (imgOf [tent 0x50 0xC1 0] [(0xB, 1, packBuf 16 [(6, 1)])]))
     let e : Entry := (imgEntry (imgOf [tent 0x50 0xC1 0] [(0xB, 1, packBuf 16 [(6, 1)])]) 0)
     let t := s.tick at_
     [(decide (t.starts 0x50 i j e (t.targetIdle e.target) = true))].all id) = true := by
  refine ⟨?_, ?_, ?_, ?_, ?_, ?_⟩ <;> decide +kernel

/-- Each clause of `StepAndCommitComplete` has a state and operands that meet its hypotheses. -/
theorem witness_StepAndCommitComplete :
    (let s : State := ({ running (comImg [] [mbEnt] [slotRec] ) with job := some { jobOf (comImg [] [mbEnt] [slotRec] ) with phase := .stopping, fresh := false } } : State)
     let at_ : Nat := 3900000
     let j : Job := { jobOf (comImg [] [mbEnt] [slotRec] ) with phase := .stopping, fresh := false }
     let t := s.tick at_
     let sn := j.nextStart.1
     [(decide (s.job = some j)),
      (decide (j.hasEpoch = true)),
      (decide (t.htValid = true)),
      (decide ((sn : Int) ≤ t.jtInt)),
      (decide (j.phase = .stopping))].all id) = true ∧
    (let s : State := ({ running (comImg [] [mbEnt] [slotRec] ) with job := some { jobOf (comImg [] [mbEnt] [slotRec] ) with phase := .armed, fresh := true } } : State)
     let at_ : Nat := 0
     let j : Job := { jobOf (comImg [] [mbEnt] [slotRec] ) with phase := .armed, fresh := true }
     let t := s.tick at_
     let sn := j.nextStart.1
     [(decide (s.job = some j)),
      (decide (j.hasEpoch = true)),
      (decide (t.htValid = true)),
      (decide ((sn : Int) ≤ t.jtInt)),
      (decide (j.phase = .armed ∨ j.phase = .running)),
      (decide (j.fresh = true → t.badNeighbour j = none ∧ (imgPorts j.image).any (fun p => t.tagMismatch p) = false))].all id) = true ∧
    (let s : State := running (comImg [tent 0x60 0xC4 0] [mbEnt] [slotRec] )
     let at_ : Nat := 0
     let i : Nat := 0
     let j : Job := (jobOf (comImg [tent 0x60 0xC4 0] [mbEnt] [slotRec] ))
     let t := s.tick at_
     let e := (imgEntry (comImg [tent 0x60 0xC4 0] [mbEnt] [slotRec] ) 0)
     [(decide (t.starts 0x60 i j e (t.targetIdle e.target) = true))].all id) = true ∧
    (let s : State := (running (comImg [] [mbEnt] [slotRec] )).onCom fun c => { c with frozen := true }
     let j : Job := (jobOf (comImg [] [mbEnt] [slotRec] ))
     let r := packBuf 2048 [(64, 4)]
     [(decide (s.job = some j)),
      (decide (j.runs = true)),
      (decide (s.com.frozen = true)),
      (decide (s.com.result = none)),
      (decide (¬ (r.fld 0 64 = j.step ∧ r.fld 64 16 = imgEpoch j.image)))].all id) = true ∧
    (let s : State := (running (comImg [tent 0x61 0xC4 0 0 1000 0 0 (some (9, 1))] [mbEnt] [slotRec] )).onCom fun c => { c with frozen := true }
     let j : Job := (jobOf (comImg [tent 0x61 0xC4 0 0 1000 0 0 (some (9, 1))] [mbEnt] [slotRec] ))
     let r := packBuf 2048 [(64, 3), (32, 0), (16, 2)]
     [(decide (s.job = some j)),
      (decide (j.runs = true)),
      (decide (s.com.frozen = true)),
      (decide (s.com.result = none)),
      (decide (r.fld 0 64 = j.step)),
      (decide (r.fld 64 16 = imgEpoch j.image))].all id) = true ∧
    (let s : State := running (comImg [tent 0x61 0xC4 0] [mbEnt] [slotRec] )
     let at_ : Nat := 0
     let i : Nat := 0
     let j : Job := (jobOf (comImg [tent 0x61 0xC4 0] [mbEnt] [slotRec] ))
     let t := s.tick at_
     let e := (imgEntry (comImg [tent 0x61 0xC4 0] [mbEnt] [slotRec] ) 0)
     [(decide (t.starts 0x61 i j e (t.targetIdle e.target) = true)),
      (decide (t.com.result = none))].all id) = true ∧
    (let s : State := (running (comImg [tent 0x61 0xC4 0] [mbEnt] [slotRec] )).onCom fun c => { c with result := some (packBuf 2048 [(64, 3), (16, 0), (16, 0), (32, 0), (128, 2 ^ 100)]), probeNext := false }
     let at_ : Nat := 0
     let i : Nat := 0
     let j : Job := (jobOf (comImg [tent 0x61 0xC4 0] [mbEnt] [slotRec] ))
     let t := s.tick at_
     let e := (imgEntry (comImg [tent 0x61 0xC4 0] [mbEnt] [slotRec] ) 0)
     let r := packBuf 2048 [(64, 3), (16, 0), (16, 0), (32, 0), (128, 2 ^ 100)]
     [(decide (t.starts 0x61 i j e (t.targetIdle e.target) = true)),
      (decide (t.com.result = some r)),
      (decide (t.com.probeNext = false))].all id) = true ∧
    (let s : State := (running (comImg [tent 0x61 0xC4 0] [mbEnt] [slotRec] )).onCom fun c => { c with result := some (packBuf 2048 [(64, 3), (16, 0), (16, 2), (32, 0), (128, 2 ^ 100)]), probeNext := false }
     let at_ : Nat := 0
     let i : Nat := 0
     let j : Job := (jobOf (comImg [tent 0x61 0xC4 0] [mbEnt] [slotRec] ))
     let t := s.tick at_
     let e := (imgEntry (comImg [tent 0x61 0xC4 0] [mbEnt] [slotRec] ) 0)
     let r := packBuf 2048 [(64, 3), (16, 0), (16, 2), (32, 0), (128, 2 ^ 100)]
     let cause := r.fld 80 16
     [(decide (t.starts 0x61 i j e (t.targetIdle e.target) = true)),
      (decide (t.com.result = some r)),
      (decide (t.com.probeNext = false)),
      (decide (cause ≠ 0))].all id) = true ∧
    (let s : State := (running (comImg [tent 0x61 0xC4 0] [mbEnt] [slotRec] )).onCom fun c => { c with result := some (packBuf 2048 [(64, 3), (16, 0), (16, 2), (32, 0), (128, 2 ^ 100)]), probeNext := true }
     let at_ : Nat := 0
     let i : Nat := 0
     let j : Job := (jobOf (comImg [tent 0x61 0xC4 0] [mbEnt] [slotRec] ))
     let t := s.tick at_
     let e := (imgEntry (comImg [tent 0x61 0xC4 0] [mbEnt] [slotRec] ) 0)
     let r := packBuf 2048 [(64, 3), (16, 0), (16, 2), (32, 0), (128, 2 ^ 100)]
     [(decide (t.starts 0x61 i j e (t.targetIdle e.target) = true)),
      (decide (t.com.result = some r)),
      (decide (t.com.probeNext = true))].all id) = true := by
  refine ⟨?_, ?_, ?_, ?_, ?_, ?_, ?_, ?_, ?_⟩ <;> decide +kernel

/-- Each clause of `MissesAreResolved` has a state and operands that meet its hypotheses. -/
theorem witness_MissesAreResolved :
    (let s : State := ({ running (imgOf [tent 1 5 0 0 1000 2 80 (some (9, 1)), tent 0xF0 5 0 100 1000]) with sos := [], ents := [(0, .done)] } : State)
     let at_ : Nat := 0
     let i : Nat := 0
     let j : Job := (jobOf (imgOf [tent 1 5 0 0 1000 2 80 (some (9, 1)), tent 0xF0 5 0 100 1000]))
     let e : Entry := (imgEntry (imgOf [tent 1 5 0 0 1000 2 80 (some (9, 1)), tent 0xF0 5 0 100 1000]) 0)
     let t := s.tick at_
     let due := j.sn + e.offset
     let open_ : Bool := decide (
        t.ent i = .idle ∨ t.ent i = .waiting)
     [(decide (s.job = some j)),
      (decide (j.runs = true)),
      (decide (i < imgEntries j.image)),
      (decide (e = imgEntry j.image i)),
      (decide (e.action = 1)),
      (decide (¬ (open_ ∧ (due : Int) ≤ t.jtInt)))].all id) = true ∧
    (let s : State := ({ running (imgOf [tent 1 5 0 0 1000 2 80 (some (9, 1)), tent 0xF0 5 0 100 1000]) with sos := [(9, ⟨3, 1, true⟩)], ents := [] } : State)
     let at_ : Nat := 0
     let i : Nat := 0
     let j : Job := (jobOf (imgOf [tent 1 5 0 0 1000 2 80 (some (9, 1)), tent 0xF0 5 0 100 1000]))
     let e : Entry := (imgEntry (imgOf [tent 1 5 0 0 1000 2 80 (some (9, 1)), tent 0xF0 5 0 100 1000]) 0)
     let t := s.tick at_
     let due := j.sn + e.offset
     let open_ : Bool := decide (
        t.ent i = .idle ∨ t.ent i = .waiting)
     let mark : Bool := decide (
        e.preEn = true ∧ (t.so e.preSo).step = (j.step : Int) ∧ (t.so e.preSo).skip = true)
     [(decide (s.job = some j)),
      (decide (j.runs = true)),
      (decide (i < imgEntries j.image)),
      (decide (e = imgEntry j.image i)),
      (decide (e.action = 1)),
      (decide (open_)),
      (decide ((due : Int) ≤ t.jtInt)),
      (decide (mark)),
      (decide (e.policy = 2))].all id) = true ∧
    (let s : State := ({ running (imgOf [tent 1 5 0 0 1000 1 80 (some (9, 1)), tent 0xF0 5 0 100 1000]) with sos := [(9, ⟨3, 1, true⟩)], ents := [] } : State)
     let at_ : Nat := 0
     let i : Nat := 0
     let j : Job := (jobOf (imgOf [tent 1 5 0 0 1000 1 80 (some (9, 1)), tent 0xF0 5 0 100 1000]))
     let e : Entry := (imgEntry (imgOf [tent 1 5 0 0 1000 1 80 (some (9, 1)), tent 0xF0 5 0 100 1000]) 0)
     let t := s.tick at_
     let due := j.sn + e.offset
     let open_ : Bool := decide (
        t.ent i = .idle ∨ t.ent i = .waiting)
     let mark : Bool := decide (
        e.preEn = true ∧ (t.so e.preSo).step = (j.step : Int) ∧ (t.so e.preSo).skip = true)
     [(decide (s.job = some j)),
      (decide (j.runs = true)),
      (decide (i < imgEntries j.image)),
      (decide (e = imgEntry j.image i)),
      (decide (e.action = 1)),
      (decide (open_)),
      (decide ((due : Int) ≤ t.jtInt)),
      (decide (mark)),
      (decide (e.policy ≠ 2))].all id) = true ∧
    (let s : State := ({ running (imgOf [tent 1 5 0 0 1000 1 80 (some (9, 1)), tent 0xF0 5 0 100 1000]) with sos := [], ents := [] } : State)
     let at_ : Nat := 0
     let i : Nat := 0
     let j : Job := (jobOf (imgOf [tent 1 5 0 0 1000 1 80 (some (9, 1)), tent 0xF0 5 0 100 1000]))
     let e : Entry := (imgEntry (imgOf [tent 1 5 0 0 1000 1 80 (some (9, 1)), tent 0xF0 5 0 100 1000]) 0)
     let t := s.tick at_
     let due := j.sn + e.offset
     let open_ : Bool := decide (
        t.ent i = .idle ∨ t.ent i = .waiting)
     let met : Bool := decide (
        t.targetIdle e.target = true ∧ (e.preEn = true → (t.so e.preSo).reached j.step e.preCount = true))
     let mark : Bool := decide (
        e.preEn = true ∧ (t.so e.preSo).step = (j.step : Int) ∧ (t.so e.preSo).skip = true)
     [(decide (s.job = some j)),
      (decide (j.runs = true)),
      (decide (i < imgEntries j.image)),
      (decide (e = imgEntry j.image i)),
      (decide (e.action = 1)),
      (decide (open_)),
      (decide ((due : Int) ≤ t.jtInt)),
      (decide (¬ mark)),
      (decide (¬ met)),
      (decide (t.jt < due + e.guard)),
      (decide (e.policy ≠ 3))].all id) = true ∧
    (let s : State := ({ running (imgOf [tent 1 5 0 0 1000 3 80 (some (9, 1)), tent 0xF0 5 0 100 1000]) with sos := [], ents := [] } : State)
     let at_ : Nat := 0
     let i : Nat := 0
     let j : Job := (jobOf (imgOf [tent 1 5 0 0 1000 3 80 (some (9, 1)), tent 0xF0 5 0 100 1000]))
     let e : Entry := (imgEntry (imgOf [tent 1 5 0 0 1000 3 80 (some (9, 1)), tent 0xF0 5 0 100 1000]) 0)
     let t := s.tick at_
     let due := j.sn + e.offset
     let open_ : Bool := decide (
        t.ent i = .idle ∨ t.ent i = .waiting)
     let met : Bool := decide (
        t.targetIdle e.target = true ∧ (e.preEn = true → (t.so e.preSo).reached j.step e.preCount = true))
     let mark : Bool := decide (
        e.preEn = true ∧ (t.so e.preSo).step = (j.step : Int) ∧ (t.so e.preSo).skip = true)
     [(decide (s.job = some j)),
      (decide (j.runs = true)),
      (decide (i < imgEntries j.image)),
      (decide (e = imgEntry j.image i)),
      (decide (e.action = 1)),
      (decide (open_)),
      (decide ((due : Int) ≤ t.jtInt)),
      (decide (¬ mark)),
      (decide (¬ met)),
      (decide (t.jt < due + e.guard)),
      (decide (e.policy = 3))].all id) = true ∧
    (let s : State := ({ running (imgOf [tent 1 5 0 0 1000 1 80 (some (9, 1)), tent 0xF0 5 0 100 1000]) with sos := [], ents := [] } : State)
     let at_ : Nat := 80
     let i : Nat := 0
     let j : Job := (jobOf (imgOf [tent 1 5 0 0 1000 1 80 (some (9, 1)), tent 0xF0 5 0 100 1000]))
     let e : Entry := (imgEntry (imgOf [tent 1 5 0 0 1000 1 80 (some (9, 1)), tent 0xF0 5 0 100 1000]) 0)
     let t := s.tick at_
     let due := j.sn + e.offset
     let open_ : Bool := decide (
        t.ent i = .idle ∨ t.ent i = .waiting)
     let met : Bool := decide (
        t.targetIdle e.target = true ∧ (e.preEn = true → (t.so e.preSo).reached j.step e.preCount = true))
     let mark : Bool := decide (
        e.preEn = true ∧ (t.so e.preSo).step = (j.step : Int) ∧ (t.so e.preSo).skip = true)
     [(decide (s.job = some j)),
      (decide (j.runs = true)),
      (decide (i < imgEntries j.image)),
      (decide (e = imgEntry j.image i)),
      (decide (e.action = 1)),
      (decide (open_)),
      (decide ((due : Int) ≤ t.jtInt)),
      (decide (¬ mark)),
      (decide (¬ met)),
      (decide (due + e.guard ≤ t.jt)),
      (decide (e.policy = 1))].all id) = true ∧
    (let s : State := ({ running (imgOf [tent 1 5 0 0 1000 2 80 (some (9, 1)), tent 0xF0 5 0 100 1000]) with sos := [], ents := [] } : State)
     let at_ : Nat := 80
     let i : Nat := 0
     let j : Job := (jobOf (imgOf [tent 1 5 0 0 1000 2 80 (some (9, 1)), tent 0xF0 5 0 100 1000]))
     let e : Entry := (imgEntry (imgOf [tent 1 5 0 0 1000 2 80 (some (9, 1)), tent 0xF0 5 0 100 1000]) 0)
     let t := s.tick at_
     let due := j.sn + e.offset
     let open_ : Bool := decide (
        t.ent i = .idle ∨ t.ent i = .waiting)
     let met : Bool := decide (
        t.targetIdle e.target = true ∧ (e.preEn = true → (t.so e.preSo).reached j.step e.preCount = true))
     let mark : Bool := decide (
        e.preEn = true ∧ (t.so e.preSo).step = (j.step : Int) ∧ (t.so e.preSo).skip = true)
     [(decide (s.job = some j)),
      (decide (j.runs = true)),
      (decide (i < imgEntries j.image)),
      (decide (e = imgEntry j.image i)),
      (decide (e.action = 1)),
      (decide (open_)),
      (decide ((due : Int) ≤ t.jtInt)),
      (decide (¬ mark)),
      (decide (¬ met)),
      (decide (due + e.guard ≤ t.jt)),
      (decide (e.policy = 2))].all id) = true ∧
    (let s : State := ({ running (imgOf [tent 1 5 0 0 1000 0 80 (some (9, 1)), tent 0xF0 5 0 100 1000]) with sos := [], ents := [] } : State)
     let at_ : Nat := 80
     let i : Nat := 0
     let j : Job := (jobOf (imgOf [tent 1 5 0 0 1000 0 80 (some (9, 1)), tent 0xF0 5 0 100 1000]))
     let e : Entry := (imgEntry (imgOf [tent 1 5 0 0 1000 0 80 (some (9, 1)), tent 0xF0 5 0 100 1000]) 0)
     let t := s.tick at_
     let due := j.sn + e.offset
     let open_ : Bool := decide (
        t.ent i = .idle ∨ t.ent i = .waiting)
     let met : Bool := decide (
        t.targetIdle e.target = true ∧ (e.preEn = true → (t.so e.preSo).reached j.step e.preCount = true))
     let mark : Bool := decide (
        e.preEn = true ∧ (t.so e.preSo).step = (j.step : Int) ∧ (t.so e.preSo).skip = true)
     [(decide (s.job = some j)),
      (decide (j.runs = true)),
      (decide (i < imgEntries j.image)),
      (decide (e = imgEntry j.image i)),
      (decide (e.action = 1)),
      (decide (open_)),
      (decide ((due : Int) ≤ t.jtInt)),
      (decide (¬ mark)),
      (decide (¬ met)),
      (decide (due + e.guard ≤ t.jt)),
      (decide (e.policy ≠ 1)),
      (decide (e.policy ≠ 2))].all id) = true := by
  refine ⟨?_, ?_, ?_, ?_, ?_, ?_, ?_, ?_⟩ <;> decide +kernel

/-- Each clause of `SignalsAndBatchesComplete` has a state and operands that meet its hypotheses. -/
theorem witness_SignalsAndBatchesComplete :
    (let s : State := { up with sos := [(3, ⟨2, 1, false⟩)] }
     let k := 3
     let m : Int := 3
     [(decide ((s.so k).step < m))].all id) = true ∧
    (let s : State := { up with sos := [(3, ⟨2, 2 ^ 32 - 1, false⟩)] }
     let k := 3
     let m : Int := 2
     [(decide ((s.so k).step = m))].all id) = true ∧
    (let s : State := { up with sos := [(3, ⟨2, 1, false⟩)] }
     let k := 3
     let m : Int := 1
     [(decide (m < (s.so k).step))].all id) = true ∧
    (let s : State := running (comImg [] [mbEnt] [slotRec] 2)
     let at_ : Nat := 600
     let t := s.tick at_
     let m := 0
     let j := (jobOf (comImg [] [mbEnt] [slotRec] 2))
     let e := ⟨5, 2, 500, 30, 6⟩
     let p := imgCommit j.image
     [(decide (s.job = some j)),
      (decide (j.runs = true)),
      (decide (j.fresh = false)),
      (decide ((imgMbs j.image)[m]? = some e)),
      (decide (((j.sn + e.cutoff : Nat) : Int) ≤ t.jtInt)),
      (decide (s.com.frozen = false)),
      (decide ((s.so e.doneSo).reached j.step e.count = false)),
      (decide (m ∉ s.com.mbDeferred)),
      (decide (m ∉ s.com.mbDropped)),
      (decide (comOverrun p = 2))].all id) = true ∧
    (let s : State := running (comImg [] [mbEnt] [slotRec] 0)
     let at_ : Nat := 600
     let t := s.tick at_
     let m := 0
     let j := (jobOf (comImg [] [mbEnt] [slotRec] 0))
     let e := ⟨5, 2, 500, 30, 6⟩
     let p := imgCommit j.image
     [(decide (s.job = some j)),
      (decide (j.runs = true)),
      (decide (j.fresh = false)),
      (decide ((imgMbs j.image)[m]? = some e)),
      (decide (((j.sn + e.cutoff : Nat) : Int) ≤ t.jtInt)),
      (decide (s.com.frozen = false)),
      (decide ((s.so e.doneSo).reached j.step e.count = false)),
      (decide (m ∉ s.com.mbDeferred)),
      (decide (m ∉ s.com.mbDropped)),
      (decide (comOverrun p ≠ 2)),
      (true)].all id) = true ∧
    (let s : State := (running img0).onCom fun c => { c with carry := some (3, [(7, 8, false), (9, 8, false)], 4) }
     let m := 7
     let n := 3
     let l := [(7, 8, false), (9, 8, false)]
     let lexp := 4
     let x := (7, 8, false)
     [(decide (s.com.carry = some (n, l, lexp))),
      (decide (l.find? (fun x => x.1 = m && !x.2.2) = some x))].all id) = true ∧
    (let s : State := (({ running (imgOf [] [(0xD, 1, packBuf 32 [(4, 0), (4, 0), (8, 4), (16, 0), (64, 4096), (64, 8192)]), (0xC, 1, Buf.zeros 64), (9, 1, packBuf 64 [(20, 5), (6, 0), (2, 0), (1, 0), (1, 0), (1, 1), (1, 0), (3, 2), (4, 0), (9, 0), (16, 0), (16, 16), (16, 16), (16, 0), (16, 0), (16, 1), (16, 1), (16, 0), (16, 0), (16, 1), (16, 1), (43, 2097152), (21, 0), (32, 0), (32, 4096), (32, 8192), (32, 12288), (32, 20480)])]) with job := some (jobOf (imgOf [] [(0xD, 1, packBuf 32 [(4, 0), (4, 0), (8, 4), (16, 0), (64, 4096), (64, 8192)]), (0xC, 1, Buf.zeros 64), (9, 1, packBuf 64 [(20, 5), (6, 0), (2, 0), (1, 0), (1, 0), (1, 1), (1, 0), (3, 2), (4, 0), (9, 0), (16, 0), (16, 16), (16, 16), (16, 0), (16, 0), (16, 1), (16, 1), (16, 0), (16, 0), (16, 1), (16, 1), (43, 2097152), (21, 0), (32, 0), (32, 4096), (32, 8192), (32, 12288), (32, 20480)])]) 3 .restarting), erg := { Erg.reset with ready := true, capacity := 64, density := 16, ranks := 2, rate := 6400 } } : State).onCom fun c => { c with mirrorDue := some 2 })
     let at_ : Nat := 600
     let t := s.tick at_
     let j := (jobOf (imgOf [] [(0xD, 1, packBuf 32 [(4, 0), (4, 0), (8, 4), (16, 0), (64, 4096), (64, 8192)]), (0xC, 1, Buf.zeros 64), (9, 1, packBuf 64 [(20, 5), (6, 0), (2, 0), (1, 0), (1, 0), (1, 1), (1, 0), (3, 2), (4, 0), (9, 0), (16, 0), (16, 16), (16, 16), (16, 0), (16, 0), (16, 1), (16, 1), (16, 0), (16, 0), (16, 1), (16, 1), (43, 2097152), (21, 0), (32, 0), (32, 4096), (32, 8192), (32, 12288), (32, 20480)])]) 3 .restarting)
     let d := 2
     let r := ((imgRole (imgOf [] [(0xD, 1, packBuf 32 [(4, 0), (4, 0), (8, 4), (16, 0), (64, 4096), (64, 8192)]), (0xC, 1, Buf.zeros 64), (9, 1, packBuf 64 [(20, 5), (6, 0), (2, 0), (1, 0), (1, 0), (1, 1), (1, 0), (3, 2), (4, 0), (9, 0), (16, 0), (16, 16), (16, 16), (16, 0), (16, 0), (16, 1), (16, 1), (16, 0), (16, 0), (16, 1), (16, 1), (43, 2097152), (21, 0), (32, 0), (32, 4096), (32, 8192), (32, 12288), (32, 20480)])]) 4).get!)
     [(decide (s.job = some j)),
      (decide (s.com.mirrorDue = some d)),
      (decide (imgRole j.image 4 = some r)),
      (decide (j.runs = true → d = j.step → t.passesDone j.image (fun _ => true) = true)),
      (((imgShards j.image).length = 1 && (imgShards j.image).all fun x => [s.oasis.readAt x.shAddr 4160, s.oasis.readAt x.anAddr (2 * x.sliceSubs)].all fun q => q.fixed = [] && q.bad = [])),
      (decide (j.phase = .restarting))].all id) = true ∧
    (let s : State := (({ running (imgOf [] [(0xD, 1, packBuf 32 [(4, 0), (4, 0), (8, 4), (16, 0), (64, 4096), (64, 8192)]), (0xC, 1, Buf.zeros 64), (9, 1, packBuf 64 [(20, 5), (6, 0), (2, 0), (1, 0), (1, 0), (1, 1), (1, 0), (3, 2), (4, 0), (9, 0), (16, 0), (16, 16), (16, 16), (16, 0), (16, 0), (16, 1), (16, 1), (16, 0), (16, 0), (16, 1), (16, 1), (43, 2097152), (21, 0), (32, 0), (32, 4096), (32, 8192), (32, 12288), (32, 20480)])]) with erg := { Erg.reset with ready := true, capacity := 64, density := 16, ranks := 2, rate := 6400 } } : State).onCom fun c => { c with mirrorDue := some 2 })
     let at_ : Nat := 600
     let t := s.tick at_
     let j := (jobOf (imgOf [] [(0xD, 1, packBuf 32 [(4, 0), (4, 0), (8, 4), (16, 0), (64, 4096), (64, 8192)]), (0xC, 1, Buf.zeros 64), (9, 1, packBuf 64 [(20, 5), (6, 0), (2, 0), (1, 0), (1, 0), (1, 1), (1, 0), (3, 2), (4, 0), (9, 0), (16, 0), (16, 16), (16, 16), (16, 0), (16, 0), (16, 1), (16, 1), (16, 0), (16, 0), (16, 1), (16, 1), (43, 2097152), (21, 0), (32, 0), (32, 4096), (32, 8192), (32, 12288), (32, 20480)])]))
     let d := 2
     let r := ((imgRole (imgOf [] [(0xD, 1, packBuf 32 [(4, 0), (4, 0), (8, 4), (16, 0), (64, 4096), (64, 8192)]), (0xC, 1, Buf.zeros 64), (9, 1, packBuf 64 [(20, 5), (6, 0), (2, 0), (1, 0), (1, 0), (1, 1), (1, 0), (3, 2), (4, 0), (9, 0), (16, 0), (16, 16), (16, 16), (16, 0), (16, 0), (16, 1), (16, 1), (16, 0), (16, 0), (16, 1), (16, 1), (43, 2097152), (21, 0), (32, 0), (32, 4096), (32, 8192), (32, 12288), (32, 20480)])]) 4).get!)
     [(decide (s.job = some j)),
      (decide (s.com.mirrorDue = some d)),
      (decide (imgRole j.image 4 = some r)),
      (decide (j.runs = true → d = j.step → t.passesDone j.image (fun _ => true) = true)),
      (((imgShards j.image).length = 1 && (imgShards j.image).all fun x => [s.oasis.readAt x.shAddr 4160, s.oasis.readAt x.anAddr (2 * x.sliceSubs)].all fun q => q.fixed = [] && q.bad = [])),
      (decide (j.phase ≠ .restarting))].all id) = true ∧
    (let s : State := ({ running with erg := { Erg.reset with ready := true, capacity := 64, density := 16, ranks := 2, rate := 6400 } } : State).onCom fun c => { c with ckptWriting := some (3, 0, 4096, ⟨64, 99⟩) }
     let step := 3
     let h := 0
     let a := 4096
     let e := ⟨64, 99⟩
     [(decide (s.com.ckptWriting = some (step, h, a, e)))].all id) = true := by
  refine ⟨?_, ?_, ?_, ?_, ?_, ?_, ?_, ?_, ?_⟩ <;> decide +kernel

/-- Each clause of `BackgroundCommandsEnd` has a state and operands that meet its hypotheses. -/
theorem witness_BackgroundCommandsEnd :
    (let s : State := ((up).putMbox 0 { Mailbox.reset with state := .open_, cmds := [] }).onPcie fun p => { p with bg := [(0x0302, 0, 0)] }
     let op : Nat := 0x0302
     let mb : Nat := 0
     let n : Nat := 0
     let x : Cmd := (⟨ent 0x0302 (0) (0) (0), .background, 0x0150, .empty, 0, 0, .empty, .empty⟩ : Cmd)
     [(decide (s.pcie.bg.find? (fun b => b.1 = op) = some (op, mb, n))),
      (decide ((s.mbox mb).cmds.find? (fun x => x.phase = .background && x.entry.fld 0 16 = op) = none))].all id) = true ∧
    (let s : State := ((up).putMbox 0 { Mailbox.reset with state := .open_, cmds := [(⟨ent 0x0302 (packBits [(64, 64), (32, 128)]) (0) (0), .background, 0x0150, .empty, 0, 0, .empty, .empty⟩ : Cmd)] }).onPcie fun p => { p with bg := [(0x0302, 0, 128)] }
     let op : Nat := 0x0302
     let mb : Nat := 0
     let n : Nat := 128
     let x : Cmd := (⟨ent 0x0302 (packBits [(64, 64), (32, 128)]) (0) (0), .background, 0x0150, .empty, 0, 0, .empty, .empty⟩ : Cmd)
     [(decide (s.pcie.bg.find? (fun b => b.1 = op) = some (op, mb, n))),
      (decide ((s.mbox mb).cmds.find? (fun x => x.phase = .background && x.entry.fld 0 16 = op) = some x)),
      (decide (op = 0x0302)),
      (decide (x.entry.fld 576 32 ≤ n))].all id) = true ∧
    (let s : State := ((up).putMbox 0 { Mailbox.reset with state := .open_, cmds := [(⟨ent 0x0303 (packBits [(64, 64), (32, 128)]) (0) (0), .background, 0x0150, .empty, 0, 0, .empty, .empty⟩ : Cmd)] }).onPcie fun p => { p with bg := [(0x0303, 0, 128)] }
     let op : Nat := 0x0303
     let mb : Nat := 0
     let n : Nat := 128
     let x : Cmd := (⟨ent 0x0303 (packBits [(64, 64), (32, 128)]) (0) (0), .background, 0x0150, .empty, 0, 0, .empty, .empty⟩ : Cmd)
     [(decide (s.pcie.bg.find? (fun b => b.1 = op) = some (op, mb, n))),
      (decide ((s.mbox mb).cmds.find? (fun x => x.phase = .background && x.entry.fld 0 16 = op) = some x)),
      (decide (op = 0x0303)),
      (decide (x.entry.fld 576 32 ≤ n))].all id) = true ∧
    (let s : State := ((running).putMbox 0 { Mailbox.reset with state := .open_, cmds := [(⟨ent 0x0403 (packBits [(64, 64), (32, 128)]) (0) (0), .background, 0x0150, .empty, 0, 0, .empty, .empty⟩ : Cmd)] }).onPcie fun p => { p with bg := [(0x0403, 0, 0)] }
     let at_ : Nat := 10
     let op : Nat := 0x0403
     let mb : Nat := 0
     let n : Nat := 0
     let x : Cmd := (⟨ent 0x0403 (packBits [(64, 64), (32, 128)]) (0) (0), .background, 0x0150, .empty, 0, 0, .empty, .empty⟩ : Cmd)
     let t := s.tick at_
     let st := (t.restoreDone x).1
     let u := (t.restoreDone x).2
     [(decide (s.pcie.bg.find? (fun b => b.1 = op) = some (op, mb, n))),
      (decide ((s.mbox mb).cmds.find? (fun x => x.phase = .background && x.entry.fld 0 16 = op) = some x)),
      (decide (op = 0x0403)),
      (decide (t.restoreDone x = (st, u)))].all id) = true ∧
    (let s : State := ((up).putMbox 0 { Mailbox.reset with state := .open_, cmds := [(⟨ent 0x0903 (0) (0) (0), .background, 0x0150, .empty, 0, 0, Buf.zeros 640, .empty⟩ : Cmd)] }).onPcie fun p => { p with bg := [(0x0903, 0, 0)] }
     let at_ : Nat := 10
     let op : Nat := 0x0903
     let mb : Nat := 0
     let n : Nat := 0
     let x : Cmd := (⟨ent 0x0903 (0) (0) (0), .background, 0x0150, .empty, 0, 0, Buf.zeros 640, .empty⟩ : Cmd)
     let t := s.tick at_
     let st := (t.fwStored mb x).1
     let u := (t.fwStored mb x).2
     [(decide (s.pcie.bg.find? (fun b => b.1 = op) = some (op, mb, n))),
      (decide ((s.mbox mb).cmds.find? (fun x => x.phase = .background && x.entry.fld 0 16 = op) = some x)),
      (decide (op = 0x0903)),
      (decide (t.fwStored mb x = (st, u)))].all id) = true ∧
    (let s : State := ((up).putMbox 0 { Mailbox.reset with state := .open_, cmds := [(⟨ent 0x0B01 (packBits [(8, 0), (8, 0), (32, 5)]) (0) (0), .background, 0x0150, .empty, 0, 0, .empty, .empty⟩ : Cmd)] }).onPcie fun p => { p with bg := [(0x0B01, 0, 0)] }
     let op : Nat := 0x0B01
     let mb : Nat := 0
     let n : Nat := 0
     let res : BgResult := ⟨640, 0, 0, .empty⟩
     let x : Cmd := (⟨ent 0x0B01 (packBits [(8, 0), (8, 0), (32, 5)]) (0) (0), .background, 0x0150, .empty, 0, 0, .empty, .empty⟩ : Cmd)
     let i := x.entry.fld 512 8
     [(decide (s.pcie.bg.find? (fun b => b.1 = op) = some (op, mb, n))),
      (decide ((s.mbox mb).cmds.find? (fun x => x.phase = .background && x.entry.fld 0 16 = op) = some x)),
      (decide (op = 0x0B01)),
      (decide (¬ (i < 8 ∧ res.rows ≠ 0)))].all id) = true ∧
    (let s : State := ((up).putMbox 0 { Mailbox.reset with state := .open_, cmds := [(⟨ent 0x0B01 (packBits [(8, 7), (8, 0), (32, 5)]) (0) (0), .background, 0x0150, .empty, 0, 0, .empty, .empty⟩ : Cmd)] }).onPcie fun p => { p with bg := [(0x0B01, 0, 0)] }
     let op : Nat := 0x0B01
     let mb : Nat := 0
     let n : Nat := 0
     let res : BgResult := ⟨0, 0, 1, .empty⟩
     let x : Cmd := (⟨ent 0x0B01 (packBits [(8, 7), (8, 0), (32, 5)]) (0) (0), .background, 0x0150, .empty, 0, 0, .empty, .empty⟩ : Cmd)
     let i := x.entry.fld 512 8
     [(decide (s.pcie.bg.find? (fun b => b.1 = op) = some (op, mb, n))),
      (decide ((s.mbox mb).cmds.find? (fun x => x.phase = .background && x.entry.fld 0 16 = op) = some x)),
      (decide (op = 0x0B01)),
      (decide (i < 8)),
      (decide (res.rows ≠ 0))].all id) = true ∧
    (let s : State := ((up).putMbox 0 { Mailbox.reset with state := .open_, cmds := [(⟨ent 0x0B02 (1023) (wr 1024) (0), .background, 0x0150, .empty, 0, 0, .empty, .empty⟩ : Cmd)] }).onPcie fun p => { p with bg := [(0x0B02, 0, 0)] }
     let op : Nat := 0x0B02
     let mb : Nat := 0
     let n : Nat := 0
     let res : BgResult := ⟨0, 0, 0, .empty⟩
     let x : Cmd := (⟨ent 0x0B02 (1023) (wr 1024) (0), .background, 0x0150, .empty, 0, 0, .empty, .empty⟩ : Cmd)
     [(decide (s.pcie.bg.find? (fun b => b.1 = op) = some (op, mb, n))),
      (decide ((s.mbox mb).cmds.find? (fun x => x.phase = .background && x.entry.fld 0 16 = op) = some x)),
      (decide (op = 0x0B02)),
      (decide (res.rows = 0))].all id) = true ∧
    (let s : State := ((up).putMbox 0 { Mailbox.reset with state := .open_, cmds := [(⟨ent 0x0B02 (5) (wr 16) (0), .background, 0x0150, .empty, 0, 0, .empty, .empty⟩ : Cmd)] }).onPcie fun p => { p with bg := [(0x0B02, 0, 0)] }
     let op : Nat := 0x0B02
     let mb : Nat := 0
     let n : Nat := 0
     let res : BgResult := ⟨0, 0, 2, ⟨16, 2 ^ 100⟩⟩
     let x : Cmd := (⟨ent 0x0B02 (5) (wr 16) (0), .background, 0x0150, .empty, 0, 0, .empty, .empty⟩ : Cmd)
     [(decide (s.pcie.bg.find? (fun b => b.1 = op) = some (op, mb, n))),
      (decide ((s.mbox mb).cmds.find? (fun x => x.phase = .background && x.entry.fld 0 16 = op) = some x)),
      (decide (op = 0x0B02)),
      (decide (res.rows ≠ 0))].all id) = true := by
  refine ⟨?_, ?_, ?_, ?_, ?_, ?_, ?_, ?_, ?_⟩ <;> decide +kernel

/-- Each clause of `CatchupsAndFootprintEndsComplete` has a state and operands that meet its hypotheses. -/
theorem witness_CatchupsAndFootprintEndsComplete :
    (let s : State := ({ running (imgOf [tent 0xF0 0x8B 1 100 1000] []) with now := 0 } : State)
     let at_ : Nat := 100
     let i : Nat := 0
     let j : Job := (jobOf (imgOf [tent 0xF0 0x8B 1 100 1000] []))
     let e : Entry := (imgEntry (imgOf [tent 0xF0 0x8B 1 100 1000] []) 0)
     let t := s.tick at_
     [(decide (s.job = some j)),
      (decide (j.runs = true)),
      (decide (i < imgEntries j.image)),
      (decide (e = imgEntry j.image i)),
      (decide (e.action = 0xF0)),
      (decide (t.ent i = .idle ∨ t.ent i = .waiting)),
      (decide (((j.sn + e.offset : Nat) : Int) ≤ t.jtInt)),
      (decide (txPort e.target = none)),
      (decide (128 ≤ e.target)),
      (decide (t.targetIdle e.target = true)),
      (decide (tget [] t.catchup i = [])),
      (decide (tget 0 t.rxHold i = 0))].all id) = true ∧
    (let s : State := ({ running (imgOf [tent 0x20 0x8B 0 0 500 1, tent 0xF0 0x8B 1 100 1000] [(7, 1, (packBuf 64 [(32, 0), (16, 1)]).app (packBuf 32 [(4, 0), (4, 3), (24, 0), (32, 64)]))]) with catchup := [(1, [0])], ents := [(0, .deferred)] } : State)
     let at_ : Nat := 100
     let i : Nat := 1
     let j : Job := (jobOf (imgOf [tent 0x20 0x8B 0 0 500 1, tent 0xF0 0x8B 1 100 1000] [(7, 1, (packBuf 64 [(32, 0), (16, 1)]).app (packBuf 32 [(4, 0), (4, 3), (24, 0), (32, 64)]))]))
     let e : Entry := (imgEntry (imgOf [tent 0x20 0x8B 0 0 500 1, tent 0xF0 0x8B 1 100 1000] [(7, 1, (packBuf 64 [(32, 0), (16, 1)]).app (packBuf 32 [(4, 0), (4, 3), (24, 0), (32, 64)]))]) 1)
     let t := s.tick at_
     let gathers := ([] : List (Nat × Nat))
     let k := 0
     let f := imgEntry j.image k
     let u := t.putEnt i (.running t.jt)
     let w := ((u.leaveCatchup i k).putEnt k (.running t.jt)).noteMiss f.target fun r =>
       { r with maxLateNs := Nat.max r.maxLateNs (t.jt - (j.sn + f.offset)) }
     [(decide (s.job = some j)),
      (decide (j.runs = true)),
      (decide (i < imgEntries j.image)),
      (decide (e = imgEntry j.image i)),
      (decide (e.action = 0xF0)),
      (decide (t.ent i = .idle ∨ t.ent i = .waiting)),
      (decide (((j.sn + e.offset : Nat) : Int) ≤ t.jtInt)),
      (decide (txPort e.target = none)),
      (decide (128 ≤ e.target)),
      (decide (t.targetIdle e.target = true)),
      (decide (tget [] t.catchup i = [k])),
      (decide (tget 0 t.rxHold i = 0)),
      (decide (u.preSkipped j f = false)),
      (decide (u.metPre j f (u.idleFor f) = true)),
      (decide (¬ ((w.startAction j k f (j.sn + e.finish) gathers).targetIdle e.target = true)))].all id) = true ∧
    (let s : State := ({ running (imgOf [tent 0x30 0x95 3 0 500 1, tent 0xF0 0x95 1 100 1000] []) with catchup := [(1, [0])], ents := [(0, .deferred)], erg := { Erg.reset with chans := [(5, { ErgChannel.reset with window := some (0, 3, 0, 90) })] } } : State)
     let at_ : Nat := 100
     let i : Nat := 1
     let j : Job := (jobOf (imgOf [tent 0x30 0x95 3 0 500 1, tent 0xF0 0x95 1 100 1000] []))
     let e : Entry := (imgEntry (imgOf [tent 0x30 0x95 3 0 500 1, tent 0xF0 0x95 1 100 1000] []) 1)
     let t := s.tick at_
     [(decide (s.job = some j)),
      (decide (j.runs = true)),
      (decide (i < imgEntries j.image)),
      (decide (e = imgEntry j.image i)),
      (decide (e.action = 0xF0)),
      (decide (t.ent i = .idle ∨ t.ent i = .waiting)),
      (decide (((j.sn + e.offset : Nat) : Int) ≤ t.jtInt)),
      (decide (txPort e.target = none)),
      (decide (128 ≤ e.target)),
      (decide (t.targetIdle e.target = false))].all id) = true ∧
    (let s : State := ({ running (imgOf [tent 0x40 0xB2 0 0 100] []) with ents := [(0, .running 0)] } : State)
     let at_ : Nat := 100
     let i : Nat := 0
     let j : Job := (jobOf (imgOf [tent 0x40 0xB2 0 0 100] []))
     let e : Entry := (imgEntry (imgOf [tent 0x40 0xB2 0 0 100] []) 0)
     let t := s.tick at_
     let since := 0
     [(decide (s.job = some j)),
      (decide (j.runs = true)),
      (decide (i < imgEntries j.image)),
      (decide (e = imgEntry j.image i)),
      (decide (t.ent i = .running since)),
      (decide (since < j.sn + e.finish)),
      (decide (((j.sn + e.finish : Nat) : Int) ≤ t.jtInt)),
      (decide (e.action = 0x40))].all id) = true ∧
    (let s : State := ({ running (imgOf [tent 0x41 0xB2 0 0 100] []) with ents := [(0, .running 0)], near := [(2, { NearPort.reset with txWindow := some (0, 6, 100) })] } : State)
     let at_ : Nat := 100
     let i : Nat := 0
     let j : Job := (jobOf (imgOf [tent 0x41 0xB2 0 0 100] []))
     let e : Entry := (imgEntry (imgOf [tent 0x41 0xB2 0 0 100] []) 0)
     let t := s.tick at_
     let since := 0
     [(decide (s.job = some j)),
      (decide (j.runs = true)),
      (decide (i < imgEntries j.image)),
      (decide (e = imgEntry j.image i)),
      (decide (t.ent i = .running since)),
      (decide (since < j.sn + e.finish)),
      (decide (((j.sn + e.finish : Nat) : Int) ≤ t.jtInt)),
      (decide (e.action = 0x41)),
      (decide ((t.port (e.target - 0xB0)).txWindow.any (fun w => w.1 = i) = true))].all id) = true ∧
    (let s : State := ({ running (imgOf [tent 0x50 0xC1 0 0 100] []) with ents := [(0, .running 0)], acx := { Acrix.reset with ports := [(1, { FarPort.reset with slice := some (1, 3, 100) })] } } : State)
     let at_ : Nat := 100
     let i : Nat := 0
     let j : Job := (jobOf (imgOf [tent 0x50 0xC1 0 0 100] []))
     let e : Entry := (imgEntry (imgOf [tent 0x50 0xC1 0 0 100] []) 0)
     let t := s.tick at_
     let since := 0
     let en := 3
     let fin := 100
     [(decide (s.job = some j)),
      (decide (j.runs = true)),
      (decide (i < imgEntries j.image)),
      (decide (e = imgEntry j.image i)),
      (decide (t.ent i = .running since)),
      (decide (since < j.sn + e.finish)),
      (decide (((j.sn + e.finish : Nat) : Int) ≤ t.jtInt)),
      (decide (e.action = 0x50)),
      (decide ((t.farPort (e.target - 0xC0)).slice = some (i + 1, en, fin)))].all id) = true ∧
    (let s : State := ({ running (imgOf [tent 0x48 0xBA 0 0 100, tent 0xF0 0xBA 1 100 1000] []) with ents := [(0, .running 0)], near := [(2, { NearPort.reset with binds := [⟨0, .zeros 64, 3, [1], [], 3, [], [], 0, false, false, 5000⟩] })] } : State)
     let at_ : Nat := 100
     let i : Nat := 0
     let j : Job := (jobOf (imgOf [tent 0x48 0xBA 0 0 100, tent 0xF0 0xBA 1 100 1000] []))
     let e : Entry := (imgEntry (imgOf [tent 0x48 0xBA 0 0 100, tent 0xF0 0xBA 1 100 1000] []) 0)
     let t := s.tick at_
     let since := 0
     let k := 0
     let h := 1
     let c := (imgEntry j.image 1)
     [(decide (s.job = some j)),
      (decide (j.runs = true)),
      (decide (i < imgEntries j.image)),
      (decide (e = imgEntry j.image i)),
      (decide (t.ent i = .running since)),
      (decide (since < j.sn + e.finish)),
      (decide (((j.sn + e.finish : Nat) : Int) ≤ t.jtInt)),
      (decide (e.action = 0x48)),
      (decide (holdOf j.image e = some (h, c))),
      (decide (t.heldPlaces h < c.capacity)),
      (decide ((t.port (e.target - 0xB8)).binds.findIdx?
                   (fun x => x.entry = i && x.step = j.step && x.got.length ≠ x.total && !x.holdOver && !x.done) = some k))].all id) = true := by
  refine ⟨?_, ?_, ?_, ?_, ?_, ?_, ?_⟩ <;> decide +kernel

/-- Each clause of `KernelsIssueAndEnd` has a state and operands that meet its hypotheses. -/
theorem witness_KernelsIssueAndEnd :
    (let s : State := withCode ((mat1.toBuf).app (vblk [vecWord 0x54 ⟨0, 0, 0, 0, 0, 0⟩])) (at5 (busy5 ({ kern with codeLen := 192 })) (comImg [] [] [packBuf 32 [(20, 0), (20, 9), (16, 30), (16, 40)]]))
     let at_ : Nat := 10
     let core : Nat := 5
     let k : Kernel := ({ kern with codeLen := 192 } : Kernel)
     let t := s.tick at_
     let c := t.core core
     let cc := t.dieCc (core / 16)
     let b := t.itemAt core k k.pos
     [(decide ((s.core core).kernel = some k)),
      (decide (k.stopped = false)),
      (decide (k.ended = false)),
      (decide (t.accHeld c = false)),
      (decide (k.issueFrom ≤ cc)),
      (decide (itemKind b = 0x4D ∨ itemKind b = 0x44 ∨ itemKind b = 0x56)),
      (decide (c.closingHolds k.guest b = false)),
      (decide (t.passedOver core k b = true))].all id) = true ∧
    (let s : State := withCode (({ mat1 with waitEn := true, waitSo := 9, waitCount := 1 } : Mat).toBuf) (at5 (busy5 (kern)) )
     let at_ : Nat := 10
     let core : Nat := 5
     let k : Kernel := (kern : Kernel)
     let t := s.tick at_
     let c := t.core core
     let cc := t.dieCc (core / 16)
     let b := t.itemAt core k k.pos
     let so := 9
     let n := 1
     [(decide ((s.core core).kernel = some k)),
      (decide (k.stopped = false)),
      (decide (k.ended = false)),
      (decide (t.accHeld c = false)),
      (decide (k.issueFrom ≤ cc)),
      (decide (itemKind b = 0x4D ∨ itemKind b = 0x44 ∨ itemKind b = 0x56)),
      (decide (c.closingHolds k.guest b = false)),
      (decide (t.passedOver core k b = false)),
      (decide (itemWait b = some (so, n))),
      (decide (t.waitMet k so n = false))].all id) = true ∧
    (let s : State := withCode (({ mat1 with bAddr := 4096 } : Mat).toBuf) (at5 ({ busy5 (kern) with dq := [(⟨0, 0, dma1, 0, none⟩ : Item)] }) )
     let at_ : Nat := 10
     let core : Nat := 5
     let k : Kernel := (kern : Kernel)
     let t := s.tick at_
     let c := t.core core
     let cc := t.dieCc (core / 16)
     let b := t.itemAt core k k.pos
     [(decide ((s.core core).kernel = some k)),
      (decide (k.stopped = false)),
      (decide (k.ended = false)),
      (decide (t.accHeld c = false)),
      (decide (k.issueFrom ≤ cc)),
      (decide (itemKind b = 0x4D ∨ itemKind b = 0x44 ∨ itemKind b = 0x56)),
      (decide (c.closingHolds k.guest b = false)),
      (decide (t.passedOver core k b = false)),
      (decide (((match itemWait b with | some (so, n) => decide (t.waitMet k so n = true) | none => true) = true))),
      (decide (t.interlocked core k b = true))].all id) = true ∧
    (let s : State := withCode (mat1.toBuf) (at5 ({ busy5 (kern) with mq := List.replicate 4 (⟨0, 0, mat1.toBuf, 0, none⟩ : Item) }) )
     let at_ : Nat := 10
     let core : Nat := 5
     let k : Kernel := (kern : Kernel)
     let t := s.tick at_
     let c := t.core core
     let cc := t.dieCc (core / 16)
     let b := t.itemAt core k k.pos
     [(decide ((s.core core).kernel = some k)),
      (decide (k.stopped = false)),
      (decide (k.ended = false)),
      (decide (t.accHeld c = false)),
      (decide (k.issueFrom ≤ cc)),
      (decide (itemKind b = 0x4D ∨ itemKind b = 0x44 ∨ itemKind b = 0x56)),
      (decide (c.closingHolds k.guest b = false)),
      (decide (t.passedOver core k b = false)),
      (decide (((match itemWait b with | some (so, n) => decide (t.waitMet k so n = true) | none => true) = true))),
      (decide (t.interlocked core k b = false)),
      (decide (c.queueFull b = true))].all id) = true ∧
    (let s : State := withCode (mat1.toBuf) (at5 (busy5 (kern)) )
     let at_ : Nat := 10
     let core : Nat := 5
     let k : Kernel := (kern : Kernel)
     let t := s.tick at_
     let c := t.core core
     let cc := t.dieCc (core / 16)
     let b := t.itemAt core k k.pos
     [(decide ((s.core core).kernel = some k)),
      (decide (k.stopped = false)),
      (decide (k.ended = false)),
      (decide (t.accHeld c = false)),
      (decide (k.issueFrom ≤ cc)),
      (decide (itemKind b = 0x4D ∨ itemKind b = 0x44 ∨ itemKind b = 0x56)),
      (decide (c.closingHolds k.guest b = false)),
      (decide (t.passedOver core k b = false)),
      (decide (((match itemWait b with | some (so, n) => decide (t.waitMet k so n = true) | none => true) = true))),
      (decide (t.interlocked core k b = false)),
      (decide (c.queueFull b = false)),
      (decide (itemKind b = 0x4D))].all id) = true ∧
    (let s : State := withCode (dma1 false true) (({ at5 (busy5 ({ kern with waitFrom := some 3 }))  with sos := [(9, ⟨3, 1, false⟩)] } : State))
     let at_ : Nat := 10
     let core : Nat := 5
     let k : Kernel := ({ kern with waitFrom := some 3 } : Kernel)
     let t := s.tick at_
     let c := t.core core
     let cc := t.dieCc (core / 16)
     let b := t.itemAt core k k.pos
     [(decide ((s.core core).kernel = some k)),
      (decide (k.stopped = false)),
      (decide (k.ended = false)),
      (decide (t.accHeld c = false)),
      (decide (k.issueFrom ≤ cc)),
      (decide (itemKind b = 0x4D ∨ itemKind b = 0x44 ∨ itemKind b = 0x56)),
      (decide (c.closingHolds k.guest b = false)),
      (decide (t.passedOver core k b = false)),
      (decide (((match itemWait b with | some (so, n) => decide (t.waitMet k so n = true) | none => true) = true))),
      (decide (t.interlocked core k b = false)),
      (decide (c.queueFull b = false)),
      (decide (itemKind b = 0x44))].all id) = true ∧
    (let s : State := withCode (vblk [vecWord 0x7F ⟨0, 0, 0, 0, 0, 0⟩]) (at5 (busy5 (kern)) )
     let at_ : Nat := 10
     let core : Nat := 5
     let k : Kernel := (kern : Kernel)
     let t := s.tick at_
     let c := t.core core
     let cc := t.dieCc (core / 16)
     let b := t.itemAt core k k.pos
     [(decide ((s.core core).kernel = some k)),
      (decide (k.stopped = false)),
      (decide (k.ended = false)),
      (decide (t.accHeld c = false)),
      (decide (k.issueFrom ≤ cc)),
      (decide (itemKind b = 0x4D ∨ itemKind b = 0x44 ∨ itemKind b = 0x56)),
      (decide (c.closingHolds k.guest b = false)),
      (decide (t.passedOver core k b = false)),
      (decide (((match itemWait b with | some (so, n) => decide (t.waitMet k so n = true) | none => true) = true))),
      (decide (t.interlocked core k b = false)),
      (decide (c.queueFull b = false)),
      (decide (itemKind b = 0x56))].all id) = true ∧
    (let s : State := withCode (packBuf 64 [(8, 0x45)]) (at5 (busy5 (kern)) )
     let at_ : Nat := 10
     let core : Nat := 5
     let k : Kernel := (kern : Kernel)
     let t := s.tick at_
     let c := t.core core
     let cc := t.dieCc (core / 16)
     let b := t.itemAt core k k.pos
     [(decide ((s.core core).kernel = some k)),
      (decide (k.stopped = false)),
      (decide (k.ended = false)),
      (decide (t.accHeld c = false)),
      (decide (k.issueFrom ≤ cc)),
      (decide (itemKind b = 0x45))].all id) = true ∧
    (let s : State := withCode (dma1 false true) (at5 (busy5 (kern)) )
     let at_ : Nat := 10000
     let core : Nat := 5
     let k : Kernel := (kern : Kernel)
     let t := s.tick at_
     let c := t.core core
     let b := t.itemAt core k k.pos
     let w := (9, 1)
     [(decide ((s.core core).kernel = some k)),
      (decide (k.stopped = false)),
      (decide (c.vecWait = some w ∨ c.vecWait = none ∧ k.ended = false ∧ itemWait b = some w)),
      (decide (t.waitMet k w.1 w.2 = false)),
      (decide (k.limitJt ≤ t.jt ∨ ((t.so w.1).step = (k.step : Int) ∧ (t.so w.1).skip = true)))].all id) = true ∧
    (let s : State := at5 (busy5 ({ kern with stopped := true })) 
     let at_ : Nat := 10
     let core : Nat := 5
     let k : Kernel := ({ kern with stopped := true } : Kernel)
     let t := s.tick at_
     let c := t.core core
     let cc := t.dieCc (core / 16)
     [(decide ((s.core core).kernel = some k)),
      (decide (c.drained = true)),
      (decide (k.lastDone + 4 ≤ cc)),
      (decide (k.guest = false)),
      (decide (k.stopped = true))].all id) = true ∧
    (let s : State := at5 (busy5 ({ kern with ended := true })) 
     let at_ : Nat := 10
     let core : Nat := 5
     let k : Kernel := ({ kern with ended := true } : Kernel)
     let t := s.tick at_
     let c := t.core core
     let cc := t.dieCc (core / 16)
     [(decide ((s.core core).kernel = some k)),
      (decide (c.drained = true)),
      (decide (k.lastDone + 4 ≤ cc)),
      (decide (k.guest = false)),
      (decide (k.stopped = false)),
      (decide (k.ended = true ∨ c.closing = true ∧ c.tileBoundary false = true))].all id) = true ∧
    (let s : State := ({ at5 ({ busy5 ({ kern true with ended := true }) with closing := true, bubble := some 4, overran := false })  with guest := some guest0 } : State)
     let at_ : Nat := 10
     let core : Nat := 5
     let k : Kernel := ({ kern true with ended := true } : Kernel)
     let t := s.tick at_
     let c := t.core core
     let cc := t.dieCc (core / 16)
     let g := guest0
     [(decide ((s.core core).kernel = some k)),
      (decide (c.drained = true)),
      (decide (k.lastDone + 4 ≤ cc)),
      (decide (k.guest = true)),
      (decide (k.ended = true ∨ k.stopped = true)),
      (decide (s.guest = some g)),
      (decide (c.closing = true))].all id) = true ∧
    (let s : State := ({ at5 ({ busy5 ({ kern true with ended := true }) with bubble := some 4 })  with guest := some guest0 } : State)
     let at_ : Nat := 10
     let core : Nat := 5
     let k : Kernel := ({ kern true with ended := true } : Kernel)
     let t := s.tick at_
     let c := t.core core
     let cc := t.dieCc (core / 16)
     let u := t.putCore core { c with kernel := none, closing := c.closing && k.guest }
     let g := guest0
     let next := g.nextKernel core k.index
     let g' := { g with done := g.done + 1 }
     let w := ({ u with guest := some g' } : State).onCore core fun c => { c with guest := { c.guest with next } }
     let n := ((({ (t.putCore core { c with kernel := none }) with guest := some { g with done := g.done + 1 } } : State).onCore core fun c => { c with guest := { c.guest with next := g.nextKernel core k.index } }).guestKernel { g with done := g.done + 1 } core (g.nextKernel core k.index) c.bubbleEntry c.bubbleQ).get!
     [(decide ((s.core core).kernel = some k)),
      (decide (c.drained = true)),
      (decide (k.lastDone + 4 ≤ cc)),
      (decide (k.guest = true)),
      (decide (k.ended = true ∨ k.stopped = true)),
      (decide (s.guest = some g)),
      (decide (c.closing = false)),
      (decide (w.guestKernel g' core next c.bubbleEntry c.bubbleQ = some n))].all id) = true ∧
    (let s : State := ({ at5 ({ busy5 (kern true) with closing := true, bubble := some 4, closeCc := 5 })  with guest := some guest0 } : State)
     let at_ : Nat := 100
     let core : Nat := 5
     let k : Kernel := (kern true : Kernel)
     let t := s.tick at_
     let c := t.core core
     let cc := t.dieCc (core / 16)
     let g := guest0
     [(decide ((s.core core).kernel = some k)),
      (decide (k.guest = true)),
      (decide (c.closing = true)),
      (decide (c.tileBoundary true = true)),
      (decide (Nat.max k.lastDone c.closeCc + 40 ≤ cc)),
      (decide (s.guest = some g))].all id) = true := by
  refine ⟨?_, ?_, ?_, ?_, ?_, ?_, ?_, ?_, ?_, ?_, ?_, ?_, ?_, ?_⟩ <;> decide +kernel

/-- Each clause of `MatrixCommandsComplete` has a state and operands that meet its hypotheses. -/
theorem witness_MatrixCommandsComplete :
    (let at_ : Nat := 1000
     let core : Nat := 5
     let k : Kernel := kern
     let s : State := at5 ({ busy5 with mq := [(⟨0, 0, (({ mat1 with cont := true, k := 64 }) : Mat).toBuf, 0, none⟩ : Item)], tile0 := { Tile.reset with pcount := 2 ^ 32 - 63 } })
     let t := s.tick at_
     let c := t.core core
     let cc := t.dieCc (core / 16)
     let strikes := ([] : List Strike)
     let z := (t.strike strikes)
     let c := (z.core core)
     let it := (⟨0, 0, (({ mat1 with cont := true, k := 64 }) : Mat).toBuf, 0, none⟩ : Item)
     let d := Mat.ofBuf it.body
     let free := Nat.max (it.issueCc + 24) c.arrayFree
     let start := Nat.max free (c.tile d.tile).drainedCc
     let u := if d.cont then z.settleTile core d.tile else z
     let x := (u.core core).tile d.tile
     [(decide ((s.core core).kernel = some k)),
      (decide (nextItem c.mq = some it)),
      (decide (start ≤ cc)),
      (decide ((z.die (core / 16)).pass = none)),
      (decide (c.draining d.tile = false)),
      (decide (drainAhead c.mq d.tile = false)),
      (decide (d.cont = true)),
      (decide (2 ^ 32 < x.pcount + d.k))].all id) = true ∧
    (let s : State := at5 ({ busy5 with mq := [(⟨0, 0, (({ mat1 with cont := true }) : Mat).toBuf, 0, none⟩ : Item)], tile0 := { Tile.reset with texp := 5 } })
     let at_ : Nat := 1000
     let core : Nat := 5
     let k : Kernel := kern
     let t := s.tick at_
     let c := t.core core
     let cc := t.dieCc (core / 16)
     let strikes := ([] : List Strike)
     let z := (t.strike strikes)
     let c := (z.core core)
     let it := (⟨0, 0, (({ mat1 with cont := true }) : Mat).toBuf, 0, none⟩ : Item)
     let d := Mat.ofBuf it.body
     let free := Nat.max (it.issueCc + 24) c.arrayFree
     let start := Nat.max free (c.tile d.tile).drainedCc
     let u := if d.cont then z.settleTile core d.tile else z
     let x := (u.core core).tile d.tile
     [(decide ((s.core core).kernel = some k)),
      (decide (nextItem c.mq = some it)),
      (decide (start ≤ cc)),
      (decide ((z.die (core / 16)).pass = none)),
      (decide (c.draining d.tile = false)),
      (decide (drainAhead c.mq d.tile = false)),
      (decide (d.cont = true)),
      (decide (x.pcount + d.k ≤ 2 ^ 32)),
      (decide (d.k ≠ 0)),
      (decide (d.nanScale = false)),
      (decide (x.texp ≠ d.tensorExp))].all id) = true ∧
    (let at_ : Nat := 1000
     let core : Nat := 5
     let k : Kernel := kern
     let s : State := ({ at5 ({ busy5 with mq := [(⟨0, 0, (({ mat1 with m := 2, n := 2, k := 3 }) : Mat).toBuf, 0, none⟩ : Item)] }) with scratch := ⟨(List.range 200).map fun i => (5 * 0x600000 + i, BitVec.ofNat 8 (60 + i % 5)), []⟩ } : State)
     let t := s.tick at_
     let c := t.core core
     let cc := t.dieCc (core / 16)
     let strikes := ([] : List Strike)
     let z := (t.strike strikes)
     let c := (z.core core)
     let it := (⟨0, 0, (({ mat1 with m := 2, n := 2, k := 3 }) : Mat).toBuf, 0, none⟩ : Item)
     let d := Mat.ofBuf it.body
     let free := Nat.max (it.issueCc + 24) c.arrayFree
     let start := Nat.max free (c.tile d.tile).drainedCc
     let u := if d.cont then z.settleTile core d.tile else z
     let x := (u.core core).tile d.tile
     let v := if d.cont && d.k ≠ 0 then (u.noteBasin core d.tile d.uses (.core core k.guest)).renewBasin core d.tile d.uses else u
     let as := (v.scratchRows core (if d.transA then ⟨d.aAddr, 64 * d.aLd, d.k, packedBytes d.fmtA d.m⟩ else ⟨d.aAddr, 64 * d.aLd, d.m, packedBytes d.fmtA d.k⟩) (.core core k.guest)).1
     let sa := (v.scratchRows core (if d.transA then ⟨d.aAddr, 64 * d.aLd, d.k, packedBytes d.fmtA d.m⟩ else ⟨d.aAddr, 64 * d.aLd, d.m, packedBytes d.fmtA d.k⟩) (.core core k.guest)).2
     let bs := (sa.scratchRows core (if d.transB then ⟨d.bAddr, 64 * d.bLd, d.n, packedBytes d.fmtB d.k⟩ else ⟨d.bAddr, 64 * d.bLd, d.k, packedBytes d.fmtB d.n⟩) (.core core k.guest)).1
     let sb := (sa.scratchRows core (if d.transB then ⟨d.bAddr, 64 * d.bLd, d.n, packedBytes d.fmtB d.k⟩ else ⟨d.bAddr, 64 * d.bLd, d.k, packedBytes d.fmtB d.n⟩) (.core core k.guest)).2
     let sas := (if d.scaleA = 2 then sb.scratchRows core ⟨d.aScale, 64 * d.aSld, d.m, d.k / 32⟩ (.core core k.guest) else ([], sb)).1
     let sc := (if d.scaleA = 2 then sb.scratchRows core ⟨d.aScale, 64 * d.aSld, d.m, d.k / 32⟩ (.core core k.guest) else ([], sb)).2
     let sbs := (if d.scaleB = 2 then sc.scratchRows core ⟨d.bScale, 64 * d.bSld, d.n, d.k / 32⟩ (.core core k.guest) else ([], sc)).1
     let sd := (if d.scaleB = 2 then sc.scratchRows core ⟨d.bScale, 64 * d.bSld, d.n, d.k / 32⟩ (.core core k.guest) else ([], sc)).2
     [(decide ((s.core core).kernel = some k)),
      (decide (nextItem c.mq = some it)),
      (decide (start ≤ cc)),
      (decide ((z.die (core / 16)).pass = none)),
      (decide (c.draining d.tile = false)),
      (decide (drainAhead c.mq d.tile = false)),
      (decide (¬ (d.cont = true ∧ (2 ^ 32 < x.pcount + d.k ∨ (d.k ≠ 0 ∧ d.nanScale = false ∧ x.texp ≠ d.tensorExp))))),
      (decide (v.scratchRows core (if d.transA then ⟨d.aAddr, 64 * d.aLd, d.k, packedBytes d.fmtA d.m⟩
                   else ⟨d.aAddr, 64 * d.aLd, d.m, packedBytes d.fmtA d.k⟩) (.core core k.guest) = (as, sa))),
      (decide (sa.scratchRows core (if d.transB then ⟨d.bAddr, 64 * d.bLd, d.n, packedBytes d.fmtB d.k⟩
                   else ⟨d.bAddr, 64 * d.bLd, d.k, packedBytes d.fmtB d.n⟩) (.core core k.guest) = (bs, sb))),
      (decide ((if d.scaleA = 2 then sb.scratchRows core ⟨d.aScale, 64 * d.aSld, d.m, d.k / 32⟩ (.core core k.guest) else ([], sb)) = (sas, sc))),
      (decide ((if d.scaleB = 2 then sc.scratchRows core ⟨d.bScale, 64 * d.bSld, d.n, d.k / 32⟩ (.core core k.guest) else ([], sc)) = (sbs, sd)))].all id) = true ∧
    (let s : State := at5 ({ busy5 with mq := [(⟨0, 0, (({ mat1 with drain := true }) : Mat).toBuf, 0, some 24⟩ : Item)] })
     let at_ : Nat := 1000
     let core : Nat := 5
     let k : Kernel := kern
     let t := s.tick at_
     let c := t.core core
     let cc := t.dieCc (core / 16)
     let it := (⟨0, 0, (({ mat1 with drain := true }) : Mat).toBuf, 0, some 24⟩ : Item)
     let rest := []
     let start := 24
     let d := Mat.ofBuf it.body
     let done := start + d.baseCycles * d.slow + 16
     [(decide ((s.core core).kernel = some k)),
      (decide (c.mq = it :: rest)),
      (decide (it.startCc = some start)),
      (decide (done ≤ cc)),
      (decide (d.drain = true))].all id) = true ∧
    (let s : State := at5 ({ busy5 with mq := [(⟨0, 0, (({ mat1 with sigEn := true, sigSo := 7 }) : Mat).toBuf, 0, some 24⟩ : Item)] })
     let at_ : Nat := 1000
     let core : Nat := 5
     let k : Kernel := kern
     let t := s.tick at_
     let c := t.core core
     let cc := t.dieCc (core / 16)
     let it := (⟨0, 0, (({ mat1 with sigEn := true, sigSo := 7 }) : Mat).toBuf, 0, some 24⟩ : Item)
     let rest := []
     let start := 24
     let d := Mat.ofBuf it.body
     let done := start + d.baseCycles * d.slow + 16
     [(decide ((s.core core).kernel = some k)),
      (decide (c.mq = it :: rest)),
      (decide (it.startCc = some start)),
      (decide (done ≤ cc)),
      (decide (d.drain = false))].all id) = true ∧
    (let s : State := at5 ({ busy5 with drainq := [(200, (⟨0, 0, (({ mat1 with drain := true }) : Mat).toBuf, 0, some 24⟩ : Item))], tile0 := { Tile.reset with acc := [(0, ⟨2 ^ 150, 0, 0, 0⟩)] } })
     let at_ : Nat := 1000
     let core : Nat := 5
     let k : Kernel := kern
     let t := s.tick at_
     let c := t.core core
     let cc := t.dieCc (core / 16)
     let strikes := ([⟨.basin 5 0 0 2, 2, 7⟩] : List Strike)
     let z := (t.strike strikes)
     let c := (z.core core)
     let due := 200
     let it := (⟨0, 0, (({ mat1 with drain := true }) : Mat).toBuf, 0, some 24⟩ : Item)
     let rest := []
     let d := Mat.ofBuf it.body
     let start := Nat.max due (Nat.max c.tile0.drainedCc c.tile1.drainedCc)
     let u := (z.settleTile core d.tile).noteBasin core d.tile d.uses (.core core k.guest)
     let p := u.profile core k d.profile
     let direct := fmtIsInt d.fmtD && p.direct
     let sArr := (if p.sMode = 1 ∧ direct = false then u.scratchRead core p.sAddr (4 * d.n) (.core core k.guest) else (0, u)).1
     let sa := (if p.sMode = 1 ∧ direct = false then u.scratchRead core p.sAddr (4 * d.n) (.core core k.guest) else (0, u)).2
     let bArr := (if direct then (0, sa) else if p.bMode = 1 then sa.scratchRead core p.bAddr (2 * d.n) (.core core k.guest) else if p.bMode = 2 then sa.scratchRead core p.bAddr (4 * d.n) (.core core k.guest) else (0, sa)).1
     let sb := (if direct then (0, sa) else if p.bMode = 1 then sa.scratchRead core p.bAddr (2 * d.n) (.core core k.guest) else if p.bMode = 2 then sa.scratchRead core p.bAddr (4 * d.n) (.core core k.guest) else (0, sa)).2
     [(decide ((s.core core).kernel = some k)),
      (decide (c.drain = none)),
      (decide (c.drainq = (due, it) :: rest)),
      (decide (start ≤ cc)),
      (decide ((if p.sMode = 1 ∧ direct = false then u.scratchRead core p.sAddr (4 * d.n) (.core core k.guest) else (0, u)) = (sArr, sa))),
      (decide ((if direct then (0, sa) else if p.bMode = 1 then sa.scratchRead core p.bAddr (2 * d.n) (.core core k.guest)
                 else if p.bMode = 2 then sa.scratchRead core p.bAddr (4 * d.n) (.core core k.guest) else (0, sa)) = (bArr, sb)))].all id) = true ∧
    (let s : State := at5 { busy5 with drain := some ⟨0, (⟨0, 0, (({ mat1 with drain := true, sigEn := true, sigSo := 7 }) : Mat).toBuf, 0, none⟩ : Item), [(128, 0x3F800000, 32)], true, false, false, true, 2, 400⟩ }
     let at_ : Nat := 1000
     let core : Nat := 5
     let k : Kernel := kern
     let t := s.tick at_
     let c := t.core core
     let cc := t.dieCc (core / 16)
     let dr := (⟨0, (⟨0, 0, (({ mat1 with drain := true, sigEn := true, sigSo := 7 }) : Mat).toBuf, 0, none⟩ : Item), [(128, 0x3F800000, 32)], true, false, false, true, 2, 400⟩ : Drain)
     [(decide ((s.core core).kernel = some k)),
      (decide (c.drain = some dr)),
      (decide (dr.doneCc ≤ cc))].all id) = true := by
  refine ⟨?_, ?_, ?_, ?_, ?_, ?_, ?_⟩ <;> decide +kernel

/-- Each clause of `CoreDmaAndBlocksComplete` has a state and operands that meet its hypotheses. -/
theorem witness_CoreDmaAndBlocksComplete :
    (let s : State := ({ at5 { busy5 with dq := [(⟨0, 1, dma1 , 7, none⟩ : Item)] } with scratch := ⟨(List.range 40).map fun i => (5 * 0x600000 + i, BitVec.ofNat 8 (60 + i % 5)), []⟩ } : State)
     let at_ : Nat := 1000
     let core : Nat := 5
     let k : Kernel := kern
     let t := s.tick at_
     let c := t.core core
     let strikes := ([⟨.scratch 5 0, 1, 3⟩] : List Strike)
     let z := (t.strike strikes)
     let c := (z.core core)
     let it := (⟨0, 1, dma1 , 7, none⟩ : Item)
     [(decide ((s.core core).kernel = some k)),
      (decide (nextItem c.dq = some it))].all id) = true ∧
    (let s : State := at5 { busy5 with dq := [(⟨0, 1, dma1 true, 7, some 7⟩ : Item)] }
     let at_ : Nat := 1000
     let core : Nat := 5
     let k : Kernel := kern
     let t := s.tick at_
     let c := t.core core
     let cc := t.dieCc (core / 16)
     let it := (⟨0, 1, dma1 true, 7, some 7⟩ : Item)
     [(decide ((s.core core).kernel = some k)),
      (decide (c.dq.find? (fun it => it.startCc.isSome && decide (it.issueCc + (CoreDma.ofBuf it.body).cycles ≤ cc)) = some it))].all id) = true ∧
    (let s : State := at5 { busy5 with vq := [(⟨0, 0, vblk [vecWord 0x7F ⟨0, 0, 0, 0, 0, 0⟩] 1, 0, none⟩ : Item)] }
     let at_ : Nat := 1000
     let core : Nat := 5
     let k : Kernel := kern
     let t := s.tick at_
     let c := t.core core
     let it := (⟨0, 0, vblk [vecWord 0x7F ⟨0, 0, 0, 0, 0, 0⟩] 1, 0, none⟩ : Item)
     let rest := []
     [(decide ((s.core core).kernel = some k)),
      (decide (c.vact = none)),
      (decide (c.vq = it :: rest))].all id) = true ∧
    (let s : State := at5 { busy5 with vact := some ((⟨0, 0, vblk [vecWord 0x7F ⟨0, 0, 0, 0, 0, 0⟩] 1, 0, none⟩ : Item), ⟨0, 2, 2⟩), v := { VState.reset with fClip := true } }
     let at_ : Nat := 1000
     let core : Nat := 5
     let k : Kernel := kern
     let t := s.tick at_
     let c := t.core core
     let it := (⟨0, 0, vblk [vecWord 0x7F ⟨0, 0, 0, 0, 0, 0⟩] 1, 0, none⟩ : Item)
     let b := ⟨0, 2, 2⟩
     [(decide ((s.core core).kernel = some k)),
      (decide (c.vact = some (it, b))),
      (decide (vbTotal it.body ≤ b.done))].all id) = true := by
  refine ⟨?_, ?_, ?_, ?_⟩ <;> decide +kernel

/-- Each clause of `VectorArithmeticCompletes` has a state and operands that meet its hypotheses. -/
theorem witness_VectorArithmeticCompletes :
    (let s : State := vecOn 0x1 ⟨2, 0, 1, 0, 0, 0⟩ (ts := 0)
     let at_ : Nat := 1000
     let core : Nat := 5
     let f : VFields := ⟨2, 0, 1, 0, 0, 0⟩
     let k : Kernel := kern
     let it : Item := (⟨0, 1, vblk [vecWord 0x1 ⟨2, 0, 1, 0, 0, 0⟩] 3 2 0, 7, some 8⟩ : Item)
     let b : VBlock := ⟨0, 1, 1⟩
     let t := s.tick at_
     [(decide (t.runsVec core 0x1 f k it b = true))].all id) = true ∧
    (let s : State := vecOn 0x2 ⟨2, 0, 1, 0, 0, 0⟩ (ts := 0)
     let at_ : Nat := 1000
     let core : Nat := 5
     let f : VFields := ⟨2, 0, 1, 0, 0, 0⟩
     let k : Kernel := kern
     let it : Item := (⟨0, 1, vblk [vecWord 0x2 ⟨2, 0, 1, 0, 0, 0⟩] 3 2 0, 7, some 8⟩ : Item)
     let b : VBlock := ⟨0, 1, 1⟩
     let t := s.tick at_
     [(decide (t.runsVec core 0x2 f k it b = true))].all id) = true ∧
    (let s : State := vecOn 0x3 ⟨2, 0, 1, 0, 0, 0⟩ (ts := 0)
     let at_ : Nat := 1000
     let core : Nat := 5
     let f : VFields := ⟨2, 0, 1, 0, 0, 0⟩
     let k : Kernel := kern
     let it : Item := (⟨0, 1, vblk [vecWord 0x3 ⟨2, 0, 1, 0, 0, 0⟩] 3 2 0, 7, some 8⟩ : Item)
     let b : VBlock := ⟨0, 1, 1⟩
     let t := s.tick at_
     [(decide (t.runsVec core 0x3 f k it b = true))].all id) = true ∧
    (let s : State := vecOn 0x4 ⟨2, 0, 1, 0, 0, 0⟩ (ts := 0)
     let at_ : Nat := 1000
     let core : Nat := 5
     let f : VFields := ⟨2, 0, 1, 0, 0, 0⟩
     let k : Kernel := kern
     let it : Item := (⟨0, 1, vblk [vecWord 0x4 ⟨2, 0, 1, 0, 0, 0⟩] 3 2 0, 7, some 8⟩ : Item)
     let b : VBlock := ⟨0, 1, 1⟩
     let t := s.tick at_
     [(decide (t.runsVec core 0x4 f k it b = true))].all id) = true ∧
    (let s : State := vecOn 0x5 ⟨2, 0, 1, 0, 0, 0⟩ (ts := 0)
     let at_ : Nat := 1000
     let core : Nat := 5
     let f : VFields := ⟨2, 0, 1, 0, 0, 0⟩
     let k : Kernel := kern
     let it : Item := (⟨0, 1, vblk [vecWord 0x5 ⟨2, 0, 1, 0, 0, 0⟩] 3 2 0, 7, some 8⟩ : Item)
     let b : VBlock := ⟨0, 1, 1⟩
     let t := s.tick at_
     [(decide (t.runsVec core 0x5 f k it b = true))].all id) = true ∧
    (let s : State := vecOn 0x6 ⟨2, 0, 1, 0, 0, 0⟩ (ts := 0)
     let at_ : Nat := 1000
     let core : Nat := 5
     let f : VFields := ⟨2, 0, 1, 0, 0, 0⟩
     let k : Kernel := kern
     let it : Item := (⟨0, 1, vblk [vecWord 0x6 ⟨2, 0, 1, 0, 0, 0⟩] 3 2 0, 7, some 8⟩ : Item)
     let b : VBlock := ⟨0, 1, 1⟩
     let t := s.tick at_
     [(decide (t.runsVec core 0x6 f k it b = true))].all id) = true ∧
    (let s : State := vecOn 0x7 ⟨2, 0, 1, 0, 0, 0⟩ (ts := 0)
     let at_ : Nat := 1000
     let core : Nat := 5
     let f : VFields := ⟨2, 0, 1, 0, 0, 0⟩
     let k : Kernel := kern
     let it : Item := (⟨0, 1, vblk [vecWord 0x7 ⟨2, 0, 1, 0, 0, 0⟩] 3 2 0, 7, some 8⟩ : Item)
     let b : VBlock := ⟨0, 1, 1⟩
     let t := s.tick at_
     [(decide (t.runsVec core 0x7 f k it b = true))].all id) = true ∧
    (let s : State := vecOn 0x8 ⟨2, 0, 1, 0, 0, 0⟩ (ts := 0)
     let at_ : Nat := 1000
     let core : Nat := 5
     let f : VFields := ⟨2, 0, 1, 0, 0, 0⟩
     let k : Kernel := kern
     let it : Item := (⟨0, 1, vblk [vecWord 0x8 ⟨2, 0, 1, 0, 0, 0⟩] 3 2 0, 7, some 8⟩ : Item)
     let b : VBlock := ⟨0, 1, 1⟩
     let t := s.tick at_
     [(decide (t.runsVec core 0x8 f k it b = true))].all id) = true ∧
    (let s : State := vecOn 0x9 ⟨3, 0, 1, 0, 0, 0⟩ (ts := 0)
     let at_ : Nat := 1000
     let core : Nat := 5
     let f : VFields := ⟨3, 0, 1, 0, 0, 0⟩
     let k : Kernel := kern
     let it : Item := (⟨0, 1, vblk [vecWord 0x9 ⟨3, 0, 1, 0, 0, 0⟩] 3 2 0, 7, some 8⟩ : Item)
     let b : VBlock := ⟨0, 1, 1⟩
     let t := s.tick at_
     [(decide (t.runsVec core 0x9 f k it b = true))].all id) = true ∧
    (let s : State := vecOn 0xa ⟨3, 0, 1, 0, 0, 0⟩ (ts := 0)
     let at_ : Nat := 1000
     let core : Nat := 5
     let f : VFields := ⟨3, 0, 1, 0, 0, 0⟩
     let k : Kernel := kern
     let it : Item := (⟨0, 1, vblk [vecWord 0xa ⟨3, 0, 1, 0, 0, 0⟩] 3 2 0, 7, some 8⟩ : Item)
     let b : VBlock := ⟨0, 1, 1⟩
     let t := s.tick at_
     [(decide (t.runsVec core 0xa f k it b = true))].all id) = true ∧
    (let s : State := vecOn 0xb ⟨3, 0, 1, 0, 0, 0⟩ (ts := 0)
     let at_ : Nat := 1000
     let core : Nat := 5
     let f : VFields := ⟨3, 0, 1, 0, 0, 0⟩
     let k : Kernel := kern
     let it : Item := (⟨0, 1, vblk [vecWord 0xb ⟨3, 0, 1, 0, 0, 0⟩] 3 2 0, 7, some 8⟩ : Item)
     let b : VBlock := ⟨0, 1, 1⟩
     let t := s.tick at_
     [(decide (t.runsVec core 0xb f k it b = true))].all id) = true ∧
    (let s : State := vecOn 0xc ⟨2, 0, 1, 0, 0, 0⟩ (ts := 0)
     let at_ : Nat := 1000
     let core : Nat := 5
     let f : VFields := ⟨2, 0, 1, 0, 0, 0⟩
     let k : Kernel := kern
     let it : Item := (⟨0, 1, vblk [vecWord 0xc ⟨2, 0, 1, 0, 0, 0⟩] 3 2 0, 7, some 8⟩ : Item)
     let b : VBlock := ⟨0, 1, 1⟩
     let t := s.tick at_
     [(decide (t.runsVec core 0xc f k it b = true))].all id) = true ∧
    (let s : State := vecOn 0x10 ⟨2, 0, 1, 0, 0, 0⟩ (ts := 0)
     let at_ : Nat := 1000
     let core : Nat := 5
     let f : VFields := ⟨2, 0, 1, 0, 0, 0⟩
     let k : Kernel := kern
     let it : Item := (⟨0, 1, vblk [vecWord 0x10 ⟨2, 0, 1, 0, 0, 0⟩] 3 2 0, 7, some 8⟩ : Item)
     let b : VBlock := ⟨0, 1, 1⟩
     let t := s.tick at_
     [(decide (t.runsVec core 0x10 f k it b = true))].all id) = true ∧
    (let s : State := vecOn 0x11 ⟨2, 0, 1, 0, 0, 0⟩ (ts := 0)
     let at_ : Nat := 1000
     let core : Nat := 5
     let f : VFields := ⟨2, 0, 1, 0, 0, 0⟩
     let k : Kernel := kern
     let it : Item := (⟨0, 1, vblk [vecWord 0x11 ⟨2, 0, 1, 0, 0, 0⟩] 3 2 0, 7, some 8⟩ : Item)
     let b : VBlock := ⟨0, 1, 1⟩
     let t := s.tick at_
     [(decide (t.runsVec core 0x11 f k it b = true))].all id) = true ∧
    (let s : State := vecOn 0x12 ⟨2, 0, 1, 0, 0, 0⟩ (ts := 0)
     let at_ : Nat := 1000
     let core : Nat := 5
     let f : VFields := ⟨2, 0, 1, 0, 0, 0⟩
     let k : Kernel := kern
     let it : Item := (⟨0, 1, vblk [vecWord 0x12 ⟨2, 0, 1, 0, 0, 0⟩] 3 2 0, 7, some 8⟩ : Item)
     let b : VBlock := ⟨0, 1, 1⟩
     let t := s.tick at_
     [(decide (t.runsVec core 0x12 f k it b = true))].all id) = true ∧
    (let s : State := vecOn 0x13 ⟨2, 0, 1, 0, 0, 0⟩ (ts := 0)
     let at_ : Nat := 1000
     let core : Nat := 5
     let f : VFields := ⟨2, 0, 1, 0, 0, 0⟩
     let k : Kernel := kern
     let it : Item := (⟨0, 1, vblk [vecWord 0x13 ⟨2, 0, 1, 0, 0, 0⟩] 3 2 0, 7, some 8⟩ : Item)
     let b : VBlock := ⟨0, 1, 1⟩
     let t := s.tick at_
     [(decide (t.runsVec core 0x13 f k it b = true))].all id) = true ∧
    (let s : State := vecOn 0x18 ⟨2, 0, 1, 0, 0, 0⟩ (ts := 0)
     let at_ : Nat := 1000
     let core : Nat := 5
     let f : VFields := ⟨2, 0, 1, 0, 0, 0⟩
     let k : Kernel := kern
     let it : Item := (⟨0, 1, vblk [vecWord 0x18 ⟨2, 0, 1, 0, 0, 0⟩] 3 2 0, 7, some 8⟩ : Item)
     let b : VBlock := ⟨0, 1, 1⟩
     let t := s.tick at_
     [(decide (t.runsVec core 0x18 f k it b = true))].all id) = true ∧
    (let s : State := vecOn 0x19 ⟨2, 0, 1, 0, 0, 0⟩ (ts := 0)
     let at_ : Nat := 1000
     let core : Nat := 5
     let f : VFields := ⟨2, 0, 1, 0, 0, 0⟩
     let k : Kernel := kern
     let it : Item := (⟨0, 1, vblk [vecWord 0x19 ⟨2, 0, 1, 0, 0, 0⟩] 3 2 0, 7, some 8⟩ : Item)
     let b : VBlock := ⟨0, 1, 1⟩
     let t := s.tick at_
     [(decide (t.runsVec core 0x19 f k it b = true))].all id) = true ∧
    (let s : State := vecOn 0x20 ⟨2, 0, 1, 0, 0, 0⟩ (ts := 0)
     let at_ : Nat := 1000
     let core : Nat := 5
     let f : VFields := ⟨2, 0, 1, 0, 0, 0⟩
     let k : Kernel := kern
     let it : Item := (⟨0, 1, vblk [vecWord 0x20 ⟨2, 0, 1, 0, 0, 0⟩] 3 2 0, 7, some 8⟩ : Item)
     let b : VBlock := ⟨0, 1, 1⟩
     let t := s.tick at_
     [(decide (t.runsVec core 0x20 f k it b = true))].all id) = true ∧
    (let s : State := vecOn 0x21 ⟨2, 0, 1, 0, 0, 0⟩ (ts := 0)
     let at_ : Nat := 1000
     let core : Nat := 5
     let f : VFields := ⟨2, 0, 1, 0, 0, 0⟩
     let k : Kernel := kern
     let it : Item := (⟨0, 1, vblk [vecWord 0x21 ⟨2, 0, 1, 0, 0, 0⟩] 3 2 0, 7, some 8⟩ : Item)
     let b : VBlock := ⟨0, 1, 1⟩
     let t := s.tick at_
     [(decide (t.runsVec core 0x21 f k it b = true))].all id) = true ∧
    (let s : State := vecOn 0x22 ⟨2, 0, 1, 0, 0, 0⟩ (ts := 0)
     let at_ : Nat := 1000
     let core : Nat := 5
     let f : VFields := ⟨2, 0, 1, 0, 0, 0⟩
     let k : Kernel := kern
     let it : Item := (⟨0, 1, vblk [vecWord 0x22 ⟨2, 0, 1, 0, 0, 0⟩] 3 2 0, 7, some 8⟩ : Item)
     let b : VBlock := ⟨0, 1, 1⟩
     let t := s.tick at_
     [(decide (t.runsVec core 0x22 f k it b = true))].all id) = true ∧
    (let s : State := vecOn 0x23 ⟨2, 0, 1, 0, 0, 0⟩ (ts := 0)
     let at_ : Nat := 1000
     let core : Nat := 5
     let f : VFields := ⟨2, 0, 1, 0, 0, 0⟩
     let k : Kernel := kern
     let it : Item := (⟨0, 1, vblk [vecWord 0x23 ⟨2, 0, 1, 0, 0, 0⟩] 3 2 0, 7, some 8⟩ : Item)
     let b : VBlock := ⟨0, 1, 1⟩
     let t := s.tick at_
     [(decide (t.runsVec core 0x23 f k it b = true))].all id) = true ∧
    (let s : State := vecOn 0x24 ⟨2, 0, 1, 0, 0, 0⟩ (ts := 0)
     let at_ : Nat := 1000
     let core : Nat := 5
     let f : VFields := ⟨2, 0, 1, 0, 0, 0⟩
     let k : Kernel := kern
     let it : Item := (⟨0, 1, vblk [vecWord 0x24 ⟨2, 0, 1, 0, 0, 0⟩] 3 2 0, 7, some 8⟩ : Item)
     let b : VBlock := ⟨0, 1, 1⟩
     let t := s.tick at_
     [(decide (t.runsVec core 0x24 f k it b = true))].all id) = true ∧
    (let s : State := vecOn 0x25 ⟨2, 0, 1, 0, 0, 0⟩ (ts := 0)
     let at_ : Nat := 1000
     let core : Nat := 5
     let f : VFields := ⟨2, 0, 1, 0, 0, 0⟩
     let k : Kernel := kern
     let it : Item := (⟨0, 1, vblk [vecWord 0x25 ⟨2, 0, 1, 0, 0, 0⟩] 3 2 0, 7, some 8⟩ : Item)
     let b : VBlock := ⟨0, 1, 1⟩
     let t := s.tick at_
     [(decide (t.runsVec core 0x25 f k it b = true))].all id) = true ∧
    (let s : State := vecOn 0x26 ⟨2, 0, 1, 0, 0, 0⟩ (ts := 0)
     let at_ : Nat := 1000
     let core : Nat := 5
     let f : VFields := ⟨2, 0, 1, 0, 0, 0⟩
     let k : Kernel := kern
     let it : Item := (⟨0, 1, vblk [vecWord 0x26 ⟨2, 0, 1, 0, 0, 0⟩] 3 2 0, 7, some 8⟩ : Item)
     let b : VBlock := ⟨0, 1, 1⟩
     let t := s.tick at_
     [(decide (t.runsVec core 0x26 f k it b = true))].all id) = true ∧
    (let s : State := vecOn 0x27 ⟨2, 0, 1, 0, 0, 0⟩ (ts := 0)
     let at_ : Nat := 1000
     let core : Nat := 5
     let f : VFields := ⟨2, 0, 1, 0, 0, 0⟩
     let k : Kernel := kern
     let it : Item := (⟨0, 1, vblk [vecWord 0x27 ⟨2, 0, 1, 0, 0, 0⟩] 3 2 0, 7, some 8⟩ : Item)
     let b : VBlock := ⟨0, 1, 1⟩
     let t := s.tick at_
     [(decide (t.runsVec core 0x27 f k it b = true))].all id) = true ∧
    (let s : State := vecOn 0x28 ⟨2, 0, 1, 0, 0, 0⟩ (ts := 0)
     let at_ : Nat := 1000
     let core : Nat := 5
     let f : VFields := ⟨2, 0, 1, 0, 0, 0⟩
     let k : Kernel := kern
     let it : Item := (⟨0, 1, vblk [vecWord 0x28 ⟨2, 0, 1, 0, 0, 0⟩] 3 2 0, 7, some 8⟩ : Item)
     let b : VBlock := ⟨0, 1, 1⟩
     let t := s.tick at_
     [(decide (t.runsVec core 0x28 f k it b = true))].all id) = true ∧
    (let s : State := vecOn 0x29 ⟨2, 0, 1, 0, 0, 1065353219⟩ (ts := 0)
     let at_ : Nat := 1000
     let core : Nat := 5
     let f : VFields := ⟨2, 0, 1, 0, 0, 1065353219⟩
     let k : Kernel := kern
     let it : Item := (⟨0, 1, vblk [vecWord 0x29 ⟨2, 0, 1, 0, 0, 1065353219⟩] 3 2 0, 7, some 8⟩ : Item)
     let b : VBlock := ⟨0, 1, 1⟩
     let t := s.tick at_
     [(decide (t.runsVec core 0x29 f k it b = true))].all id) = true := by
  refine ⟨?_, ?_, ?_, ?_, ?_, ?_, ?_, ?_, ?_, ?_, ?_, ?_, ?_, ?_, ?_, ?_, ?_, ?_, ?_, ?_, ?_, ?_, ?_, ?_, ?_, ?_, ?_, ?_⟩ <;> decide +kernel

/-- Each clause of `VectorMovesAndChannelsComplete` has a state and operands that meet its hypotheses. -/
theorem witness_VectorMovesAndChannelsComplete :
    (let s : State := vecOn 0x30 ⟨2, 0, 1, 0, 1, 5⟩ (ts := 0)
     let at_ : Nat := 1000
     let core : Nat := 5
     let f : VFields := ⟨2, 0, 1, 0, 1, 5⟩
     let k : Kernel := kern
     let it : Item := (⟨0, 1, vblk [vecWord 0x30 ⟨2, 0, 1, 0, 1, 5⟩] 3 2 0, 7, some 8⟩ : Item)
     let b : VBlock := ⟨0, 1, 1⟩
     let t := s.tick at_
     [(decide (t.runsVec core 0x30 f k it b = true))].all id) = true ∧
    (let s : State := vecOn 0x31 ⟨2, 0, 1, 0, 1, 5⟩ (ts := 0)
     let at_ : Nat := 1000
     let core : Nat := 5
     let f : VFields := ⟨2, 0, 1, 0, 1, 5⟩
     let k : Kernel := kern
     let it : Item := (⟨0, 1, vblk [vecWord 0x31 ⟨2, 0, 1, 0, 1, 5⟩] 3 2 0, 7, some 8⟩ : Item)
     let b : VBlock := ⟨0, 1, 1⟩
     let t := s.tick at_
     [(decide (t.runsVec core 0x31 f k it b = true))].all id) = true ∧
    (let s : State := vecOn 0x32 ⟨2, 0, 1, 0, 1, 5⟩ (ts := 0)
     let at_ : Nat := 1000
     let core : Nat := 5
     let f : VFields := ⟨2, 0, 1, 0, 1, 5⟩
     let k : Kernel := kern
     let it : Item := (⟨0, 1, vblk [vecWord 0x32 ⟨2, 0, 1, 0, 1, 5⟩] 3 2 0, 7, some 8⟩ : Item)
     let b : VBlock := ⟨0, 1, 1⟩
     let t := s.tick at_
     [(decide (t.runsVec core 0x32 f k it b = true))].all id) = true ∧
    (let s : State := vecOn 0x50 ⟨2, 0, 1, 0, 1, 5⟩ (ts := 0)
     let at_ : Nat := 1000
     let core : Nat := 5
     let f : VFields := ⟨2, 0, 1, 0, 1, 5⟩
     let k : Kernel := kern
     let it : Item := (⟨0, 1, vblk [vecWord 0x50 ⟨2, 0, 1, 0, 1, 5⟩] 3 2 0, 7, some 8⟩ : Item)
     let b : VBlock := ⟨0, 1, 1⟩
     let t := s.tick at_
     [(decide (t.runsVec core 0x50 f k it b = true))].all id) = true ∧
    (let s : State := vecOn 0x53 ⟨2, 0, 1, 0, 1, 5⟩ (ts := 0)
     let at_ : Nat := 1000
     let core : Nat := 5
     let f : VFields := ⟨2, 0, 1, 0, 1, 5⟩
     let k : Kernel := kern
     let it : Item := (⟨0, 1, vblk [vecWord 0x53 ⟨2, 0, 1, 0, 1, 5⟩] 3 2 0, 7, some 8⟩ : Item)
     let b : VBlock := ⟨0, 1, 1⟩
     let t := s.tick at_
     [(decide (t.runsVec core 0x53 f k it b = true))].all id) = true ∧
    (let s : State := ({ vecOn 0x40 ⟨2, 1, 0, 0, 1, 8⟩ (ts := 0) with scratch := ⟨(List.range 400).map fun i => (5 * 0x600000 + i, BitVec.ofNat 8 (60 + i % 5)), []⟩ } : State)
     let at_ : Nat := 1000
     let core : Nat := 5
     let f : VFields := ⟨2, 1, 0, 0, 1, 8⟩
     let k : Kernel := kern
     let it : Item := (⟨0, 1, vblk [vecWord 0x40 ⟨2, 1, 0, 0, 1, 8⟩] 3 2 0, 7, some 8⟩ : Item)
     let b : VBlock := ⟨0, 1, 1⟩
     let t := s.tick at_
     let addr := f.imm + (if f.va % 2 = 1 then b.done / vbIcount it.body * vbAdv it.body * 64 else 0)
     let d := (t.scratchRead core addr 256 (.core core k.guest)).1
     let u := (t.scratchRead core addr 256 (.core core k.guest)).2
     [(decide (t.runsVec core 0x40 f k it b = true)),
      (decide (t.scratchRead core addr 256 (.core core k.guest) = (d, u)))].all id) = true ∧
    (let s : State := vecOn 0x41 ⟨0, 1, 0, 0, 1, 8⟩ (ts := 0)
     let at_ : Nat := 1000
     let core : Nat := 5
     let f : VFields := ⟨0, 1, 0, 0, 1, 8⟩
     let k : Kernel := kern
     let it : Item := (⟨0, 1, vblk [vecWord 0x41 ⟨0, 1, 0, 0, 1, 8⟩] 3 2 0, 7, some 8⟩ : Item)
     let b : VBlock := ⟨0, 1, 1⟩
     let t := s.tick at_
     [(decide (t.runsVec core 0x41 f k it b = true))].all id) = true ∧
    (let s : State := ({ vecOn 0x42 ⟨4, 0, 0, 0, 0, 64⟩ (ts := 1) with scratch := ⟨(List.range 400).map fun i => (5 * 0x600000 + i, BitVec.ofNat 8 (60 + i % 5)), []⟩ } : State)
     let at_ : Nat := 1000
     let core : Nat := 5
     let f : VFields := ⟨4, 0, 0, 0, 0, 64⟩
     let k : Kernel := kern
     let it : Item := (⟨0, 1, vblk [vecWord 0x42 ⟨4, 0, 0, 0, 0, 64⟩] 3 2 1, 7, some 8⟩ : Item)
     let b : VBlock := ⟨0, 1, 1⟩
     let t := s.tick at_
     let addr := f.imm + (if f.va % 2 = 1 then b.done / vbIcount it.body * vbAdv it.body * 64 else 0)
     let rows := (t.scratchRows core ⟨addr, vbTs it.body * 64, 64, 16⟩ (.core core k.guest)).1
     let u := (t.scratchRows core ⟨addr, vbTs it.body * 64, 64, 16⟩ (.core core k.guest)).2
     [(decide (t.runsVec core 0x42 f k it b = true)),
      (decide (t.scratchRows core ⟨addr, vbTs it.body * 64, 64, 16⟩ (.core core k.guest) = (rows, u)))].all id) = true ∧
    (let s : State := vecOn 0x43 ⟨0, 0, 0, 0, 1, 64⟩ (ts := 3)
     let at_ : Nat := 1000
     let core : Nat := 5
     let f : VFields := ⟨0, 0, 0, 0, 1, 64⟩
     let k : Kernel := kern
     let it : Item := (⟨0, 1, vblk [vecWord 0x43 ⟨0, 0, 0, 0, 1, 64⟩] 3 2 3, 7, some 8⟩ : Item)
     let b : VBlock := ⟨0, 1, 1⟩
     let t := s.tick at_
     [(decide (t.runsVec core 0x43 f k it b = true))].all id) = true ∧
    (let s : State := (vecOn 0x51 ⟨0, 0, 0, 0, 0, 1⟩ (ts := 0)).onCore 5 fun c => { c with v := c.v.setChan 1 ⟨2 ^ 150, 0, 2 ^ 40 - 64⟩ }
     let at_ : Nat := 1000
     let core : Nat := 5
     let f : VFields := ⟨0, 0, 0, 0, 0, 1⟩
     let k : Kernel := kern
     let it : Item := (⟨0, 1, vblk [vecWord 0x51 ⟨0, 0, 0, 0, 0, 1⟩] 3 2 0, 7, some 8⟩ : Item)
     let b : VBlock := ⟨0, 1, 1⟩
     let t := s.tick at_
     let v := (t.core core).v
     let ch := v.chan (bits f.imm 0 2)
     let d := (v.sumElems f false).foldl Channel.add ch
     [(decide (t.runsVec core 0x51 f k it b = true)),
      (decide (d.count ≤ 2 ^ 40))].all id) = true ∧
    (let s : State := (vecOn 0x51 ⟨0, 0, 0, 0, 0, 1⟩ (ts := 0)).onCore 5 fun c => { c with v := c.v.setChan 1 ⟨2 ^ 150, 0, 2 ^ 40 - 5⟩ }
     let at_ : Nat := 1000
     let core : Nat := 5
     let f : VFields := ⟨0, 0, 0, 0, 0, 1⟩
     let k : Kernel := kern
     let it : Item := (⟨0, 1, vblk [vecWord 0x51 ⟨0, 0, 0, 0, 0, 1⟩] 3 2 0, 7, some 8⟩ : Item)
     let b : VBlock := ⟨0, 1, 1⟩
     let t := s.tick at_
     let v := (t.core core).v
     let ch := v.chan (bits f.imm 0 2)
     let d := (v.sumElems f false).foldl Channel.add ch
     [(decide (t.runsVec core 0x51 f k it b = true)),
      (decide (2 ^ 40 < d.count))].all id) = true ∧
    (let s : State := (vecOn 0x52 ⟨0, 0, 0, 0, 0, 1⟩ (ts := 0)).onCore 5 fun c => { c with v := c.v.setChan 1 ⟨2 ^ 150, 0, 2 ^ 40 - 64⟩ }
     let at_ : Nat := 1000
     let core : Nat := 5
     let f : VFields := ⟨0, 0, 0, 0, 0, 1⟩
     let k : Kernel := kern
     let it : Item := (⟨0, 1, vblk [vecWord 0x52 ⟨0, 0, 0, 0, 0, 1⟩] 3 2 0, 7, some 8⟩ : Item)
     let b : VBlock := ⟨0, 1, 1⟩
     let t := s.tick at_
     let v := (t.core core).v
     let ch := v.chan (bits f.imm 0 2)
     let d := (v.sumElems f true).foldl Channel.add ch
     [(decide (t.runsVec core 0x52 f k it b = true)),
      (decide (d.count ≤ 2 ^ 40))].all id) = true ∧
    (let s : State := (vecOn 0x52 ⟨0, 0, 0, 0, 0, 1⟩ (ts := 0)).onCore 5 fun c => { c with v := c.v.setChan 1 ⟨2 ^ 150, 0, 2 ^ 40 - 5⟩ }
     let at_ : Nat := 1000
     let core : Nat := 5
     let f : VFields := ⟨0, 0, 0, 0, 0, 1⟩
     let k : Kernel := kern
     let it : Item := (⟨0, 1, vblk [vecWord 0x52 ⟨0, 0, 0, 0, 0, 1⟩] 3 2 0, 7, some 8⟩ : Item)
     let b : VBlock := ⟨0, 1, 1⟩
     let t := s.tick at_
     let v := (t.core core).v
     let ch := v.chan (bits f.imm 0 2)
     let d := (v.sumElems f true).foldl Channel.add ch
     [(decide (t.runsVec core 0x52 f k it b = true)),
      (decide (2 ^ 40 < d.count))].all id) = true ∧
    (let s : State := (vecOn 0x54 ⟨0, 0, 0, 0, 0, 65⟩ (ts := 0)).onCore 5 fun c => { c with v := c.v.setChan 1 ⟨2 ^ 150, 0, 2 ^ 40 - 64⟩ }
     let at_ : Nat := 1000
     let core : Nat := 5
     let f : VFields := ⟨0, 0, 0, 0, 0, 65⟩
     let k : Kernel := kern
     let it : Item := (⟨0, 1, vblk [vecWord 0x54 ⟨0, 0, 0, 0, 0, 65⟩] 3 2 0, 7, some 8⟩ : Item)
     let b : VBlock := ⟨0, 1, 1⟩
     let t := s.tick at_
     [(decide (t.runsVec core 0x54 f k it b = true))].all id) = true ∧
    (let s : State := (vecOn 0x55 ⟨0, 0, 0, 0, 0, 65⟩ (ts := 0)).onCore 5 fun c => { c with v := c.v.setChan 1 ⟨2 ^ 150, 0, 2 ^ 40 - 64⟩ }
     let at_ : Nat := 1000
     let core : Nat := 5
     let f : VFields := ⟨0, 0, 0, 0, 0, 65⟩
     let k : Kernel := kern
     let it : Item := (⟨0, 1, vblk [vecWord 0x55 ⟨0, 0, 0, 0, 0, 65⟩] 3 2 0, 7, some 8⟩ : Item)
     let b : VBlock := ⟨0, 1, 1⟩
     let t := s.tick at_
     let v := (t.core core).v
     let d := (t.scratchRead core (f.imm / 64 * 64) 48 (.core core k.guest)).1
     let u := (t.scratchRead core (f.imm / 64 * 64) 48 (.core core k.guest)).2
     let e := ((u.core core).v.chan (bits f.imm 0 2)).join (Channel.ofRecord d)
     [(decide (t.runsVec core 0x55 f k it b = true)),
      (decide (t.scratchRead core (f.imm / 64 * 64) 48 (.core core k.guest) = (d, u))),
      (decide (e.count ≤ 2 ^ 40))].all id) = true ∧
    (let s : State := ({ (vecOn 0x55 ⟨0, 0, 0, 0, 0, 65⟩ (ts := 0)).onCore 5 fun c => { c with v := c.v.setChan 1 ⟨2 ^ 150, 0, 2 ^ 40 - 5⟩ } with scratch := ⟨[(5 * 0x600000 + 64 + 40, 6), (5 * 0x600000 + 64 + 41, 6)], []⟩ } : State)
     let at_ : Nat := 1000
     let core : Nat := 5
     let f : VFields := ⟨0, 0, 0, 0, 0, 65⟩
     let k : Kernel := kern
     let it : Item := (⟨0, 1, vblk [vecWord 0x55 ⟨0, 0, 0, 0, 0, 65⟩] 3 2 0, 7, some 8⟩ : Item)
     let b : VBlock := ⟨0, 1, 1⟩
     let t := s.tick at_
     let v := (t.core core).v
     let d := (t.scratchRead core (f.imm / 64 * 64) 48 (.core core k.guest)).1
     let u := (t.scratchRead core (f.imm / 64 * 64) 48 (.core core k.guest)).2
     let e := ((u.core core).v.chan (bits f.imm 0 2)).join (Channel.ofRecord d)
     [(decide (t.runsVec core 0x55 f k it b = true)),
      (decide (t.scratchRead core (f.imm / 64 * 64) 48 (.core core k.guest) = (d, u))),
      (decide (2 ^ 40 < e.count))].all id) = true ∧
    (let s : State := vecOn 0x60 ⟨2, 0, 0, 0, 1, 2⟩ (ts := 0)
     let at_ : Nat := 1000
     let core : Nat := 5
     let f : VFields := ⟨2, 0, 0, 0, 1, 2⟩
     let k : Kernel := kern
     let it : Item := (⟨0, 1, vblk [vecWord 0x60 ⟨2, 0, 0, 0, 1, 2⟩] 3 2 0, 7, some 8⟩ : Item)
     let b : VBlock := ⟨0, 1, 1⟩
     let t := s.tick at_
     [(decide (t.runsVec core 0x60 f k it b = true))].all id) = true ∧
    (let s : State := ({ vecOn 0x70 ⟨0, 0, 0, 0, 0, 65545⟩ (ts := 0) with sos := [(9, ⟨3, 1, false⟩)] } : State)
     let at_ : Nat := 1000
     let core : Nat := 5
     let f : VFields := ⟨0, 0, 0, 0, 0, 65545⟩
     let k : Kernel := kern
     let it : Item := (⟨0, 1, vblk [vecWord 0x70 ⟨0, 0, 0, 0, 0, 65545⟩] 3 2 0, 7, some 8⟩ : Item)
     let b : VBlock := ⟨0, 1, 1⟩
     let t := s.tick at_
     [(decide (t.runsVec core 0x70 f k it b = true)),
      (decide (t.waitMet k (bits f.imm 0 16) (bits f.imm 16 16) = true))].all id) = true ∧
    (let s : State := vecOn 0x70 ⟨0, 0, 0, 0, 0, 65545⟩ (ts := 0)
     let at_ : Nat := 1000
     let core : Nat := 5
     let f : VFields := ⟨0, 0, 0, 0, 0, 65545⟩
     let k : Kernel := kern
     let it : Item := (⟨0, 1, vblk [vecWord 0x70 ⟨0, 0, 0, 0, 0, 65545⟩] 3 2 0, 7, some 8⟩ : Item)
     let b : VBlock := ⟨0, 1, 1⟩
     let t := s.tick at_
     [(decide (t.runsVec core 0x70 f k it b = true)),
      (decide (t.waitMet k (bits f.imm 0 16) (bits f.imm 16 16) = false))].all id) = true ∧
    (let s : State := vecOn 0x71 ⟨0, 0, 0, 0, 0, 9⟩ (ts := 0)
     let at_ : Nat := 1000
     let core : Nat := 5
     let f : VFields := ⟨0, 0, 0, 0, 0, 9⟩
     let k : Kernel := kern
     let it : Item := (⟨0, 1, vblk [vecWord 0x71 ⟨0, 0, 0, 0, 0, 9⟩] 3 2 0, 7, some 8⟩ : Item)
     let b : VBlock := ⟨0, 1, 1⟩
     let t := s.tick at_
     [(decide (t.runsVec core 0x71 f k it b = true))].all id) = true ∧
    (let s : State := vecOn 0x7F ⟨0, 0, 0, 0, 0, 0⟩ (ts := 0)
     let at_ : Nat := 1000
     let core : Nat := 5
     let f : VFields := ⟨0, 0, 0, 0, 0, 0⟩
     let k : Kernel := kern
     let it : Item := (⟨0, 1, vblk [vecWord 0x7F ⟨0, 0, 0, 0, 0, 0⟩] 3 2 0, 7, some 8⟩ : Item)
     let b : VBlock := ⟨0, 1, 1⟩
     let t := s.tick at_
     [(decide (t.runsVec core 0x7F f k it b = true))].all id) = true := by
  refine ⟨?_, ?_, ?_, ?_, ?_, ?_, ?_, ?_, ?_, ?_, ?_, ?_, ?_, ?_, ?_, ?_, ?_, ?_, ?_, ?_, ?_⟩ <;> decide +kernel

/-- Each clause of `ErgLinesComplete` has a state and operands that meet its hypotheses. -/
theorem witness_ErgLinesComplete :
    (let s : State := ergOn { ErgChannel.reset with queue := [req false (.engine)] } (ram := ⟨[(ergKey 5 0 128, 7)], []⟩)
     let at_ : Nat := 40
     let ch : Nat := 5
     let user : ErgUser := .openRilseti
     let up : List Upset := []
     let r : ErgReq := req false (.engine)
     let t := s.tick at_
     let place := t.lineOfReq ch r
     let u := ((t.judgeShares ch).takeSlot ch user false).onChan ch fun c => { c with queue := c.queue.erase r }
     let u := if r.dest = .scrub ∧ r.reread = false then u.scrubNext ch else u
     let off := place.2 % 32768 * 64
     let rs := u.erg.rankSub place.1 off
     let key := ergKey ch place.1 off
     let codes := u.lineCodes key (u.markOf ch rs) up
     [(decide (t.ergMay ch user false = true)),
      (decide (t.nextRead ch user = some r)),
      (decide (lineOf codes = .clean))].all id) = true ∧
    (let s : State := ergOn { ErgChannel.reset with queue := [req false (.engine)] } (ram := ⟨[(ergKey 5 0 128, 7)], []⟩)
     let at_ : Nat := 40
     let ch : Nat := 5
     let user : ErgUser := .openRilseti
     let up : List Upset := [⟨1, 3, 5⟩, ⟨2, 3, 6⟩]
     let r : ErgReq := req false (.engine)
     let t := s.tick at_
     let place := t.lineOfReq ch r
     let u := ((t.judgeShares ch).takeSlot ch user false).onChan ch fun c => { c with queue := c.queue.erase r }
     let u := if r.dest = .scrub ∧ r.reread = false then u.scrubNext ch else u
     let off := place.2 % 32768 * 64
     let rs := u.erg.rankSub place.1 off
     let key := ergKey ch place.1 off
     let codes := u.lineCodes key (u.markOf ch rs) up
     let p := 3
     [(decide (t.ergMay ch user false = true)),
      (decide (t.nextRead ch user = some r)),
      (decide (lineOf codes = .corrected p))].all id) = true ∧
    (let s : State := ergOn { ErgChannel.reset with queue := [req false (.engine)] } (ram := ⟨[(ergKey 5 0 128, 7)], [(ergKey 5 0 128 / 4, 1), (ergKey 5 0 128 / 4 + 1, 1)]⟩)
     let at_ : Nat := 40
     let ch : Nat := 5
     let user : ErgUser := .openRilseti
     let up : List Upset := []
     let r : ErgReq := req false (.engine)
     let t := s.tick at_
     let place := t.lineOfReq ch r
     let u := ((t.judgeShares ch).takeSlot ch user false).onChan ch fun c => { c with queue := c.queue.erase r }
     let u := if r.dest = .scrub ∧ r.reread = false then u.scrubNext ch else u
     let off := place.2 % 32768 * 64
     let rs := u.erg.rankSub place.1 off
     let key := ergKey ch place.1 off
     let codes := u.lineCodes key (u.markOf ch rs) up
     [(decide (t.ergMay ch user false = true)),
      (decide (t.nextRead ch user = some r)),
      (decide (lineOf codes = .poison))].all id) = true ∧
    (let s : State := ergOn { ErgChannel.reset with queue := [req false (.engine) true] } (ram := ⟨[(ergKey 5 0 128, 7)], []⟩)
     let at_ : Nat := 40
     let ch : Nat := 5
     let user : ErgUser := .openRilseti
     let up : List Upset := [⟨1, 3, 5⟩, ⟨2, 4, 6⟩]
     let r : ErgReq := req false (.engine) true
     let t := s.tick at_
     let place := t.lineOfReq ch r
     let u := ((t.judgeShares ch).takeSlot ch user false).onChan ch fun c => { c with queue := c.queue.erase r }
     let u := if r.dest = .scrub ∧ r.reread = false then u.scrubNext ch else u
     let off := place.2 % 32768 * 64
     let rs := u.erg.rankSub place.1 off
     let key := ergKey ch place.1 off
     let codes := u.lineCodes key (u.markOf ch rs) up
     [(decide (t.ergMay ch user false = true)),
      (decide (t.nextRead ch user = some r)),
      (decide (lineOf codes = .bad)),
      (decide (r.reread = true))].all id) = true ∧
    (let s : State := ergOn { ErgChannel.reset with queue := [req false (.engine)] } (ram := ⟨[(ergKey 5 0 128, 7)], []⟩)
     let at_ : Nat := 40
     let ch : Nat := 5
     let user : ErgUser := .openRilseti
     let up : List Upset := [⟨1, 3, 5⟩, ⟨2, 4, 6⟩]
     let r : ErgReq := req false (.engine)
     let t := s.tick at_
     let place := t.lineOfReq ch r
     let u := ((t.judgeShares ch).takeSlot ch user false).onChan ch fun c => { c with queue := c.queue.erase r }
     let u := if r.dest = .scrub ∧ r.reread = false then u.scrubNext ch else u
     let off := place.2 % 32768 * 64
     let rs := u.erg.rankSub place.1 off
     let key := ergKey ch place.1 off
     let codes := u.lineCodes key (u.markOf ch rs) up
     [(decide (t.ergMay ch user false = true)),
      (decide (t.nextRead ch user = some r)),
      (decide (lineOf codes = .bad)),
      (decide (r.reread = false))].all id) = true ∧
    (let s : State := ergOn { ErgChannel.reset with queue := [⟨.maint, true, 9 * 32768 + 3, 99, false, false, .scrub⟩] } (ram := ⟨[], []⟩)
     let at_ : Nat := 40
     let ch : Nat := 5
     let user : ErgUser := .maint
     let r : ErgReq := ⟨.maint, true, 9 * 32768 + 3, 99, false, false, .scrub⟩
     let t := s.tick at_
     [(decide (t.ergMay ch user true = true)),
      (decide ((t.chan ch).queue.find? (fun r => r.user = user && r.write = true) = some r)),
      (decide (r.dest = .scrub))].all id) = true ∧
    (let s : State := ergOn { ErgChannel.reset with queue := [⟨.maint, true, 9 * 32768 + 3, 99, true, false, .copy 2⟩], retire := some ⟨9, 2, 3, false⟩ } (ram := ⟨[], []⟩)
     let at_ : Nat := 40
     let ch : Nat := 5
     let user : ErgUser := .maint
     let r : ErgReq := ⟨.maint, true, 9 * 32768 + 3, 99, true, false, .copy 2⟩
     let t := s.tick at_
     let sp := 2
     [(decide (t.ergMay ch user true = true)),
      (decide ((t.chan ch).queue.find? (fun r => r.user = user && r.write = true) = some r)),
      (decide (r.dest = .copy sp))].all id) = true ∧
    (let s : State := ergOn { ErgChannel.reset with queue := [req true (.erg 3 (5 * 2 ^ 21 + 128)) false .maint] } (ram := ⟨[], []⟩)
     let at_ : Nat := 40
     let ch : Nat := 5
     let user : ErgUser := .maint
     let r : ErgReq := req true (.erg 3 (5 * 2 ^ 21 + 128)) false .maint
     let t := s.tick at_
     let die := 3
     let a := 5 * 2 ^ 21 + 128
     [(decide (t.ergMay ch user true = true)),
      (decide ((t.chan ch).queue.find? (fun r => r.user = user && r.write = true) = some r)),
      (decide (r.dest ≠ .scrub)),
      (true),
      (decide (r.dest = .erg die a))].all id) = true ∧
    (let s : State := ergOn { ErgChannel.reset with queue := [req true (.host 0 64)] } (ram := ⟨[], []⟩)
     let at_ : Nat := 40
     let ch : Nat := 5
     let user : ErgUser := .openRilseti
     let r : ErgReq := req true (.host 0 64)
     let t := s.tick at_
     let mb := 0
     let a := 64
     [(decide (t.ergMay ch user true = true)),
      (decide ((t.chan ch).queue.find? (fun r => r.user = user && r.write = true) = some r)),
      (decide (r.dest ≠ .scrub)),
      (true),
      (decide (r.dest = .host mb a))].all id) = true ∧
    (let s : State := ergOn { ErgChannel.reset with queue := [req true .engine] } (ram := ⟨[], []⟩)
     let at_ : Nat := 40
     let ch : Nat := 5
     let user : ErgUser := .openRilseti
     let r : ErgReq := req true .engine
     let t := s.tick at_
     [(decide (t.ergMay ch user true = true)),
      (decide ((t.chan ch).queue.find? (fun r => r.user = user && r.write = true) = some r)),
      (decide (r.dest ≠ .scrub)),
      (true),
      (true),
      (true)].all id) = true := by
  refine ⟨?_, ?_, ?_, ?_, ?_, ?_, ?_, ?_, ?_, ?_⟩ <;> decide +kernel

/-- Each clause of `ErgUpkeepCompletes` has a state and operands that meet its hypotheses. -/
theorem witness_ErgUpkeepCompletes :
    (let s : State := { up with erg := { Erg.reset with training := true } }
     let d := dimm
     let l := List.replicate 31 dimm
     let rate := 12800
     [(decide (s.erg.training = true)),
      (decide (ergReasons (d :: l) = [])),
      (decide (ergCommonRate (d :: l) = some rate))].all id) = true ∧
    (let s : State := { up with erg := { Erg.reset with training := true } }
     let l := dimm :: { dimm with ranks := 4 } :: List.replicate 29 dimm
     [(decide (s.erg.training = true)),
      (!(ergReasons l).isEmpty)].all id) = true ∧
    (let s : State := ergOn { ErgChannel.reset with window := some (0, 3, 0, 900) } (imgOf [tent 0x30 0x95 3 0 900])
     let at_ : Nat := 4000
     let t := s.tick at_
     let ch := 5
     let j := (jobOf (imgOf [tent 0x30 0x95 3 0 900]))
     let i := 0
     let w := 3
     let start := 0
     let fin := 900
     [(decide (s.job = some j)),
      (decide ((s.chan ch).window = some (i, w, start, fin))),
      (decide (fin ≤ t.jt))].all id) = true ∧
    (let s : State := { ergOn { ErgChannel.reset with highRate := false } with ht := HtUnit.reset }
     let at_ : Nat := 3880
     let t := s.tick at_
     let ch := 5
     [(decide (s.erg.ready = true)),
      (decide (t.htRefreshes = false)),
      (decide ((s.chan ch).lastRefresh + (if (s.chan ch).highRate then 1920 else 3880) ≤ t.now))].all id) = true ∧
    (let s : State := ergOn { ErgChannel.reset with rereads := 1 }
     let at_ : Nat := 4000
     let t := s.tick at_
     let ch := 5
     let a : Int := 851
     let l := []
     let h := hottest (a :: l)
     let c := t.chan ch
     [(decide (tabWf ErgChannel.reset s.erg.chans = true)),
      (decide (850 < h)),
      (decide (h ≤ 950)),
      (decide (c.highRate = false))].all id) = true ∧
    (let s : State := ergOn { ErgChannel.reset with highRate := true, coolRun := 9 }
     let at_ : Nat := 4000
     let t := s.tick at_
     let ch := 5
     let a : Int := 829
     let l := []
     let h := hottest (a :: l)
     let c := t.chan ch
     let c' := { c with tempC := h / 10, coolRun := if h < 830 then c.coolRun + 1 else 0 }
     [(decide (tabWf ErgChannel.reset s.erg.chans = true)),
      (decide (h ≤ 950)),
      (decide (c.highRate = true)),
      (decide (10 ≤ c'.coolRun))].all id) = true ∧
    (let s : State := ergOn { ErgChannel.reset with rereads := 1 }
     let at_ : Nat := 4000
     let t := s.tick at_
     let ch := 5
     let a : Int := 850
     let l := []
     let h := hottest (a :: l)
     let c := t.chan ch
     [(decide (tabWf ErgChannel.reset s.erg.chans = true)),
      (decide (h ≤ 850)),
      (decide (c.highRate = false))].all id) = true ∧
    (let s : State := ergOn { ErgChannel.reset with highRate := true, coolRun := 8 }
     let at_ : Nat := 4000
     let t := s.tick at_
     let ch := 5
     let a : Int := 829
     let l := []
     let h := hottest (a :: l)
     let c := t.chan ch
     let c' := { c with tempC := h / 10, coolRun := if h < 830 then c.coolRun + 1 else 0 }
     [(decide (tabWf ErgChannel.reset s.erg.chans = true)),
      (decide (h ≤ 950)),
      (decide (c.highRate = true)),
      (decide (c'.coolRun < 10))].all id) = true ∧
    (let s : State := ergOn { ErgChannel.reset with highRate := true }
     let at_ : Nat := 4000
     let t := s.tick at_
     let ch := 5
     let a : Int := 951
     let l := []
     let h := hottest (a :: l)
     let c := t.chan ch
     let c' := { c with tempC := h / 10, coolRun := if h < 830 then c.coolRun + 1 else 0 }
     [(decide (tabWf ErgChannel.reset s.erg.chans = true)),
      (decide (950 < h)),
      (decide (c.highRate = true)),
      (decide (c'.coolRun < 10))].all id) = true ∧
    (let s : State := ergOn { ErgChannel.reset with scrubStart := 5 }
     let at_ : Nat := 86400000000006
     let t := s.tick at_
     let ch := 5
     [(decide (s.erg.ready = true)),
      (decide ((s.chan ch).scrubLate = false)),
      (decide ((s.chan ch).scrubStart + 86400000000000 < t.now))].all id) = true ∧
    (let s : State := ergOn { ErgChannel.reset with retire := some ⟨9, 2, 32768, false⟩ }
     let ch := 5
     let x := ⟨9, 2, 32768, false⟩
     [(decide ((s.chan ch).retire = some x)),
      (decide (32768 ≤ x.line)),
      (decide (x.ready = false))].all id) = true ∧
    (let s : State := { running with dies := [(3, { Die.reset with dma := some (0, 3) })] }
     let die := 3
     let i := 0
     let step := 3
     [(decide ((s.die die).dma = some (i, step))),
      (decide ((s.die die).dmaLeft = 0)),
      (decide ((s.die die).dmaItems = 0))].all id) = true ∧
    (let s : State := ({ at5 { busy5 with writeback := [64, 72] } with scratch := ⟨[], [((5 * 0x600000 + 64) / 4, 9)]⟩ } : State)
     let core := 5
     let a := 64
     [(decide (a < 0x600000)),
      (decide (a ∈ (s.core core).writeback))].all id) = true ∧
    (let s : State := ({ running with dies := [(3, { Die.reset with oasisWriteback := [3 * oasisSize + 64] })], oasis := ⟨[], [((3 * oasisSize + 64) / 4, 9)]⟩ } : State)
     let a := 3 * oasisSize + 64
     [(decide (0x600000 + a < basinAddr 0 0 0)),
      (decide (a ∈ (s.die (a / oasisSize)).oasisWriteback))].all id) = true ∧
    (let s : State := ({ at5 { busy5 with writeback := [basinAddr 1 7 3] } with scratch := ⟨[], []⟩ } : State).strike [⟨.basin 5 1 7 3, 2, 9⟩]
     let core := 5
     let tile := 1
     let i := 7
     let k := 3
     [(decide (i < 9216)),
      (decide (k < 10)),
      (decide (basinAddr tile i k ∈ (s.core core).writeback))].all id) = true ∧
    (let s : State := running
     let die := 3
     let addr := 65
     let up := []
     let a := die * oasisSize + addr / 8 * 8
     let syn := syndromes ((8, (s.oasis.chkOf (a / 8)).1) :: (9, (s.oasis.chkOf (a / 8)).2) :: upsetErrs up 0)
     [(decide (decodeSyn none syn.1 syn.2 = .clean))].all id) = true ∧
    (let s : State := ({ running with oasis := ⟨[], [((3 * oasisSize + 64) / 4, 9)]⟩ } : State)
     let die := 3
     let addr := 65
     let up := []
     let a := die * oasisSize + addr / 8 * 8
     let syn := syndromes ((8, (s.oasis.chkOf (a / 8)).1) :: (9, (s.oasis.chkOf (a / 8)).2) :: upsetErrs up 0)
     let p := 8
     let e := 9
     [(decide (decodeSyn none syn.1 syn.2 = .single p e))].all id) = true ∧
    (let s : State := running
     let die := 3
     let addr := 64
     let up := [⟨0, 3, 5⟩, ⟨0, 4, 6⟩]
     let a := die * oasisSize + addr / 8 * 8
     let syn := syndromes ((8, (s.oasis.chkOf (a / 8)).1) :: (9, (s.oasis.chkOf (a / 8)).2) :: upsetErrs up 0)
     [(decide (decodeSyn none syn.1 syn.2 = .bad ∨ decodeSyn none syn.1 syn.2 = .poison))].all id) = true ∧
    (let s : State := ({ running (imgOf [tent 0x10 0x83 0 50] [(8, 1, (packBuf 64 [(32, 0), (20, 0), (12, 1)]).app (packBuf 4 [(32, 0)])), (9, 1, packBuf 64 [(20, 7), (6, 0), (2, 0), (1, 0), (1, 0), (1, 1)]), (0xD, 1, packBuf 32 [(4, 1), (4, 0), (8, 1), (16, 0), (64, 3 * oasisSize), (64, 20800)])]) with dies := [(3, { Die.reset with pool := [(({ anchor := -5, w32 := false, nf := true, ovf := false, count := 4, tensor := 7, row := 1, col := 2, sub := 3, epoch := 0, step := 3 } : AfxHdr).block (List.replicate 256 (9 : Int)))], poolAt := [0] })] } : State)
     let die := 3
     let d := 3
     let b := (({ anchor := -5, w32 := false, nf := false, ovf := false, count := 4, tensor := 7, row := 1, col := 2, sub := 3, epoch := 0, step := 3 } : AfxHdr).block (List.replicate 256 (1000000 : Int)))
     let j := (jobOf (imgOf [tent 0x10 0x83 0 50] [(8, 1, (packBuf 64 [(32, 0), (20, 0), (12, 1)]).app (packBuf 4 [(32, 0)])), (9, 1, packBuf 64 [(20, 7), (6, 0), (2, 0), (1, 0), (1, 0), (1, 1)]), (0xD, 1, packBuf 32 [(4, 1), (4, 0), (8, 1), (16, 0), (64, 3 * oasisSize), (64, 20800)])]))
     let x := s.die d
     let k := 0
     let was := (({ anchor := -5, w32 := false, nf := true, ovf := false, count := 4, tensor := 7, row := 1, col := 2, sub := 3, epoch := 0, step := 3 } : AfxHdr).block (List.replicate 256 (9 : Int)))
     [(decide (s.job = some j)),
      (decide (ownerDie j.image (afxTensor b) = some d)),
      (decide (samePlace x.pool b = some k)),
      (decide (was = x.pool.getD k Buf.empty))].all id) = true ∧
    (let s : State := ({ running (imgOf [tent 0x10 0x83 0 50] [(8, 1, (packBuf 64 [(32, 0), (20, 0), (12, 1)]).app (packBuf 4 [(32, 0)])), (9, 1, packBuf 64 [(20, 7), (6, 0), (2, 0), (1, 0), (1, 0), (1, 1)]), (0xD, 1, packBuf 32 [(4, 1), (4, 0), (8, 1), (16, 0), (64, 3 * oasisSize), (64, 20800)])]) with dies := [(3, { Die.reset with pool := [(({ anchor := -5, w32 := false, nf := false, ovf := false, count := 4, tensor := 7, row := 1, col := 2, sub := 3, epoch := 0, step := 3 } : AfxHdr).block (List.replicate 256 (9 : Int)))], poolAt := [0] })] } : State)
     let die := 5
     let d := 3
     let b := (({ anchor := -5, w32 := false, nf := true, ovf := false, count := 4, tensor := 7, row := 1, col := 2, sub := 4, epoch := 0, step := 3 } : AfxHdr).block (List.replicate 256 (9 : Int)))
     let j := (jobOf (imgOf [tent 0x10 0x83 0 50] [(8, 1, (packBuf 64 [(32, 0), (20, 0), (12, 1)]).app (packBuf 4 [(32, 0)])), (9, 1, packBuf 64 [(20, 7), (6, 0), (2, 0), (1, 0), (1, 0), (1, 1)]), (0xD, 1, packBuf 32 [(4, 1), (4, 0), (8, 1), (16, 0), (64, 3 * oasisSize), (64, 20800)])]))
     let x := s.die d
     [(decide (s.job = some j)),
      (decide (ownerDie j.image (afxTensor b) = some d)),
      (decide (samePlace x.pool b = none)),
      (decide (x.pool.length < poolSlots j.image d))].all id) = true ∧
    (let s : State := ({ ergOn { ErgChannel.reset with window := some (0, 0, 0, 40000) } (imgOf [] [(6, 1, packBuf 64 [(8, 2), (4, 1), (52, 0), (4, 2), (4, 0), (7, 10)]), (0xD, 1, packBuf 32 [(4, 0), (4, 1), (8, 2), (16, 0), (64, 5 * 2 ^ 21), (64, 2 ^ 20)])]) with spills := [⟨0, 3, (({ anchor := -5, w32 := false, nf := false, ovf := false, count := 4, tensor := 7, row := 1, col := 2, sub := 3, epoch := 0, step := 3 } : AfxHdr).block (List.replicate 256 (9 : Int))), 3, none, true, true⟩, ⟨4096, 3, (({ anchor := -5, w32 := false, nf := false, ovf := false, count := 4, tensor := 7, row := 1, col := 2, sub := 3, epoch := 0, step := 3 } : AfxHdr).block (List.replicate 256 (9 : Int))), 3, none, false, true⟩] } : State)
     let at_ : Nat := 4000
     let t := s.tick at_
     let die := 3
     let j := (jobOf (imgOf [] [(6, 1, packBuf 64 [(8, 2), (4, 1), (52, 0), (4, 2), (4, 0), (7, 10)]), (0xD, 1, packBuf 32 [(4, 0), (4, 1), (8, 2), (16, 0), (64, 5 * 2 ^ 21), (64, 2 ^ 20)])]))
     let r := ((imgRole (imgOf [] [(6, 1, packBuf 64 [(8, 2), (4, 1), (52, 0), (4, 2), (4, 0), (7, 10)]), (0xD, 1, packBuf 32 [(4, 0), (4, 1), (8, 2), (16, 0), (64, 5 * 2 ^ 21), (64, 2 ^ 20)])]) 2).get!)
     let k := 1
     let x := ⟨4096, 3, (({ anchor := -5, w32 := false, nf := false, ovf := false, count := 4, tensor := 7, row := 1, col := 2, sub := 3, epoch := 0, step := 3 } : AfxHdr).block (List.replicate 256 (9 : Int))), 3, none, false, true⟩
     [(decide (s.job = some j)),
      (decide (imgRole j.image 2 = some r)),
      (decide (s.spills.findIdx? (fun x => x.die = die && !x.present) = some k)),
      (decide (s.spills[k]? = some x)),
      (decide (t.shareOpen (r.base + x.off + spillLen x.block - 64) 2 true = true))].all id) = true ∧
    (let s : State := ({ ergOn ErgChannel.reset (imgOf [] [(6, 1, packBuf 64 [(8, 2), (4, 1), (52, 0), (4, 2), (4, 0), (7, 10)]), (0xD, 1, packBuf 32 [(4, 0), (4, 1), (8, 2), (16, 0), (64, 5 * 2 ^ 21), (64, 2 ^ 20)])]) with spills := [⟨0, 3, (({ anchor := -5, w32 := false, nf := false, ovf := false, count := 4, tensor := 7, row := 1, col := 2, sub := 3, epoch := 0, step := 3 } : AfxHdr).block (List.replicate 256 (9 : Int))), 3, none, true, true⟩, ⟨4096, 3, (({ anchor := -5, w32 := false, nf := false, ovf := false, count := 4, tensor := 7, row := 1, col := 2, sub := 3, epoch := 0, step := 3 } : AfxHdr).block (List.replicate 256 (9 : Int))), 3, none, false, true⟩] } : State)
     let at_ : Nat := 4000
     let t := s.tick at_
     let die := 3
     let j := (jobOf (imgOf [] [(6, 1, packBuf 64 [(8, 2), (4, 1), (52, 0), (4, 2), (4, 0), (7, 10)]), (0xD, 1, packBuf 32 [(4, 0), (4, 1), (8, 2), (16, 0), (64, 5 * 2 ^ 21), (64, 2 ^ 20)])]))
     let r := ((imgRole (imgOf [] [(6, 1, packBuf 64 [(8, 2), (4, 1), (52, 0), (4, 2), (4, 0), (7, 10)]), (0xD, 1, packBuf 32 [(4, 0), (4, 1), (8, 2), (16, 0), (64, 5 * 2 ^ 21), (64, 2 ^ 20)])]) 2).get!)
     let k := 1
     let x := ⟨4096, 3, (({ anchor := -5, w32 := false, nf := false, ovf := false, count := 4, tensor := 7, row := 1, col := 2, sub := 3, epoch := 0, step := 3 } : AfxHdr).block (List.replicate 256 (9 : Int))), 3, none, false, true⟩
     [(decide (s.job = some j)),
      (decide (imgRole j.image 2 = some r)),
      (decide (s.spills.findIdx? (fun x => x.die = die && !x.present) = some k)),
      (decide (s.spills[k]? = some x)),
      (decide (t.shareOpen (r.base + x.off + spillLen x.block - 64) 2 true = false))].all id) = true := by
  refine ⟨?_, ?_, ?_, ?_, ?_, ?_, ?_, ?_, ?_, ?_, ?_, ?_, ?_, ?_, ?_, ?_, ?_, ?_, ?_, ?_, ?_, ?_⟩ <;> decide +kernel

/-- Each clause of `FlitsReceivedComplete` has a state and operands that meet its hypotheses. -/
theorem witness_FlitsReceivedComplete :
    (let s : State := portOn { upPort with binds := [bound1] } (imgOf [tent 0x48 0xBA 0 0 100 0 0 none (some 8)])
     let at_ : Nat := 10
     let p : Nat := 2
     let f : Buf := mkFlit 1 false false 7 0 240 3 (99) 0
     let t := s.tick at_
     let n := s.port p
     let k := 0
     let j := (jobOf (imgOf [tent 0x48 0xBA 0 0 100 0 0 none (some 8)]))
     [(decide (n.state = .up)),
      (decide (flitGood f = true)),
      (decide (flitType f = 1)),
      (decide (s.job = some j)),
      (decide (j.oldEpoch (flitEpoch f) = false)),
      (decide (n.bound t.jt f = some k))].all id) = true ∧
    (let s : State := portOn { upPort with binds := [bound1] } (imgOf [tent 0x48 0xBA 0 0 100 0 0 none (some 8)])
     let at_ : Nat := 10
     let p : Nat := 2
     let f : Buf := mkFlit 1 false false 8 0 240 3 (99) 0
     let t := s.tick at_
     let n := s.port p
     let j := (jobOf (imgOf [tent 0x48 0xBA 0 0 100 0 0 none (some 8)]))
     [(decide (n.state = .up)),
      (decide (flitGood f = true)),
      (decide (flitType f = 1)),
      (decide (s.job = some j)),
      (decide (j.oldEpoch (flitEpoch f) = true ∨ n.bound t.jt f = none))].all id) = true ∧
    (let s : State := { portOn { upPort with binds := [bound1] } (imgOf [tent 0x48 0xBA 0 0 100 0 0 none (some 8)]) with job := none }
     let p : Nat := 2
     let f : Buf := mkFlit 1 false false 7 0 240 3 (99) 0
     let n := s.port p
     [(decide (n.state = .up)),
      (decide (flitGood f = true)),
      (decide (flitType f = 1)),
      (decide (s.job = none))].all id) = true ∧
    (let s : State := portOn { upPort with binds := [bound1 0 [0, 1] true] } (imgOf [tent 0x48 0xBA 0 0 100 0 0 none (some 8)])
     let at_ : Nat := 10
     let p : Nat := 2
     let f : Buf := mkFlit 5 false false 7 0 240 3 (99) 0
     let t := s.tick at_
     let n := s.port p
     let k := 0
     let j := (jobOf (imgOf [tent 0x48 0xBA 0 0 100 0 0 none (some 8)]))
     let x := bound1 0 [0, 1] true
     [(decide (n.state = .up)),
      (decide (flitGood f = true)),
      (decide (flitType f = 5)),
      (decide (s.job = some j)),
      (decide (j.oldEpoch (flitEpoch f) = false)),
      (decide (n.bound t.jt f = some k)),
      (decide (n.binds[k]? = some x)),
      (decide (x.done = true))].all id) = true ∧
    (let s : State := portOn { upPort with binds := [bound1] } (imgOf [tent 0x48 0xBA 0 0 100 0 0 none (some 8)])
     let at_ : Nat := 10
     let p : Nat := 2
     let f : Buf := mkFlit 5 false false 7 0 240 3 (99) 0
     let t := s.tick at_
     let n := s.port p
     let k := 0
     let j := (jobOf (imgOf [tent 0x48 0xBA 0 0 100 0 0 none (some 8)]))
     let x := bound1
     [(decide (n.state = .up)),
      (decide (flitGood f = true)),
      (decide (flitType f = 5)),
      (decide (s.job = some j)),
      (decide (j.oldEpoch (flitEpoch f) = false)),
      (decide (n.bound t.jt f = some k)),
      (decide (n.binds[k]? = some x)),
      (decide (x.done = false))].all id) = true ∧
    (let s : State := portOn { upPort with binds := [bound1] } (imgOf [tent 0x48 0xBA 0 0 100 0 0 none (some 8)])
     let at_ : Nat := 10
     let p : Nat := 2
     let f : Buf := mkFlit 5 false false 8 0 240 3 (99) 0
     let t := s.tick at_
     let n := s.port p
     let j := (jobOf (imgOf [tent 0x48 0xBA 0 0 100 0 0 none (some 8)]))
     [(decide (n.state = .up)),
      (decide (flitGood f = true)),
      (decide (flitType f = 5)),
      (decide (s.job = some j)),
      (decide (j.oldEpoch (flitEpoch f) = true ∨ n.bound t.jt f = none))].all id) = true ∧
    (let s : State := { portOn { upPort with binds := [bound1] } (imgOf [tent 0x48 0xBA 0 0 100 0 0 none (some 8)]) with job := none }
     let p : Nat := 2
     let f : Buf := mkFlit 5 false false 7 0 240 3 (99) 0
     let n := s.port p
     [(decide (n.state = .up)),
      (decide (flitGood f = true)),
      (decide (flitType f = 5)),
      (decide (s.job = none))].all id) = true ∧
    (let s : State := portOn { upPort with sent := [⟨0, 9, 3, 5, [mkFlit 1 false false 9 0 240 3 5 0, mkFlit 1 true false 9 1 100 3 6 0], [], false⟩] }
     let p : Nat := 2
     let f : Buf := mkFlit 3 false false 0 0 240 0 (ctrlPayload [1, 2, 3, 0, 0, 0, 0, 0] 0xFFFFFF 0 [] 255) 0
     let n := s.port p
     [(decide (n.state = .up)),
      (decide (flitGood f = true)),
      (decide (flitType f = 3))].all id) = true ∧
    (let s : State := portOn { upPort with rxHeld := [(0, 1024)] } (mkImg 0x77 0x88 0 [ttSect 3900000 []] (sizes := 0x01010104))
     let p : Nat := 2
     let f : Buf := mkFlit 2 true false (packBits [(6, 1), (18, 0)]) 0 100 (1 + 4 * 5) 1234 0
     let n := s.port p
     [(decide (n.state = .up)),
      (decide (flitGood f = true)),
      (decide (flitType f = 2)),
      (decide (1024 ≤ n.openHeld))].all id) = true ∧
    (let s : State := portOn upPort (mkImg 0x77 0x88 0 [ttSect 3900000 []] (sizes := 0x01010104))
     let p : Nat := 2
     let f : Buf := mkFlit 2 true false (packBits [(6, 1), (18, 0)]) 0 100 (1 + 4 * 5) 1234 0
     let n := s.port p
     let j := (jobOf (mkImg 0x77 0x88 0 [ttSect 3900000 []] (sizes := 0x01010104)))
     let q := 0
     let w := 0
     [(decide (n.state = .up)),
      (decide (flitGood f = true)),
      (decide (flitType f = 2)),
      (decide (n.openHeld < 1024)),
      (decide (s.job = some j)),
      (decide (nextHop j.image f p (flitWrap f) = some (q, w)))].all id) = true ∧
    (let s : State := portOn { upPort with rxMsgs := [(5, 1)], rxHeld := [(0, 2)], inbox := [(0, mkFlit 2 false false (packBits [(6, 0), (18, 0)]) 0 100 (0 + 4 * 5) 1234 0), (0, mkFlit 2 true false (packBits [(6, 0), (18, 0)]) 0 100 (0 + 4 * 6) 1234 0)] } (mkImg 0x77 0x88 0 [ttSect 3900000 []] (sizes := 0x01010104))
     let p : Nat := 2
     let f : Buf := mkFlit 2 true false (packBits [(6, 0), (18, 0)]) 2 100 (0 + 4 * 5) 1234 0
     let n := s.port p
     [(decide (n.state = .up)),
      (decide (flitGood f = true)),
      (decide (flitType f = 2)),
      (decide (n.openHeld < 1024)),
      ((match s.job with | some j => (nextHop j.image f p (flitWrap f)).isNone | none => true)),
      (decide (flitIdx f ≠ tget 0 n.rxMsgs (64 * flitVc f + flitMsg f)))].all id) = true ∧
    (let s : State := portOn upPort (mkImg 0x77 0x88 0 [ttSect 3900000 []] (sizes := 0x01010104))
     let p : Nat := 2
     let f : Buf := mkFlit 2 true false (packBits [(6, 0), (18, 0)]) 0 100 (0 + 4 * 5) 1234 0
     let n := s.port p
     [(decide (n.state = .up)),
      (decide (flitGood f = true)),
      (decide (flitType f = 2)),
      (decide (n.openHeld < 1024)),
      ((match s.job with | some j => (nextHop j.image f p (flitWrap f)).isNone | none => true)),
      (decide (flitIdx f = tget 0 n.rxMsgs (64 * flitVc f + flitMsg f)))].all id) = true ∧
    (let s : State := portOn { upPort with fecUncorr := 5, fecRun := [(3, 63)], lanes := 255 }
     let p : Nat := 2
     let f : Buf := Buf.zeros 256
     let n := s.port p
     [(decide (n.state = .up)),
      (decide (flitGood f = false)),
      (true)].all id) = true ∧
    (let s : State := portOn { upPort with fecUncorr := 5, fecRun := [(3, 63)], lanes := 255 }
     let p : Nat := 2
     let n := s.port p
     let l := [1]
     [(decide (n.state = .up)),
      (decide (l ≠ []))].all id) = true ∧
    (let s : State := portOn { upPort with binds := [bound1 3 [0, 1]] } (imgOf [tent 0x48 0xBA 0 0 100 0 0 none (some 8)])
     let p : Nat := 2
     let n := s.port p
     let block := 7
     let k := 0
     let x := bound1 3 [0, 1]
     let d := Blk.ofBuf x.desc
     [(decide (n.binds.findIdx? (fun x => (Blk.ofBuf x.desc).block = block && x.got.length = x.total && !x.done) = some k)),
      (decide (n.binds[k]? = some x)),
      (decide (d.rxOp = 3))].all id) = true ∧
    (let s : State := portOn { upPort with binds := [bound1 0 [0, 1]] } (imgOf [tent 0x48 0xBA 0 0 100 0 0 none (some 8)])
     let p : Nat := 2
     let n := s.port p
     let block := 7
     let k := 0
     let x := bound1 0 [0, 1]
     let d := Blk.ofBuf x.desc
     [(decide (n.binds.findIdx? (fun x => (Blk.ofBuf x.desc).block = block && x.got.length = x.total && !x.done) = some k)),
      (decide (n.binds[k]? = some x)),
      (decide (d.rxOp ≠ 3)),
      (decide (d.rxOp ≠ 5))].all id) = true ∧
    (let s : State := portOn { upPort with binds := [bound1 5 [0, 1]] } (imgOf [tent 0x48 0xBA 0 0 100 0 0 none (some 8)])
     let at_ : Nat := 10
     let p : Nat := 2
     let t := s.tick at_
     let n := s.port p
     let block := 7
     let k := 0
     let x := bound1 5 [0, 1]
     let d := Blk.ofBuf x.desc
     let u := t.bindDone p k
     let tag := (u.blkRead { d with addr := d.check } 0 32).1
     let w := (u.blkRead { d with addr := d.check } 0 32).2
     [(decide (n.binds.findIdx? (fun x => (Blk.ofBuf x.desc).block = block && x.got.length = x.total && !x.done) = some k)),
      (decide (n.binds[k]? = some x)),
      (decide (d.rxOp = 5)),
      (decide (u.blkRead { d with addr := d.check } 0 32 = (tag, w)))].all id) = true ∧
    (let s : State := portOn { upPort with binds := [bound1 3 [1] false 100] } (imgOf [tent 0x48 0xBA 0 0 100 0 0 none (some 8)])
     let at_ : Nat := 100
     let p : Nat := 2
     let t := s.tick at_
     let n := s.port p
     let block := 7
     let k := 0
     let x := bound1 3 [1] false 100
     let j := (jobOf (imgOf [tent 0x48 0xBA 0 0 100 0 0 none (some 8)]))
     let d := Blk.ofBuf x.desc
     [(decide (s.job = some j)),
      (decide (n.binds.findIdx? (fun x => (Blk.ofBuf x.desc).block = block && x.got.length ≠ x.total && !x.done) = some k)),
      (decide (n.binds[k]? = some x)),
      (decide ((x.fin : Int) ≤ t.jtInt)),
      (decide (d.rxOp = 3 ∨ d.space = 2))].all id) = true ∧
    (let s : State := portOn { upPort with binds := [{ bound1 0 [1] false 100 with missing := [] }] } (imgOf [tent 0x48 0xBA 0 0 100 0 0 none (some 8)])
     let at_ : Nat := 100
     let p : Nat := 2
     let t := s.tick at_
     let n := s.port p
     let block := 7
     let k := 0
     let x := { bound1 0 [1] false 100 with missing := [] }
     let j := (jobOf (imgOf [tent 0x48 0xBA 0 0 100 0 0 none (some 8)]))
     let d := Blk.ofBuf x.desc
     [(decide (s.job = some j)),
      (decide (n.binds.findIdx? (fun x => (Blk.ofBuf x.desc).block = block && x.got.length ≠ x.total && !x.done) = some k)),
      (decide (n.binds[k]? = some x)),
      (decide ((x.fin : Int) ≤ t.jtInt)),
      (decide (d.rxOp ≠ 3)),
      (decide (d.space ≠ 2))].all id) = true := by
  refine ⟨?_, ?_, ?_, ?_, ?_, ?_, ?_, ?_, ?_, ?_, ?_, ?_, ?_, ?_, ?_, ?_, ?_, ?_, ?_⟩ <;> decide +kernel

/-- Each clause of `LinkSlotsComplete` has a state and operands that meet its hypotheses. -/
theorem witness_LinkSlotsComplete :
    (let s : State := portOn upPort
     let at_ : Nat := 8192
     let p : Nat := 2
     let t := s.tick at_
     let n := s.port p
     [(decide (n.state = .up)),
      (decide (t.htValid = true)),
      (decide (t.htNow % 4096 = 0)),
      (decide (n.frames = 0 ∨ n.frameHt ≠ t.htNow))].all id) = true ∧
    (let s : State := portOn { upPort with frames := 4, frameHt := 8192 }
     let at_ : Nat := 8192
     let p : Nat := 2
     let t := s.tick at_
     let n := s.port p
     [(decide (n.state = .up)),
      (decide (t.htNow % 4096 ≠ 0 ∨ n.frames ≠ 0 ∧ n.frameHt = t.htNow))].all id) = true ∧
    (let s : State := portOn upPort
     let at_ : Nat := 5000
     let p : Nat := 2
     let t := s.tick at_
     let n := s.port p
     [(decide (n.state = .up)),
      (decide (linkSlotAt n.width t.htNow = false))].all id) = true ∧
    (let s : State := portOn { upPort with lent := [(3, 2)], rxHeld := [(3, 1)], binds := [bound1] }
     let at_ : Nat := 4192
     let p : Nat := 2
     let t := s.tick at_
     let n := s.port p
     [(decide (n.state = .up)),
      (decide (linkSlotAt n.width t.htNow = true)),
      (decide (n.ctlHt ≠ t.htNow + 1))].all id) = true ∧
    (let s : State := portOn ({ upPort with txq := [(3, [(64, mkFlit 2 true false 0 0 100 1 5 0)])], credits := [(3, 0)], txWindow := some (0, 0, 9000) }) (imgOf [] [(5, 1, packBuf 16 [(8, 0)])])
     let at_ : Nat := 5000
     let p : Nat := 2
     let t := s.tick at_
     let n := s.port p
     let v := 1
     let w := 1
     let lane := 2 * v + w
     let m := n.settle t.now
     let slot := slotFrom m.width t.htNow
     let from_ := 64
     let f := mkFlit 2 true false 0 0 100 1 5 0
     let rest := []
     [(decide (tget [] m.txq lane = (from_, f) :: rest)),
      (decide (m.state ≠ .up ∨ tget 0 m.credits lane = 0 ∨ (t.putPort p m).windowOpen p v = false ∨ dataSlot m.width slot = false ∨
                     slot < m.openSlot))].all id) = true ∧
    (let s : State := portOn ({ upPort with txq := [(3, [(64, mkFlit 2 true false 0 0 100 1 5 0)])], credits := [(3, 2)], txWindow := some (0, 0, 9000) }) (imgOf [] [(5, 1, packBuf 16 [(8, 0)])])
     let at_ : Nat := 5000
     let p : Nat := 2
     let t := s.tick at_
     let n := s.port p
     let v := 1
     let w := 1
     let lane := 2 * v + w
     let m := n.settle t.now
     let slot := slotFrom m.width t.htNow
     let from_ := 64
     let f := mkFlit 2 true false 0 0 100 1 5 0
     let rest := []
     [(decide (tget [] m.txq lane = (from_, f) :: rest)),
      (decide (m.state = .up)),
      (decide (tget 0 m.credits lane ≠ 0)),
      (decide ((t.putPort p m).windowOpen p v = true)),
      (decide (dataSlot m.width slot = true)),
      (decide (m.openSlot ≤ slot))].all id) = true := by
  refine ⟨?_, ?_, ?_, ?_, ?_, ?_⟩ <;> decide +kernel

/-- Each clause of `LinkStatesComplete` has a state and operands that meet its hypotheses. -/
theorem witness_LinkStatesComplete :
    (let s : State := up
     let at_ : Nat := 1251000
     let p : Nat := 1
     let t := s.tick at_
     let n := s.port p
     let down (m : NearPort) : State :=
       let u := t.putPort p { m with state := .down, width := 0, lanes := 0, fecRun := [], peerSeen := false, peerReady := false }
       if s.ht.source = p then u.sourceLost else u
     [(decide (tabWf NearPort.reset s.near = true)),
      (decide (n.state = .down))].all id) = true ∧
    (let s : State := { up with ht := { HtUnit.reset with state := .locked }, near := [(1, { NearPort.reset with signal := true, state := .quiet, width := 8 })] }
     let at_ : Nat := 1251000
     let p : Nat := 1
     let t := s.tick at_
     let n := s.port p
     let training : Res := .next (t.putPort p { n with state := .training, trainAt := t.now, wasUp := false })
     [(decide (tabWf NearPort.reset s.near = true)),
      (decide (n.state = .quiet ∨ n.state = .training))].all id) = true ∧
    (let s : State := { up with ht := { HtUnit.reset with state := .locked }, near := [(1, { NearPort.reset with signal := true, state := .quiet, peerReady := true })] }
     let at_ : Nat := 1251000
     let p : Nat := 1
     let t := s.tick at_
     let n := s.port p
     let ready : Bool := decide (
        s.aon.chainAddr ≠ 0 ∧ s.ht.state = .locked)
     [(decide (tabWf NearPort.reset s.near = true)),
      (decide (n.state = .quiet)),
      (decide (ready)),
      (decide (n.peerReady = true)),
      (decide (t.htNow % 16000000 = s.aon.chainAddr % 64 * 250000 + p * 1000))].all id) = true ∧
    (let s : State := { up with ht := { HtUnit.reset with state := .locked }, near := [(1, { NearPort.reset with signal := true, state := .quiet, peerReady := true })] }
     let p : Nat := 1
     let n := s.port p
     let ready : Bool := decide (
        s.aon.chainAddr ≠ 0 ∧ s.ht.state = .locked)
     [(decide (tabWf NearPort.reset s.near = true)),
      (decide (n.state = .quiet)),
      (decide (ready)),
      (decide (n.peerReady = true))].all id) = true ∧
    (let s : State := { up with ht := { HtUnit.reset with state := .locked, source := 1 }, near := [(1, { NearPort.reset with signal := true, state := .training, wasUp := true, trainAt := 5 })] }
     let at_ : Nat := 100000006
     let p : Nat := 1
     let t := s.tick at_
     let n := s.port p
     let training : Res := .next (t.putPort p { n with state := .training, trainAt := t.now, wasUp := false })
     [(decide (tabWf NearPort.reset s.near = true)),
      (decide (n.state = .training)),
      (decide (n.wasUp = true)),
      (decide (n.trainAt + 100000000 < t.now))].all id) = true ∧
    (let s : State := { up with ht := { HtUnit.reset with state := .locked }, near := [(1, { NearPort.reset with signal := true, state := .training, rxHeld := [(1, 1)] })] }
     let at_ : Nat := 1251000
     let p : Nat := 1
     let t := s.tick at_
     let n := s.port p
     let training : Res := .next (t.putPort p { n with state := .training, trainAt := t.now, wasUp := false })
     let lanes := 255
     [(decide (tabWf NearPort.reset s.near = true)),
      (decide (n.state = .training)),
      (decide (n.wasUp = false ∨ t.now ≤ n.trainAt + 100000000)),
      (decide (bestWidth lanes ≠ 0))].all id) = true ∧
    (let s : State := { up with ht := { HtUnit.reset with state := .locked }, near := [(1, { NearPort.reset with signal := true, state := .training })] }
     let at_ : Nat := 1251000
     let p : Nat := 1
     let t := s.tick at_
     let n := s.port p
     let training : Res := .next (t.putPort p { n with state := .training, trainAt := t.now, wasUp := false })
     let lanes := 0
     [(decide (tabWf NearPort.reset s.near = true)),
      (decide (n.state = .training)),
      (decide (n.wasUp = false ∨ t.now ≤ n.trainAt + 100000000)),
      (decide (bestWidth lanes = 0)),
      (decide (n.wasUp = false))].all id) = true ∧
    (let s : State := { up with ht := { HtUnit.reset with state := .locked }, near := [(1, { NearPort.reset with signal := true, state := .training })] }
     let at_ : Nat := 1251000
     let p : Nat := 1
     let t := s.tick at_
     let n := s.port p
     let training : Res := .next (t.putPort p { n with state := .training, trainAt := t.now, wasUp := false })
     [(decide (tabWf NearPort.reset s.near = true)),
      (decide (n.state = .training)),
      (decide (n.wasUp = false))].all id) = true ∧
    (let s : State := { up with ht := { HtUnit.reset with state := .locked }, near := [(1, { NearPort.reset with signal := true, state := .up })] }
     let p : Nat := 1
     let n := s.port p
     [(decide (tabWf NearPort.reset s.near = true)),
      (decide (n.state = .up))].all id) = true ∧
    (let s : State := { up with ht := { HtUnit.reset with state := .locked, source := 1 }, near := [(1, { NearPort.reset with signal := true, state := .training, wasUp := true, trainAt := 5 })] }
     let at_ : Nat := 100000005
     let p : Nat := 1
     let t := s.tick at_
     let n := s.port p
     let training : Res := .next (t.putPort p { n with state := .training, trainAt := t.now, wasUp := false })
     [(decide (tabWf NearPort.reset s.near = true)),
      (decide (n.state = .training)),
      (decide (n.wasUp = true)),
      (decide (n.trainAt + 100000000 ≤ t.now))].all id) = true ∧
    (let s : State := { up with ht := { HtUnit.reset with state := .locked }, near := [(1, { NearPort.reset with signal := true, state := .quiet })] }
     let at_ : Nat := 800000000
     let p : Nat := 1
     let t := s.tick at_
     let n := s.port p
     [(decide (tabWf NearPort.reset s.near = true)),
      (decide (n.state ≠ .up)),
      (decide (n.lateRaised = false)),
      (decide (s.aon.releasedAt + 800000000 ≤ t.now)),
      (decide (s.aon.optsDone = true))].all id) = true := by
  refine ⟨?_, ?_, ?_, ?_, ?_, ?_, ?_, ?_, ?_, ?_, ?_⟩ <;> decide +kernel

/-- Each clause of `SettingsAreInForceWhenTheirCommandEnds` has a state and operands that meet its hypotheses. -/
theorem witness_SettingsAreInForceWhenTheirCommandEnds :
    (let s : State := posted ({ up with ht := { HtUnit.reset with root := true, state := .unset } }) 3 (ent 0x0202 (5000000000) (0) (0))
     let at_ : Nat := 0
     let mb : Nat := 0
     let e : Buf := ent 0x0202 (5000000000) (0) (0)
     let b0 : Option Buf := none
     let b1 : Option Buf := none
     let c : Call := ⟨mb, e, b0, b1⟩
     [(decide (((s.tick at_).offers 0x0202 mb e b0 b1 mayOp = true))),
      (decide (s.ht.root = true)),
      (decide (s.ht.state = .unset ∨ s.ht.state = .acquiring)),
      (decide (c.par 0 64 % 1000000000 = 0))].all id) = true ∧
    (let s : State := posted ({ up with ht := { HtUnit.reset with inOverruns := 7, inInvalid := 9 } }) 3 (ent 0x0203 (packBits [(1, 1), (1, 1), (1, 1), (1, 1), (28, 0), (32, 1000000), (16, 1000), (48, 0), (16, 5), (16, 65000)]) (0) (0))
     let at_ : Nat := 0
     let mb : Nat := 0
     let e : Buf := ent 0x0203 (packBits [(1, 1), (1, 1), (1, 1), (1, 1), (28, 0), (32, 1000000), (16, 1000), (48, 0), (16, 5), (16, 65000)]) (0) (0)
     let b0 : Option Buf := none
     let b1 : Option Buf := none
     let c : Call := ⟨mb, e, b0, b1⟩
     [(decide (((s.tick at_).offers 0x0203 mb e b0 b1 mayOp = true))),
      (decide (s.ledgerSpent = false)),
      (decide (c.par 0 1 = 1 → c.par 32 32 ≤ 1000000)),
      (decide (c.par 1 1 = 1 → ((List.range 8).all (fun i => decide (sext 16 (c.par (128 + 16 * i) 16) ≠ -32768)) = true))),
      (decide (c.par 2 1 = 1 → 1 ≤ c.par 64 16 ∧ c.par 64 16 ≤ 1000)),
      (decide (c.par 0 1 = 1 ∨ c.par 1 1 = 1 → s.job = none))].all id) = true ∧
    (let s : State := posted (up) 3 (ent 0x0601 (packBits [(2, 1), (1, 1), (13, 0), (48, 17), (48, 18), (12, 3), (3, 1), (1, 1), (8, 4), (8, 64), (16, 0), (32, 0), (128, 99)]) (0) (0))
     let at_ : Nat := 0
     let mb : Nat := 0
     let e : Buf := ent 0x0601 (packBits [(2, 1), (1, 1), (13, 0), (48, 17), (48, 18), (12, 3), (3, 1), (1, 1), (8, 4), (8, 64), (16, 0), (32, 0), (128, 99)]) (0) (0)
     let b0 : Option Buf := none
     let b1 : Option Buf := none
     let c : Call := ⟨mb, e, b0, b1⟩
     [(decide (((s.tick at_).offers 0x0601 mb e b0 b1 mayOp = true))),
      (decide (c.par 136 8 ≠ 0)),
      (decide (s.portInUse (c.par 0 2) = false)),
      (decide (s.ledgerSpent = false))].all id) = true ∧
    (let s : State := posted (up) 3 (ent 0x0802 (packBits [(16, 1), (5, 3)]) (0) (0))
     let at_ : Nat := 0
     let mb : Nat := 0
     let e : Buf := ent 0x0802 (packBits [(16, 1), (5, 3)]) (0) (0)
     let b0 : Option Buf := none
     let b1 : Option Buf := none
     let c : Call := ⟨mb, e, b0, b1⟩
     [(decide (((s.tick at_).offers 0x0802 mb e b0 b1 mayOp = true))),
      (decide (dozeOk c.params = true))].all id) = true ∧
    (let s : State := posted (up) 3 (ent 0x0803 (0) (0) (0))
     let at_ : Nat := 0
     let mb : Nat := 0
     let e : Buf := ent 0x0803 (0) (0) (0)
     let b0 : Option Buf := none
     let b1 : Option Buf := none
     let c : Call := ⟨mb, e, b0, b1⟩
     [(decide (((s.tick at_).offers 0x0803 mb e b0 b1 mayOp = true))),
      (decide (c.par 0 16 = 0 ∨ 600 ≤ c.par 0 16 ∧ c.par 0 16 ≤ 1850)),
      (decide (((match s.job with | some j => decide (j.phase = .stopped ∨ j.phase = .restarting) | none => true) = true)))].all id) = true ∧
    (let s : State := posted (running) 3 (ent 0x0803 (600) (0) (0))
     let at_ : Nat := 0
     let mb : Nat := 0
     let e : Buf := ent 0x0803 (600) (0) (0)
     let b0 : Option Buf := none
     let b1 : Option Buf := none
     let c : Call := ⟨mb, e, b0, b1⟩
     let j := jobOf img0
     [(decide (((s.tick at_).offers 0x0803 mb e b0 b1 mayOp = true))),
      (decide (c.par 0 16 = 0 ∨ 600 ≤ c.par 0 16 ∧ c.par 0 16 ≤ 1850)),
      (decide (s.job = some j)),
      (decide (j.phase ≠ .stopped)),
      (decide (j.phase ≠ .restarting))].all id) = true ∧
    (let s : State := posted (up.onIsl fun x => { x with redirect := [(3, 1, 2), (4, 1, 2)], marks := [(3, 0, 1)] }) 3 (ent 0x0304 (3) (0) (0))
     let at_ : Nat := 0
     let mb : Nat := 0
     let e : Buf := ent 0x0304 (3) (0) (0)
     let b0 : Option Buf := none
     let b1 : Option Buf := none
     [(decide (((s.tick at_).offers 0x0304 mb e b0 b1 mayOp = true))),
      (decide (s.job = none)),
      (decide (s.ledgerSpent = false))].all id) = true ∧
    (let s : State := posted ({ up with pcie := { up.pcie with masks := [0x2001] } }) 3 (ent 0x0C01 (2) (rd 8) (0))
     let at_ : Nat := 0
     let mb : Nat := 0
     let e : Buf := ent 0x0C01 (2) (rd 8) (0)
     let b0 : Option Buf := some (packBuf 8 [(16, 0x8001), (1, 1), (15, 0), (16, 0x2001)])
     let b1 : Option Buf := none
     let c : Call := ⟨mb, e, b0, b1⟩
     let l := (packBuf 8 [(16, 0x8001), (1, 1), (15, 0), (16, 0x2001)]).recs 4 2
     [(decide (((s.tick at_).offers 0x0C01 mb e b0 b1 mayOp = true))),
      (decide (1 ≤ c.par 0 16)),
      (decide (c.par 0 16 ≤ 256)),
      (decide (4 * c.par 0 16 ≤ c.buf0.data.len)),
      (decide (l = c.buf0.data.recs 4 (c.par 0 16))),
      (decide (∀ x ∈ l, x.fld 17 15 = 0)),
      (decide (∀ x ∈ l, x.fld 0 16 ∈ eventCodes))].all id) = true := by
  refine ⟨?_, ?_, ?_, ?_, ?_, ?_, ?_, ?_⟩ <;> decide +kernel

/-- Each clause of `GuestAndPowerStateAfterTheirCommands` has a state and operands that meet its hypotheses. -/
theorem witness_GuestAndPowerStateAfterTheirCommands :
    (let s : State := posted ({ armOn with job := some (jobOf (imgArm 0x88 [] (4 + 2 ^ 16))) }) 3 (ent 0x0501 (5) (rd (signed imgGuest cert4 sigGuest).len) (rd 40)) 0
     let at_ : Nat := 0
     let mb : Nat := 0
     let e : Buf := ent 0x0501 (5) (rd (signed imgGuest cert4 sigGuest).len) (rd 40)
     let b0 : Option Buf := some (signed imgGuest cert4 sigGuest)
     let b1 : Option Buf := some keys1
     let c : Call := ⟨mb, e, b0, b1⟩
     let t := s.tick at_
     let raw := c.buf0.data
     let img := raw.slice 0 (imgLen raw)
     let v := t.begun mb
     let j := jobOf (imgArm 0x88 [] (4 + 2 ^ 16))
     let keys := [keySetDigest keyN]
     [(decide (((s.tick at_).offers 0x0501 mb e b0 b1 mayJbImage = true))),
      (decide (s.job = some j)),
      (decide (j.phase ≠ .restarting)),
      (decide (imgGuestSoCount j.image ≠ 0)),
      (decide (s.guest = none)),
      (decide (64 ≤ raw.len)),
      (decide (signedLen (imgLen raw) ≤ raw.len)),
      (decide (v.imageGood raw (imgLen raw) (fun x => certRole x = 4 && certJob x = imgJobId raw) = true)),
      (decide (keySet c.buf1.data = some keys)),
      (decide (keys.contains (keySetDigest (certModulus (trailerCert raw (imgLen raw)))) = true)),
      (decide (v.guestChecks j.image img = true))].all id) = true ∧
    (let s : State := posted ({ armOn with job := some (jobOf (imgArm 0x88 [] (4 + 2 ^ 16))), guest := some guest0 }) 3 (ent 0x0502 (0) (0) (0)) 0
     let at_ : Nat := 0
     let mb : Nat := 0
     let e : Buf := ent 0x0502 (0) (0) (0)
     let b0 : Option Buf := none
     let b1 : Option Buf := none
     let g := guest0
     let j := jobOf (imgArm 0x88 [] (4 + 2 ^ 16))
     [(decide (((s.tick at_).offers 0x0502 mb e b0 b1 mayJbGuest = true))),
      (decide (s.guest = some g)),
      (decide (s.job = some j)),
      ((s.cores.all fun x => match x.2.kernel with | some k => !k.guest | none => true))].all id) = true ∧
    (let s : State := posted ({ armOn with job := some (jobOf (imgArm 0x88 [] (4 + 2 ^ 16))), guest := some guest0, cores := [(5, { Core.reset with kernel := some (kern true) })] }) 3 (ent 0x0502 (0) (0) (0)) 0
     let at_ : Nat := 0
     let mb : Nat := 0
     let e : Buf := ent 0x0502 (0) (0) (0)
     let b0 : Option Buf := none
     let b1 : Option Buf := none
     let g := guest0
     let j := jobOf (imgArm 0x88 [] (4 + 2 ^ 16))
     [(decide (((s.tick at_).offers 0x0502 mb e b0 b1 mayJbGuest = true))),
      (decide (s.guest = some g)),
      (decide (s.job = some j)),
      (!(s.cores.all fun x => match x.2.kernel with | some k => !k.guest | none => true))].all id) = true ∧
    (let s : State := posted (armOn) 3 (ent 0x0801 (0) (0) (0)) 0
     let at_ : Nat := 0
     let mb : Nat := 0
     let e : Buf := ent 0x0801 (0) (0) (0)
     let b0 : Option Buf := none
     let b1 : Option Buf := none
     let c : Call := ⟨mb, e, b0, b1⟩
     [(decide (((s.tick at_).offers 0x0801 mb e b0 b1 mayOp = true))),
      (decide (c.par 0 2 = 0))].all id) = true ∧
    (let s : State := posted ({ armOn with aon := { armOn.aon with power := .hold } }) 3 (ent 0x0801 (1) (0) (0)) 0
     let at_ : Nat := 0
     let mb : Nat := 0
     let e : Buf := ent 0x0801 (1) (0) (0)
     let b0 : Option Buf := none
     let b1 : Option Buf := none
     let c : Call := ⟨mb, e, b0, b1⟩
     [(decide (((s.tick at_).offers 0x0801 mb e b0 b1 mayOp = true))),
      (decide (c.par 0 2 = 1)),
      (decide (s.aon.power = .hold))].all id) = true ∧
    (let s : State := posted (armOn) 3 (ent 0x0801 (1) (0) (0)) 0
     let at_ : Nat := 0
     let mb : Nat := 0
     let e : Buf := ent 0x0801 (1) (0) (0)
     let b0 : Option Buf := none
     let b1 : Option Buf := none
     let c : Call := ⟨mb, e, b0, b1⟩
     let t := s.tick at_
     let v := t.begun mb
     [(decide (((s.tick at_).offers 0x0801 mb e b0 b1 mayOp = true))),
      (decide (c.par 0 2 = 2 ∨ c.par 0 2 = 1 ∧ s.aon.power ≠ .hold)),
      (decide (v.refusers (c.par 0 2) 1 = 0))].all id) = true := by
  refine ⟨?_, ?_, ?_, ?_, ?_, ?_⟩ <;> decide +kernel

end Sys2Proof.Tests
end

section
/-! SUPPORT. What stores and clears of the byte memories leave to be read, for `Obligations.MemoriesReadBack` (O17): the
listed cells of a range, the cells outside it, and the check symbols of a write of whole words. -/

namespace Sys2Proof.Machine

/-! ### Reading an indexed set built from parts -/

variable {α : Type} {d : α} {k : Nat}

theorem tget_of_absent {t : Tab α} (h : ∀ c ∈ t, c.1 ≠ k) : tget d t k = d := by
  induction t with
  | nil => rfl
  | cons c t ih =>
    have hk : k ≠ c.1 := (h c (by simp)).symm
    simp [tget, hk, ih fun e he => h e (by simp [he])]

/-- A part that lies above an index does not bear on it. -/
theorem tget_append_of_below {t u : Tab α} (h : ∀ c ∈ u, k < c.1) : tget d (t ++ u) k = tget d t k := by
  induction t with
  | nil => exact tget_of_absent fun c hc => (h c hc).ne'
  | cons c t ih => simp [tget, ih]

/-- A part that lies below an index does not bear on it. -/
theorem tget_append_of_above {t u : Tab α} (h : ∀ c ∈ t, c.1 < k) : tget d (t ++ u) k = tget d u k := by
  induction t with
  | nil => rfl
  | cons c t ih =>
    have hk : c.1 < k := h c (by simp)
    simp [tget, hk.ne', hk.not_gt, ih fun e he => h e (by simp [he])]

/-- Dropping entries of a canonical set leaves every index at which none is dropped. -/
theorem tget_filter_of_kept [DecidableEq α] {lo : Nat} {t : Tab α} (h : tabFrom d lo t = true) {p : Nat × α → Bool}
    (hp : ∀ v, p (k, v) = true) : tget d (t.filter p) k = tget d t k := by
  induction t generalizing lo with
  | nil => rfl
  | cons c t ih =>
    obtain ⟨i, v⟩ := c
    simp only [tabFrom, Bool.and_eq_true] at h
    by_cases hi : p (i, v) = true
    · simp [hi, tget, ih h.2]
    · have hk : k ≠ i := fun e => hi (e ▸ hp v)
      rw [List.filter_cons_of_neg hi, ih h.2]
      by_cases hlt : k < i
      · simp [tget, hk, hlt, tget_below h.2 (show k < i + 1 by omega)]
      · simp [tget, hk, hlt]

/-! ### Byte memories (R15) -/

section Bytes

variable {m : Mem} {a n v x : Nat}

/-- The cells of a stored value, added up at their places from `k` bytes before, give the value. -/
theorem foldl_cellsOf (a k n v y : Nat) :
    (cellsOf n (a + k) v).foldl (fun x c => x + c.2.toNat <<< (8 * (c.1 - a))) y = y + v % 256 ^ n * 256 ^ k := by
  induction n generalizing k v y with
  | zero => simp [cellsOf, Nat.mod_one]
  | succ n ih =>
    have hsplit : v % 256 ^ (n + 1) * 256 ^ k = v % 256 * 256 ^ k + v / 256 % 256 ^ n * 256 ^ (k + 1) := by
      rw [pow_succ' 256 n, Nat.mod_mul]; ring
    have hplace : (v % 256) <<< (8 * k) = v % 256 * 256 ^ k := by rw [Nat.shiftLeft_eq, pow_mul]; rfl
    rw [hsplit]
    by_cases hv : v = 0
    · simp [cellsOf, hv]
    · by_cases hm : v % 256 = 0
      · simp [cellsOf, hv, hm, add_assoc, ih]
      · simp [cellsOf, hv, hm, add_assoc, ih, hplace]

/-- What a store put in, a load gives back. -/
theorem Mem.load_store (m : Mem) (a n v : Nat) : (m.store a n v).load a n = v % 256 ^ n := by
  have hin : ∀ c ∈ cellsOf n a v, (decide (a ≤ c.1) && decide (c.1 < a + n)) = true := fun c hc => by
    simpa using (cellsOf_wf n a v).2 c hc
  have hlow : ((m.filter fun c => c.1 < a).filter fun c => a ≤ c.1 && c.1 < a + n) = [] := by
    simp [List.filter_filter, List.filter_eq_nil_iff]; omega
  have hhigh : ((m.filter fun c => a + n ≤ c.1).filter fun c => a ≤ c.1 && c.1 < a + n) = [] := by
    simp [List.filter_filter, List.filter_eq_nil_iff]
  unfold Mem.load Mem.store
  rw [List.filter_append, List.filter_append, hlow, hhigh, List.filter_eq_self.mpr hin]
  simpa using foldl_cellsOf a 0 n v 0

/-- A store leaves every byte outside it. -/
theorem Mem.read_store_outside (h : Memory.wf m = true) (hx : x < a ∨ a + n ≤ x) : (m.store a n v).read x = m.read x := by
  have hcells := (cellsOf_wf n a v).2
  have hlow : ∀ c ∈ m.filter fun c => c.1 < a, c.1 < a := fun c hc => by simpa using (List.mem_filter.mp hc).2
  have hhigh : ∀ c ∈ m.filter fun c => a + n ≤ c.1, a + n ≤ c.1 := fun c hc => by simpa using (List.mem_filter.mp hc).2
  unfold Mem.read Mem.store
  rcases hx with hx | hx
  · rw [tget_append_of_below fun c hc => by have := hhigh c hc; omega,
      tget_append_of_below fun c hc => by have := hcells c hc; omega]
    exact tget_filter_of_kept h (by simp [hx])
  · rw [List.append_assoc, tget_append_of_above fun c hc => by have := hlow c hc; omega,
      tget_append_of_above fun c hc => by have := hcells c hc; omega]
    exact tget_filter_of_kept h (by simp [hx])

/-- A cleared range lists no cell. -/
theorem Mem.filter_clear (m : Mem) (a n : Nat) : ((m.clear a n).filter fun c => a ≤ c.1 && c.1 < a + n) = [] := by
  simp [Mem.clear, List.filter_filter, List.filter_eq_nil_iff]

theorem Mem.load_clear (m : Mem) (a n : Nat) : (m.clear a n).load a n = 0 := by
  rw [Mem.load, Mem.filter_clear]; rfl

theorem Mem.load_zero (m : Mem) (a : Nat) : m.load a 0 = 0 := by
  have hnone : (m.filter fun c => a ≤ c.1 && c.1 < a + 0) = [] := by simp [List.filter_eq_nil_iff]
  rw [Mem.load, hnone]; rfl

/-- Clearing leaves every byte outside the range. -/
theorem Mem.read_clear_outside (h : Memory.wf m = true) (hx : x < a ∨ a + n ≤ x) : (m.clear a n).read x = m.read x :=
  tget_filter_of_kept h (by simpa using hx)

end Bytes

/-! ### Whole words under the symbol code (R144, R164) -/

section Words

variable {a n : Nat}

theorem partialWords_of_whole (ha : a % 8 = 0) (hn : n % 8 = 0) : partialWords a n = [] := by
  have han : (a + n) % 8 = 0 := by omega
  simp [partialWords, ha, han]

/-- The check symbols that a write or a read of whole words touches. -/
theorem wordSpan_of_whole (ha : a % 8 = 0) (hn : n % 8 = 0) (h0 : n ≠ 0) :
    2 * ((a + n - 1) / 8) + 2 = 2 * (a / 8) + 2 * (n / 8) := by omega

theorem Ram.writeAt_empty (r : Ram) (a v : Nat) : r.writeAt a 0 v = r := rfl

/-- A write of whole words stores them and makes their check symbols valid, whatever they held. -/
theorem Ram.writeAt_whole (r : Ram) (v : Nat) (ha : a % 8 = 0) (hn : n % 8 = 0) (h0 : n ≠ 0) :
    r.writeAt a n v = { data := r.data.store a n v, chk := r.chk.clear (2 * (a / 8)) (2 * (n / 8)) } := by
  simp [Ram.writeAt, h0, partialWords_of_whole ha hn, wordSpan_of_whole ha hn h0]

/-- A read of words of which none deviates gives the bytes as they are stored. -/
theorem Ram.readAt_of_valid {r : Ram} (h : r.oddWords a n = []) : r.readAt a n = ⟨r.data.load a n, [], []⟩ := by
  simp [Ram.readAt, h]

/-- After a write of whole words none of them deviates. -/
theorem Ram.oddWords_writeAt (r : Ram) (v : Nat) (ha : a % 8 = 0) (hn : n % 8 = 0) : (r.writeAt a n v).oddWords a n = [] := by
  by_cases h0 : n = 0
  · simp [Ram.oddWords, h0]
  · simp [Ram.oddWords, h0, Ram.writeAt_whole r v ha hn h0, wordSpan_of_whole ha hn h0, Mem.filter_clear]

/-- Words written whole read back exactly, with no correction and no bad word. -/
theorem Ram.readAt_writeAt (r : Ram) (v : Nat) (ha : a % 8 = 0) (hn : n % 8 = 0) :
    (r.writeAt a n v).readAt a n = ⟨v % 256 ^ n, [], []⟩ := by
  rw [Ram.readAt_of_valid (Ram.oddWords_writeAt r v ha hn)]
  by_cases h0 : n = 0
  · subst h0; simp [Ram.writeAt_empty, Mem.load_zero, Nat.mod_one]
  · rw [Ram.writeAt_whole r v ha hn h0, Mem.load_store]

/-- A write of whole words keeps the canonical form and every byte and check symbol of the other words. -/
theorem Ram.writeAt_frame {r : Ram} (hd : Memory.wf r.data = true) (hc : Memory.wf r.chk = true) (v : Nat) (ha : a % 8 = 0)
    (hn : n % 8 = 0) :
    Memory.wf (r.writeAt a n v).data = true ∧ Memory.wf (r.writeAt a n v).chk = true ∧
    (∀ x, x < a ∨ a + n ≤ x → (r.writeAt a n v).data.read x = r.data.read x) ∧
    (∀ k, k < a / 8 ∨ (a + n) / 8 ≤ k → (r.writeAt a n v).chkOf k = r.chkOf k) := by
  by_cases h0 : n = 0
  · subst h0; exact ⟨hd, hc, fun _ _ => rfl, fun _ _ => rfl⟩
  · rw [Ram.writeAt_whole r v ha hn h0]
    refine ⟨Mem.store_canon hd a n v, Mem.clear_canon hc _ _, fun x hx => Mem.read_store_outside hd hx, fun k hk => ?_⟩
    have hout : ∀ i < 2, (r.chk.clear (2 * (a / 8)) (2 * (n / 8))).read (2 * k + i) = r.chk.read (2 * k + i) := fun i hi =>
      Mem.read_clear_outside hc (by omega)
    simpa [Ram.chkOf] using And.intro (congrArg BitVec.toNat (hout 0 (by omega))) (congrArg BitVec.toNat (hout 1 (by omega)))

end Words

/-- Settles O17: the cells of a store add up to its value and are the only ones in its range, and a write of whole words
clears their check deviations. -/
theorem memoriesReadBack : Obligations.MemoriesReadBack := by
  refine ⟨fun m a n v h => ?_, fun r a n v hd hc ha hn => ?_⟩
  · exact ⟨Mem.store_canon h a n v, Mem.load_store m a n v, fun _ hx => Mem.read_store_outside h hx,
      Mem.clear_canon h a n, Mem.load_clear m a n, fun _ hx => Mem.read_clear_outside h hx⟩
  · obtain ⟨hdata, hchk, hbytes, hwords⟩ := Ram.writeAt_frame hd hc v ha hn
    exact ⟨hdata, hchk, Ram.readAt_writeAt r v ha hn, hbytes, hwords⟩

end Sys2Proof.Machine
end

section
/-! SUPPORT. What a host access to BAR0 does, for `Obligations.BarRegisterCommandsComplete` (O32): where it acts, the bits a
write of ones clears, and the effect of each register. -/

namespace Sys2Proof.Machine

/-! ### Bit sets and fields (R12, R13) -/

theorem testBit_packBits_flags (w : Nat) (f : Nat → Bool) (k : Nat) :
    (packBits ((List.range w).map fun i => (1, b2n (f i)))).testBit k = (decide (k < w) && f k) := by
  induction w generalizing f k with
  | zero => simp [packBits]
  | succ w ih =>
    have hhead : ∀ b : Bool, b2n b % 2 ^ 1 = b.toNat := by decide
    rw [List.range_succ_eq_map, List.map_cons, List.map_map, packBits, hhead, Nat.shiftLeft_eq, pow_one, mul_comm]
    have htail : (List.range w).map ((fun i => (1, b2n (f i))) ∘ Nat.succ) =
        (List.range w).map fun i => (1, b2n (f (i + 1))) := rfl
    rw [htail, add_comm]
    cases k with
    | zero => cases f 0 <;> simp
    | succ k =>
      rw [Nat.testBit_succ]
      have hhalf : ∀ (y : Nat) (b : Bool), (2 * y + b.toNat) / 2 = y := fun y b => by cases b <;> simp; omega
      simp [hhalf, ih fun i => f (i + 1)]

/-- What a write to `w` W1C bits leaves, told by its bits. -/
theorem w1c_eq {w old v base noc n : Nat} {at_ : Tab Nat} (hn : n < 2 ^ w)
    (h : ∀ k < w, n.testBit k = (old.testBit k && !(v.testBit k && tget 0 at_ (base + k) ≠ noc + 1))) :
    w1c w old v base noc at_ = n := by
  apply Nat.eq_of_testBit_eq
  intro k
  rw [w1c, testBit_packBits_flags]
  by_cases hk : k < w
  · simp [hk, h k hk]
  · simp [hk, Nat.testBit_lt_two_pow (hn.trans_le (Nat.pow_le_pow_right two_pos (not_lt.mp hk)))]

@[simp] theorem setBits_mod (v lsb n x : Nat) : setBits v lsb n (x % 2 ^ n) = setBits v lsb n x := by simp [setBits]

/-! ### Where an access acts (R379, R436) -/

/-- The state in which an access of the host acts: BAR0 has answered, so the link is up (log entry 112). -/
def State.onAccess (s : State) (at_ : Nat) : State := (s.tick at_).onPcie fun p => { p with linkUp := true }

theorem State.host_of_barUp {s : State} (h : s.barUp = true) (at_ : Nat) (f : State → State) :
    (s.tick at_).host f = f (s.onAccess at_) := if_pos h

theorem exec_registerWrite {s : State} (h : s.barUp = true) (at_ off width v : Nat) :
    exec (.registerWrite at_ off width v) s = .next ((s.onAccess at_).barWrite off width v) :=
  congrArg Host.Outcome.next (State.host_of_barUp h at_ _)

theorem State.barWrite_of_misaligned (s : State) {off width : Nat} (v : Nat)
    (h : width ≠ 4 ∧ width ≠ 8 ∨ off % width ≠ 0) : s.barWrite off width v = s := by
  have ha : barAligned off width = false := by
    rcases h with ⟨h4, h8⟩ | h
    · simp [barAligned, h4, h8]
    · simp [barAligned, h]
  simp [State.barWrite, ha]

/-- A naturally aligned 32-bit access writes its word. -/
theorem State.barWrite_word (s : State) {off : Nat} (v : Nat) (ha : off % 4 = 0) (hlt : off < 65536) :
    s.barWrite off 4 v = s.barWrite32 off (v % 2 ^ 32) := by simp [State.barWrite, barAligned, ha, hlt]

/-- DEV_ID is read only. -/
theorem State.barWrite_devId (s : State) (v : Nat) : s.barWrite 0x0000 8 v = s := rfl

/-! ### RESET_CAUSE and WAKE_CAUSE (R13, R384) -/

section Cause

variable {s : State} {v n : Nat}

theorem testBit_low {k w : Nat} (hw : w ≤ 32) (hk : k < w) (v : Nat) : (v % 2 ^ 32).testBit k = v.testBit k := by
  rw [Nat.testBit_mod_two_pow, decide_eq_true (hk.trans_le hw), Bool.true_and]

theorem State.barWrite32_resetCause (hn : n < 2 ^ 9)
    (h : ∀ k < 9, n.testBit k = (s.aon.resetCause.testBit k && !(v.testBit k && tget 0 s.aon.causeAt k ≠ s.nocNow + 1))) :
    s.barWrite32 0x0010 (v % 2 ^ 32) = s.onAon fun a => { a with resetCause := n } := by
  have hw : w1c 9 s.aon.resetCause (v % 2 ^ 32) 0 s.nocNow s.aon.causeAt = n :=
    w1c_eq hn fun k hk => by rw [testBit_low (by omega) hk, Nat.zero_add, h k hk]
  have hwrite (x : Nat) : s.barWrite32 0x0010 x =
      s.onAon fun a => { a with resetCause := w1c 9 a.resetCause x 0 s.nocNow a.causeAt } := rfl
  simp only [hwrite, State.onAon, hw]

theorem State.barWrite32_wakeCause (hn : n < 2 ^ 5)
    (h : ∀ k < 5, n.testBit k = (s.aon.wakeCause.testBit k && !(v.testBit k && tget 0 s.aon.causeAt (16 + k) ≠ s.nocNow + 1))) :
    s.barWrite32 0x0014 (v % 2 ^ 32) = s.onAon fun a => { a with wakeCause := n } := by
  have hw : w1c 5 s.aon.wakeCause (v % 2 ^ 32) 16 s.nocNow s.aon.causeAt = n :=
    w1c_eq hn fun k hk => by rw [testBit_low (by omega) hk, h k hk]
  have hwrite (x : Nat) : s.barWrite32 0x0014 x =
      s.onAon fun a => { a with wakeCause := w1c 5 a.wakeCause x 16 s.nocNow a.causeAt } := rfl
  simp only [hwrite, State.onAon, hw]

end Cause

/-! ### The event ring (R394, R441) -/

/-- EV_HEAD keeps 32 bits of what is written. -/
theorem State.barWrite32_evHead (s : State) (v : Nat) :
    s.barWrite32 0x010C (v % 2 ^ 32) = s.onPcie fun p => { p with evHead := v % 2 ^ 32 } := by
  simp [State.barWrite32]

/-- While the ring is disabled the low half of EV_BASE takes what is written. -/
theorem State.barWrite32_evBaseLow {s : State} (h : s.pcie.evEnable = false) (v : Nat) :
    s.barWrite32 0x0100 (v % 2 ^ 32) = s.onPcie fun p => { p with evBase := setBits p.evBase 0 32 v } := by
  simp only [State.barWrite32, State.onPcie, h, setBits_mod]; rfl

/-- While the ring is disabled the high half of EV_BASE takes what is written. -/
theorem State.barWrite32_evBaseHigh {s : State} (h : s.pcie.evEnable = false) (v : Nat) :
    s.barWrite32 0x0104 (v % 2 ^ 32) = s.onPcie fun p => { p with evBase := setBits p.evBase 32 32 v } := by
  simp only [State.barWrite32, State.onPcie, h, setBits_mod]; rfl

/-- A disabled ring enabled by EV_CTRL: the written fields taken and the counts zeroed. -/
def State.ringOn (s : State) (v : Nat) : State := s.onPcie fun p =>
  { p with evEnable := true, evSize := bits v 1 4, evVector := bits v 5 4, evIrqEn := bit v 9, evHold := bits v 16 16
           evTail := 0, evHead := 0, evLost := 0 }

/-- Enabling a disabled ring, with no rail record kept: a held DEVICE_RESET is the first event. -/
theorem State.evControl_enables {s : State} {v : Nat} (hv : bit v 0 = true) (hoff : s.pcie.evEnable = false)
    (hrail : s.aon.railRec = none) :
    s.evControl v =
      if s.pcie.heldReset then
        ((s.ringOn v).onPcie fun p => { p with heldReset := false }).raise Ev.deviceReset 0
          [(9, s.aon.resetCause), (5, s.aon.wakeCause)]
      else s.ringOn v := by
  unfold State.evControl State.ringOn
  cases hheld : s.pcie.heldReset <;> simp [State.onPcie, hv, hoff, hheld, hrail]

/-- The interrupt that entries written during the holdoff wait for goes out once it has passed. -/
theorem State.irqHoldoff_sends {s : State} (hdue : s.pcie.evIrqDue = true) (hen : s.pcie.evIrqEn = true)
    (hpast : s.due s.pcie.evIrqAt (s.pcie.evHold * oneUs) = true) :
    s.irqHoldoff = (s.sendMsix s.pcie.evVector).onPcie fun p => { p with evIrqAt := some s.now, evIrqDue := false } := by
  simp [State.irqHoldoff, State.evInterrupt, hdue, hen, hpast]

theorem State.due_of_passed {s : State} {last : Option Nat} {gap : Nat} (h : ∀ d, last = some d → d + gap ≤ s.now) :
    s.due last gap = true := by
  cases last with
  | none => rfl
  | some d => simpa [State.due] using h d rfl

/-! ### HT_SNAP and DOORBELL_STUCK (R384, R440) -/

theorem State.htSnap_of_valid {s : State} (h : s.htValid = true) :
    s.htSnap = s.onHt fun x => { x with snapHt := s.htNow, snapState := x.state.code, snapValid := true } := by
  simp [State.htSnap, h]

/-- 10 ms of over-fast doorbells are counted and raised once. -/
theorem State.doorbellStuck_raises {s : State} {mb d : Nat} (hfast : (s.mbox mb).dbFast = some d)
    (hnew : (s.mbox mb).dbStuck = false) (hlong : d + 10 * oneMs ≤ s.now) :
    s.doorbellStuck mb =
      ((s.putMbox mb { s.mbox mb with dbStuck := true }).onAon fun a => { a with dbStuck := satAdd 16 a.dbStuck 1 }).raise
        Ev.doorbellStuck mb [(4, mb)] := by
  simp [State.doorbellStuck, hfast, hnew, hlong.not_gt]

/-- Settles O32: each command acts in the state its access shows, and each register's rule gives the whole next state. -/
theorem barRegisterCommandsComplete : Obligations.BarRegisterCommandsComplete := by
  intro s at_
  refine ⟨fun v hup hoff hrail => ?ring, fun hup hvalid => ?snap, fun v n hup hn hbits => ?reset, fun v n hup hn hbits => ?wake,
    fun v hup => ?regs, fun off width v hup hmis => ?misaligned, fun mb d hfast hnew hlong => ?stuck, fun hdue hen hpast => ?irq⟩
  case ring =>
    have hone : bit (v ||| 1) 0 = true := by simp [bit]
    have hexec : exec (.evRingEnable at_ v) s = .next ((s.onAccess at_).evControl (v ||| 1)) :=
      congrArg Host.Outcome.next (State.host_of_barUp hup at_ _)
    rw [hexec, State.evControl_enables (s := s.onAccess at_) hone hoff hrail]
    exact ⟨fun hheld => congrArg Host.Outcome.next (if_neg (by simpa [State.onAccess, State.onPcie] using hheld)),
      fun hheld => congrArg Host.Outcome.next (if_pos hheld)⟩
  case snap =>
    calc exec (.htSnapTrigger at_) s = .next (s.onAccess at_).htSnap := congrArg Host.Outcome.next (State.host_of_barUp hup at_ _)
      _ = _ := congrArg Host.Outcome.next (State.htSnap_of_valid (s := s.onAccess at_) hvalid)
  case reset =>
    rw [exec_registerWrite hup, State.barWrite_word _ v (by decide) (by decide),
      State.barWrite32_resetCause (s := s.onAccess at_) hn hbits]
    rfl
  case wake =>
    rw [exec_registerWrite hup, State.barWrite_word _ v (by decide) (by decide),
      State.barWrite32_wakeCause (s := s.onAccess at_) hn hbits]
    rfl
  case regs =>
    simp only [exec_registerWrite hup]
    refine ⟨?_, fun hoff => ?_, fun hoff => ?_, ?_⟩
    · rw [State.barWrite_word _ v (by decide) (by decide), State.barWrite32_evHead]; rfl
    · rw [State.barWrite_word _ v (by decide) (by decide), State.barWrite32_evBaseLow (s := s.onAccess at_) hoff]; rfl
    · rw [State.barWrite_word _ v (by decide) (by decide), State.barWrite32_evBaseHigh (s := s.onAccess at_) hoff]; rfl
    · rw [State.barWrite_devId]; rfl
  case misaligned =>
    rw [exec_registerWrite hup, State.barWrite_of_misaligned _ v hmis]; rfl
  case stuck =>
    exact congrArg Host.Outcome.next (State.doorbellStuck_raises (s := s.tick at_) hfast hnew hlong)
  case irq =>
    exact congrArg Host.Outcome.next (State.irqHoldoff_sends (s := s.tick at_) hdue hen (State.due_of_passed hpast))

end Sys2Proof.Machine
end

section
/-! SUPPORT. What leaves the sync objects and the job as they are, for `Obligations.SyncObjectRule` (O13): an arm and a restore
set them once, and nothing that follows touches them again. -/

namespace Sys2Proof.Machine

/-! ### Setting an index to a value other than the default -/

/-- Such a write needs no canonical form: the index reads the value, and every other index reads as before. -/
theorem tget_tset_of_ne {α : Type} [DecidableEq α] {d x : α} (hx : x ≠ d) (t : Tab α) (k j : Nat) :
    tget d (tset d t k x) j = if j = k then x else tget d t j := by
  induction t with
  | nil => simp [tset, tget, hx]
  | cons c t ih =>
    obtain ⟨i, v⟩ := c
    rcases lt_trichotomy k i with hk | rfl | hk
    · by_cases hj : j = k
      · simp [tset, tget, hk, hx, hj]
      · by_cases hlt : j < k
        · have : j < i := by omega
          simp [tset, tget, hk, hx, hj, hlt, this, this.ne]
        · simp [tset, tget, hk, hx, hj, hlt]
    · by_cases hj : j = k <;> simp [tset, tget, hx, hj]
    · have hki : ¬ k < i := by omega
      by_cases hji : j = i
      · simp [tset, tget, hki, hk.ne', hji, hk.ne]
      · by_cases hlt : j < i
        · have : j ≠ k := by omega
          simp [tset, tget, hki, hk.ne', hji, hlt, this]
        · simp [tset, tget, hki, hk.ne', hji, hlt, ih]

/-- A sync object that has counted a signal differs from the one that every unlisted index reads as. -/
theorem State.so_putSo_of_counted (s : State) {o : SyncObj} (h : o.count ≠ 0) (k i : Nat) :
    (s.putSo k o).so i = if i = k then o else s.so i :=
  tget_tset_of_ne (fun e => h (congrArg SyncObj.count e)) s.sos k i

/-! ### What keeps the sync objects and the job -/

/-- `t` has the sync objects and the job of `s`. -/
def State.KeepsSync (s t : State) : Prop := t.sos = s.sos ∧ t.soStart = s.soStart ∧ t.job = s.job

namespace State.KeepsSync

variable {s t u : State}

theorem refl (s : State) : s.KeepsSync s := ⟨rfl, rfl, rfl⟩

theorem trans (h : s.KeepsSync t) (h' : t.KeepsSync u) : s.KeepsSync u :=
  ⟨h'.1.trans h.1, h'.2.1.trans h.2.1, h'.2.2.trans h.2.2⟩

theorem so_eq (h : s.KeepsSync t) (k : Nat) : t.so k = s.so k := by
  obtain ⟨hsos, hstart, -⟩ := h
  rw [State.so, State.so, hsos, hstart]

/-- One operation for each element of a list. -/
theorem foldl {α : Type} {f : State → α → State} (hf : ∀ (s : State) (a : α), s.KeepsSync (f s a)) (l : List α) (s : State) :
    s.KeepsSync (l.foldl f s) := by
  induction l generalizing s with
  | nil => exact refl s
  | cons a l ih => exact (hf s a).trans (ih _)

theorem ite {p : Prop} [Decidable p] (ht : s.KeepsSync t) (hu : s.KeepsSync u) : s.KeepsSync (if p then t else u) := by
  split
  · exact ht
  · exact hu

theorem raise (s : State) (e : Ev) (unit : Nat) (items : List (Nat × Nat)) (step : Nat) (guest : Bool) :
    s.KeepsSync (s.raise e unit items step guest) := ⟨by simp, by simp, by simp⟩

theorem raiseRound (s : State) (e : Ev) (f r : Nat) (site : Option Nat) : s.KeepsSync (s.raiseRound e f r site) :=
  raise ..

theorem onFrag (s : State) (f : Nat) (g : Fragment → Fragment) : s.KeepsSync (s.onFrag f g) := refl s

theorem onPcie (s : State) (f : Pcie → Pcie) : s.KeepsSync (s.onPcie f) := refl s

theorem onIsl (s : State) (f : Island → Island) : s.KeepsSync (s.onIsl f) := refl s

theorem measure (s : State) (kind detail : Nat) (digest : Buf) : s.KeepsSync (s.measure kind detail digest) := onIsl ..

theorem oasisWrite (s : State) (a n v : Nat) (bad : Bool) : s.KeepsSync (s.oasisWrite a n v bad) := ite (refl _) (refl _)

theorem scratchWrite (s : State) (core a n v : Nat) (bad : Bool) : s.KeepsSync (s.scratchWrite core a n v bad) :=
  ite (refl _) (refl _)

theorem ergWrite (s : State) (ela n v : Nat) (bad : Bool) : s.KeepsSync (s.ergWrite ela n v bad) := by
  refine foldl (fun s p => ?_) _ _
  dsimp only
  split
  · exact refl s
  · exact refl s

theorem initRegion (s : State) (b : Buf) (r : Region) : s.KeepsSync (s.initRegion b r) := by
  unfold State.initRegion
  split
  · exact refl s
  · split
    · exact ergWrite ..
    · exact oasisWrite ..
    · exact scratchWrite ..

theorem putApply (s : State) (b : Buf) (f round mode : Nat) (ready : Bool) (step : Nat) :
    s.KeepsSync (s.putApply b f round mode ready step) := by
  refine foldl (fun s p => ?_) _ _
  exact oasisWrite ..

theorem enterBootstrap (s : State) (b : Buf) (f : Nat) (donor : Option Nat) : s.KeepsSync (s.enterBootstrap b f donor) :=
  (putApply s b f 0 0 false 0).trans (onFrag _ f _)

theorem armFrags (s : State) (b : Buf) (join : Option (Option Nat)) : s.KeepsSync (s.armFrags b join) := by
  refine trans (t := s.onAcx fun a => { a with frags := [] }) (refl s) (foldl (fun s f => ?_) _ _)
  have hput := putApply (s.putFrag f { Fragment.reset with jstate := 3, active := imgSites b }) b f 0 0 false 0
  cases join with
  | none => exact hput
  | some d => exact hput.trans (enterBootstrap ..)

theorem storeCopy (s : State) (b params : Buf) : s.KeepsSync (s.storeCopy b params) := by
  unfold State.storeCopy
  split
  · exact refl s
  · exact ergWrite ..

theorem sendNeighbourNotices (s : State) : s.KeepsSync s.sendNeighbourNotices := by
  unfold State.sendNeighbourNotices
  split
  · exact refl s
  · refine foldl (fun s p => ?_) _ _
    exact refl s

theorem sendHello (s : State) (k type session : Nat) (payload : Buf) : s.KeepsSync (s.sendHello k type session payload) := by
  refine foldl (fun s r => ?_) _ _
  exact ite (refl s) (refl s)

theorem initSession (s : State) (peer port : Nat) (bulk : Bool) (mb : Option Nat) :
    s.KeepsSync (s.initSession peer port bulk mb).1 := by
  unfold State.initSession
  split
  · exact refl s
  · split
    · exact refl s
    · rename_i k hk
      have hid : s.KeepsSync s.pickSessId.2 := refl s
      extract_lets keep
      split
      rename_i id s1 h1
      split
      rename_i n s2 h2
      extract_lets head body pay x s3
      rw [h1] at hid
      have hn : s1.KeepsSync s1.random.2 := refl s1
      rw [h2] at hn
      have hx : s2.KeepsSync (s2.putSess k x) := refl s2
      have hweir : (s2.putSess k x).KeepsSync s3 := refl _
      exact ((hid.trans hn).trans (hx.trans hweir)).trans (sendHello ..)

theorem callPartners (s : State) (b : Buf) : s.KeepsSync (s.callPartners b) := by
  refine foldl (fun s k => ?_) _ _
  split
  · exact ite (initSession ..) (refl s)
  · exact initSession ..

theorem writeCopy (s : State) (x : Shard) (c : Copy) (e n v : Nat) : s.KeepsSync (s.writeCopy x c e n v) :=
  ite (oasisWrite ..) (ergWrite ..)

theorem offerPartners (s : State) (l : List Datagram) : s.KeepsSync (s.offerPartners l) := by
  refine foldl (fun s site => ?_) _ _
  split
  · exact ite (ite (refl s) (refl s)) (refl s)
  · exact refl s

theorem adopt (s : State) (f : Nat) (m : Buf) : s.KeepsSync (s.adopt f m) := by
  unfold State.adopt
  extract_lets x r own next old mine s1 s2 s3 s4 y listedAny stale s5
  have h1 : s.KeepsSync s1 := onFrag ..
  have h2 : s1.KeepsSync s2 := ite (refl _) (offerPartners ..)
  have h3 : s2.KeepsSync s3 := raiseRound ..
  have h4 : s3.KeepsSync s4 := by
    refine foldl (fun s k => ?_) _ _
    exact ite (refl s) (raiseRound ..)
  have h5 : s4.KeepsSync s5 := by
    refine foldl (fun s p => ?_) _ _
    exact (onFrag s f _).trans (raiseRound ..)
  refine (((h1.trans h2).trans h3).trans h4).trans (h5.trans (ite ?_ (refl _)))
  exact (onFrag s5 f _).trans (raiseRound ..)

theorem replayItems (n : Nat) (l : List LogItem) (last : Nat × Nat) (s : State) : s.KeepsSync (State.replayItems n last l s) := by
  induction l generalizing last s with
  | nil => exact refl s
  | cons i l ih =>
    unfold State.replayItems
    split
    · exact (ite (refl s) (onFrag ..)).trans (ih _ _)
    · refine trans (ite (refl s) ?_) (ih _ _)
      exact (onFrag s _ _).trans (ite (adopt ..) (refl _))

theorem replayLog (s : State) (n : Nat) (l : List LogItem) (cs : List Supplied) : s.KeepsSync (s.replayLog n l cs) :=
  (foldl (fun s c => onFrag s c.frag _) cs s).trans (replayItems ..)

end State.KeepsSync

/-! ### Arm and restore (R58) -/

/-- An arm starts every sync object one below step 0. -/
theorem State.so_armJob (s : State) (b : Buf) (epoch : Option Int) (seed sfl : Nat) (join : Option (Option Nat)) (k : Nat) :
    (s.armJob b epoch seed sfl join).so k = ⟨-1, 0, false⟩ := by
  unfold State.armJob
  extract_lets j s0 s1 s2 s3 s4 s5 s6
  have h2 : s1.KeepsSync s2 := .foldl (fun s r => .initRegion s b r) _ _
  have h3 : s2.KeepsSync s3 := .onPcie ..
  have h4 : s3.KeepsSync s4 := (KeepsSync.armFrags s3 b join).trans (.storeCopy ..)
  have h5 : s4.KeepsSync s5 := .measure ..
  have h6 : s5.KeepsSync s6 := .ite (.sendNeighbourNotices _) (.refl _)
  have h7 : s6.KeepsSync ((s6.callPartners b).raise Ev.jobArmed) := (KeepsSync.callPartners s6 b).trans (.raise ..)
  exact ((h2.trans h3).trans (h4.trans h5)).trans (h6.trans h7) |>.so_eq k

/-- The records of a restore leave the job at the step they name, and every sync object one below it. -/
theorem State.restoreRecs_starts (s : State) (j : Job) (l : List Rec) (resume : Option Int) (join : Option (Option Nat)) :
    ∃ j', (s.restoreRecs j l resume join).job = some j' ∧
      ∀ k, (s.restoreRecs j l resume join).so k = ⟨(j'.step : Int) - 1, 0, false⟩ := by
  unfold State.restoreRecs
  extract_lets b jr n sn scale h h' s1 s2 s3 s4 s5 s6
  have h5 : s4.KeepsSync s5 := by
    simp only [s5]
    split
    · refine .foldl (fun s f => ?_) _ _
      exact .refl s
    · refine .foldl (fun s f => ?_) _ _
      exact .onFrag s f _
  have h6 : s5.KeepsSync s6 := by
    refine .foldl (fun s f => ?_) _ _
    have hput := KeepsSync.putApply s b f 0 0 false 0
    dsimp only
    split
    · exact hput.trans (.enterBootstrap ..)
    · exact hput.trans (.ite (.enterBootstrap ..) (.refl _))
  have h7 : s4.KeepsSync (if scale then s6 else s6.raise Ev.scaleHistoryAbsent 0 [] n) :=
    (h5.trans h6).trans (.ite (.refl _) (.raise ..))
  exact ⟨_, h7.2.2.trans rfl, fun k => h7.so_eq k⟩

theorem importStatus_ne_zero (b : Buf) (l : List Rec) : importStatus b l ≠ some 0 := by
  unfold importStatus
  dsimp only
  split_ifs <;> simp

theorem State.resumeStatus_ne_zero (s : State) (h : Int) (sn : Nat) : s.resumeStatus h sn ≠ some 0 := by
  unfold State.resumeStatus
  split_ifs <;> simp

/-- A restore that succeeds leaves the job at a step, and every sync object one below it. -/
theorem State.restoreFrom_starts {s t : State} {e in1 : Buf} {recs : Option (List Rec)} (h : s.restoreFrom e in1 recs = (0, t)) :
    ∃ j, t.job = some j ∧ ∀ k, t.so k = ⟨(j.step : Int) - 1, 0, false⟩ := by
  unfold State.restoreFrom at h
  split at h
  · simp at h
  · rename_i j _
    split at h
    · simp at h
    · rename_i l
      split at h
      · rename_i st hst
        obtain rfl : st = 0 := congrArg Prod.fst h
        exact absurd hst (importStatus_ne_zero _ _)
      · extract_lets jr replay log s1 at h
        split at h
        · rename_i st hst
          obtain rfl : st = 0 := congrArg Prod.fst h
          exact absurd hst (State.resumeStatus_ne_zero _ _ _)
        · split at h
          · simp at h
          · extract_lets s2 at h
            obtain rfl := congrArg Prod.snd h
            obtain ⟨j', hjob, hso⟩ := s.restoreRecs_starts j l (some (sext 64 (e.fld 512 64))) (joinOf (e.flag 579) (e.fld 580 3))
            have hkeep : s1.KeepsSync ((s2.sendNeighbourNotices.callPartners j.image).raise Ev.jobRestored 0 [] (jr.fld 0 64)) :=
              (KeepsSync.ite (.replayLog ..) (.refl _)).trans
                ((KeepsSync.sendNeighbourNotices s2).trans ((KeepsSync.callPartners _ _).trans (.raise ..)))
            exact ⟨j', hkeep.2.2.trans hjob, fun k => (hkeep.so_eq k).trans (hso k)⟩

/-! ### Signals (R58) -/

theorem exec_soSignal_newer {s : State} {k : Nat} {m : Int} (h : (s.so k).step < m) (at_ : Nat) (skip : Bool) :
    exec (.soSignal at_ k m skip) s = .next ((s.tick at_).putSo k ⟨m, 1, skip⟩) := by
  have hsig : (s.tick at_).signal k m skip = (s.tick at_).putSo k ⟨m, 1, skip⟩ := by
    simp [State.signal, SyncObj.signal, h, Int.not_lt.mpr h.le]
  exact congrArg Host.Outcome.next hsig

theorem exec_soSignal_equal {s : State} {k : Nat} {m : Int} (h : (s.so k).step = m) (at_ : Nat) (skip : Bool) :
    exec (.soSignal at_ k m skip) s =
      .next ((s.tick at_).putSo k ⟨m, satAdd 32 (s.so k).count 1, (s.so k).skip || skip⟩) := by
  have hsig : (s.tick at_).signal k m skip =
      (s.tick at_).putSo k ⟨m, satAdd 32 (s.so k).count 1, (s.so k).skip || skip⟩ := by
    simp [State.signal, SyncObj.signal, h]
  exact congrArg Host.Outcome.next hsig

theorem exec_soSignal_older {s : State} {k : Nat} {m : Int} (h : m < (s.so k).step) (at_ : Nat) (skip : Bool) :
    exec (.soSignal at_ k m skip) s =
      .next (({ s.tick at_ with soStale := s.soStale + 1 } : State).raise Ev.soStaleSignal 0 [] m.toNat) := by
  have hsig : (s.tick at_).signal k m skip =
      ({ s.tick at_ with soStale := s.soStale + 1 } : State).raise Ev.soStaleSignal 0 [] m.toNat := by
    simp [State.signal, h]
  exact congrArg Host.Outcome.next hsig

/-- Settles O13: a signal writes the object that has counted it, or counts a stale one; an arm and a restore start them all. -/
theorem syncObjectRule : Obligations.SyncObjectRule := by
  refine ⟨fun s at_ k m skip => ⟨fun hlt => ?newer, fun heq => ?equal, fun hgt => ?older⟩, fun s b epoch seed sfl join k =>
    s.so_armJob b epoch seed sfl join k, fun s t e in1 recs h => State.restoreFrom_starts h⟩
  case newer =>
    have hso := (s.tick at_).so_putSo_of_counted (o := ⟨m, 1, skip⟩) one_ne_zero k
    exact ⟨_, exec_soSignal_newer hlt at_ skip, rfl, (hso k).trans (if_pos rfl), fun i hi => (hso i).trans (if_neg hi)⟩
  case equal =>
    have hcount : satAdd 32 (s.so k).count 1 ≠ 0 := by
      simp only [satAdd, Nat.min_def]
      split <;> omega
    have hso := (s.tick at_).so_putSo_of_counted (o := ⟨m, satAdd 32 (s.so k).count 1, (s.so k).skip || skip⟩) hcount k
    exact ⟨_, exec_soSignal_equal heq.symm at_ skip, rfl, (hso k).trans (if_pos rfl), fun i hi => (hso i).trans (if_neg hi)⟩
  case older =>
    exact ⟨_, exec_soSignal_older hgt at_ skip, rfl, fun i => State.raise_so ..⟩

end Sys2Proof.Machine
end

section
/-! SUPPORT. How an entry of the timetable is judged and what its rows do with one that may not start, for
`Obligations.MissesAreResolved` (O44). -/

namespace Sys2Proof.Machine

/-! ### The judgement of an entry (R59 to R62) -/

section Judge

variable {s : State} {j : Job} {i : Nat} {e : Entry} {idle : Bool}

theorem State.judge_notYet (h : ¬ ((s.ent i = .idle ∨ s.ent i = .waiting) ∧ ((j.sn + e.offset : Nat) : Int) ≤ s.jtInt)) :
    s.judge j i e idle = .notYet := by
  have hopen : (!(s.ent i = .idle || s.ent i = .waiting) || s.jtInt < ((j.sn + e.offset : Nat) : Int)) = true := by
    simpa [imp_iff_not_or, not_or, or_comm] using h
  simp only [State.judge]
  exact if_pos hopen

/-- An entry that is due and not resolved is judged by its mark, its precondition and its guard band. -/
theorem State.judge_of_due (hopen : s.ent i = .idle ∨ s.ent i = .waiting) (hdue : ((j.sn + e.offset : Nat) : Int) ≤ s.jtInt) :
    s.judge j i e idle =
      if s.preSkipped j e then (if e.policy = 2 then .skip else .fault)
      else if s.metPre j e idle && s.jt ≤ j.sn + e.offset + e.guard then .start
      else if j.sn + e.offset + e.guard ≤ s.jt then e.late
      else if e.policy = 3 then .fault
      else .wait := by
  have hnow : (!(s.ent i = .idle || s.ent i = .waiting) || s.jtInt < ((j.sn + e.offset : Nat) : Int)) = false := by
    simpa using ⟨by tauto, hdue⟩
  simp only [State.judge]
  exact if_neg (Bool.eq_false_iff.mp hnow)

theorem Entry.isOuter_of_action (b : Buf) (h : e.action ≠ 0x10) : e.isOuter b = false := by simp [Entry.isOuter, h]

theorem State.preSkipped_eq (h : e.action ≠ 0x10) : s.preSkipped j e = s.skipMarked j e := by
  simp [State.preSkipped, Entry.isOuter_of_action j.image h]

theorem State.metPre_eq (h : e.action ≠ 0x10) :
    s.metPre j e idle = (idle && (!e.preEn || (s.so e.preSo).reached j.step e.preCount)) := by
  simp [State.metPre, Entry.isOuter_of_action j.image h]

end Judge

/-! ### The rows of entries that may not start -/

section Rows

variable {s : State} {j : Job} {i action : Nat} {e : Entry} {d : Due}

theorem State.entry?_of_runs (hjob : s.job = some j) (hruns : j.runs = true) (hi : i < imgEntries j.image) :
    s.entry? i = some (j, imgEntry j.image i) := by
  simp [State.entry?, hjob, hruns, hi]

theorem State.dispatch_notStarted (hent : s.entry? i = some (j, e)) (ha : e.action = action)
    (hd : s.judge j i e (s.targetIdle e.target) = d) (hstart : d ≠ .start) (start : State → Job → Entry → State) :
    s.dispatch i action start = s.notStarted j i e d := by
  simp only [State.dispatch, hent, ha, hd, ne_eq, not_true_eq_false, if_false]

theorem State.blameGuest_of_main {core : Nat} (h : ∀ k, (s.core core).kernel = some k → k.guest = false) :
    s.blameGuest core = s := by
  unfold State.blameGuest
  split
  · rename_i k hk
    simp [h k hk]
  · rfl

theorem State.kernelStart_notStarted (hent : s.entry? i = some (j, e)) (ha : e.action = 0x01)
    (hmain : ∀ k, (s.core e.target).kernel = some k → k.guest = false)
    (hd : s.judge j i e (s.targetIdle e.target) = d) (hstart : d ≠ .start) : s.kernelStart i = s.notStarted j i e d := by
  simp only [State.kernelStart, hent, State.blameGuest_of_main hmain, ite_self]
  exact State.dispatch_notStarted hent ha hd hstart _

theorem State.guardExpiry_notStarted (hent : s.entry? i = some (j, e))
    (ha : e.action ≠ 0x01 ∧ e.action ≠ 0x03 ∧ e.action ≠ 0x10 ∧ e.action ≠ 0x40 ∧ e.action ≠ 0xF0)
    (hd : s.judge j i e (s.targetIdle e.target) = d) : s.guardExpiry i = s.notStarted j i e d := by
  obtain ⟨h01, h03, h10, h40, hF0⟩ := ha
  have hblame : s.blameFor e = s := by simp [State.blameFor, h01, h10]
  have hidle : s.idleFor e = s.targetIdle e.target := by simp [State.idleFor, h03, h10]
  simp [State.guardExpiry, hent, hF0, hblame, hidle, hd, State.skipSent, h40]

end Rows

/-- The rows of `Obligations.MissesAreResolved`, each with the action of its entry. -/
def resolvesRow (s : State) (at_ i : Nat) (e : Entry) (c : Instr) : Prop :=
  (c = .kernelStart at_ i ∧ e.action = 0x01 ∧ ∀ k, ((s.tick at_).core e.target).kernel = some k → k.guest = false) ∨
    (c = .openGuestBubble at_ i ∧ e.action = 0x02) ∨ (c = .runTransferList at_ i ∧ e.action = 0x20) ∨
    (c = .openScheduledWindow at_ i ∧ e.action = 0x30) ∨ (c = .receivePlannedBlock at_ i ∧ e.action = 0x48) ∨
    (c = .openTxWindow at_ i ∧ e.action = 0x41) ∨ (c = .openRxWindow at_ i ∧ e.action = 0x49) ∨
    (c = .runSlice at_ i ∧ e.action = 0x50) ∨ (c = .startVerdictFlood at_ i ∧ e.action = 0x60) ∨
    (c = .commitPoint at_ i ∧ e.action = 0x61) ∨
    (c = .guardBandExpiry at_ i ∧ (e.action = 0x20 ∨ e.action = 0x30 ∨ e.action = 0x48 ∨ e.action = 0x50 ∨ e.action = 0x60))

/-- None of them runs an update pass, so a skip mark at the entry's precondition always keeps it from starting. -/
theorem resolvesRow.action_ne {s : State} {at_ i : Nat} {e : Entry} {c : Instr} (h : resolvesRow s at_ i e c) : e.action ≠ 0x10 := by
  unfold resolvesRow at h
  omega

/-- Each row leaves an entry that it may not start as the judgement says. -/
theorem resolvesRow.exec_eq {s : State} {at_ i : Nat} {j : Job} {e : Entry} {c : Instr} {d : Due} (h : resolvesRow s at_ i e c)
    (hent : (s.tick at_).entry? i = some (j, e)) (hd : (s.tick at_).judge j i e ((s.tick at_).targetIdle e.target) = d)
    (hstart : d ≠ .start) : exec c s = .next ((s.tick at_).notStarted j i e d) := by
  have hrow (a : Nat) (ha : e.action = a) (start : State → Job → Entry → State) :
      Host.Outcome.next ((s.tick at_).dispatch i a start) = (.next ((s.tick at_).notStarted j i e d) : Res) :=
    congrArg Host.Outcome.next (State.dispatch_notStarted hent ha hd hstart start)
  obtain ⟨rfl, ha, hmain⟩ | ⟨rfl, ha⟩ | ⟨rfl, ha⟩ | ⟨rfl, ha⟩ | ⟨rfl, ha⟩ | ⟨rfl, ha⟩ | ⟨rfl, ha⟩ | ⟨rfl, ha⟩ | ⟨rfl, ha⟩ | ⟨rfl, ha⟩ |
    ⟨rfl, ha⟩ := h
  case inl => exact congrArg Host.Outcome.next (State.kernelStart_notStarted hent ha hmain hd hstart)
  case inr.inr.inr.inr.inr.inr.inr.inr.inr.inr =>
    exact congrArg Host.Outcome.next (State.guardExpiry_notStarted hent (by omega) hd)
  all_goals exact hrow _ ha _

/-- Settles O44: a row leaves its entry as the judgement of R59 to R62 says, and the mark, the precondition and the guard band
decide that judgement. -/
theorem missesAreResolved : Obligations.MissesAreResolved := by
  intro s at_ i j e c t due hjob hruns hi he hrow open_ met mark
  have hent : t.entry? i = some (j, e) := by rw [he]; exact State.entry?_of_runs hjob hruns hi
  have hact : e.action ≠ 0x10 := resolvesRow.action_ne hrow
  have hexec {d : Due} (hd : t.judge j i e (t.targetIdle e.target) = d) (hne : d ≠ .start) : exec c s = .next (t.notStarted j i e d) :=
    resolvesRow.exec_eq hrow hent hd hne
  have hmark : t.preSkipped j e = true ↔ mark := by
    rw [State.preSkipped_eq hact]
    simp [State.skipMarked, mark, and_assoc]
  have hmet : t.metPre j e (t.targetIdle e.target) = true ↔ met := by
    rw [State.metPre_eq hact]
    cases hen : e.preEn <;> simp [met, hen]
  refine ⟨fun h => hexec (State.judge_notYet h) (by decide), fun hopen hdue => ?_⟩
  have hjudge := State.judge_of_due (idle := t.targetIdle e.target) hopen hdue
  have hskip (hm : mark) : t.judge j i e (t.targetIdle e.target) = if e.policy = 2 then .skip else .fault := by
    rw [hjudge, if_pos (hmark.mpr hm)]
  have hunmet (hm : ¬ mark) (hu : ¬ met) : t.judge j i e (t.targetIdle e.target) =
      if due + e.guard ≤ t.jt then e.late else if e.policy = 3 then .fault else .wait := by
    rw [hjudge, if_neg (mt hmark.mp hm), if_neg]
    simp [Bool.eq_false_iff.mpr (mt hmet.mp hu)]
  refine ⟨fun hm hp => hexec ((hskip hm).trans (if_pos hp)) (by decide),
    fun hm hp => hexec ((hskip hm).trans (if_neg hp)) (by decide),
    fun hm hu hg hp => hexec ((hunmet hm hu).trans ((if_neg (by omega)).trans (if_neg hp))) (by decide),
    fun hm hu hg hp => hexec ((hunmet hm hu).trans ((if_neg (by omega)).trans (if_pos hp))) (by decide),
    fun hm hu hg => ?_⟩
  have hlate := (hunmet hm hu).trans (if_pos hg)
  exact ⟨fun hp => hexec (hlate.trans (if_pos hp)) (by decide),
    fun hp => hexec (hlate.trans ((if_neg (by omega)).trans (if_pos hp))) (by decide),
    fun h1 h2 => hexec (hlate.trans ((if_neg h1).trans (if_neg h2))) (by decide)⟩

end Sys2Proof.Machine
end

section
/-! SUPPORT. What an entry that R59 lets start leaves unchanged, and the rows of the cores, the dies and the Erg channels, for
`Obligations.DieAndCoreActionsStart` (O41). -/

namespace Sys2Proof.Machine

/-! ### The start of an entry (R60, R68) -/

/-- A start changes only the entries and the slot-miss records. -/
theorem State.beginEntry_eq (s : State) (i : Nat) (e : Entry) (due : Nat) :
    ∃ ents miss, s.beginEntry i e due = { s with ents, miss } := by
  unfold State.beginEntry
  dsimp only
  split
  · exact ⟨_, _, rfl⟩
  · exact ⟨_, s.miss, rfl⟩

section Begin

variable (s : State) (i : Nat) (e : Entry) (due : Nat)

@[simp] theorem State.beginEntry_now : (s.beginEntry i e due).now = s.now := by
  obtain ⟨_, _, h⟩ := s.beginEntry_eq i e due
  rw [h]
@[simp] theorem State.beginEntry_jt : (s.beginEntry i e due).jt = s.jt := by
  obtain ⟨_, _, h⟩ := s.beginEntry_eq i e due
  rw [h]; rfl
@[simp] theorem State.beginEntry_com : (s.beginEntry i e due).com = s.com := by
  obtain ⟨_, _, h⟩ := s.beginEntry_eq i e due
  rw [h]
@[simp] theorem State.beginEntry_erg : (s.beginEntry i e due).erg = s.erg := by
  obtain ⟨_, _, h⟩ := s.beginEntry_eq i e due
  rw [h]
@[simp] theorem State.beginEntry_guest : (s.beginEntry i e due).guest = s.guest := by
  obtain ⟨_, _, h⟩ := s.beginEntry_eq i e due
  rw [h]
@[simp] theorem State.beginEntry_dieCc (die : Nat) : (s.beginEntry i e due).dieCc die = s.dieCc die := by
  obtain ⟨_, _, h⟩ := s.beginEntry_eq i e due
  rw [h]; rfl
@[simp] theorem State.beginEntry_decided : (s.beginEntry i e due).decided = s.decided := by
  obtain ⟨_, _, h⟩ := s.beginEntry_eq i e due
  rw [h]; rfl
@[simp] theorem State.beginEntry_listImage (j : Job) : (s.beginEntry i e due).listImage j e = s.listImage j e := by
  obtain ⟨_, _, h⟩ := s.beginEntry_eq i e due
  rw [h]; rfl

end Begin

/-! ### What `starts` says (R59) -/

section Starts

variable {s : State} {action i : Nat} {j : Job} {e : Entry} {idle : Bool}

theorem State.starts_entry (h : s.starts action i j e idle = true) : s.entry? i = some (j, e) := by
  simp only [State.starts, Bool.and_eq_true, decide_eq_true_eq] at h
  obtain ⟨⟨⟨⟨⟨⟨⟨⟨⟨⟨hjob, hruns⟩, hi⟩, he⟩, -⟩, -⟩, -⟩, -⟩, -⟩, -⟩, -⟩ := h
  rw [he]
  exact State.entry?_of_runs hjob hruns hi

theorem State.starts_action (h : s.starts action i j e idle = true) : e.action = action := by
  simp only [State.starts, Bool.and_eq_true, decide_eq_true_eq] at h
  obtain ⟨⟨⟨⟨⟨⟨⟨-, ha⟩, -⟩, -⟩, -⟩, -⟩, -⟩, -⟩ := h
  exact ha

theorem State.starts_idle (h : s.starts action i j e idle = true) : idle = true := by
  simp only [State.starts, Bool.and_eq_true] at h
  obtain ⟨⟨⟨-, hidle⟩, -⟩, -⟩ := h
  exact hidle

/-- An entry that may start is judged so. -/
theorem State.judge_start (h : s.starts action i j e idle = true) : s.judge j i e idle = .start := by
  simp only [State.starts, Bool.and_eq_true, decide_eq_true_eq, Bool.or_eq_true] at h
  obtain ⟨⟨⟨⟨⟨⟨-, hopen⟩, hdue⟩, hskip⟩, hidle⟩, hpre⟩, hguard⟩ := h
  have hmet : s.metPre j e idle = true := by
    obtain hen | hreached := hpre
    · simp [State.metPre, hidle, hen]
    · simp [State.metPre, hidle, hreached]
  rw [State.judge_of_due hopen hdue, if_neg (by simpa using hskip), if_pos (by simpa [hmet] using hguard)]

end Starts

/-- A change of one core depends only on what it makes of that core. -/
theorem State.onCore_congr {s : State} {k : Nat} {f g : Core → Core} (h : f (s.core k) = g (s.core k)) : s.onCore k f = s.onCore k g :=
  congrArg (s.putCore k) h

/-! ### Rows of the cores -/

section Cores

variable {s : State} {i : Nat} {j : Job} {e : Entry}

theorem State.kernel_none_of_idle {core : Nat} (hcore : core < 128) (h : s.targetIdle core = true) : (s.core core).kernel = none := by
  simpa [State.targetIdle, hcore] using h

theorem State.kernelStart_starts (h : s.starts 0x01 i j e (s.targetIdle e.target) = true) (hcore : e.target < 128) :
    s.kernelStart i = (s.beginEntry i e (j.sn + e.offset)).startKernel j i e (j.sn + e.finish) := by
  have hnone := State.kernel_none_of_idle hcore (State.starts_idle h)
  have hblame : s.blameGuest e.target = s := State.blameGuest_of_main fun k hk => by simp [hnone] at hk
  simp only [State.kernelStart, State.starts_entry h, hblame, ite_self]
  exact State.dispatch_starts h _

theorem State.closeBubble_starts (h : s.starts 0x03 i j e true = true) :
    s.closeBubble i = (s.beginEntry i e (j.sn + e.offset)).startClose j i e := by
  simp [State.closeBubble, State.starts_entry h, State.starts_action h, State.judge_start h]

theorem State.startClose_guest {k : Kernel} (hk : (s.core e.target).kernel = some k) (hg : k.guest = true) : s.startClose j i e =
    (s.onCore e.target fun c => { c with closing := true, closeCc := s.dieCc (e.target / 16) }).completeEntry i j.step := by
  unfold State.startClose
  exact congrArg (State.completeEntry · i j.step) (State.onCore_congr (by simp [hk, hg]))

theorem State.startClose_main (hmain : ∀ k, (s.core e.target).kernel = some k → k.guest = false) :
    s.startClose j i e = (s.onCore e.target fun c => { c with bubble := none }).completeEntry i j.step := by
  unfold State.startClose
  refine congrArg (State.completeEntry · i j.step) (State.onCore_congr ?_)
  cases hk : (s.core e.target).kernel with
  | none => rfl
  | some k => simp [hmain k hk]

/-- The core and the guest as a bubble opens (R374). -/
def State.bubbleOpened (s : State) (i : Nat) (e : Entry) (g : Guest) : State :=
  ({ s with guest := some { g with pending := false } } : State).putCore e.target
    { s.core e.target with bubble := some e.arg, bubbleEntry := i, bubbleQ := 0, closing := false }

/-- A bubble with no guest that runs completes at once. -/
theorem State.startBubble_gone {g : Guest} (hg : s.guest = some g) (h : g.stopped = true ∨ g.leaving = true) :
    s.startBubble j i e = ({ s with guest := some { g with pending := false } } : State).completeEntry i j.step := by
  unfold State.startBubble
  simp only [hg]
  exact if_pos (by simpa using h)

/-- A guest that was suspended on the core resumes, and any other starts its next kernel. -/
theorem State.startBubble_runs {g : Guest} (hg : s.guest = some g) (hs : g.stopped = false) (hl : g.leaving = false) :
    s.startBubble j i e = State.completeEntry
      (match (s.core e.target).guest.kernel with
        | some k => (s.bubbleOpened i e g).resumeGuest e.target k j.step
        | none =>
          match (s.bubbleOpened i e g).guestKernel { g with pending := false } e.target (s.core e.target).guest.next i 0 with
          | none => s.bubbleOpened i e g
          | some k => (s.bubbleOpened i e g).onCore e.target fun c => { c with kernel := some k, v := .reset }) i j.step := by
  unfold State.startBubble
  simp only [hg]
  exact if_neg (by simp [hs, hl])

section Resume

variable {core step : Nat} {k : Kernel}

theorem State.resumeGuest_bad (h : (s.scratchRead core guestSaveAddr 8512 (.core core true)).2.guest.any (·.stopped) = true) :
    s.resumeGuest core k step = (s.scratchRead core guestSaveAddr 8512 (.core core true)).2 := if_pos h

theorem State.resumeGuest_good (h : (s.scratchRead core guestSaveAddr 8512 (.core core true)).2.guest.any (·.stopped) = false) :
    s.resumeGuest core k step = (s.scratchRead core guestSaveAddr 8512 (.core core true)).2.onCore core fun c =>
      { c with
        kernel := some { k with step, issuedAny := false, startCc := s.dieCc (core / 16) + 36, lastDone := s.dieCc (core / 16) }
        v := VState.ofImage (s.scratchRead core guestSaveAddr 8512 (.core core true)).1
        guest := { c.guest with kernel := none } } := if_neg (Bool.eq_false_iff.mp h)

end Resume

end Cores

/-! ### Rows of the dies -/

section Dies

variable {s : State} {i : Nat} {j : Job} {e : Entry}

/-- A die whose cores are idle holds no guest to blame. -/
theorem State.blameGuest_idle_die {die : Nat} (h : s.coresIdle die = true) :
    (List.range 16).foldl (fun s k => s.blameGuest (16 * die + k)) s = s := by
  have hidle : ∀ k ∈ List.range 16, (s.core (16 * die + k)).kernel = none := by simpa [State.coresIdle] using h
  have hfold (l : List Nat) (hl : ∀ k ∈ l, (s.core (16 * die + k)).kernel = none) :
      l.foldl (fun s k => s.blameGuest (16 * die + k)) s = s := by
    induction l with
    | nil => rfl
    | cons k l ih =>
      have hk : s.blameGuest (16 * die + k) = s := State.blameGuest_of_main fun x hx => by simp [hl k (by simp)] at hx
      rw [List.foldl_cons, hk]
      exact ih fun x hx => hl x (by simp [hx])
  exact hfold _ hidle

theorem State.updatePassStart_starts
    (h : s.starts 0x10 i j e (s.targetIdle e.target && s.coresIdle (e.target - 0x80)) = true) :
    s.updatePassStart i = (s.beginEntry i e (j.sn + e.offset)).runPass j i e (j.sn + e.finish) := by
  have hcores : s.coresIdle (e.target - 0x80) = true := by simpa using (Bool.and_eq_true_iff.mp (State.starts_idle h)).2
  simp [State.updatePassStart, State.starts_entry h, State.starts_action h, State.blameGuest_idle_die hcores, State.judge_start h]

/-- What a pass entry does once the step's decision is there (R213, R222). -/
theorem State.runPass_decided {fin : Nat} {d : DecisionRec} (hdec : s.decided = true) (hd : s.com.decision = some d) :
    s.runPass j i e fin =
      let w := s.onDie (e.target - 0x80) fun x => { x with pass := some (i, j.step, fin) }
      let p := Pass.ofBuf (imgPass j.image e.arg)
      let x : PassCtx :=
        { die := e.target - 0x80, index := e.arg, p, sc := ⟨one32, one32, one32, one32, one32⟩, kappa := d.kappa, seed := j.seed
          cw := imgCw j.image, c0 := coreCycle (plannedJt j.image j.step i) }
      if d.decision ≠ .finite then w.idlePass (e.target - 0x80)
      else if p.rule = 4 then w.outerPass x j.image (imgPass j.image e.arg) j.step
      else
        match p.scalars s.com.hist.commits with
        | none => (PassRun.nonfinite ⟨w, 0, false, false⟩ x 0 0).s
        | some sc => w.innerPass { x with sc } (passShards j.image (imgPass j.image e.arg)) := by
  unfold State.runPass
  simp only [hdec, hd, Bool.not_true, Bool.false_eq_true, if_false]
  rfl

end Dies

/-! ### Rows of the Erg channels outside the period of a step (R160, R163) -/

theorem State.refreshNormal_outside {s : State} {ch : Nat} (hp : s.inPeriod = false) (hready : s.erg.ready = true)
    (hht : s.htRefreshes = true) (hdue : s.htNow % 3900 = 0 ∨ (s.chan ch).lastRefresh + 3900 ≤ s.now) :
    s.refreshNormal ch = s.refresh ch := by
  simp [State.refreshNormal, hp, hready, hht, hdue]

theorem State.refreshHigh_outside {s : State} {ch : Nat} (hp : s.inPeriod = false) (hready : s.erg.ready = true)
    (hht : s.htRefreshes = true) (hhigh : (s.chan ch).highRate = true)
    (hdue : s.htNow % 3900 = 1950 ∨ (s.chan ch).lastRefresh + 1950 ≤ s.now) : s.refreshHigh ch = s.refresh ch := by
  simp [State.refreshHigh, hp, hready, hht, hhigh, hdue]

/-- Settles O41: an entry that may start does what its action does, and the start itself leaves all that the action reads. -/
theorem dieAndCoreActionsStart : Obligations.DieAndCoreActionsStart := by
  intro s at_ i j e t b die
  have hdispatch {a : Nat} (h : t.starts a i j e (t.targetIdle e.target) = true) (start : State → Job → Entry → State) :
      Host.Outcome.next (t.dispatch i a start) = (.next (start b j e) : Res) :=
    congrArg Host.Outcome.next (State.dispatch_starts h start)
  refine ⟨fun h hcore => ?kernel, fun h => ?bubble, fun h => ?close, fun h hdec => ?undecided, fun h hdec d hd => ?pass, fun h => ?list, fun h => ?window,
    ?refresh⟩
  case kernel =>
    intro ks idx r k
    refine (congrArg Host.Outcome.next (State.kernelStart_starts h hcore)).trans ?_
    simp only [State.startKernel, State.beginEntry_com, State.beginEntry_dieCc]
    rfl
  case bubble =>
    have hexec : exec (.openGuestBubble at_ i) s = .next (b.startBubble j i e) := hdispatch h _
    have hguest : b.guest = t.guest := State.beginEntry_guest ..
    have hcc : b.dieCc (e.target / 16) = t.dieCc (e.target / 16) := State.beginEntry_dieCc ..
    rw [hexec]
    refine ⟨fun hg => ?_, fun g hg hgone => ?_, fun g k hg hs hl hk => ?_, fun g k hg hs hl hk => ?_, fun g hg hs hl hk => ?_⟩
    · simp [State.startBubble, hguest, hg]
    · simp [State.startBubble, hguest, hg, hgone]
    · intro w cc r
      have hrun := State.startBubble_runs (j := j) (i := i) (e := e) (hguest.trans hg) hs hl
      simp only [hk] at hrun
      have hw : b.bubbleOpened i e g = w := rfl
      have hwcc : w.dieCc (e.target / 16) = cc := hcc
      refine ⟨fun hbad => ?_, fun hgood => ?_⟩
      · rw [hrun, hw, State.resumeGuest_bad hbad]
      · rw [hrun, hw, State.resumeGuest_good hgood, hwcc]
    · intro w hnext
      have hrun := State.startBubble_runs (j := j) (i := i) (e := e) (hguest.trans hg) hs hl
      have hw : b.bubbleOpened i e g = w := rfl
      simp only [hk, hw, hnext] at hrun
      rw [hrun]
    · intro w hnext
      have hrun := State.startBubble_runs (j := j) (i := i) (e := e) (hguest.trans hg) hs hl
      have hw : b.bubbleOpened i e g = w := rfl
      simp only [hk, hw, hnext] at hrun
      rw [hrun]
  case close =>
    have hexec : exec (.closeGuestBubble at_ i) s = .next (b.startClose j i e) :=
      congrArg Host.Outcome.next (State.closeBubble_starts h)
    refine ⟨fun k hk hg => hexec.trans ?_, fun hmain => hexec.trans (congrArg Host.Outcome.next (State.startClose_main hmain))⟩
    rw [State.startClose_guest hk hg, State.beginEntry_dieCc]
  case undecided =>
    refine (congrArg Host.Outcome.next (State.updatePassStart_starts h)).trans ?_
    simp [State.runPass, b, hdec]
  case pass =>
    intro p w x
    have hexec : exec (.updatePassStart at_ i) s = .next (b.runPass j i e (j.sn + e.finish)) :=
      congrArg Host.Outcome.next (State.updatePassStart_starts h)
    have hbdec : b.decided = true := (State.beginEntry_decided ..).trans hdec
    have hbd : b.com.decision = some d := by rw [State.beginEntry_com]; exact hd
    have hrun := State.runPass_decided (j := j) (i := i) (e := e) (fin := j.sn + e.finish) hbdec hbd
    rw [State.beginEntry_com] at hrun
    rw [hexec, hrun]
    refine ⟨fun hn => congrArg Host.Outcome.next (if_pos hn), fun hf hr => congrArg Host.Outcome.next ?_,
      fun hf hr hs => congrArg Host.Outcome.next ?_, fun sc hf hr hs => congrArg Host.Outcome.next ?_⟩
    · exact (if_neg (not_not.mpr hf)).trans (if_pos hr)
    · refine (if_neg (not_not.mpr hf)).trans ((if_neg hr).trans ?_)
      rw [hs]
    · refine (if_neg (not_not.mpr hf)).trans ((if_neg hr).trans ?_)
      rw [hs]
  case list =>
    have hexec : exec (.runTransferList at_ i) s = .next (b.startList j i e) := hdispatch h _
    have himg : b.listImage j e = t.listImage j e := State.beginEntry_listImage ..
    refine ⟨fun hn => hexec.trans ?_, fun img hs => hexec.trans ?_⟩
    · simp [State.startList, himg, hn]
    · simp [State.startList, himg, hs]
  case window =>
    refine (hdispatch h _).trans ?_
    simp [State.startWindow, b]
  case refresh =>
    intro refreshed
    have hb (ch : Nat) : b.refresh ch = refreshed b ch := by simp [State.refresh, refreshed, b, t]
    refine ⟨fun hp h => ?_, fun hp h => ?_, fun hp hready hht => ⟨fun hdue => ?_, fun hhigh hdue => ?_⟩⟩
    · refine (congrArg Host.Outcome.next (if_pos hp)).trans ((hdispatch h _).trans ?_)
      rw [hb]
    · refine (congrArg Host.Outcome.next (if_pos hp)).trans ((hdispatch h _).trans ?_)
      simp only [hb]
    · exact congrArg Host.Outcome.next (State.refreshNormal_outside hp hready hht hdue)
    · exact congrArg Host.Outcome.next (State.refreshHigh_outside hp hready hht hhigh hdue)

end Sys2Proof.Machine
end

section
/-! SUPPORT. A planned send that fits its footprint, and one that the round owner skips, for `Obligations.PortActionsStart` (O42). -/

namespace Sys2Proof.Machine

/-! ### The state of an entry -/

/-- An entry set to anything but idle reads so. -/
theorem State.ent_putEnt_of_ne (s : State) {x : EntryState} (hx : x ≠ .idle) (i : Nat) : (s.putEnt i x).ent i = x :=
  (tget_tset_of_ne hx s.ents i i).trans (if_pos rfl)

theorem State.ent_of_ents {s t : State} (h : t.ents = s.ents) (i : Nat) : t.ent i = s.ent i := by
  rw [State.ent, State.ent, h]

theorem State.signal_ents (s : State) (k : Nat) (m : Int) (skip : Bool) : (s.signal k m skip).ents = s.ents := by
  simp only [State.signal]
  split
  · exact State.raise_ents ..
  · rfl

theorem State.ent_beginEntry (s : State) (i : Nat) (e : Entry) (due : Nat) : (s.beginEntry i e due).ent i = .running s.jt := by
  have hrun : (s.putEnt i (.running s.jt)).ent i = .running s.jt := s.ent_putEnt_of_ne (by simp) i
  unfold State.beginEntry
  dsimp only
  split
  · exact (State.ent_of_ents rfl i).trans hrun
  · exact hrun

/-- An entry of the running step that completes is done. -/
theorem State.ent_completeEntry {s : State} {j : Job} (hjob : s.job = some j) (i : Nat) : (s.completeEntry i j.step).ent i = .done := by
  have hdone : (s.putEnt i .done).ent i = .done := s.ent_putEnt_of_ne (by simp) i
  simp only [State.completeEntry, hjob, if_true]
  split
  · exact (State.ent_of_ents (State.signal_ents ..) i).trans hdone
  · exact hdone

theorem State.dropCarry_ents (s : State) : s.dropCarry.ents = s.ents := by
  unfold State.dropCarry
  split
  · exact State.raise_ents ..
  · rfl

theorem State.missFold_ents (s : State) (e : Entry) : (s.missFold e).ents = s.ents := by
  unfold State.missFold
  split
  · split
    · exact State.dropCarry_ents s
    · rfl
  · rfl

theorem State.ent_skipEntry (s : State) (i : Nat) (e : Entry) : (s.skipEntry i e).ent i = .skipped := by
  have hskip : (s.putEnt i .skipped).ent i = .skipped := s.ent_putEnt_of_ne (by simp) i
  refine (State.ent_of_ents ?_ i).trans hskip
  unfold State.skipEntry
  extract_lets s1 s2 s3
  have h1 : s1.ents = (s.putEnt i .skipped).ents := State.missFold_ents ..
  have h3 : s3.ents = s1.ents := State.raise_ents ..
  split
  · exact (State.signal_ents ..).trans (h3.trans h1)
  · exact h3.trans h1

/-! ### What a port sends (R271, R274) -/

section Send

variable {s : State} {i : Nat} {j : Job} {e : Entry}

/-- An entry that has not been skipped sends no SKIP flit. -/
theorem State.skipSent_of_sent {was : EntryState} (h : s.ent i ≠ .skipped) : s.skipSent j i e was = s := by
  simp [State.skipSent, h]

theorem State.skipSent_of_skipped {was : EntryState} (ha : e.action = 0x40) (hwas : was ≠ .skipped) (h : s.ent i = .skipped) :
    s.skipSent j i e was = s.emit (.flit (e.target - 0xB0) (mkFlit 5 true false (Blk.ofBuf (imgBlock j.image e.arg)).block 0 1
      (j.step % 256) 0 (Blk.ofBuf (imgBlock j.image e.arg)).epoch)) := by
  simp [State.skipSent, ha, hwas, h]

theorem State.sendPlanned_starts {gather : Option Nat} (h : s.starts 0x40 i j e (s.targetIdle e.target) = true) :
    s.sendPlanned i gather =
      ((s.beginEntry i e (j.sn + e.offset)).startSend j i e (j.sn + e.finish) gather).skipSent j i e (s.ent i) := by
  simp only [State.sendPlanned, State.starts_entry h]
  exact congrArg (State.skipSent · j i e (s.ent i)) (State.dispatch_starts h _)

theorem State.starts_open {action : Nat} {idle : Bool} (h : s.starts action i j e idle = true) : s.ent i = .idle ∨ s.ent i = .waiting := by
  simp only [State.starts, Bool.and_eq_true, Bool.or_eq_true, decide_eq_true_eq] at h
  obtain ⟨⟨⟨⟨⟨⟨-, hopen⟩, -⟩, -⟩, -⟩, -⟩, -⟩ := h
  exact hopen

theorem State.starts_job {action : Nat} {idle : Bool} (h : s.starts action i j e idle = true) : s.job = some j := by
  simp only [State.starts, Bool.and_eq_true, decide_eq_true_eq] at h
  obtain ⟨⟨⟨⟨⟨⟨⟨⟨⟨⟨hjob, -⟩, -⟩, -⟩, -⟩, -⟩, -⟩, -⟩, -⟩, -⟩, -⟩ := h
  exact hjob

@[simp] theorem State.beginEntry_job (s : State) (i : Nat) (e : Entry) (due : Nat) : (s.beginEntry i e due).job = s.job := by
  obtain ⟨_, _, h⟩ := s.beginEntry_eq i e due
  rw [h]

theorem length_blockFlits (d : Blk) (step v : Nat) : (blockFlits d step v).length = d.flits := by simp [blockFlits]

/-- Flits put out change nothing but what the device has driven. -/
theorem State.foldl_emit_eq (l : List Buf) (f : Buf → Out) (s : State) :
    l.foldl (fun s x => s.emit (f x)) s = { s with out := s.out ++ l.map f } := by
  induction l generalizing s with
  | nil => simp
  | cons x l ih =>
    rw [List.foldl_cons, ih]
    simp [State.emit]

theorem State.replayCheck_of_room {p : Nat} (h : (s.port p).replayUsed s.htNow ≤ 4096) : s.replayCheck p = s := if_pos h

end Send

/-- Settles O42: what each port row does once its entry starts; a send that fits is whole, kept and done, and a skipped one sends
its SKIP flit. -/
theorem portActionsStart : Obligations.PortActionsStart := by
  intro s at_ i j e t b
  have hdispatch {a : Nat} (h : t.starts a i j e (t.targetIdle e.target) = true) (start : State → Job → Entry → State) :
      Host.Outcome.next (t.dispatch i a start) = (.next (start b j e) : Res) :=
    congrArg Host.Outcome.next (State.dispatch_starts h start)
  refine ⟨?send, fun h hsum gather => ?skip, fun h => hdispatch h _,
    fun h => hdispatch h _, fun h => hdispatch h _, fun h => ?slice⟩
  case send =>
    intro gather data h hsum p d c src v l u hread hafx hfits hroom
    have hcb : ∃ com, c = { b with com } := by
      by_cases hspace : d.space = 2
      · exact ⟨_, if_pos hspace⟩
      · exact ⟨b.com, if_neg hspace⟩
    have hu : ∃ com near out, u = { b with com, near, out } := by
      obtain ⟨com, hc⟩ := hcb
      exact ⟨com, _, _, by simp only [u, State.foldl_emit_eq, hc]; rfl⟩
    have hcjt : c.jt = b.jt := by obtain ⟨com, hc⟩ := hcb; rw [hc]; rfl
    have hcht : c.htNow = b.htNow := by obtain ⟨com, hc⟩ := hcb; rw [hc]; rfl
    have hcport (p : Nat) : c.port p = b.port p := by obtain ⟨com, hc⟩ := hcb; rw [hc]; rfl
    have hujob : u.job = some j := by
      obtain ⟨_, _, _, hu⟩ := hu
      rw [hu]
      exact (State.beginEntry_job ..).trans (State.starts_job h)
    have hent : u.ent i = .running t.jt := by
      obtain ⟨_, _, _, hu⟩ := hu
      rw [hu]
      exact State.ent_beginEntry ..
    have hblock : b.sendBlock j i e (j.sn + e.finish) gather = u.completeEntry i j.step := by
      unfold State.sendBlock
      extract_lets
      rw [hread]
      dsimp -zeta only
      extract_lets v1 v2 s2 n fits s3 s4 s5
      have hs2 : s2 = c := if_neg (by simp [hafx])
      have hfit : fits = l := by
        refine List.filter_eq_self.mpr fun f hf => decide_eq_true ?_
        rw [hs2, hcjt, show n = b.port p from (congrArg (State.port · p) hs2).trans (hcport p)]
        exact hfits f hf
      have hs3 : s3 = l.foldl (fun s f => s.emit (.flit p f)) c := by simp only [s3, hfit, hs2]
      have hht : (l.foldl (fun s f => s.emit (.flit p f)) c).htNow = b.htNow := by rw [State.foldl_emit_eq]; exact hcht
      have hs4 : s4 = u := by simp only [s4, hs3, hht, hfit, u]
      have hs5 : s5 = u := by
        simp only [s5, hs4]
        exact State.replayCheck_of_room hroom
      have hwhole : (decide (fits.length = d.flits) && decide (s5.ent i ≠ EntryState.faulted)) = true := by
        rw [hfit, hs5, length_blockFlits, hent]
        simp
      rw [hs5] at hwhole ⊢
      exact if_pos hwhole
    have hdone : (u.completeEntry i j.step).ent i ≠ .skipped := by
      rw [State.ent_completeEntry hujob]
      simp
    refine congrArg Host.Outcome.next ((State.sendPlanned_starts h).trans ?_)
    rw [show b.startSend j i e (j.sn + e.finish) gather = u.completeEntry i j.step from (if_neg (by simp [hsum])).trans hblock]
    exact State.skipSent_of_sent hdone
  case skip =>
    have hwas : t.ent i ≠ .skipped := by
      obtain hidle | hwait := State.starts_open h
      · simp [hidle]
      · simp [hwait]
    have hstart : b.startSend j i e (j.sn + e.finish) gather = b.skipEntry i e := if_pos hsum
    refine congrArg Host.Outcome.next ((State.sendPlanned_starts h).trans ?_)
    rw [hstart]
    exact State.skipSent_of_skipped (State.starts_action h) hwas (State.ent_skipEntry ..)
  case slice =>
    refine (hdispatch h _).trans ?_
    simp only [State.startSlice, b, State.beginEntry_now]
    rfl

end Sys2Proof.Machine
end

section
/-! SUPPORT. The start of a step, the result of the flood and the commit point by its decision, for
`Obligations.StepAndCommitComplete` (O43). -/

namespace Sys2Proof.Machine

/-! ### STEP_START (R50, R247) -/

section StepStart

variable {s : State} {j : Job}

/-- The step starts for a job that runs or is armed, with an epoch and valid HT, once its start is reached. -/
theorem State.stepStart_due (hphase : j.runs = true ∨ j.phase = .armed) (hepoch : j.hasEpoch = true)
    (hvalid : s.htValid = true) (hdue : (j.nextStart.1 : Int) ≤ s.jtInt) :
    (!(j.runs || j.phase = .armed) || !j.hasEpoch || !s.htValid || decide (s.jtInt < j.nextStart.1)) = false := by
  obtain hrun | harm := hphase
  · simp [hrun, hepoch, hvalid, hdue]
  · simp [harm, hepoch, hvalid, hdue]

end StepStart

/-! ### COMMIT_POINT (R242) -/

/-- What the commit point does at once after any decision. -/
def State.commitTail (w : State) (j : Job) (i : Nat) : State :=
  let w := (List.range 32).foldl (fun w ch => w.applyRetire ch) (w.dropGradients j.image)
  let w := ((w.installRepair.outerCommit j).takeCheckpoints j).completeEntry i j.step
  if w.passesDone j.image (fun _ => true) then w.afterPasses j else w

/-- The state, the controller and the counters as a FINITE decision leaves them. -/
def State.commitFinite (u : State) (j : Job) (r : Buf) : State :=
  let w := u.commitPending j r
  let w := if w.site.lastStep.any (· < j.step) then w.onSite fun x => { x with lastStep := none, repeats := 0 } else w
  w.onCom fun c =>
    { c with
      hist := c.hist.finite (imgCommit j.image) (r.fld 128 128) j.step, cCommits := satAdd 64 c.cCommits 1, mirrorDue := some j.step
      lastFinite := j.step, carry := c.carry.filter fun x => j.step ≤ x.1 }

theorem State.commitNow_decides {s : State} {j : Job} {i : Nat} {e : Entry} {r : Buf} (hr : s.com.result = some r) :
    s.commitNow j i e = State.commitTail
      (match (s.decideStep j r).decision with
        | .finite => (s.onCom fun c => { c with decision := some (s.decideStep j r) }).commitFinite j r
        | .skip => (s.onCom fun c => { c with decision := some (s.decideStep j r) }).skipStep j (r.fld 80 16)
        | .probe => (s.onCom fun c => { c with decision := some (s.decideStep j r) }).probeStep j r) j i := by
  unfold State.commitNow
  simp only [hr]
  cases (s.decideStep j r).decision <;> rfl

/-- Settles O43: the guards of each row hold, and its effect is read off its definition. -/
theorem stepAndCommitComplete : Obligations.StepAndCommitComplete := by
  intro s at_ i j t sn n
  refine ⟨?start, fun e h => congrArg Host.Outcome.next (State.dispatch_starts h _), ?flood, fun e h => ?commit⟩
  case start =>
    intro hjob hepoch hvalid hdue
    refine ⟨fun hstop => congrArg Host.Outcome.next ?_, fun hphase hfirst => congrArg Host.Outcome.next ?_⟩
    · have hruns : j.runs = true := by simp [Job.runs, hstop]
      have hgo := State.stepStart_due (s := t) (.inl hruns) hepoch hvalid hdue
      simp only [State.stepStart, show (s.tick at_).job = some j from hjob]
      exact (if_neg (Bool.eq_false_iff.mp hgo)).trans (if_pos hstop)
    · have hor : j.runs = true ∨ j.phase = .armed := by
        obtain harm | hrun := hphase
        · exact .inr harm
        · exact .inl (by simp [Job.runs, hrun])
      have hgo := State.stepStart_due (s := t) hor hepoch hvalid hdue
      have hnostop : j.phase ≠ .stopping := by
        obtain harm | hrun := hphase
        · simp [harm]
        · simp [hrun]
      have hneighbour : ¬ (j.fresh && t.badNeighbour j ≠ none) = true := by
        simp only [Bool.and_eq_true, decide_eq_true_eq, not_and, not_not]
        exact fun hf => (hfirst hf).1
      have htags : ¬ (j.fresh && (imgPorts j.image).any (fun p => t.tagMismatch p)) = true := by
        rw [Bool.and_eq_true]
        exact fun ⟨hf, htag⟩ => by simp [(hfirst hf).2] at htag
      unfold State.stepStart
      simp only [show (s.tick at_).job = some j from hjob]
      exact (if_neg (Bool.eq_false_iff.mp hgo)).trans ((if_neg hnostop).trans ((if_neg hneighbour).trans (if_neg htags)))
  case flood =>
    intro r hjob hruns hfrozen hresult
    have hgo : ¬ (!j.runs || !(s.tick at_).com.frozen || (s.tick at_).com.result.isSome) = true := by simp [hruns, hfrozen, hresult]
    refine ⟨fun hother => congrArg Host.Outcome.next ?_, fun hstep hep => congrArg Host.Outcome.next ?_⟩
    · unfold State.floodResult
      simp only [show (s.tick at_).job = some j from hjob]
      exact (if_neg hgo).trans (if_pos (by simpa [imp_iff_not_or] using hother))
    · unfold State.floodResult
      simp only [show (s.tick at_).job = some j from hjob]
      refine (if_neg hgo).trans ((if_neg (by simp [hstep, hep])).trans ?_)
      simp only [Bool.and_eq_true, decide_eq_true_eq]
      rfl
  case commit =>
    intro b
    have hcom : b.com = t.com := State.beginEntry_com ..
    have hexec : exec (.commitPoint at_ i) s = .next (b.commitNow j i e) := congrArg Host.Outcome.next (State.dispatch_starts h _)
    refine ⟨fun hn => hexec.trans (congrArg Host.Outcome.next ?_), ?_⟩
    · unfold State.commitNow
      simp only [show b.com.result = none from hcom ▸ hn]
    · intro r hr p cause d u next
      have hd : b.decideStep j r = d := by simp only [State.decideStep, hcom]; rfl
      have hnow := State.commitNow_decides (j := j) (i := i) (e := e) (show b.com.result = some r from hcom ▸ hr)
      rw [hd] at hnow
      rw [hexec, hnow]
      refine ⟨fun hp hc => congrArg Host.Outcome.next ?_, fun hp hc => congrArg Host.Outcome.next ?_, fun hp => congrArg Host.Outcome.next ?_⟩
      · have : d.decision = .finite := by simp [d, hp, hc]
        rw [this]
        rfl
      · have : d.decision = .skip := by simp [d, hp, hc]
        rw [this]
        rfl
      · have : d.decision = .probe := by simp [d, hp]
        rw [this]
        rfl

end Sys2Proof.Machine
end

section
/-! SUPPORT. Catch-up entries at work and the ends of footprints, for `Obligations.CatchupsAndFootprintEndsComplete` (O47). -/

namespace Sys2Proof.Machine

section Catchup

variable {s : State} {j : Job} {k : Nat} {c : Entry} {gathers : List (Nat × Nat)}

/-! ### Catch-up entries (R63) -/

theorem State.resendsOf_of_no_port (h : txPort c.target = none) : s.resendsOf j k c = [] := by simp [State.resendsOf, h]

theorem State.closeResends_of_no_port (h : txPort c.target = none) : s.closeResends j k c = s := by simp [State.closeResends, h]

theorem State.catchupTurn_of_none (h : txPort c.target = none) (hheld : tget [] s.catchup k = []) : s.catchupTurn j k c = none := by
  simp [State.catchupTurn, State.resendsOf_of_no_port h, hheld]

theorem State.catchupTurn_of_one {i : Nat} (h : txPort c.target = none) (hheld : tget [] s.catchup k = [i]) :
    s.catchupTurn j k c = some (i, false) := by
  simp [State.catchupTurn, State.resendsOf_of_no_port h, hheld]

theorem State.catchupLost_of_no_port (h : txPort c.target = none) : s.catchupLost j k c =
    (tget [] s.catchup k).foldl (fun u i => (u.leaveCatchup k i).faultMiss i (imgEntry j.image i)) s := by
  simp [State.catchupLost, h]

theorem State.catchupRun_of_none {fuel : Nat} (hidle : s.targetIdle c.target = true) (hturn : s.catchupTurn j k c = none) :
    s.catchupRun j k c gathers (fuel + 1) = s.completeEntry k j.step := by
  simp [State.catchupRun, hidle, hturn]

/-- An action that leaves its target busy is the last that a catch-up entry starts now. -/
theorem State.catchupRun_of_busy (h : s.targetIdle c.target = false) (fuel : Nat) : s.catchupRun j k c gathers fuel = s := by
  cases fuel with
  | zero => rfl
  | succ n => simp [State.catchupRun, h]

/-- A deferred action starts as it leaves its catch-up entry (R63, R68). -/
def State.leaveAndStart (s : State) (j : Job) (k i : Nat) (e c : Entry) (gathers : List (Nat × Nat)) : State :=
  (((s.leaveCatchup k i).putEnt i (.running s.jt)).noteMiss e.target fun r =>
    { r with maxLateNs := Nat.max r.maxLateNs (s.jt - (j.sn + e.offset)) }).startAction j i e (j.sn + c.finish) gathers

theorem State.catchupRun_starts {i fuel : Nat} (hidle : s.targetIdle c.target = true) (hturn : s.catchupTurn j k c = some (i, false))
    (hskip : s.preSkipped j (imgEntry j.image i) = false)
    (hmet : s.metPre j (imgEntry j.image i) (s.idleFor (imgEntry j.image i)) = true) :
    s.catchupRun j k c gathers (fuel + 1) =
      (s.leaveAndStart j k i (imgEntry j.image i) c gathers).catchupRun j k c gathers fuel := by
  simp only [State.catchupRun, hidle, hturn, hskip, hmet]
  rfl

/-- A catch-up entry without a transmit port at its due instant: it works on an idle target, and misses on a busy one. -/
theorem State.catchupSlot_due (hent : s.entry? k = some (j, c)) (ha : c.action = 0xF0) (hopen : s.ent k = .idle ∨ s.ent k = .waiting)
    (hdue : ((j.sn + c.offset : Nat) : Int) ≤ s.jtInt) (hport : txPort c.target = none) (hcore : 128 ≤ c.target) :
    s.catchupSlot k gathers =
      if s.targetIdle c.target then (s.putEnt k (.running s.jt)).catchupRun j k c gathers (s.heldPlaces k + 1)
      else (s.faultMiss k c).catchupLost j k c := by
  have hnow : ¬ s.jtInt < ((j.sn + c.offset : Nat) : Int) := not_lt.mpr hdue
  have hmain : ¬ c.target < 128 := not_lt.mpr hcore
  simp only [State.catchupSlot, hent, ha, State.closeResends_of_no_port hport, ne_eq, not_true_eq_false, if_false]
  obtain hidle | hwait := hopen
  · simp only [hidle]
    exact (if_neg hnow).trans (by rw [if_neg hmain])
  · simp only [hwait]
    exact (if_neg hnow).trans (by rw [if_neg hmain])

end Catchup

/-! ### Ends of footprints (R64) -/

section Ends

variable {s : State} {j : Job} {i since : Nat} {e : Entry}

/-- A running entry at the end of its footprint. -/
theorem State.footprintEnd_running (hent : s.entry? i = some (j, e)) (ha : e.action ≠ 0xF0) (hrun : s.ent i = .running since)
    (hsince : since < j.sn + e.finish) (hend : ((j.sn + e.finish : Nat) : Int) ≤ s.jtInt) :
    s.footprintEnd i = if e.action = 0x48 then s.rxFootprintEnd j i e else s.cutEntry i e (j.sn + e.finish) := by
  have hnow : ¬ s.jtInt < ((j.sn + e.finish : Nat) : Int) := not_lt.mpr hend
  have hbefore : ¬ j.sn + e.finish ≤ since := not_le.mpr hsince
  simp only [State.footprintEnd, hent, hrun]
  exact (if_neg hnow).trans ((if_neg ha).trans (if_neg hbefore))

theorem State.stepNo_of_job (hjob : s.job = some j) : s.stepNo = j.step := by simp [State.stepNo, hjob]

theorem State.cutEntry_send (ha : e.action = 0x40) (fin : Nat) : s.cutEntry i e fin = s.faultMiss i e := by
  simp [State.cutEntry, ha]

theorem State.cutEntry_window {fin : Nat} (ha : e.action = 0x41) (hrun : s.ent i = .running since)
    (hopen : (s.port (e.target - 0xB0)).txWindow.any (fun w => w.1 = i) = true) :
    s.cutEntry i e fin =
      let u := s.onPort (e.target - 0xB0) fun n => { n with txWindow := none }
      if fin < since + e.duration then u.faultMiss i e else u.completeEntry i s.stepNo := by
  simp only [State.cutEntry, ha, hrun]
  exact if_pos hopen

theorem State.cutEntry_slice {fin en end_ : Nat} (ha : e.action = 0x50)
    (hslice : (s.farPort (e.target - 0xC0)).slice = some (i + 1, en, end_)) :
    s.cutEntry i e fin =
      let u := s.onFarPort (e.target - 0xC0) fun p => { p with slice := none }
      if s.now + fin < end_ + s.jt then u.faultMiss i e else u.completeEntry i s.stepNo := by
  simp [State.cutEntry, ha, hslice]

end Ends

/-- Settles O47: a catch-up entry works on an idle target and misses on a busy one, and each action is cut, completed or held at
the end of its footprint. -/
theorem catchupsAndFootprintEndsComplete : Obligations.CatchupsAndFootprintEndsComplete := by
  intro s at_ i j e t hjob hruns hi he
  have hent : t.entry? i = some (j, e) := by rw [he]; exact State.entry?_of_runs hjob hruns hi
  have hstep : t.stepNo = j.step := State.stepNo_of_job hjob
  refine ⟨fun gathers ha hopen hdue hport hcore => ?catchup, fun since hrun hsince hend => ?ends⟩
  case catchup =>
    have hslot : exec (.catchupSlot at_ i gathers) s = .next (if t.targetIdle e.target then
        (t.putEnt i (.running t.jt)).catchupRun j i e gathers (t.heldPlaces i + 1) else (t.faultMiss i e).catchupLost j i e) :=
      congrArg Host.Outcome.next (State.catchupSlot_due hent ha hopen hdue hport hcore)
    rw [hslot]
    refine ⟨fun hidle hheld _ => ?_, ?_, fun hbusy => ?_⟩
    · rw [if_pos hidle]
      exact congrArg Host.Outcome.next (State.catchupRun_of_none hidle (State.catchupTurn_of_none hport hheld))
    · intro k hidle hheld hrx f u hskip hmet w hbusy
      have hstart : u.catchupRun j i e gathers (t.heldPlaces i + 1) = (u.leaveAndStart j i k f e gathers).catchupRun j i e gathers _ :=
        State.catchupRun_starts hidle (State.catchupTurn_of_one hport hheld) hskip hmet
      rw [if_pos hidle, hstart]
      exact congrArg Host.Outcome.next (State.catchupRun_of_busy (Bool.eq_false_iff.mpr hbusy) _)
    · rw [if_neg (Bool.eq_false_iff.mp hbusy), State.catchupLost_of_no_port hport]
  case ends =>
    have hexec (ha : e.action ≠ 0xF0) : exec (.footprintEnd at_ i) s =
        .next (if e.action = 0x48 then t.rxFootprintEnd j i e else t.cutEntry i e (j.sn + e.finish)) :=
      congrArg Host.Outcome.next (State.footprintEnd_running hent ha hrun hsince hend)
    have hcut (ha : e.action ≠ 0xF0) (h48 : e.action ≠ 0x48) :
        exec (.footprintEnd at_ i) s = .next (t.cutEntry i e (j.sn + e.finish)) := (hexec ha).trans (congrArg Host.Outcome.next (if_neg h48))
    refine ⟨fun ha => ?_, ?_, ?_, fun k h c ha hhold hroom hbind => ?_⟩
    · rw [hcut (by omega) (by omega), State.cutEntry_send ha]
    · intro ha hopen u
      rw [hcut (by omega) (by omega), State.cutEntry_window ha hrun hopen, hstep]
    · intro en fin ha hslice u
      rw [hcut (by omega) (by omega), State.cutEntry_slice ha hslice, hstep]
    · refine (hexec (by omega)).trans (congrArg Host.Outcome.next ((if_pos ha).trans ?_))
      simp only [State.rxFootprintEnd, hbind, hhold]
      exact if_neg (not_le.mpr hroom)

end Sys2Proof.Machine
end

section
/-! SUPPORT. The overrun of a micro-batch, and the copy of a scale history that reads clean, for
`Obligations.SignalsAndBatchesComplete` (O45). -/

namespace Sys2Proof.Machine

/-! ### Micro-batches (R233, R248, R249) -/

/-- Micro-batches that start change only the step controller, and there neither the overruns nor the carry. -/
theorem State.startMbs_eq (s : State) (n : Nat) : ∃ k d, s.startMbs n = s.onCom fun c => { c with mbStarted := k, dataPos := d } := by
  unfold State.startMbs
  split
  · exact ⟨s.com.mbStarted, s.com.dataPos, rfl⟩
  · exact ⟨_, _, rfl⟩

@[simp] theorem State.startMbs_so (s : State) (n k : Nat) : (s.startMbs n).so k = s.so k := by
  obtain ⟨_, _, h⟩ := s.startMbs_eq n
  rw [h]; rfl

@[simp] theorem State.startMbs_mbDeferred (s : State) (n : Nat) : (s.startMbs n).com.mbDeferred = s.com.mbDeferred := by
  obtain ⟨_, _, h⟩ := s.startMbs_eq n
  rw [h]; rfl

@[simp] theorem State.startMbs_mbDropped (s : State) (n : Nat) : (s.startMbs n).com.mbDropped = s.com.mbDropped := by
  obtain ⟨_, _, h⟩ := s.startMbs_eq n
  rw [h]; rfl

@[simp] theorem State.startMbs_carry (s : State) (n : Nat) : (s.startMbs n).com.carry = s.com.carry := by
  obtain ⟨_, _, h⟩ := s.startMbs_eq n
  rw [h]; rfl

section Cutoff

variable {s : State} {j : Job} {m : Nat} {e : MbEntry}

/-- A micro-batch that is due and not complete overruns (R249). -/
theorem State.mbCutoff_overruns (hjob : s.job = some j) (hruns : j.runs = true) (hfresh : j.fresh = false)
    (he : (imgMbs j.image)[m]? = some e) (hdue : ((j.sn + e.cutoff : Nat) : Int) ≤ s.jtInt) (hfrozen : s.com.frozen = false)
    (hopen : (s.so e.doneSo).reached j.step e.count = false) (hdef : m ∉ s.com.mbDeferred) (hdrop : m ∉ s.com.mbDropped) :
    s.mbCutoff m =
      let o := comOverrun (imgCommit j.image)
      let u := (s.startMbs (Nat.min (m + 2) (comMbCount (imgCommit j.image)))).raise Ev.mbOverrun 0 [(8, m), (2, o)] j.step
      if o = 2 then u.dropMb j m else u.deferMb j m e (o = 1) := by
  have hnow : ¬ (!j.runs || j.fresh || decide (s.jtInt < ((j.sn + e.cutoff : Nat) : Int)) || s.com.frozen) = true := by
    simpa [hruns, hfresh, hfrozen] using hdue
  simp only [State.mbCutoff, hjob, he]
  exact (if_neg hnow).trans (if_neg (by simp [hopen, hdef, hdrop]))

/-- A deferral into the carried contribution of its own step, or into none (R249, R250). -/
theorem State.deferMb_own {stretch : Bool} {held : List (Nat × Nat × Bool)}
    (hcarry : s.com.carry = none ∧ held = [] ∨ ∃ l x, s.com.carry = some (j.step, l, x) ∧ held = l) :
    s.deferMb j m e stretch =
      let w := if held ≠ [] then s
        else { s with oasis := (gradShards j.image).foldl (fun r x =>
          match carryAddr j.image x.id with | some a => r.zero a x.gradBytes | none => r) s.oasis }
      w.onCom fun c =>
        { c with
          mbDeferred := c.mbDeferred ++ [m], cDeferred := satAdd 32 c.cDeferred 1
          cDropped := satAdd 32 c.cDropped (imgDirect j.image)
          cStretched := if stretch then satAdd 32 c.cStretched 1 else c.cStretched
          stretch := if stretch then Nat.min e.planLen (comStretchMax (imgCommit j.image)) else c.stretch
          carryG := c.stepG, carry := some (j.step, held ++ [(m, e.carrySo, false)], c.stepL) } := by
  obtain ⟨hc, rfl⟩ | ⟨l, x, hc, rfl⟩ := hcarry
  · simp only [State.deferMb, hc, Bool.false_and, Bool.false_eq_true, if_false] <;> rfl
  · simp only [State.deferMb, hc, lt_irrefl, decide_false, Bool.false_and, Bool.false_eq_true, if_false, if_true] <;> rfl

end Cutoff

/-! ### Scale history that reads clean (R144, R170, R205) -/

theorem State.noteOasis_clean {r : RamRead} (h : r.fixed = [] ∧ r.bad = []) (s : State) (who : Reader) : s.noteOasis r who = s := by
  simp [State.noteOasis, h]

theorem State.noteHistory_clean {s : State} {l : List Shard}
    (h : ∀ x ∈ l, ∀ q ∈ [s.oasis.readAt x.shAddr 4160, s.oasis.readAt x.anAddr (2 * x.sliceSubs)], q.fixed = [] ∧ q.bad = []) :
    l.foldl (fun s x =>
      (s.noteOasis (s.oasis.readAt x.shAddr 4160) .maint).noteOasis (s.oasis.readAt x.anAddr (2 * x.sliceSubs)) .maint) s = s := by
  induction l with
  | nil => rfl
  | cons x l ih =>
    have hx := h x (by simp)
    rw [List.foldl_cons, State.noteOasis_clean (hx _ (by simp)), State.noteOasis_clean (hx _ (by simp))]
    exact ih fun y hy => h y (by simp [hy])

theorem State.mirrorDone_clean {s : State} {j : Job} {d : Nat} {r : Region} (hjob : s.job = some j) (hdue : s.com.mirrorDue = some d)
    (hr : imgRole j.image 4 = some r) (hdone : j.runs = true → d = j.step → s.passesDone j.image (fun _ => true) = true)
    (hclean : ∀ x ∈ imgShards j.image, ∀ q ∈ [s.oasis.readAt x.shAddr 4160, s.oasis.readAt x.anAddr (2 * x.sliceSubs)],
      q.fixed = [] ∧ q.bad = []) :
    s.mirrorDone =
      let u := s.onCom fun c => { c with mirrorDue := none }
      let m := u.mirrorImage j.image
      if !u.keepsCkpt then u
      else ((u.ergWrite r.base (Nat.min m.len r.length) (m.val % 256 ^ (Nat.min m.len r.length))).onCom fun c =>
        { c with mirrored := some d }).ckptMirrored j.image := by
  have hready : ¬ (j.runs && d = j.step && !s.passesDone j.image (fun _ => true)) = true := by
    simp only [Bool.and_eq_true, decide_eq_true_eq, Bool.not_eq_true']
    exact fun ⟨⟨hruns, hd⟩, hp⟩ => by simp [hdone hruns hd] at hp
  have hnote := State.noteHistory_clean (s := s.onCom fun c => { c with mirrorDue := none }) hclean
  unfold State.mirrorDone
  simp only [hjob, hdue, hr, hnote]
  exact if_neg hready

/-- Settles O45: signals count or go stale, an overrun drops or defers its micro-batch, and the carry, the mirror and the local
checkpoint complete. -/
theorem signalsAndBatchesComplete : Obligations.SignalsAndBatchesComplete := by
  intro s at_ t
  refine ⟨fun k m skip h => exec_soSignal_newer h at_ skip, fun k m skip h => exec_soSignal_equal h at_ skip,
    fun k m skip h => exec_soSignal_older h at_ skip, ?cutoff, fun m n l lexp x hcarry hx => ?carry, ?mirror, fun step h a e hck => ?ckpt⟩
  case cutoff =>
    intro m j e hjob hruns hfresh he hdue hfrozen hopen hdef hdrop p u
    have hexec : exec (.mbCutoff at_ m) s = .next (if comOverrun p = 2 then u.dropMb j m else u.deferMb j m e (comOverrun p = 1)) :=
      congrArg Host.Outcome.next (State.mbCutoff_overruns (s := t) hjob hruns hfresh he hdue hfrozen hopen hdef hdrop)
    refine ⟨fun ho => hexec.trans (congrArg Host.Outcome.next (if_pos ho)), fun held ho hcarry => ?_⟩
    have hucarry : u.com.carry = s.com.carry := by simp [u, t]
    rw [hexec, if_neg ho, State.deferMb_own (hucarry ▸ hcarry)]
    simp only [decide_eq_true_eq]
    rfl
  case carry =>
    refine congrArg Host.Outcome.next (?_ : t.carryComplete m = _)
    simp only [State.carryComplete, show t.com.carry = some (n, l, lexp) from hcarry, hx]
  case mirror =>
    intro j d r hjob hdue hr hdone hclean u m
    have hexec : exec (.mirrorCopyComplete at_) s = .next (if !u.keepsCkpt then u
        else ((u.ergWrite r.base (Nat.min m.len r.length) (m.val % 256 ^ (Nat.min m.len r.length))).onCom fun c =>
          { c with mirrored := some d }).ckptMirrored j.image) :=
      congrArg Host.Outcome.next (State.mirrorDone_clean (s := t) hjob hdue hr hdone hclean)
    have hkeeps : u.keepsCkpt = decide (j.phase ≠ .restarting) := by
      rw [State.keepsCkpt, show u.job = some j from hjob]
      rfl
    rw [hexec, hkeeps]
    exact ⟨fun hp => congrArg Host.Outcome.next (if_pos (by simp [hp])), fun hp => congrArg Host.Outcome.next (if_neg (by simp [hp]))⟩
  case ckpt =>
    refine congrArg Host.Outcome.next (?_ : t.ckptLocalDone = _)
    simp only [State.ckptLocalDone, show t.com.ckptWriting = some (step, h, a, e) from hck]

end Sys2Proof.Machine
end

section
/-! SUPPORT. The states of a near port, for `Obligations.LinkStatesComplete` (O57). -/

namespace Sys2Proof.Machine

/-- The last of two writes of one index stands, in a canonical set. -/
theorem tset_tset {α : Type} [DecidableEq α] {d : α} {lo : Nat} {t : Tab α} (h : tabFrom d lo t = true) (k : Nat) (x y : α) :
    tset d (tset d t k x) k y = tset d t k y := by
  induction t generalizing lo with
  | nil => by_cases hx : x = d <;> simp [tset, hx]
  | cons c t ih =>
    obtain ⟨i, v⟩ := c
    simp only [tabFrom, Bool.and_eq_true, decide_eq_true_eq] at h
    rcases lt_trichotomy k i with hk | rfl | hk
    · by_cases hx : x = d <;> simp [tset, hk, hx]
    · by_cases hx : x = d
      · cases t with
        | nil => simp [tset, hx]
        | cons c t =>
          have hki : k < c.1 := by
            simp only [tabFrom, Bool.and_eq_true, decide_eq_true_eq] at h
            omega
          simp [tset, hx, hki]
      · simp [tset, hx]
    · have h1 : ¬ k < i := by omega
      simp [tset, h1, hk.ne', ih h.2]

theorem State.putPort_putPort {s : State} (h : tabWf NearPort.reset s.near = true) (k : Nat) (x y : NearPort) :
    (s.putPort k x).putPort k y = s.putPort k y := by
  simp only [State.putPort, tset_tset h]

section Port

variable {s : State} {p : Nat}

/-! ### Training (R264, R437, R438) -/

theorem State.ready_of (hchain : s.aon.chainAddr ≠ 0) (hlock : s.ht.state = .locked) : s.ready = true := by
  simp [State.ready, hchain, hlock]

theorem State.trainRequest_starts (hstate : (s.port p).state = .quiet) (hready : s.ready = true) (hpeer : (s.port p).peerReady = true) :
    s.trainRequest p = s.startTraining p := if_pos (by simp [hstate, hready, hpeer])

theorem State.trainSlot_starts (hstate : (s.port p).state = .quiet) (hready : s.ready = true) (hpeer : (s.port p).peerReady = true)
    (hslot : s.htNow % 16000000 = s.aon.chainAddr % 64 * 250000 + p * 1000) : s.trainSlot p = s.startTraining p :=
  if_pos (by simp [hstate, hready, hpeer, hslot])

theorem hundredMs : 100 * oneMs = 100000000 := rfl

/-- A retraining of more than 100 ms ends in DOWN. -/
theorem State.trainingDone_late {lanes : Nat} (hstate : (s.port p).state = .training) (hwas : (s.port p).wasUp = true)
    (hlate : (s.port p).trainAt + 100000000 < s.now) : s.trainingDone p lanes = s.portDown p := by
  have hover : ((s.port p).wasUp && decide ((s.port p).trainAt + 100 * oneMs < s.now)) = true := by simp [hwas, hundredMs, hlate]
  simp only [State.trainingDone]
  exact (if_neg (not_not.mpr hstate)).trans (if_pos hover)

/-- Training that ends in time leads UP where a lane is healthy, and a first training back to QUIET where none is. -/
theorem State.trainingDone_inTime {lanes : Nat} (hstate : (s.port p).state = .training)
    (htime : (s.port p).wasUp = false ∨ s.now ≤ (s.port p).trainAt + 100000000) :
    s.trainingDone p lanes =
      if bestWidth lanes = 0 then
        (if (s.port p).wasUp then s else s.putPort p { s.port p with state := .quiet, lanesOk := lanes % 256 })
      else
        let u := (s.putPort p { s.port p with
          state := .up, width := bestWidth lanes, lanes := (laneGroup lanes).2, fecRun := [], lanesOk := lanes % 256, wasUp := false
          credits := [], lent := [], rxHeld := [], inbox := [], rxMsgs := [], acks := [], paused := [] }).raise Ev.linkUp p
        if bestWidth lanes < 8 then u.raise Ev.linkDegraded p [(8, lanes)] else u := by
  have hearly : ¬ ((s.port p).wasUp && decide ((s.port p).trainAt + 100 * oneMs < s.now)) = true := by
    rw [hundredMs]
    obtain hw | hn := htime
    · simp [hw]
    · simp [hn]
  simp only [State.trainingDone]
  exact (if_neg (not_not.mpr hstate)).trans (if_neg hearly)

theorem State.trainingFailed_first (hstate : (s.port p).state = .training) (hwas : (s.port p).wasUp = false) :
    s.trainingFailed p = s.putPort p { s.port p with state := .quiet } := if_pos (by simp [hstate, hwas])

theorem State.retrainTimeout_due (hstate : (s.port p).state = .training) (hwas : (s.port p).wasUp = true)
    (hlate : (s.port p).trainAt + 100000000 ≤ s.now) : s.retrainTimeout p = s.portDown p :=
  if_pos (by simp [hstate, hwas, hundredMs, hlate])

/-! ### Falls from UP, and what comes late (R264, R439) -/

theorem State.signalLoss_falls (h : (s.port p).state = .quiet ∨ (s.port p).state = .training) :
    s.signalLoss p = (s.putPort p { s.port p with signal := false }).portDown p := if_pos (by simpa using h)

/-- A port just written falls to DOWN. -/
theorem State.portDown_putPort (h : tabWf NearPort.reset s.near = true) (m : NearPort) :
    (s.putPort p m).portDown p =
      let u := s.putPort p { m with state := .down, width := 0, lanes := 0, fecRun := [], peerSeen := false, peerReady := false }
      if s.ht.source = p then u.sourceLost else u := by
  have hport : (s.putPort p m).port p = m := (State.port_putPort h p p m).trans (if_pos rfl)
  simp only [State.portDown, State.onPort, hport, State.putPort_putPort h]
  rfl

/-- The fall of a port is fault class where the armed job uses the port. -/
theorem blamePort_eq (u : State) (p : Nat) :
    (match u.job with
      | some j => if j.live && imgWidth j.image p ≠ 0 then u.fatal Ev.linkDown p else u.raise { Ev.linkDown with sev := 1 } p
      | none => u.raise { Ev.linkDown with sev := 1 } p) =
    (let uses : Bool := match u.job with | some j => j.live && imgWidth j.image p ≠ 0 | none => false
     if uses then u.fatal Ev.linkDown p else u.raise { Ev.linkDown with sev := 1 } p) := by
  cases u.job with
  | none => exact (if_neg Bool.false_ne_true).symm
  | some j =>
    simp only

/-- A port that leaves UP retrains; the event is fault class where the armed job uses the port. -/
theorem State.linkDown_up (hstate : (s.port p).state = .up) :
    s.linkDown p =
      let u := s.putPort p { s.port p with
        state := .training, width := 0, lanes := 0, fecRun := [], trainAt := s.now, wasUp := true
        retrains := satAdd 16 (s.port p).retrains 1, peerSeen := false }
      let u := if s.ht.source = p then u.sourceLost else u
      let uses : Bool := match u.job with | some j => j.live && imgWidth j.image p ≠ 0 | none => false
      if uses then u.fatal Ev.linkDown p else u.raise { Ev.linkDown with sev := 1 } p := by
  simp only [State.linkDown]
  refine (if_neg (not_not.mpr hstate)).trans ?_
  exact blamePort_eq _ p

theorem State.linksLate_due (hstate : (s.port p).state ≠ .up) (honce : (s.port p).lateRaised = false)
    (hdue : s.aon.releasedAt + 800000000 ≤ s.now) (hopts : s.aon.optsDone = true) :
    s.linksLate p = (s.putPort p { s.port p with lateRaised := true }).raise Ev.linksLate p [(8, s.portsNotUp)] := by
  have hms : 800 * oneMs = 800000000 := rfl
  exact if_neg (by simpa [hstate, honce, hopts, hms] using hdue)

end Port

/-- Settles O57: each row of a link finds its port in the state it asks for, and leaves it in the state of its rule. -/
theorem linkStatesComplete : Obligations.LinkStatesComplete := by
  intro s at_ p t n training ready down hwf
  refine ⟨fun hdown => congrArg Host.Outcome.next (if_pos hdown), fun h => congrArg Host.Outcome.next ?_,
    fun hq hr hp hslot => congrArg Host.Outcome.next (State.trainSlot_starts (s := t) hq (State.ready_of hr.1 hr.2) hp hslot),
    fun hq hr hp => congrArg Host.Outcome.next (State.trainRequest_starts (s := t) hq (State.ready_of hr.1 hr.2) hp),
    fun lanes hs hw hlate => congrArg Host.Outcome.next (State.trainingDone_late (s := t) hs hw hlate),
    fun lanes hs htime => ⟨fun hwidth => congrArg Host.Outcome.next ?_, fun hwidth hw => congrArg Host.Outcome.next ?_⟩,
    fun hs hw => congrArg Host.Outcome.next (State.trainingFailed_first (s := t) hs hw),
    fun hs => congrArg Host.Outcome.next (State.linkDown_up (s := t) hs),
    fun hs hw hlate => congrArg Host.Outcome.next (State.retrainTimeout_due (s := t) hs hw hlate),
    fun hs hlate hdue hopts => congrArg Host.Outcome.next (State.linksLate_due (s := t) hs hlate hdue hopts),
    fun jobId cw epoch hs => congrArg Host.Outcome.next (if_neg (not_not.mpr hs))⟩
  · exact (State.signalLoss_falls (s := t) h).trans (State.portDown_putPort (s := t) hwf { n with signal := false })
  · exact (State.trainingDone_inTime (s := t) hs htime).trans (if_neg hwidth)
  · exact (State.trainingDone_inTime (s := t) hs htime).trans ((if_pos hwidth).trans (if_neg (Bool.eq_false_iff.mp hw)))

end Sys2Proof.Machine
end

section
/-! SUPPORT. Commands that nothing turns away: what they answer in BUF0 and what they store, for
`Obligations.BufferQueriesComplete` (O4), `Obligations.SettingCommandsComplete` (O5) and
`Obligations.SettingsAreInForceWhenTheirCommandEnds` (O58). -/

namespace Sys2Proof.Machine

/-- An offered command that leaves HOLD alone runs its body as the mailbox's running command. -/
theorem State.command_runs {s : State} {op mb : Nat} {e : Buf} {b0 b1 : Option Buf} {allow : State → Call → Bool}
    (h : s.offers op mb e b0 b1 allow = true) (hw : wakesHold.contains op = false) (body : State → Call → State) :
    s.command op mb b0 b1 allow body = body (s.begun mb) ⟨mb, e, b0, b1⟩ := by
  rw [State.command_offered h body, hw]
  rfl

section Bodies

variable {s : State} {c : Call}

/-! ### Answers in BUF0 (R391) -/

theorem State.answerBuf_fits {b : Buf} (h : b.len ≤ c.buf0.size) (resp : Buf) :
    s.answerBuf c b resp = (s.writeHost c.buf0.exts b).finish c.mb 0 resp b.len := if_neg (Nat.not_lt.mpr h)

theorem State.slotMiss_answers {b : Buf} (hb : b = Buf.cat (missTargets.map fun k => (s.missRec k).record)) (h : b.len ≤ c.buf0.size) :
    s.slotMiss c =
      ((if c.par 0 1 = 1 then { s with miss := [] } else s).writeHost c.buf0.exts b).finish c.mb 0 .empty b.len := by
  simp only [State.slotMiss, ← hb]
  exact (if_neg (Nat.not_lt.mpr h)).trans (State.answerBuf_fits h _)

theorem State.nearStatus_answers {b : Buf} (hb : b = Buf.cat ((List.range 8).map fun k => (s.port k).record))
    (h : b.len ≤ c.buf0.size) :
    s.nearStatus c =
      ((if c.par 0 1 = 1 then { s with near := tmap NearPort.reset NearPort.clearCounters s.near } else s).writeHost
        c.buf0.exts b).finish c.mb 0 .empty b.len := by
  simp only [State.nearStatus, ← hb]
  exact (if_neg (Nat.not_lt.mpr h)).trans (State.answerBuf_fits h _)

theorem State.counters_answers {b : Buf} (hjob : s.job.isSome = true)
    (hb : c.par 0 2 = 0 ∧ b = Buf.cat ((List.range 128).map fun k => (s.core k).record) ∨
      c.par 0 2 = 1 ∧ b = Buf.cat ((List.range 8).map fun k => (s.die k).trainRecord) ∨
      c.par 0 2 = 2 ∧ b = Buf.cat ((List.range 8).map fun k => (s.die k).updateRecord)) :
    s.counters c = s.answerBuf c b := by
  have hnone : ¬ s.job.isNone = true := by simpa [Option.isSome_iff_ne_none] using hjob
  refine (if_neg hnone).trans ?_
  obtain ⟨hp, rfl⟩ | ⟨hp, rfl⟩ | ⟨hp, rfl⟩ := hb <;> simp only [hp]

theorem State.watchQuery_answers {j : Job} (hjob : s.job = some j) :
    s.watchQuery c = s.answerBuf c (Buf.cat ((imgSlots j.image).zipIdx.map fun p => s.watchRecord j.image p.2 p.1)) := by
  simp only [State.watchQuery, hjob]

theorem State.scaleRead_history (hjob : s.job.isSome = true) (hbit : c.par 20 1 = 1) :
    s.scaleRead c = s.answerBuf c s.com.hist.record := by
  obtain ⟨j, hj⟩ := Option.isSome_iff_exists.mp hjob
  simp only [State.scaleRead, hj, hbit, if_true]

theorem State.scaleRead_shard {j : Job} {x : Shard} (hjob : s.job = some j) (hbit : c.par 20 1 = 0)
    (hshard : imgShard j.image (c.par 0 20) = some x) :
    s.scaleRead c = (s.oasisRead x.shAddr 4160 .maint).2.answerBuf c (Buf.ofLe 4160 (s.oasisRead x.shAddr 4160 .maint).1) := by
  simp only [State.scaleRead, hjob, hbit, hshard, Nat.zero_ne_one, if_false]

theorem State.roundStatus_answers {j : Job} (hjob : s.job = some j) :
    s.roundStatus c = s.answerBuf c (Buf.cat ((List.range (imgFcount j.image)).map fun f => (s.frag f).record)) := by
  simp only [State.roundStatus, hjob]

theorem State.ledgerRead_answers (h : c.par 0 32 ≤ s.isl.ledger.length) :
    s.ledgerRead c = s.answerBuf c (Buf.cat ((s.isl.ledger.drop (c.par 0 32)).take (c.buf0.size / 512)))
      (packBuf 8 [(32, ((s.isl.ledger.drop (c.par 0 32)).take (c.buf0.size / 512)).length), (32, s.isl.ledger.length)]) :=
  if_neg (Nat.not_lt.mpr h)

/-! ### Settings (R34, R403, R411, R415, R418) -/

theorem State.htSet_stores (hroot : s.ht.root = true) (hstate : s.ht.state = .unset ∨ s.ht.state = .acquiring)
    (hsec : c.par 0 64 % 1000000000 = 0) :
    s.htSet c = (s.onHt fun h => { h with pendingSet := some (c.par 0 64, s.now) }).finish c.mb 0 := by
  have hearly : ¬ (decide (s.ht.state ≠ .unset) && decide (s.ht.state ≠ .acquiring)) = true := by
    obtain h | h := hstate <;> simp [h]
  simp only [State.htSet, hroot]
  exact (if_neg Bool.false_ne_true).trans ((if_neg hearly).trans (if_neg (not_not.mpr hsec)))

/-- The settings that HT_CONFIG selects, taken. -/
def State.withHtConfig (s : State) (c : Call) : State :=
  let a := s.onIsl fun x =>
    { x with delayPs := if c.par 0 1 = 1 then c.par 32 32 else x.delayPs, holdMs := if c.par 2 1 = 1 then c.par 64 16 else x.holdMs,
             asym := if c.par 1 1 = 1 then ((List.range 8).map fun i => sext 16 (c.par (128 + 16 * i) 16)).zipIdx.foldl
               (fun t p => tset 0 t p.2 p.1) [] else x.asym }
  if c.par 3 1 = 1 then a.onHt fun h => { h with inOverruns := 0, inInvalid := 0 } else a

theorem State.htConfig_stores (hspent : s.ledgerSpent = false) (hdelay : c.par 0 1 = 1 → c.par 32 32 ≤ 1000000)
    (hasym : c.par 1 1 = 1 → ∀ i < 8, sext 16 (c.par (128 + 16 * i) 16) ≠ -32768)
    (hhold : c.par 2 1 = 1 → 1 ≤ c.par 64 16 ∧ c.par 64 16 ≤ 1000) (hjob : c.par 0 1 = 1 ∨ c.par 1 1 = 1 → s.job = none) :
    s.htConfig c = (((s.withHtConfig c).commandLedger c.mb 0x0002 0x0203 c.params .empty).finish c.mb 0).htLost := by
  have hlegal : ¬ ((decide (c.par 0 1 = 1) && decide (1000000 < c.par 32 32) ||
      decide (c.par 1 1 = 1) && ((List.range 8).map fun i => sext 16 (c.par (128 + 16 * i) 16)).any fun x => decide (x = -32768)) ||
      decide (c.par 2 1 = 1) && (decide (c.par 64 16 = 0) || decide (1000 < c.par 64 16))) = true := by
    simp only [Bool.or_eq_true, Bool.and_eq_true, decide_eq_true_eq, List.any_eq_true, List.mem_map, List.mem_range]
    rintro ((⟨hw, h⟩ | ⟨hw, x, ⟨i, hi, rfl⟩, h⟩) | ⟨hw, h⟩)
    · exact absurd (hdelay hw) (Nat.not_le.mpr h)
    · exact hasym hw i hi h
    · have := hhold hw
      omega
  have hidle : ¬ ((decide (c.par 0 1 = 1) || decide (c.par 1 1 = 1)) && s.job.isSome) = true := by
    simp only [Bool.and_eq_true, Bool.or_eq_true, decide_eq_true_eq]
    rintro ⟨hw, hsome⟩
    simp [hjob hw] at hsome
  simp only [State.htConfig]
  refine (if_neg hlegal).trans ((if_neg hidle).trans ((if_neg (Bool.eq_false_iff.mp hspent)).trans ?_))
  simp only [State.withHtConfig, decide_eq_true_eq]

theorem State.farConfig_stores (hhop : c.par 136 8 ≠ 0) (hport : s.portInUse (c.par 0 2) = false) (hspent : s.ledgerSpent = false) :
    s.farConfig c = ((s.onFarPort (c.par 0 2) fun p => p.onRoute (c.par 2 1) fun r =>
      { r with mac := c.par 16 48, nextHop := c.par 64 48, vid := c.par 112 12, prio := c.par 124 3, vlanEn := c.par 127 1 = 1,
               tclass := c.par 128 8, hopLim := c.par 136 8, udpPort := if c.par 144 16 = 0 then 46721 else c.par 144 16,
               ip6 := c.par 192 128 }).commandLedger c.mb 0x0003 0x0601 c.params .empty).finish c.mb 0 :=
  (if_neg hhop).trans ((if_neg (Bool.eq_false_iff.mp hport)).trans (if_neg (Bool.eq_false_iff.mp hspent)))

theorem State.dozeConfig_stores (h : dozeOk c.params = true) : s.dozeConfig c = (s.setDoze c.params).finish c.mb 0 := if_pos h

theorem powerCap_legal (h : c.par 0 16 = 0 ∨ 600 ≤ c.par 0 16 ∧ c.par 0 16 ≤ 1850) :
    ¬ (decide (c.par 0 16 ≠ 0) && (decide (c.par 0 16 < 600) || decide (1850 < c.par 0 16))) = true := by
  simp only [Bool.and_eq_true, Bool.or_eq_true, decide_eq_true_eq]
  omega

/-- With no job, or one that is stopped or restarting, the cap is in force at once. -/
theorem State.powerCap_atOnce (hcap : c.par 0 16 = 0 ∨ 600 ≤ c.par 0 16 ∧ c.par 0 16 ≤ 1850)
    (hjob : s.job = none ∨ ∃ j, s.job = some j ∧ (j.phase = .stopped ∨ j.phase = .restarting)) :
    s.powerCap c = (s.onAon fun a => { a with cap := c.par 0 16, capNext := none }).finish c.mb 0 := by
  refine (if_neg (powerCap_legal hcap)).trans ?_
  obtain h | ⟨j, h, hp | hp⟩ := hjob
  · simp only [h, Bool.false_eq_true, if_false]
  · simp [h, hp]
  · simp [h, hp]

/-- Under a job that is armed and not stopped the cap waits for the next step boundary. -/
theorem State.powerCap_waits {j : Job} (hcap : c.par 0 16 = 0 ∨ 600 ≤ c.par 0 16 ∧ c.par 0 16 ≤ 1850) (hjob : s.job = some j)
    (hphase : j.phase = .armed ∨ j.phase = .running ∨ j.phase = .stopping) :
    s.powerCap c = (s.onAon fun a => { a with capNext := some (c.par 0 16) }).finish c.mb 0 := by
  refine (if_neg (powerCap_legal hcap)).trans ?_
  obtain hp | hp | hp := hphase <;> simp [hjob, hp]

theorem State.retireClear_stores (hjob : s.job = none) (hspent : s.ledgerSpent = false) :
    s.retireClear c =
      ((s.onIsl fun x => { x with redirect := x.redirect.filter fun r => r.1 ≠ c.par 0 5
                                  badSpares := x.badSpares.filter fun r => r.1 ≠ c.par 0 5
                                  marks := x.marks.filter fun m => m.1 ≠ c.par 0 5 }).commandLedger c.mb 0x0005 0x0304 c.params .empty).finish
        c.mb 0 :=
  (if_neg (by simp [hjob])).trans (if_neg (Bool.eq_false_iff.mp hspent))

theorem State.eventMask_stores (hlo : 1 ≤ c.par 0 16) (hhi : c.par 0 16 ≤ 256) (hlen : 4 * c.par 0 16 ≤ c.buf0.data.len)
    (hres : ∀ x ∈ c.buf0.data.recs 4 (c.par 0 16), x.fld 17 15 = 0)
    (hcode : ∀ x ∈ c.buf0.data.recs 4 (c.par 0 16), x.fld 0 16 ∈ eventCodes) :
    s.eventMask c = (s.onPcie fun p => { p with masks := (c.buf0.data.recs 4 (c.par 0 16)).foldl (fun m x =>
      if x.flag 16 then addMask m (x.fld 0 16) else m.filter (· ≠ x.fld 0 16)) s.pcie.masks }).finish c.mb 0 := by
  have hcount : ¬ (decide (c.par 0 16 = 0) || decide (256 < c.par 0 16)) = true := by
    simp only [Bool.or_eq_true, decide_eq_true_eq]
    omega
  have hreserved : ¬ ((c.buf0.data.recs 4 (c.par 0 16)).any fun e => decide (e.fld 17 15 ≠ 0)) = true := by simpa using hres
  have hunknown : ¬ ((c.buf0.data.recs 4 (c.par 0 16)).any fun e => !eventCodes.contains (e.fld 0 16)) = true := by
    simpa using hcode
  exact (if_neg hcount).trans ((if_neg (Nat.not_lt.mpr hlen)).trans ((if_neg hreserved).trans (if_neg hunknown)))

end Bodies

/-- Settles O4: each query runs its body, whose answer fits BUF0. -/
theorem bufferQueriesComplete : Obligations.BufferQueriesComplete := by
  intro s at_ mb e b0 b1 c t offers answer clear
  refine ⟨fun b hb hlen ho => ?_, fun b hb hlen ho => ?_, fun b hjob hb hlen ho => ?_, fun b j hjob hb hlen ho => ?_,
    fun b hjob hbit hb hlen ho => ?_, fun j x b u hjob hbit hshard hb hu hlen ho => ?_, fun b j hjob hb hlen ho => ?_,
    fun b hb hlen ho => ?_, fun b hb hlen ho => ?_, fun l hfirst hl hlen ho => ?_, fun b hb hlen ho => ?_⟩ <;>
    refine congrArg Host.Outcome.next ((State.command_runs ho rfl _).trans ?_)
  case refine_1 => exact State.slotMiss_answers (s := t) (c := c) hb hlen
  case refine_2 => subst hb; exact State.answerBuf_fits hlen _
  case refine_3 => exact (State.counters_answers (s := t) (c := c) hjob hb).trans (State.answerBuf_fits hlen _)
  case refine_4 => subst hb; exact (State.watchQuery_answers (s := t) (c := c) hjob).trans (State.answerBuf_fits hlen _)
  case refine_5 => subst hb; exact (State.scaleRead_history (s := t) (c := c) hjob hbit).trans (State.answerBuf_fits hlen _)
  case refine_6 =>
    subst hb hu
    exact (State.scaleRead_shard (s := t) (c := c) hjob hbit hshard).trans (State.answerBuf_fits hlen _)
  case refine_7 => subst hb; exact (State.roundStatus_answers (s := t) (c := c) hjob).trans (State.answerBuf_fits hlen _)
  case refine_8 => subst hb; exact State.answerBuf_fits hlen _
  case refine_9 => exact State.nearStatus_answers (s := t) (c := c) hb hlen
  case refine_10 => subst hl; exact (State.ledgerRead_answers (s := t) (c := c) hfirst).trans (State.answerBuf_fits hlen _)
  case refine_11 => subst hb; exact State.answerBuf_fits hlen _

/-- Settles O5: each setting command runs its body, which passes every check of it. -/
theorem settingCommandsComplete : Obligations.SettingCommandsComplete := by
  intro s at_ mb e b0 b1 c t offers
  have runs {op : Nat} {allow : State → Call → Bool} {body : State → Call → State} {u : State} (ho : offers op allow)
      (hw : wakesHold.contains op = false) (h : body t c = u) :
      Host.Outcome.next ((s.tick at_).command op mb b0 b1 allow body) = (.next u : Res) :=
    congrArg Host.Outcome.next ((State.command_runs ho hw body).trans h)
  refine ⟨fun ho hroot hstate hsec => runs ho rfl (State.htSet_stores (s := t) hroot hstate hsec),
    fun ho hspent hdelay hasym hhold hjob => runs ho rfl (State.htConfig_stores (s := t) hspent hdelay hasym hhold hjob),
    fun ho hhop hport hspent => runs ho rfl (State.farConfig_stores (s := t) hhop hport hspent),
    fun ho hdoze => runs ho rfl (State.dozeConfig_stores hdoze),
    fun ho hcap => ⟨fun hjob => runs ho rfl (State.powerCap_atOnce (s := t) hcap hjob),
      fun j hjob hphase => runs ho rfl (State.powerCap_waits (s := t) hcap hjob hphase)⟩,
    fun ho hjob hspent => runs ho rfl (State.retireClear_stores (s := t) hjob hspent), fun l ho hlo hhi hlen hl hres hcode => ?_⟩
  subst hl
  exact runs ho rfl (State.eventMask_stores (s := t) hlo hhi hlen hres hcode)

end Sys2Proof.Machine
end

section
/-! SUPPORT. A state for `Obligations.SettingsAreInForceWhenTheirCommandEnds` (O58). -/

namespace Sys2Proof.Machine

/-- A DOZE_CONFIG with DOZE_PERIOD 1 and the first bit of the next field set, whose entry gives 2 bytes of parameters where
MB_FETCH asks for 6 (R391, R415). -/
def shortDoze : Buf := packBuf 256 [(64, 0x0802), (8, 2), (220, 0), (220, 0), (16, 1), (1, 1)]

/-- The chain mailbox about to start that command. -/
def shortDozeState : State :=
  { State.reset with
    pcie := { Pcie.reset with mboxes := [(16, { Mailbox.reset with cmds := [⟨shortDoze, .waiting, 0, .empty, 0, 0, .empty, .empty⟩] })] }
    aon := { Aon.reset with phase := .up } }

theorem shortDoze_offered : (shortDozeState.tick 0).offers 0x0802 16 shortDoze none none mayOp = true := by decide

theorem shortDoze_legal : dozeOk (Call.params ⟨16, shortDoze, none, none⟩) = true := by decide

theorem shortDoze_enable : Call.par ⟨16, shortDoze, none, none⟩ 16 5 = 1 ∧ (Call.params ⟨16, shortDoze, none, none⟩).fld 16 5 = 0 := by decide

/-- Refutes O58: DOZE_CONFIG stores what lies within its parameter bytes, and an entry whose parameter length is short of
the field leaves it 0, whatever the entry holds there. No premise of the statement asks for the full length. -/
theorem not_settingsAreInForceWhenTheirCommandEnds : ¬ Obligations.SettingsAreInForceWhenTheirCommandEnds := by
  intro h
  obtain ⟨-, -, -, hdoze, -⟩ := h shortDozeState 0 16 shortDoze none none
  obtain ⟨z, hz, haon⟩ := hdoze shortDoze_offered shortDoze_legal
  obtain ⟨-, -, -, hruns, -⟩ := settingCommandsComplete shortDozeState 0 16 shortDoze none none
  have hend := Host.Outcome.next.inj ((hruns shortDoze_offered shortDoze_legal).symm.trans hz)
  have henable : (Call.params ⟨16, shortDoze, none, none⟩).fld 16 5 = z.aon.dozeEnable := congrArg (fun u : State => u.aon.dozeEnable) hend
  rw [haon, shortDoze_enable.2] at henable
  exact absurd (henable.trans shortDoze_enable.1) (by decide)

end Sys2Proof.Machine
end

section
/-! SUPPORT. The events of hall time, for `Obligations.HallTimeEventsComplete` (O40). -/

namespace Sys2Proof.Machine

variable {s : State}

/-! ### HT_IN (R33, R34, R39, R43, R48) -/

/-- A rising edge within 0.5 ms of the last is an overrun. -/
theorem State.htInPulse_early {high d : Nat} {skew : Int} (hlast : s.ht.edgeLast = some d) (hsoon : s.now < d + 500000) :
    s.htInPulse high skew =
      let u := s.onHt fun h => { h with inOverruns := satAdd 32 h.inOverruns 1 }
      (u.raiseOnce s.ht.overrunEvAt Ev.htInOverrun 8).1.onHt fun h =>
        { h with overrunEvAt := (u.raiseOnce s.ht.overrunEvAt Ev.htInOverrun 8).2 } := by
  have hearly : (match s.ht.edgeLast with | none => false | some t => decide (s.now < t + 500000)) = true := by
    rw [hlast]
    exact decide_eq_true hsoon
  exact if_pos hearly

/-- A pulse in time is noted, and judged by its width, by whether HT_IN is dropped and by whether the device is a root. -/
theorem State.htInPulse_inTime (hlast : ∀ d, s.ht.edgeLast = some d → d + 500000 ≤ s.now) (high : Nat) (skew : Int) :
    s.htInPulse high skew =
      let u := s.onHt fun h => { h with edgeLast := some s.now }
      if !(decide (8000 ≤ high) && decide (high ≤ 12000) || (decide (80000 ≤ high) && decide (high ≤ 120000))) then
        u.onHt fun h => { h with inInvalid := satAdd 32 h.inInvalid 1, inGood := 0 }
      else if s.ht.inDropped then u.restorePulse (decide (80000 ≤ high) && decide (high ≤ 120000)) skew
      else if s.ht.root then u.usePulse (decide (80000 ≤ high) && decide (high ≤ 120000)) skew
      else u := by
  have htime : ¬ (match s.ht.edgeLast with | none => false | some t => decide (s.now < t + 500000)) = true := by
    split
    case h_1 => exact Bool.false_ne_true
    case h_2 d hd => simpa using hlast d hd
  exact if_neg htime

theorem pulse_valid {high : Nat} (h : 8000 ≤ high ∧ high ≤ 12000 ∨ 80000 ≤ high ∧ high ≤ 120000) :
    ¬ (!(decide (8000 ≤ high) && decide (high ≤ 12000) || (decide (80000 ≤ high) && decide (high ≤ 120000)))) = true := by
  obtain ⟨hl, hh⟩ | ⟨hl, hh⟩ := h <;> simp [hl, hh]

/-- Among the valid widths a second marker is the long one. -/
theorem pulse_marker {high : Nat} (h : 8000 ≤ high ∧ high ≤ 12000 ∨ 80000 ≤ high ∧ high ≤ 120000) :
    (decide (80000 ≤ high) && decide (high ≤ 120000)) = decide (80000 ≤ high) := by
  obtain ⟨-, hh⟩ | ⟨hl, hh⟩ := h
  · have : ¬ 80000 ≤ high := by omega
    simp [this]
  · simp [hl, hh]

/-- A root whose HT_IN is not dropped uses a valid pulse. -/
theorem State.htInPulse_used (hlast : ∀ d, s.ht.edgeLast = some d → d + 500000 ≤ s.now) {high : Nat} (skew : Int)
    (hwidth : 8000 ≤ high ∧ high ≤ 12000 ∨ 80000 ≤ high ∧ high ≤ 120000) (hdrop : s.ht.inDropped = false) (hroot : s.ht.root = true) :
    s.htInPulse high skew = (s.onHt fun h => { h with edgeLast := some s.now }).usePulse (decide (80000 ≤ high)) skew := by
  refine (State.htInPulse_inTime hlast high skew).trans ((if_neg (pulse_valid hwidth)).trans ?_)
  refine (if_neg (Bool.eq_false_iff.mp hdrop)).trans ((if_pos hroot).trans ?_)
  rw [pulse_marker hwidth]

/-- In UNSET a second marker sets HT to the value that waits for it. -/
theorem State.usePulse_unset {v d : Nat} {skew : Int} (hstate : s.ht.state = .unset) (hpend : s.ht.pendingSet = some (v, d))
    (hfresh : s.now ≤ d + 1500000000) : s.usePulse true skew = (s.setFromMarker v skew).htGoto .acquiring := by
  simp [State.usePulse, hstate, hpend, hfresh]

theorem State.setFromMarker_htNow (v : Nat) (skew : Int) :
    (s.setFromMarker v skew).htNow = wrap 64 ((v : Int) + ((s.isl.delayPs : Int) - skew + 500) / 1000) := by
  refine congrArg (wrap 64) ?_
  simp only [State.setFromMarker, State.htMoved]
  omega

/-- In LOCKED on HT_IN an offset beyond 2.0 ns is not corrected. -/
theorem State.usePulse_excess {marker : Bool} {skew : Int} (hstate : s.ht.state = .locked) (hsource : s.ht.source = 8)
    (hfar : 2000 * 131072 < (s.edgeOffset marker skew).natAbs) : s.usePulse marker skew = s.offsetExcess 8 := by
  have hth : thUnits 2000 < ((s.edgeOffset marker skew).natAbs : Int) := by
    simp only [thUnits]
    omega
  simp only [State.usePulse, hstate, hsource, if_true]
  exact if_pos hth

theorem State.offsetExcess_ht (src : Nat) :
    (s.offsetExcess src).ht.state = .holdover ∧ (s.offsetExcess src).ht.source = 15 ∧ (s.offsetExcess src).ht.leftOut = some src ∧
      (s.offsetExcess src).ht.off = s.ht.off := by
  simp [State.offsetExcess, State.htHold, State.htGoto]

theorem State.htInStuck_drops :
    s.htInStuck =
      let u := (s.onHt fun h => { h with inInvalid := satAdd 32 h.inInvalid 1, inGood := 0, inDropped := true }).raise Ev.htInStuck 8
      if s.ht.source = 8 then u.sourceLost else u := by
  simp only [State.htInStuck, State.raise_ht]
  rfl

theorem State.htSetTimeout_due {v d : Nat} (hpend : s.ht.pendingSet = some (v, d)) (hlate : d + 1500000000 ≤ s.now) :
    s.htSetTimeout = s.onHt fun h => { h with pendingSet := none } := by
  simp only [State.htSetTimeout, hpend]
  exact if_pos hlate

/-! ### Timing symbols (R36, R37, R266) -/

/-- A port whose transmitter runs sends its symbol, where this 4,096 ns of HT has had none. -/
theorem State.timingSend_due {p frac : Nat} (hfrac : frac < 65536) (hstate : (s.port p).state ≠ .down)
    (honce : (s.port p).ownStamp = 0 ∨ (s.port p).ownStamp / 65536 / 4096 ≠ s.htNow / 4096)
    (hslot : (s.port p).state = .up → 100 * (65536 * (s.htNow % 4096) + frac) < 128 * 65536) :
    s.timingSend p frac =
      let stamp := s.htNow * 65536 + frac
      (s.emit (.timing p stamp (if (s.port p).peerSeen then (s.port p).peerStamp else 0) ((stamp + 2 ^ 80 - (s.port p).peerAt) % 2 ^ 32)
        s.ht.state.code s.ht.hops s.epochTag)).putPort p { s.port p with ownStamp := stamp } := by
  have hquiet : ¬ (decide ((s.port p).state = .down) ||
      (decide ((s.port p).ownStamp ≠ 0) && decide ((s.port p).ownStamp / 65536 / 4096 = s.htNow / 4096)) ||
      (decide ((s.port p).state = .up) && !inSlot0 s.htNow frac)) = true := by
    simp only [Bool.or_eq_true, Bool.and_eq_true, Bool.not_eq_true', decide_eq_true_eq, inSlot0, decide_eq_false_iff_not]
    rintro ((h | ⟨h0, h⟩) | ⟨hup, h⟩)
    · exact hstate h
    · exact honce.elim h0 (absurd h)
    · exact h (hslot hup)
  simp only [State.timingSend, Nat.mod_eq_of_lt hfrac]
  exact if_neg hquiet

/-- A port with what its peer's symbol says, arrived at the stamp `own`. -/
def NearPort.noted (n : NearPort) (sym : TimingSymbol) (own : Nat) : NearPort :=
  { n with
    peerState := sym.state % 8, peerHops := sym.hops % 256, peerTag := sym.epochTag % 65536, peerReady := sym.ready
    peerStamp := sym.depart % 2 ^ 80, peerAt := own, peerSeen := true }

/-- What a port makes of a symbol that arrived at the stamp `own`, once the epoch tag has been looked at: an exchange, where
the symbol echoes a stamp of this device. -/
def State.afterSymbol (s : State) (p : Nat) (sym : TimingSymbol) (own : Nat) (n : NearPort) : State :=
  if n.ownStamp ≠ 0 && s.ht.echoes sym.echo own then
    (s.putPort p { n with
      delayPs := some (wrap 32 (if exchangeDelay sym own < 0 then 0 else exchangeDelay sym own)) }).exchange p
      (exchangeOffset sym own (tget 0 s.isl.asym p)) (exchangeDelay2 sym own)
  else if s.ht.source = p && !s.isCandidate p then s.sourceLost
  else s

theorem State.timingRx_eq (p : Nat) (sym : TimingSymbol) :
    s.timingRx p sym =
      let own := s.htNow * 65536 + sym.arriveFrac
      let n := (s.port p).noted sym own
      let u := s.putPort p n
      (if u.tagMismatch p then u.fatal Ev.htEpochMismatch p else u).afterSymbol p sym own n := rfl

/-- Under the epoch tag of the job the symbol raises nothing. -/
theorem State.timingRx_tagged {p own : Nat} {sym : TimingSymbol} (hown : own = s.htNow * 65536 + sym.arriveFrac)
    (htag : (s.putPort p ((s.port p).noted sym own)).tagMismatch p = false) :
    s.timingRx p sym = (s.putPort p ((s.port p).noted sym own)).afterSymbol p sym own ((s.port p).noted sym own) := by
  subst hown
  exact (State.timingRx_eq p sym).trans
    (congrArg (fun u : State => u.afterSymbol p sym _ _) (if_neg (Bool.eq_false_iff.mp htag)))

theorem State.afterSymbol_exchanges {p own : Nat} {sym : TimingSymbol} {n : NearPort} (hown : n.ownStamp ≠ 0)
    (hecho : sym.echo ≠ 0) (hset : s.ht.setAt ≤ sym.echo) (hpast : sym.echo ≤ own) :
    s.afterSymbol p sym own n =
      (s.putPort p { n with delayPs := some (wrap 32 (max (exchangeDelay sym own) 0)) }).exchange p
        (exchangeOffset sym own (tget 0 s.isl.asym p)) (exchangeDelay2 sym own) := by
  have hfloor : (if exchangeDelay sym own < 0 then 0 else exchangeDelay sym own) = max (exchangeDelay sym own) 0 := by
    split <;> omega
  rw [← hfloor]
  exact if_pos (by simp [HtUnit.echoes, hown, hecho, hset, hpast])

theorem State.afterSymbol_noEcho {p own : Nat} {sym : TimingSymbol} {n : NearPort}
    (h : n.ownStamp = 0 ∨ sym.echo = 0 ∨ sym.echo < s.ht.setAt ∨ own < sym.echo) :
    s.afterSymbol p sym own n = if s.ht.source = p ∧ s.isCandidate p = false then s.sourceLost else s := by
  have hnone : ¬ (decide (n.ownStamp ≠ 0) && s.ht.echoes sym.echo own) = true := by
    simp only [HtUnit.echoes, Bool.and_eq_true, decide_eq_true_eq]
    rintro ⟨hown, ⟨hecho, hset⟩, hpast⟩
    omega
  refine (if_neg hnone).trans ?_
  simp only [Bool.and_eq_true, decide_eq_true_eq, Bool.not_eq_true']

/-! ### The limits of ACQUIRING and HOLDOVER (R45 to R47) -/

theorem State.htSourceTimeout_due {d : Nat} (hstate : s.ht.state = .acquiring) (hlost : s.ht.srcLostAt = some d)
    (hlate : d + 10 * oneMs ≤ s.now) : s.htSourceTimeout = s.htUnset := by
  simp only [State.htSourceTimeout, hstate, hlost]
  exact if_pos hlate

theorem State.htLost_due (hstate : s.ht.state = .holdover) (hlate : s.ht.holdSince + s.isl.holdMs * oneMs ≤ s.now) :
    s.htLost = ((s.htGoto .lost).fatal Ev.htLost s.ht.source).htUnset := if_pos (by simp [hstate, hlate])

theorem State.KeepsSync.sendNotice (s : State) (b : Buf) (except : Option Nat) : s.KeepsSync (s.sendNotice b except) := by
  unfold State.sendNotice
  split
  · exact refl s
  · refine foldl (fun s p => ?_) _ _
    exact refl s

/-- After a site restart is asked for, the job is stopped, is restarting, or the site was no longer idle. -/
theorem State.restart_job {htx : Nat} {j : Job} (h : (s.restart htx).job = some j) :
    j.phase = .stopped ∨ j.phase = .restarting ∨ s.site.phase ≠ .idle := by
  unfold State.restart at h
  split at h
  case h_1 hnone => simp [hnone] at h
  case h_2 k hjob =>
    split at h
    case isTrue hstays =>
      obtain rfl : k = j := Option.some.inj (hjob.symm.trans h)
      simp only [Bool.or_eq_true, decide_eq_true_eq] at hstays
      exact hstays.elim .inl (fun hs => .inr (.inr hs))
    case isFalse =>
      rw [State.raise_job, (State.KeepsSync.sendNotice _ _ _).2.2] at h
      exact .inr (.inl (by rw [← Option.some.inj h]))

/-- The same of a fatal event. -/
theorem State.fatal_job {e : Ev} {unit : Nat} {items : List (Nat × Nat)} {j : Job} (h : (s.fatal e unit items).job = some j) :
    j.phase = .stopped ∨ j.phase = .restarting ∨ s.site.phase ≠ .idle := by
  have := State.restart_job h
  rwa [State.raise_site] at this

/-- Settles O40: each event of hall time meets the case of its rule. -/
theorem hallTimeEventsComplete : Obligations.HallTimeEventsComplete := by
  intro s at_ t
  refine ⟨fun high skew hpins hearly => ?early, fun high skew hpins hlast => ⟨fun hplain hmarker => ?invalid,
      fun hwidth hdrop hroot => ?noted, fun v d hlo hhi hdrop hroot hstate hpend hfresh => ?marker,
      fun marker hmarker hwidth hdrop hroot hstate hsource hfar => ?excess⟩,
    fun hpins => congrArg Host.Outcome.next ((if_pos hpins).trans (State.htInStuck_drops (s := t))),
    fun v d hpend hlate => congrArg Host.Outcome.next (State.htSetTimeout_due (s := t) hpend hlate),
    fun p frac n stamp hn hfrac hstamp hstate honce hslot => ?send, fun p sym n n' own hn hown hn' htag => ?symbol,
    fun d hstate hlost hlate => ⟨_, congrArg Host.Outcome.next (State.htSourceTimeout_due (s := t) hstate hlost hlate), rfl, rfl, rfl, rfl⟩,
    fun hstate hlate => ⟨_, congrArg Host.Outcome.next (State.htLost_due (s := t) hstate hlate), rfl, rfl, fun j hj => ?lost⟩⟩
  case early =>
    obtain ⟨d, hd, hsoon⟩ := hearly
    exact congrArg Host.Outcome.next ((if_pos hpins).trans (State.htInPulse_early (s := t) hd hsoon))
  case invalid =>
    refine congrArg Host.Outcome.next ((if_pos hpins).trans ((State.htInPulse_inTime (s := t) hlast high skew).trans (if_pos ?_)))
    simp only [Bool.not_eq_true', Bool.or_eq_false_iff, Bool.and_eq_false_iff, decide_eq_false_iff_not]
    omega
  case noted =>
    exact congrArg Host.Outcome.next ((if_pos hpins).trans ((State.htInPulse_inTime (s := t) hlast high skew).trans
      ((if_neg (pulse_valid hwidth)).trans ((if_neg (Bool.eq_false_iff.mp hdrop)).trans (if_neg (Bool.eq_false_iff.mp hroot))))))
  case marker =>
    have hused := State.htInPulse_used (s := t) hlast skew (.inr ⟨hlo, hhi⟩) hdrop hroot
    rw [decide_eq_true hlo] at hused
    exact ⟨_, congrArg Host.Outcome.next ((if_pos hpins).trans (hused.trans
      (State.usePulse_unset (s := t.onHt fun h => { h with edgeLast := some t.now }) hstate hpend hfresh))),
      rfl, rfl, rfl, rfl, State.setFromMarker_htNow v skew⟩
  case excess =>
    subst hmarker
    exact ⟨_, congrArg Host.Outcome.next ((if_pos hpins).trans ((State.htInPulse_used (s := t) hlast skew hwidth hdrop hroot).trans
      (State.usePulse_excess hstate hsource hfar))), State.offsetExcess_ht 8⟩
  case send =>
    subst hn hstamp
    exact congrArg Host.Outcome.next (State.timingSend_due (s := t) hfrac hstate honce hslot)
  case symbol =>
    subst hn hn'
    have hrx := State.timingRx_tagged (s := t) hown htag
    exact ⟨fun hnone => congrArg Host.Outcome.next (hrx.trans (State.afterSymbol_noEcho hnone)),
      fun hstamp hecho hset hpast => congrArg Host.Outcome.next (hrx.trans (State.afterSymbol_exchanges hstamp hecho hset hpast))⟩
  case lost => exact State.fatal_job (s := t.htGoto .lost) hj

end Sys2Proof.Machine
end

section
/-! SUPPORT. What the fields of a packed structure and the parts of a byte string read back as, for `Obligations.FieldsRoundTrip` (O24). -/

namespace Sys2Proof.Machine

/-! ### Packed fields (R11) -/

section Fields

variable {l : List (Nat × Nat)} {v w lsb n : Nat}

theorem testBit_bits (v lsb n i : Nat) : (bits v lsb n).testBit i = (decide (i < n) && v.testBit (lsb + i)) := by
  simp [bits, Nat.testBit_mod_two_pow, Nat.testBit_shiftRight]

/-- A bit of a packed structure lies in its first field or after it. -/
theorem testBit_packBits_cons (w v : Nat) (l : List (Nat × Nat)) (i : Nat) :
    (packBits ((w, v) :: l)).testBit i = if i < w then v.testBit i else (packBits l).testBit (i - w) := by
  have hval : packBits ((w, v) :: l) = 2 ^ w * packBits l + v % 2 ^ w := by
    rw [packBits, Nat.shiftLeft_eq, Nat.mul_comm, Nat.add_comm]
  rw [hval, Nat.testBit_two_pow_mul_add _ (Nat.mod_lt _ (Nat.two_pow_pos w)), Nat.testBit_mod_two_pow]
  split <;> simp_all

theorem bits_packBits_head (h : lsb + n ≤ w) : bits (packBits ((w, v) :: l)) lsb n = bits v lsb n := by
  refine Nat.eq_of_testBit_eq fun i => ?_
  rw [testBit_bits, testBit_bits, testBit_packBits_cons]
  by_cases hi : i < n
  · rw [if_pos (by omega)]
  · simp [hi]

theorem bits_packBits_tail (h : w ≤ lsb) : bits (packBits ((w, v) :: l)) lsb n = bits (packBits l) (lsb - w) n := by
  refine Nat.eq_of_testBit_eq fun i => ?_
  rw [testBit_bits, testBit_bits, testBit_packBits_cons, if_neg (by omega), Nat.sub_add_comm h]

/-- What comes after a part of the fields starts where that part ends. -/
theorem bits_packBits_append {m : List (Nat × Nat)} {width : Nat} (h : (l.map Prod.fst).sum = width) :
    bits (packBits (l ++ m)) (width + lsb) n = bits (packBits m) lsb n := by
  induction l generalizing width with
  | nil => subst h; simp
  | cons c l ih =>
    simp only [List.map_cons, List.sum_cons] at h
    rw [List.cons_append, bits_packBits_tail (by omega), ← h, Nat.add_assoc, Nat.add_sub_cancel_left, ih rfl]

theorem bits_of_lt (h : v < 2 ^ n) : bits v 0 n = v := by simp [bits, Nat.mod_eq_of_lt h]

theorem packBits_lt (l : List (Nat × Nat)) : packBits l < 2 ^ (l.map Prod.fst).sum := by
  refine Nat.lt_pow_two_of_testBit _ fun i hi => ?_
  induction l generalizing i with
  | nil => simp [packBits]
  | cons c l ih =>
    simp only [List.map_cons, List.sum_cons] at hi
    rw [testBit_packBits_cons, if_neg (by omega), ih _ (by omega)]

theorem packBits_append (l m : List (Nat × Nat)) : packBits (l ++ m) = packBits l + packBits m <<< (l.map Prod.fst).sum := by
  induction l with
  | nil => simp [packBits]
  | cons c l ih => rw [List.cons_append, packBits, ih, packBits, List.map_cons, List.sum_cons, Nat.shiftLeft_eq, Nat.shiftLeft_eq,
      Nat.shiftLeft_eq, Nat.shiftLeft_eq, pow_add]; ring

/-- Fields that fill a byte string lose no bit in it. -/
theorem packBuf_val (h : (l.map Prod.fst).sum = 8 * n) : (packBuf n l).val = packBits l := by
  refine Nat.mod_eq_of_lt ?_
  have := packBits_lt l
  rwa [h, pow_mul] at this

theorem testBit_b2n (b : Bool) : (b2n b).testBit 0 = b := by cases b <;> rfl

/-- Field `i` of fields of one width. -/
theorem bits_packBits_uniform {α : Type} (f : α → Nat) (w : Nat) (l : List α) {i : Nat} (hi : i < l.length) :
    bits (packBits (l.map fun x => (w, f x))) (w * i) w = f l[i] % 2 ^ w := by
  induction l generalizing i with
  | nil => simp at hi
  | cons x l ih =>
    cases i with
    | zero => rw [List.map_cons, bits_packBits_head (by omega)]; simp [bits]
    | succ i =>
      rw [List.map_cons, bits_packBits_tail (Nat.le_mul_of_pos_right w i.succ_pos), Nat.mul_succ, Nat.add_sub_cancel]
      exact ih (by simpa using hi)

end Fields

/-! ### Signed fields -/

theorem wrap_lt (w : Nat) (v : Int) : wrap w v < 2 ^ w := by
  have : (0 : Int) < ((2 ^ w : Nat) : Int) := by exact_mod_cast Nat.two_pow_pos w
  have := Int.emod_lt_of_pos v this
  have := Int.emod_nonneg v (by omega : ((2 ^ w : Nat) : Int) ≠ 0)
  unfold wrap
  omega

/-- A number within the range of `w + 1` bits is read back from its low bits. -/
theorem sext_wrap {w : Nat} {v : Int} (hlo : -((2 ^ w : Nat) : Int) ≤ v) (hhi : v < ((2 ^ w : Nat) : Int)) :
    sext (w + 1) (wrap (w + 1) v) = v := by
  have hpow : 2 ^ (w + 1) = 2 * 2 ^ w := pow_succ' 2 w
  have hlt := wrap_lt (w + 1) v
  unfold sext
  rw [Nat.mod_eq_of_lt hlt, Nat.add_sub_cancel]
  unfold wrap at hlt ⊢
  rw [hpow] at hlt ⊢
  generalize 2 ^ w = p at *
  rcases lt_or_ge v 0 with hv | hv
  · have : v % ((2 * p : Nat) : Int) = v + 2 * p := by
      rw [← Int.add_emod_right, Int.emod_eq_of_lt (by omega) (by omega)]; push_cast; rfl
    rw [this, if_neg (by omega)]; omega
  · have : v % ((2 * p : Nat) : Int) = v := Int.emod_eq_of_lt hv (by omega)
    rw [this, if_pos (by omega)]; omega

/-! ### Parts of a byte string (R15, R16) -/

/-- Byte strings one after the other are fields of whole bytes. -/
theorem Buf.cat_val (l : List Buf) : (Buf.cat l).val = packBits (l.map fun b => (8 * b.len, b.val)) := by
  induction l with
  | nil => rfl
  | cons b l ih => rw [Buf.cat, Buf.app, List.map_cons, packBits, ih, pow_mul]; rfl

theorem revBytes_lt (n v : Nat) : revBytes n v < 256 ^ n := by
  induction n generalizing v with
  | zero => simp [revBytes]
  | succ n ih =>
    have := ih (v / 256)
    have : v % 256 * 256 ^ n ≤ 255 * 256 ^ n := Nat.mul_le_mul_right _ (by omega)
    rw [revBytes, pow_succ']
    omega

/-- The bytes reversed of a number with one more byte above `n` of them. -/
theorem revBytes_top (n x y : Nat) (hx : x < 256) (hy : y < 256 ^ n) : revBytes (n + 1) (x * 256 ^ n + y) = revBytes n y * 256 + x := by
  induction n generalizing y with
  | zero => simp [revBytes] at hy ⊢; omega
  | succ n ih =>
    have hdiv : y / 256 < 256 ^ n := Nat.div_lt_of_lt_mul (by rwa [← pow_succ'])
    have hsplit : x * 256 ^ (n + 1) = x * 256 ^ n * 256 := by rw [pow_succ, Nat.mul_assoc]
    have hlow : (x * 256 ^ (n + 1) + y) % 256 = y % 256 := by omega
    have hhigh : (x * 256 ^ (n + 1) + y) / 256 = x * 256 ^ n + y / 256 := by omega
    calc revBytes (n + 2) (x * 256 ^ (n + 1) + y)
        = y % 256 * 256 ^ (n + 1) + revBytes (n + 1) (x * 256 ^ n + y / 256) := by rw [revBytes, hlow, hhigh]
      _ = y % 256 * 256 ^ (n + 1) + (revBytes n (y / 256) * 256 + x) := by rw [ih _ hdiv]
      _ = revBytes (n + 1) y * 256 + x := by rw [revBytes]; ring

theorem revBytes_revBytes {n v : Nat} (h : v < 256 ^ n) : revBytes n (revBytes n v) = v := by
  induction n generalizing v with
  | zero => simp [revBytes] at h ⊢; omega
  | succ n ih =>
    have hdiv : v / 256 < 256 ^ n := Nat.div_lt_of_lt_mul (by rwa [← pow_succ'])
    calc revBytes (n + 1) (v % 256 * 256 ^ n + revBytes n (v / 256))
        = revBytes n (revBytes n (v / 256)) * 256 + v % 256 := revBytes_top n _ _ (Nat.mod_lt _ (by norm_num)) (revBytes_lt n _)
      _ = v := by rw [ih hdiv]; omega

/-- A big-endian part of `n` bytes read back. -/
theorem revBytes_bits {n v w : Nat} (h : v < 256 ^ n) (hw : w = 8 * n) : revBytes n (bits (revBytes n v) 0 w) = v := by
  rw [hw, bits_of_lt (by rw [pow_mul]; exact revBytes_lt n v), revBytes_revBytes h]

/-! ### Encodings (R84, R127, R191, R331) -/

theorem vecFields_vecWord {op : Nat} {f : VFields} (hop : op < 256) (hf : f.wf = true) : vecFields (vecWord op f) = (op, f) := by
  simp only [VFields.wf, Bool.and_eq_true, decide_eq_true_eq, Nat.reducePow] at hf
  simp [vecFields, vecWord, bits_packBits_head, bits_packBits_tail, bits_of_lt, hop, hf]

theorem Mat.ofBuf_toBuf {d : Mat} (h : d.fits = true) : Mat.ofBuf d.toBuf = d := by
  simp only [Mat.fits, Bool.and_eq_true, decide_eq_true_eq, Nat.reducePow] at h
  simp [-Nat.testBit_zero, Mat.ofBuf, Buf.fld, Buf.flag, Mat.toBuf, packBuf_val, bits_packBits_head, bits_packBits_tail,
    testBit_packBits_cons, testBit_b2n, bits_of_lt, h]

/-- The first byte of an Acrix header: TYPE, then version 3 (R331). -/
theorem acxTypeByte_eq_packBits (type : Nat) : (type % 16 + 48) % 256 = packBits [(4, type), (4, 3)] := by
  simp only [packBits, Nat.shiftLeft_eq]; omega

/-- Its second byte: RETX, ROUTE, LAST and ECHO (R331). -/
theorem acxFlagByte_eq_packBits (retx last echo : Bool) (route : Nat) : (b2n retx + 2 * (route % 2) + 4 * b2n last + 8 * b2n echo) % 256 =
    packBits [(1, b2n retx), (1, route), (1, b2n last), (1, b2n echo)] := by
  have hlt (b : Bool) : b2n b < 2 := by cases b <;> decide
  have := hlt retx; have := hlt last; have := hlt echo
  simp only [packBits, Nat.shiftLeft_eq]; omega

theorem AcxHdr.ofBuf_bytes {h : AcxHdr} (hfits : h.fits = true) : AcxHdr.ofBuf h.bytes = h := by
  simp only [AcxHdr.fits, Bool.and_eq_true, decide_eq_true_eq, Nat.reducePow] at hfits
  have hfrag : h.frag % 64 % 256 = h.frag := by omega
  have hsite : h.site % 8 % 256 = h.site := by omega
  simp [-Nat.testBit_zero, AcxHdr.ofBuf, Buf.fld, Buf.flag, Buf.be, Buf.le, AcxHdr.bytes, Buf.cat_val, Buf.ofLe, Buf.ofBe,
    acxTypeByte_eq_packBits, acxFlagByte_eq_packBits, hfrag, hsite, bits_packBits_head, bits_packBits_tail, testBit_packBits_cons, testBit_b2n, bits_of_lt,
    revBytes_bits, hfits]

/-- The bits of a block: those of its header, then those of its elements (R191). -/
theorem AfxHdr.block_val (h : AfxHdr) (els : List Int) : (h.block els).val =
    packBits ([sf 16 h.anchor, (1, b2n h.w32), (1, b2n h.nf), (1, b2n h.ovf), (13, 0), (32, h.count), (20, h.tensor), (12, 0), (16, h.row),
      (16, h.col), (16, h.sub), (16, h.epoch), (64, h.step), (32, 0)] ++ els.map (sf (if h.w32 then 32 else 64))) := by
  have hels (w : Nat) : els.foldr (fun i a => wrap w i + a <<< w) 0 = packBits (els.map (sf w)) := by
    induction els with
    | nil => rfl
    | cons i els ih => rw [List.foldr_cons, ih, List.map_cons, sf, packBits, Nat.mod_eq_of_lt (wrap_lt w i)]
  simp only [AfxHdr.block, packBits_append, ← hels, List.map_cons, List.map_nil, List.sum_cons, List.sum_nil, sf, Nat.reduceAdd]

theorem AfxHdr.afx32_block (h : AfxHdr) (els : List Int) : afx32 (h.block els) = h.w32 := by
  rw [afx32, Buf.flag, AfxHdr.block_val]
  simp [-Nat.testBit_zero, sf, testBit_packBits_cons, testBit_b2n]

theorem AfxHdr.of_block {h : AfxHdr} (hfits : h.fits = true) (els : List Int) : AfxHdr.of (h.block els) = h := by
  simp only [AfxHdr.fits, Bool.and_eq_true, decide_eq_true_eq, Nat.reducePow] at hfits
  have hanchor : sext 16 (wrap 16 h.anchor) = h.anchor := sext_wrap (w := 15) (by omega) (by omega)
  have hwrap : wrap 16 h.anchor < 65536 := wrap_lt 16 h.anchor
  simp [-Nat.testBit_zero, AfxHdr.of, afxAnchor, afx32, afxNf, afxOvf, afxCount, afxTensor, afxRow, afxCol, afxSub, afxEpoch, afxStep,
    Buf.flag, Buf.fld, Buf.sfld, AfxHdr.block_val, sf, bits_packBits_head, bits_packBits_tail, testBit_packBits_cons, testBit_b2n,
    bits_of_lt, hanchor, hwrap, hfits]

/-- An element that the width of the block holds reads back. -/
theorem AfxHdr.afxElem_block {h : AfxHdr} {els : List Int} {i : Nat} (hi : i < els.length)
    (hlo : -((2 ^ (afxF h.w32 + afxH h.w32) : Nat) : Int) ≤ els[i]) (hhi : els[i] < ((2 ^ (afxF h.w32 + afxH h.w32) : Nat) : Int)) :
    afxElem (h.block els) i = els[i] := by
  have hw : afxWidth (h.block els) = if h.w32 then 32 else 64 := by rw [afxWidth, AfxHdr.afx32_block]
  have hfmt : (if h.w32 then 32 else 64) = afxF h.w32 + afxH h.w32 + 1 := by cases h.w32 <;> rfl
  rw [afxElem, Buf.sfld, AfxHdr.block_val, hw, bits_packBits_append (by simp [sf]), hfmt]
  refine (congrArg (sext _) ?_).trans (sext_wrap hlo hhi)
  exact (bits_packBits_uniform (wrap _) _ els hi).trans (Nat.mod_eq_of_lt (wrap_lt _ _))

/-- Settles O24, an encoding at a time: each packed field is read from the first field on. -/
theorem fieldsRoundTrip : Obligations.FieldsRoundTrip := by
  refine ⟨fun op f => vecFields_vecWord, fun d => Mat.ofBuf_toBuf, fun h => AcxHdr.ofBuf_bytes,
    fun h els hfits hlen hrange => ⟨AfxHdr.of_block hfits els, ?_⟩⟩
  refine List.ext_getElem (by simp [afxElems, hlen]) fun i hi hi' => ?_
  obtain ⟨hlo, hhi⟩ := hrange _ (List.getElem_mem hi')
  simp [afxElems, AfxHdr.afxElem_block hi' hlo hhi]

end Sys2Proof.Machine
end

section
/-! SUPPORT. The rows of the core DMA and of vector blocks, after the strikes that come with a row, for
`Obligations.CoreDmaAndBlocksComplete` (O50). -/

namespace Sys2Proof.Machine

/-! ### What strikes leave (R164) -/

/-- Dropping an index leaves every other index that is listed, in a set that need not be canonical. -/
theorem tget_tset_default {α : Type} [DecidableEq α] {d : α} {t : Tab α} {k j : Nat} (hj : j ≠ k) (h : tget d t j ≠ d) :
    tget d (tset d t k d) j = tget d t j := by
  induction t with
  | nil => simp [tset]
  | cons c t ih =>
    obtain ⟨i, v⟩ := c
    rcases lt_trichotomy k i with hk | rfl | hk
    · simp [tset, hk]
    · have hkj : ¬ j < k := fun hlt => h (by simp [tget, hj, hlt])
      simp [tset, tget, hj, hkj]
    · have hki : ¬ k < i := by omega
      by_cases hji : j = i
      · simp [tset, tget, hki, hk.ne', hji]
      · have hlt : ¬ j < i := fun hlt => h (by simp [tget, hji, hlt])
        simp only [tget, hji, hlt, if_false] at h
        simp [tset, tget, hki, hk.ne', hji, hlt, ih h]

section Strike

variable {s : State} {core : Nat} {k : Kernel}

/-- A core goes on with its kernel when a core is written, unless that write takes it away. -/
theorem State.kernel_putCore (h : (s.core core).kernel = some k) {i : Nat} {v : Core} (hv : core = i → v.kernel = some k) :
    ((s.putCore i v).core core).kernel = some k := by
  by_cases hreset : v = Core.reset
  · have hne : core ≠ i := fun e => by have := hv e; rw [hreset] at this; cases this
    have hlisted : s.core core ≠ Core.reset := fun e => by rw [e] at h; cases h
    rw [hreset]
    exact (congrArg Core.kernel (tget_tset_default hne hlisted)).trans h
  · refine (congrArg Core.kernel (tget_tset_of_ne hreset s.cores i core)).trans ?_
    split
    case isTrue e => exact hv e
    case isFalse => exact h

@[simp] theorem Core.putTile_kernel (c : Core) (i : Nat) (t : Tile) : (c.putTile i t).kernel = c.kernel := by
  unfold Core.putTile; split <;> rfl

/-- Strikes change memories and Basin tiles only. -/
theorem State.strike_eq (s : State) (l : List Strike) : ∃ scratch oasis cores, s.strike l = { s with scratch, oasis, cores } := by
  induction l generalizing s with
  | nil => exact ⟨_, _, _, rfl⟩
  | cons u l ih =>
    obtain ⟨a, b, c, h⟩ : ∃ scratch oasis cores, s.strike [u] = { s with scratch, oasis, cores } := by
      unfold State.strike
      cases hu : u.place <;> simp only [List.foldl_cons, List.foldl_nil, hu] <;> exact ⟨_, _, _, rfl⟩
    obtain ⟨a', b', c', h'⟩ := ih (s.strike [u])
    exact ⟨a', b', c', h'.trans (by rw [h])⟩

theorem State.strike_dieCc (s : State) (l : List Strike) (die : Nat) : (s.strike l).dieCc die = s.dieCc die := by
  obtain ⟨a, b, c, h⟩ := s.strike_eq l
  rw [h]; rfl

/-- Strikes leave the kernel that a core runs. -/
theorem State.strike_kernel (h : (s.core core).kernel = some k) (l : List Strike) : ((s.strike l).core core).kernel = some k := by
  induction l generalizing s with
  | nil => exact h
  | cons u l ih =>
    refine ih (s := s.strike [u]) ?_
    unfold State.strike
    cases hu : u.place with
    | scratch | oasis =>
      simp only [List.foldl_cons, List.foldl_nil, hu]
      exact h
    | basin i tile e w =>
      simp only [List.foldl_cons, List.foldl_nil, hu]
      exact State.kernel_putCore h fun e => by rw [Core.putTile_kernel, ← e, h]

/-! ### Core DMA (R75, R94, R95) -/

theorem State.coreDma_starts (hk : (s.core core).kernel = some k) {it : Item} (hit : nextItem (s.core core).dq = some it) :
    s.coreDma core = (s.putCore core { s.core core with dq := markStart (s.core core).dq it.index it.issueCc }).dmaMove core
      (CoreDma.ofBuf it.body) (.core core k.guest) := by
  simp only [State.coreDma, hk, hit]

theorem State.coreDmaFinish_due (hk : (s.core core).kernel = some k) {it : Item}
    (hit : (s.core core).dq.find? (fun it => it.startCc.isSome && decide (it.issueCc + (CoreDma.ofBuf it.body).cycles ≤ s.dieCc (core / 16))) =
      some it) :
    s.coreDmaFinish core = (s.putCore core
      { s.core core with
        dq := (s.core core).dq.filter fun x => x.index ≠ it.index
        kernel := some { k with lastDone := Nat.max k.lastDone (it.issueCc + (CoreDma.ofBuf it.body).cycles) } }).kernelSignal
      { k with lastDone := Nat.max k.lastDone (it.issueCc + (CoreDma.ofBuf it.body).cycles) }
      (CoreDma.ofBuf it.body).sigEn (CoreDma.ofBuf it.body).sigSo := by
  simp only [State.coreDmaFinish, hk, hit]

/-! ### Vector blocks (R124, R126, R133) -/

theorem State.vectorBlock_starts (hk : (s.core core).kernel = some k) (hfree : (s.core core).vact = none) {it : Item} {rest : List Item}
    (hq : (s.core core).vq = it :: rest) :
    s.vectorBlock core = s.putCore core
      { s.core core with vq := rest, vact := some ({ it with startCc := some (s.dieCc (core / 16)) }, ⟨k.base + it.off, 0, 0⟩) } := by
  simp only [State.vectorBlock, hk, hfree, hq]

theorem State.vectorBlockFinish_due (hk : (s.core core).kernel = some k) {it : Item} {b : VBlock}
    (hact : (s.core core).vact = some (it, b)) (hdone : vbTotal it.body ≤ b.done) :
    s.vectorBlockFinish core = (s.putCore core
        { s.core core with vact := none, kernel := some { k with lastDone := Nat.max k.lastDone (s.dieCc (core / 16)) } }).kernelFlags core
      { k with lastDone := Nat.max k.lastDone (s.dieCc (core / 16)) } (s.core core).v.flags := by
  have hnext : vbNext it.body b = none := if_pos hdone
  simp [State.vectorBlockFinish, hk, hact, hnext]

end Strike

/-- Settles O50, a row at a time; strikes leave the core's kernel. -/
theorem coreDmaAndBlocksComplete : Obligations.CoreDmaAndBlocksComplete := by
  intro s at_ core k t c cc hk
  refine ⟨fun strikes z c it hz hc hit => ?_, fun it hit => congrArg Host.Outcome.next (State.coreDmaFinish_due (s := t) hk hit),
    fun it rest hfree hq => congrArg Host.Outcome.next (State.vectorBlock_starts (s := t) hk hfree hq),
    fun it b hact hdone => congrArg Host.Outcome.next (State.vectorBlockFinish_due (s := t) hk hact hdone)⟩
  subst hz hc
  exact congrArg Host.Outcome.next (State.coreDma_starts (State.strike_kernel (s := t) hk strikes) hit)

end Sys2Proof.Machine
end

section
/-! SUPPORT. Accumulation into Basin tiles and their drains, for `Obligations.MatrixCommandsComplete` (O49). -/

namespace Sys2Proof.Machine

section Matrix

variable {s : State} {core : Nat} {k : Kernel} {it : Item} {rest : List Item}

/-! ### Ends of accumulations and drains (R89 to R91) -/

theorem State.accumulationComplete_due (hk : (s.core core).kernel = some k) (hq : (s.core core).mq = it :: rest) {start : Nat}
    (hstart : it.startCc = some start) (hdue : (Mat.ofBuf it.body).accEnd start + 16 ≤ s.dieCc (core / 16)) :
    s.accumulationComplete core (Mat.ofBuf it.body).tile =
      if (Mat.ofBuf it.body).drain then
        s.putCore core { s.core core with mq := rest, drainq := (s.core core).drainq ++ [((Mat.ofBuf it.body).accEnd start + 16, it)] }
      else
        (s.putCore core { s.core core with
          mq := rest, kernel := some { k with lastDone := Nat.max k.lastDone ((Mat.ofBuf it.body).accEnd start + 16) } }).kernelSignal
          k (Mat.ofBuf it.body).sigEn (Mat.ofBuf it.body).sigSo := by
  simp only [State.accumulationComplete, hk, hq, hstart]
  exact if_neg (by simpa using hdue)

end Matrix

/-- Settles O49, a row at a time: where a row's conditions hold, its meaning takes the branch of its rule. -/
theorem matrixCommandsComplete : Obligations.MatrixCommandsComplete := by
  intro s at_ core k t c cc hk
  refine ⟨?descriptor, ?accumulated, ?start, ?drained⟩
  case descriptor =>
    intro strikes z c it hz hc hit d free start u x v hdue hpass hdraining hahead
    subst hz hc
    have hk := State.strike_kernel (s := t) hk strikes
    have hready : ¬ (decide ((t.strike strikes).dieCc (core / 16) < start) || ((t.strike strikes).die (core / 16)).pass.isSome ||
        ((t.strike strikes).core core).draining d.tile || drainAhead ((t.strike strikes).core core).mq d.tile) = true := by
      rw [State.strike_dieCc, hpass, hdraining, hahead]
      simpa using hdue
    have hexec : exec (.matrixDescriptor at_ ⟨core, strikes⟩) s = .next ((t.strike strikes).matrixDescriptor core) := rfl
    simp only [hexec, State.matrixDescriptor, hk, hit]
    refine ⟨fun hcont hlimit => congrArg Host.Outcome.next ((if_neg hready).trans (if_pos ?passed)),
      fun hcont hroom hk0 hfinite hexp => congrArg Host.Outcome.next ((if_neg hready).trans ((if_neg ?room).trans (if_pos ?differs))),
      fun hgoes as bs sas sbs sa sb sc sd ha hb hsa hsb =>
        congrArg Host.Outcome.next ((if_neg hready).trans ((if_neg ?inLimit).trans ((if_neg ?agrees).trans ?adds)))⟩
    case passed => simpa using ⟨hcont, hlimit⟩
    case room => simpa using fun _ => hroom
    case differs => simpa using ⟨⟨⟨hcont, hk0⟩, hfinite⟩, hexp⟩
    case inLimit => simpa using fun hcont => Nat.not_lt.mp fun h => hgoes ⟨hcont, .inl h⟩
    case agrees => simpa using fun hcont hk0 hfinite => not_not.mp fun h => hgoes ⟨hcont, .inr ⟨hk0, hfinite, h⟩⟩
    case adds =>
      obtain ⟨rfl, rfl⟩ := Prod.ext_iff.mp ha
      obtain ⟨rfl, rfl⟩ := Prod.ext_iff.mp hb
      obtain ⟨rfl, rfl⟩ := Prod.ext_iff.mp hsa
      obtain ⟨rfl, rfl⟩ := Prod.ext_iff.mp hsb
      rfl
  case accumulated =>
    intro it rest start hq hstart d done hdue
    have hdone := State.accumulationComplete_due (s := t) hk hq hstart hdue
    exact ⟨fun hdrain => congrArg Host.Outcome.next (hdone.trans (if_pos hdrain)),
      fun hdrain => congrArg Host.Outcome.next (hdone.trans (if_neg (Bool.eq_false_iff.mp hdrain)))⟩
  case start =>
    intro strikes z c due it rest hz hc hfree hq d start u p direct hdue sArr bArr sa sb hs hb
    subst hz hc
    have hk := State.strike_kernel (s := t) hk strikes
    refine congrArg Host.Outcome.next (a₁ := (t.strike strikes).drainStart core d.tile) ?_
    simp only [State.drainStart, hk, hfree, hq]
    refine (if_neg ?due).trans ?reads
    case due =>
      simpa only [State.strike_dieCc, Bool.or_eq_true, decide_eq_true_eq, ne_eq, not_or, not_not, Nat.not_lt] using ⟨rfl, hdue⟩
    case reads =>
      have hscale : (decide (p.sMode = 1) && !direct) = true ↔ p.sMode = 1 ∧ direct = false := by simp
      replace hs := (if_congr hscale rfl rfl).trans hs
      obtain ⟨rfl, rfl⟩ := Prod.ext_iff.mp hs
      obtain ⟨rfl, rfl⟩ := Prod.ext_iff.mp hb
      rfl
  case drained =>
    intro dr hdr hdue
    refine congrArg Host.Outcome.next (a₁ := t.drainComplete core) ?_
    have hk : (t.core core).kernel = some k := hk
    have hdr : (t.core core).drain = some dr := hdr
    simp only [State.drainComplete, hk, hdr]
    exact if_neg (Nat.not_lt.mpr hdue)

end Sys2Proof.Machine
end

section
/-! SUPPORT. The sequencer of a core: the issue of items, the end of a kernel and its faults, and the completion of main and
guest kernels, for `Obligations.KernelsIssueAndEnd` (O48). -/

namespace Sys2Proof.Machine

section Sequencer

variable {s : State} {core : Nat} {k : Kernel}

/-! ### Issue (R71, R74, R76, R91, R96) -/

/-- The wait cycles counted at the end of a wait, as a field of the core (R96). -/
theorem Core.waited_eq (c : Core) (t : Option Nat) (cc : Nat) :
    c.waited t cc = { c with waitCycles := match t with | some x => satAdd 32 c.waitCycles (cc - x) | none => c.waitCycles } := by
  cases t <;> rfl

/-- The cycles of a hold under R71 counted at its end, as a field of the core (R96). -/
theorem Core.locked_eq (c : Core) (t : Option Nat) (cc : Nat) :
    c.locked t cc = { c with interlock := match t with | some x => satAdd 32 c.interlock (cc - x) | none => c.interlock } := by
  cases t <;> rfl

section Issue

variable (hk : (s.core core).kernel = some k)
  (hready : (k.stopped || k.ended || s.accHeld (s.core core) || decide (s.dieCc (core / 16) < k.issueFrom) ||
    !(decide (itemKind (s.itemAt core k k.pos) = 0x4D) || decide (itemKind (s.itemAt core k k.pos) = 0x44) ||
      decide (itemKind (s.itemAt core k k.pos) = 0x56))) = false)
  (hopen : (s.core core).closingHolds k.guest (s.itemAt core k k.pos) = false)

include hk hready hopen

theorem State.itemIssue_passes (hpass : s.passedOver core k (s.itemAt core k k.pos) = true) :
    s.itemIssue core = s.putCore core { s.core core with
      kernel := some { k with
        pos := k.pos + 64, nextIndex := k.nextIndex + 1, passed := k.passed + 1, lastIssue := s.dieCc (core / 16), issuedAny := true
        waitFrom := none, lockFrom := none } } := by
  simp only [State.itemIssue, hk, hready, hopen, hpass, if_true, Bool.false_eq_true, if_false]

theorem State.itemIssue_waits (hpass : s.passedOver core k (s.itemAt core k k.pos) = false) {so n : Nat}
    (hwait : itemWait (s.itemAt core k k.pos) = some (so, n)) (hmet : s.waitMet k so n = false) :
    s.itemIssue core = s.putCore core { s.core core with
      kernel := some { k with waitFrom := some (k.waitFrom.getD (s.dieCc (core / 16))) } } := by
  simp only [State.itemIssue, hk, hready, hopen, hpass, hwait, hmet, Bool.false_eq_true, if_false]

/-- An item without a wait, or with one that is met, is issued or held under R71 or by a full queue. -/
theorem State.itemIssue_issues (hpass : s.passedOver core k (s.itemAt core k k.pos) = false)
    (hmet : ∀ so n, itemWait (s.itemAt core k k.pos) = some (so, n) → s.waitMet k so n = true) :
    s.itemIssue core = State.itemIssue.issue core s (s.core core) k (s.dieCc (core / 16)) (s.itemAt core k k.pos) := by
  simp only [State.itemIssue, hk, hready, hopen, hpass, Bool.false_eq_true, if_false]
  cases hwait : itemWait (s.itemAt core k k.pos) with
  | none => rfl
  | some w => exact if_pos (hmet w.1 w.2 hwait)

end Issue

/-! ### The end of a kernel (R73, R76, R91, R374) -/

theorem State.kernelEnd_due (hk : (s.core core).kernel = some k) (hstop : k.stopped = false) (hend : k.ended = false)
    (hheld : s.accHeld (s.core core) = false) (hfrom : k.issueFrom ≤ s.dieCc (core / 16))
    (hkind : itemKind (s.itemAt core k k.pos) = 0x45) :
    s.kernelEnd core = s.putCore core { s.core core with
      kernel := some { k with ended := true, lastDone := Nat.max k.lastDone (s.dieCc (core / 16)) } } := by
  simp only [State.kernelEnd, hk]
  exact if_neg (by simpa [hstop, hend, hheld, hkind] using hfrom)

section WaitFault

variable {w : Nat × Nat} (hk : (s.core core).kernel = some k) (hstop : k.stopped = false)
  (hfailed : (!s.waitMet k w.1 w.2 && (decide (k.limitJt ≤ s.jt) || s.waitSkipped k w.1)) = true)

include hk hstop hfailed

/-- The VWAIT of the running vector block fails (R76). -/
theorem State.kernelWaitFault_vector (hvec : (s.core core).vecWait = some w) :
    s.kernelWaitFault core =
      ((s.putCore core (({ s.core core with vact := none, vq := [] } : Core).waited k.vwaitFrom (s.dieCc (core / 16)))).raise
        Ev.kernelWaitFault core [(16, 0)] k.step k.guest).kernelFault core k := by
  simp only [State.kernelWaitFault, hk, hstop, hvec]
  exact if_pos hfailed

/-- The wait of the next item fails (R76). -/
theorem State.kernelWaitFault_item (hvec : (s.core core).vecWait = none) (hend : k.ended = false)
    (hitem : itemWait (s.itemAt core k k.pos) = some w) :
    s.kernelWaitFault core =
      ((s.putCore core ((s.core core).waited k.waitFrom (s.dieCc (core / 16)))).raise Ev.kernelWaitFault core
        [(16, itemTag (s.itemAt core k k.pos))] k.step k.guest).kernelFault core k := by
  simp only [State.kernelWaitFault, hk, hstop, hvec, hend, hitem, Bool.false_eq_true, if_false]
  exact if_pos hfailed

end WaitFault

@[simp] theorem State.scratchWrite_guest (s : State) (core a n v : Nat) (bad : Bool) :
    (s.scratchWrite core a n v bad).guest = s.guest := by
  unfold State.scratchWrite
  exact (apply_ite State.guest _ _ _).trans (ite_self _)

end Sequencer

/-- Settles O48, a row at a time: where a row's conditions hold, its meaning takes the branch of its rule. -/
theorem kernelsIssueAndEnd : Obligations.KernelsIssueAndEnd := by
  intro s at_ core k t c cc b hk
  replace hk : (t.core core).kernel = some k := hk
  refine ⟨?issue, ?ends, ?waitFault, ?completes, ?boundary⟩
  case issue =>
    intro hstop hend hheld hfrom hkind hopen k'
    have hready : (k.stopped || k.ended || t.accHeld c || decide (cc < k.issueFrom) ||
        !(decide (itemKind b = 0x4D) || decide (itemKind b = 0x44) || decide (itemKind b = 0x56))) = false := by
      simpa [hstop, hend, hheld, ← or_iff_not_imp_left] using ⟨hfrom, hkind⟩
    refine ⟨fun hpass => congrArg Host.Outcome.next (State.itemIssue_passes (s := t) hk hready hopen hpass),
      fun so n hpass hwait hmet => congrArg Host.Outcome.next (State.itemIssue_waits (s := t) hk hready hopen hpass hwait hmet),
      fun hpass hmet => ?_⟩
    have hissue := State.itemIssue_issues (s := t) hk hready hopen hpass hmet
    rw [State.itemIssue.issue, Core.waited_eq, Core.locked_eq] at hissue
    intro w u it
    refine ⟨fun hlock => congrArg Host.Outcome.next (hissue.trans (if_pos hlock)),
      fun hfree hfull => congrArg Host.Outcome.next (hissue.trans ((if_neg (Bool.eq_false_iff.mp hfree)).trans (if_pos hfull))),
      fun hfree hroom => ?queued⟩
    replace hissue := hissue.trans ((if_neg (Bool.eq_false_iff.mp hfree)).trans (if_neg (Bool.eq_false_iff.mp hroom)))
    refine ⟨fun hm => congrArg Host.Outcome.next (hissue.trans (congrArg (t.putCore core) (if_pos hm))),
      fun hd => congrArg Host.Outcome.next (hissue.trans (congrArg (t.putCore core) ((if_neg ?_).trans (if_pos hd)))),
      fun hv => congrArg Host.Outcome.next (hissue.trans (congrArg (t.putCore core) ((if_neg ?_).trans (if_neg ?_))))⟩
    · rw [hd]; decide
    · rw [hv]; decide
    · rw [hv]; decide
  case ends =>
    intro hstop hend hheld hfrom hkind
    exact congrArg Host.Outcome.next (State.kernelEnd_due (s := t) hk hstop hend hheld hfrom hkind)
  case waitFault =>
    intro w hstop hwait hmet hfails waited
    have hfailed : (!t.waitMet k w.1 w.2 && (decide (k.limitJt ≤ t.jt) || t.waitSkipped k w.1)) = true := by
      simpa [hmet, State.waitSkipped] using hfails
    rcases hwait with hvec | ⟨hvec, hend, hitem⟩
    · have hfault := State.kernelWaitFault_vector (s := t) hk hstop hfailed hvec
      rw [Core.waited_eq] at hfault
      exact congrArg Host.Outcome.next (hfault.trans (if_pos (by rw [hvec]; rfl)).symm)
    · have hfault := State.kernelWaitFault_item (s := t) hk hstop hfailed hvec hend hitem
      rw [Core.waited_eq] at hfault
      exact congrArg Host.Outcome.next (hfault.trans (if_neg (by rw [hvec]; exact Bool.false_ne_true)).symm)
  case completes =>
    intro hdrained hdue u
    have hready (hdone : (k.ended || k.stopped || (c.closing && !k.guest && c.tileBoundary false)) = true) :
        ¬ (!(k.ended || k.stopped || (c.closing && !k.guest && c.tileBoundary false)) || !c.drained || decide (cc < k.lastDone + 4)) = true := by
      simpa [hdone, hdrained] using hdue
    refine ⟨fun hmain hstop => congrArg Host.Outcome.next (a₁ := t.kernelComplete core) ?stopped,
      fun hmain hstop hend => congrArg Host.Outcome.next (a₁ := t.kernelComplete core) ?main, fun g hguest hend hg => ?guest⟩
    case stopped =>
      simp only [State.kernelComplete, hk]
      exact (if_neg (hready (by simp [hstop]))).trans ((if_neg (Bool.eq_false_iff.mp hmain)).trans (if_pos hstop))
    case main =>
      simp only [State.kernelComplete, hk]
      exact (if_neg (hready (by simpa [hmain, hstop] using hend))).trans
        ((if_neg (Bool.eq_false_iff.mp hmain)).trans (if_neg (Bool.eq_false_iff.mp hstop)))
    case guest =>
      replace hready := hready (by simpa [hguest] using hend)
      replace hg : t.guest = some g := hg
      refine ⟨fun hclosing => congrArg Host.Outcome.next (a₁ := t.kernelComplete core) ?closing,
        fun n hclosing hn => congrArg Host.Outcome.next (a₁ := t.kernelComplete core) ?goesOn⟩
      case closing =>
        simp only [State.kernelComplete, hk, State.putCore_guest, hg]
        exact (if_neg hready).trans ((if_pos hguest).trans (if_pos hclosing))
      case goesOn =>
        simp only [State.kernelComplete, hk, State.putCore_guest, hg]
        refine (if_neg hready).trans ((if_pos hguest).trans ((if_neg (Bool.eq_false_iff.mp hclosing)).trans ?_))
        split
        case h_1 m hm =>
          obtain rfl : m = n := Option.some.inj (hm.symm.trans hn)
          rfl
        case h_2 hm => cases hm.symm.trans hn
  case boundary =>
    intro g hguest hclosing htile hdue hg
    refine congrArg Host.Outcome.next (a₁ := t.guestBoundary core) ?_
    have hsaved : (t.scratchWrite core guestSaveAddr 8512 (t.core core).v.image).guest = some g := (State.scratchWrite_guest ..).trans hg
    simp only [State.guestBoundary, hk, hsaved]
    exact if_neg (by simpa [hguest, hclosing, htile, c] using hdue)

end Sys2Proof.Machine
end

section
/-! SUPPORT. Limb-pair additions and pending carries of a Basin accumulator, for `Obligations.BasinSumsAreExact` (O22): the
value that the limbs and the pending carries stand for together, which a fold keeps and an addition raises by what it adds. -/

namespace Sys2Proof.Machine

/-! ### Numbers modulo a power of two -/

theorem wrap_modEq (w : Nat) (v : Int) : (wrap w v : Int) ≡ v [ZMOD 2 ^ w] := by
  have hpos : (0 : Int) < 2 ^ w := by positivity
  have hwrap : (wrap w v : Int) = v % 2 ^ w := by
    simp only [wrap, Nat.cast_pow, Nat.cast_ofNat, Int.toNat_of_nonneg (Int.emod_nonneg v hpos.ne')]
  rw [hwrap]
  exact Int.mod_modEq ..

theorem sext_modEq (w v : Nat) : sext w v ≡ v [ZMOD 2 ^ w] := by
  have hmod : ((v % 2 ^ w : Nat) : Int) ≡ v [ZMOD 2 ^ w] := by
    push_cast
    exact Int.mod_modEq ..
  unfold sext
  split
  · exact hmod
  · rw [Nat.cast_pow]
    exact (Int.sub_modulus_modEq_iff).mpr hmod

/-- Two's complement reads the low bits alone. -/
theorem sext_congr {w m n : Nat} (h : (m : Int) ≡ n [ZMOD 2 ^ w]) : sext w m = sext w n := by
  have hmod : m % 2 ^ w = n % 2 ^ w := (Int.natCast_modEq_iff (n := 2 ^ w)).mp (by exact_mod_cast h)
  simp only [sext, hmod]

/-- A signed field lies within its bits and one more for the sign. -/
theorem sext_bounds (w v : Nat) : -(2 ^ w : Int) ≤ sext w v ∧ sext w v < 2 ^ w := by
  have hlt : ((v % 2 ^ w : Nat) : Int) < 2 ^ w := by exact_mod_cast Nat.mod_lt v (Nat.two_pow_pos w)
  have hcast : ((2 ^ w : Nat) : Int) = 2 ^ w := by push_cast; rfl
  unfold sext
  split <;> omega

/-! ### Fields written into a number -/

/-- What lies under a field, the field, and what lies over it. -/
theorem setBits_eq (v lsb n x : Nat) :
    setBits v lsb n x = 2 ^ lsb * (2 ^ n * (v >>> (lsb + n)) + x % 2 ^ n) + v % 2 ^ lsb := by
  have hlow : 2 ^ lsb * (v / 2 ^ lsb) + v % 2 ^ lsb = v := Nat.div_add_mod ..
  have hhigh : 2 ^ n * (v / 2 ^ lsb / 2 ^ n) + v / 2 ^ lsb % 2 ^ n = v / 2 ^ lsb := Nat.div_add_mod ..
  simp only [setBits, bits, Nat.shiftLeft_eq, Nat.shiftRight_eq_div_pow, pow_add, ← Nat.div_div_eq_div_mul]
  generalize v / 2 ^ lsb / 2 ^ n = q at *
  generalize v / 2 ^ lsb % 2 ^ n = r at *
  conv_lhs => rw [← hlow, ← hhigh]
  rw [show 2 ^ lsb * (2 ^ n * q + r) + v % 2 ^ lsb = (2 ^ lsb * (2 ^ n * q) + v % 2 ^ lsb) + r * 2 ^ lsb by ring,
    Nat.add_sub_cancel]
  ring

theorem testBit_setBits (v lsb n x i : Nat) :
    (setBits v lsb n x).testBit i = if lsb ≤ i ∧ i < lsb + n then x.testBit (i - lsb) else v.testBit i := by
  rw [setBits_eq, Nat.testBit_two_pow_mul_add _ (Nat.mod_lt _ (Nat.two_pow_pos lsb)),
    Nat.testBit_two_pow_mul_add _ (Nat.mod_lt _ (Nat.two_pow_pos n)), Nat.testBit_mod_two_pow, Nat.testBit_mod_two_pow,
    Nat.testBit_shiftRight]
  by_cases hlow : i < lsb
  · simp [hlow, Nat.not_le.mpr hlow]
  by_cases hin : i < lsb + n
  · have hfield : i - lsb < n := by omega
    simp [hlow, hin, hfield, Nat.not_lt.mp hlow]
  · have hfield : ¬ i - lsb < n := by omega
    have hover : lsb + n + (i - lsb - n) = i := by omega
    simp [hlow, hin, hfield, hover]

theorem bits_setBits_same (v lsb n x : Nat) : bits (setBits v lsb n x) lsb n = x % 2 ^ n := by
  refine Nat.eq_of_testBit_eq fun i => ?_
  rw [testBit_bits, testBit_setBits, Nat.testBit_mod_two_pow]
  by_cases hi : i < n <;> simp [hi]

theorem bits_setBits_disjoint {lsb n lsb' n' : Nat} (h : lsb + n ≤ lsb' ∨ lsb' + n' ≤ lsb) (v x : Nat) :
    bits (setBits v lsb n x) lsb' n' = bits v lsb' n' := by
  refine Nat.eq_of_testBit_eq fun i => ?_
  rw [testBit_bits, testBit_bits, testBit_setBits]
  by_cases hi : i < n'
  · rw [if_neg (by omega)]
  · simp [hi]

/-- A write of a field moves the number by the change of the field at its place. -/
theorem setBits_cast (v lsb n x : Nat) :
    (setBits v lsb n x : Int) = v + ((x % 2 ^ n : Nat) - (bits v lsb n : Nat)) * 2 ^ lsb := by
  have hle : bits v lsb n * 2 ^ lsb ≤ v := calc
    bits v lsb n * 2 ^ lsb ≤ v / 2 ^ lsb * 2 ^ lsb := by
      rw [bits, Nat.shiftRight_eq_div_pow]
      exact Nat.mul_le_mul_right _ (Nat.mod_le ..)
    _ ≤ v := Nat.div_mul_le_self ..
  rw [setBits, Nat.shiftLeft_eq, Nat.shiftLeft_eq, Nat.cast_add, Nat.cast_sub hle]
  push_cast
  ring

/-! ### Pending carries (R105) -/

namespace Acc

variable {a : Acc} {k k' : Nat} {v w : Int}

@[simp] theorem setPc_limbs : (a.setPc k v).limbs = a.limbs := rfl

@[simp] theorem setPc_spec : (a.setPc k v).spec = a.spec := rfl

/-- A carry of one or none is read back. -/
theorem pcOf_setPc_same (hv : v = -1 ∨ v = 0 ∨ v = 1) : (a.setPc k v).pcOf k = v := by
  unfold pcOf setPc
  rw [bits_setBits_same]
  obtain rfl | rfl | rfl := hv <;> rfl

theorem pcOf_setPc_ne (hk : 2 ≤ k) (hk' : 2 ≤ k') (hne : k' ≠ k) : (a.setPc k v).pcOf k' = a.pcOf k' := by
  unfold pcOf setPc
  rw [bits_setBits_disjoint (by omega)]

@[simp] theorem fold_spec : (a.fold k).spec = a.spec := rfl

theorem pcOf_fold_same : (a.fold k).pcOf k = 0 := pcOf_setPc_same (.inr (.inl rfl))

theorem pcOf_fold_ne (hk : 2 ≤ k) (hk' : 2 ≤ k') (hne : k' ≠ k) : (a.fold k).pcOf k' = a.pcOf k' :=
  pcOf_setPc_ne hk hk' hne

/-! ### The value of limbs and carries (R104 to R106) -/

/-- What the limbs and the pending carries stand for, each carry at the weight of its limb. -/
def total (a : Acc) : Int := a.limbs + ∑ k ∈ Finset.Icc 2 9, a.pcOf k * 2 ^ (64 * k)

/-- A pending carry set to another value counts with the difference. -/
theorem total_setPc (hk : k ∈ Finset.Icc 2 9) (hv : v = -1 ∨ v = 0 ∨ v = 1) :
    (a.setPc k v).total = a.total + (v - a.pcOf k) * 2 ^ (64 * k) := by
  have hterm : ∀ i ∈ Finset.Icc 2 9, (a.setPc k v).pcOf i * 2 ^ (64 * i) =
      a.pcOf i * 2 ^ (64 * i) + if i = k then (v - a.pcOf k) * 2 ^ (64 * k) else 0 := by
    intro i hi
    by_cases hik : i = k
    · subst hik
      rw [pcOf_setPc_same hv, if_pos rfl]
      ring
    · rw [pcOf_setPc_ne (Finset.mem_Icc.mp hk).1 (Finset.mem_Icc.mp hi).1 hik, if_neg hik, add_zero]
  rw [total, Finset.sum_congr rfl hterm, Finset.sum_add_distrib, Finset.sum_ite_eq', if_pos hk, setPc_limbs, total, add_assoc]

/-- Other limbs under the same carries count with their difference. -/
theorem total_withLimbs (a : Acc) (n : Nat) : ({ a with limbs := n } : Acc).total = a.total + (n - a.limbs) := by
  change (n : Int) + ∑ k ∈ Finset.Icc 2 9, a.pcOf k * 2 ^ (64 * k) = _
  rw [total]
  ring

theorem pcOf_withLimbs (a : Acc) (n k : Nat) : ({ a with limbs := n } : Acc).pcOf k = a.pcOf k := rfl

/-- A fold keeps the value. -/
theorem total_fold (hk : k ∈ Finset.Icc 2 9) : (a.fold k).total ≡ a.total [ZMOD 2 ^ 640] := by
  obtain ⟨c, hc⟩ := (wrap_modEq 640 (a.limbs + a.pcOf k * ((2 ^ (64 * k) : Nat) : Int))).dvd
  refine Int.modEq_iff_dvd.mpr ⟨c, ?_⟩
  unfold fold
  generalize wrap 640 _ = n at hc ⊢
  rw [total_setPc hk (.inr (.inl rfl)), total_withLimbs a n, pcOf_withLimbs a n, ← hc, Nat.cast_pow, Nat.cast_ofNat]
  ring

theorem pcOf_foldl_fold (l : List Nat) (hk : 2 ≤ k) :
    (l.foldl (fun a i => a.fold (i + 2)) a).pcOf k = if k - 2 ∈ l then 0 else a.pcOf k := by
  induction l generalizing a with
  | nil => rfl
  | cons i l ih =>
    rw [List.foldl_cons, ih]
    by_cases hl : k - 2 ∈ l
    · simp [hl]
    by_cases hi : k = i + 2
    · simp [hi, pcOf_fold_same]
    · have hne : k - 2 ≠ i := by omega
      simp [hl, hne, pcOf_fold_ne (Nat.le_add_left 2 i) hk hi]

theorem total_foldl_fold (l : List Nat) (hl : ∀ i ∈ l, i < 8) :
    (l.foldl (fun a i => a.fold (i + 2)) a).total ≡ a.total [ZMOD 2 ^ 640] := by
  induction l generalizing a with
  | nil => rfl
  | cons i l ih =>
    have hi : i < 8 := hl i (by simp)
    exact (ih fun j hj => hl j (by simp [hj])).trans (total_fold (Finset.mem_Icc.mpr (by omega)))

/-- Once every carry is folded, the limbs alone hold the value (R104). -/
theorem folded_limbs_modEq (a : Acc) : (a.folded.limbs : Int) ≡ a.total [ZMOD 2 ^ 640] := by
  have hpc : ∀ k ∈ Finset.Icc 2 9, a.folded.pcOf k * 2 ^ (64 * k) = 0 := by
    intro k hk
    obtain ⟨hlo, hhi⟩ := Finset.mem_Icc.mp hk
    rw [folded, pcOf_foldl_fold _ hlo, if_pos (List.mem_range.mpr (by omega)), zero_mul]
  have htotal : a.folded.total = a.folded.limbs := by rw [total, Finset.sum_eq_zero hpc, add_zero]
  rw [← htotal]
  exact total_foldl_fold _ fun i hi => List.mem_range.mp hi

theorem int_modEq (a : Acc) : a.int ≡ a.total [ZMOD 2 ^ 640] :=
  (sext_modEq 640 _).trans (folded_limbs_modEq a)

/-- Accumulators of one value read alike. -/
theorem int_eq_of_total {b : Acc} {v : Int} (hv : b.total ≡ v [ZMOD 2 ^ 640]) : b.int = sext 640 (wrap 640 v) :=
  sext_congr (((folded_limbs_modEq b).trans hv).trans (wrap_modEq 640 v).symm)

/-! ### Limb-pair additions (R106) -/

/-- The carry out of the upper limb of a pair, less 1 for a negative addend. -/
def pairCarry (a : Acc) (w : Int) (j : Nat) : Int :=
  (((bits a.limbs (64 * j) 128 + wrap 128 w) / 2 ^ 128 : Nat) : Int) - if w < 0 then 1 else 0

/-- The accumulator once the pair of limbs is added to, before its carry is recorded. -/
def pairAdded (a : Acc) (w : Int) (j : Nat) : Acc :=
  { a with limbs := setBits a.limbs (64 * j) 128 (bits a.limbs (64 * j) 128 + wrap 128 w) }

theorem addPair_eq (a : Acc) (w : Int) (j : Nat) : a.addPair w j =
    if j = 8 || a.pairCarry w j = 0 then a.pairAdded w j
    else if (a.pairAdded w j).pcOf (j + 2) = 0 then (a.pairAdded w j).setPc (j + 2) (a.pairCarry w j)
    else ((a.pairAdded w j).fold (j + 2)).setPc (j + 2) (a.pairCarry w j) := rfl

theorem pairCarry_cases (a : Acc) (w : Int) (j : Nat) : a.pairCarry w j = -1 ∨ a.pairCarry w j = 0 ∨ a.pairCarry w j = 1 := by
  have hpair : bits a.limbs (64 * j) 128 < 2 ^ 128 := Nat.mod_lt _ (Nat.two_pow_pos 128)
  have hw := wrap_lt 128 w
  unfold pairCarry
  split <;> omega

/-- The two limbs added to hold the whole sum but for the carry out of them. -/
theorem total_pairAdded (a : Acc) (hlo : -(2 ^ 128 : Int) ≤ w) (hhi : w < 2 ^ 128) (j : Nat) :
    (a.pairAdded w j).total + a.pairCarry w j * 2 ^ (64 * (j + 2)) = a.total + w * 2 ^ (64 * j) := by
  have hw : (wrap 128 w : Int) = w + if w < 0 then 2 ^ 128 else 0 := by
    unfold wrap
    split <;> omega
  have hsum (n : Nat) : ((n % 2 ^ 128 : Nat) : Int) = n - 2 ^ 128 * (n / 2 ^ 128 : Nat) := by omega
  rw [pairAdded, total_withLimbs, setBits_cast, hsum, pairCarry, Nat.cast_add, hw, show 64 * (j + 2) = 128 + 64 * j by ring, pow_add]
  split <;> ring

theorem total_addPair (a : Acc) (hlo : -(2 ^ 128 : Int) ≤ w) (hhi : w < 2 ^ 128) {j : Nat} (hj : j ≤ 8) :
    (a.addPair w j).total ≡ a.total + w * 2 ^ (64 * j) [ZMOD 2 ^ 640] := by
  have hadded := total_pairAdded a hlo hhi j
  have hcarry := pairCarry_cases a w j
  rw [addPair_eq, ← hadded]
  split
  case isTrue hdrop =>
    refine Int.modEq_iff_dvd.mpr ?_
    rw [add_sub_cancel_left]
    obtain rfl | hzero : j = 8 ∨ a.pairCarry w j = 0 := by simpa using hdrop
    · exact dvd_mul_left ..
    · rw [hzero, zero_mul]
      exact dvd_zero _
  case isFalse hkeep =>
    obtain ⟨htop, -⟩ : ¬ j = 8 ∧ ¬ a.pairCarry w j = 0 := by simpa using hkeep
    have hk : j + 2 ∈ Finset.Icc 2 9 := Finset.mem_Icc.mpr (by omega)
    split
    case isTrue hfree => rw [total_setPc hk hcarry, hfree, sub_zero]
    case isFalse =>
      rw [total_setPc hk hcarry, pcOf_fold_same, sub_zero]
      exact (total_fold hk).add_right _

@[simp] theorem addPair_spec (j : Nat) : (a.addPair w j).spec = a.spec := by
  rw [addPair_eq]
  split
  · rfl
  · split <;> rfl

/-! ### Block sums (R103, R106) -/

theorem two_pow_lowBit_dvd (n : Nat) (v : Int) : (2 : Int) ^ lowBit n v ∣ v := by
  unfold lowBit
  cases hfind : (List.range n).find? fun i => v % ((2 ^ (i + 1) : Nat) : Int) ≠ 0 with
  | none => simp
  | some i =>
    obtain ⟨-, -, hbelow⟩ := List.find?_range_eq_some.mp hfind
    cases i with
    | zero => simp
    | succ m => exact Int.dvd_of_emod_eq_zero (by simpa using hbelow m m.lt_succ_self)

/-- The lowest set bit of what is no multiple of `2 ^ n` lies above the zeros known of it. -/
theorem le_lowBit {n m : Nat} {v : Int} (hm : (2 : Int) ^ m ∣ v) (hn : ¬ (2 : Int) ^ n ∣ v) : m ≤ lowBit n v := by
  unfold lowBit
  cases hfind : (List.range n).find? fun i => v % ((2 ^ (i + 1) : Nat) : Int) ≠ 0 with
  | none =>
    have hbelow := List.find?_range_eq_none.mp hfind
    cases n with
    | zero => simp at hn
    | succ n => exact absurd (Int.dvd_of_emod_eq_zero (by simpa using hbelow n n.lt_succ_self)) hn
  | some i =>
    obtain ⟨hset, -, -⟩ := List.find?_range_eq_some.mp hfind
    by_contra hlt
    have hdvd : (2 : Int) ^ (i + 1) ∣ v := (pow_dvd_pow 2 (by simpa using hlt)).trans hm
    simp [Int.emod_eq_zero_of_dvd hdvd] at hset

/-- The limb at which the next addition of a block sum starts. -/
def blockLimb (v : Int) : Nat := Nat.min 8 (lowBit 640 v / 64)

/-- The signed 128 bits of a block sum from that limb up. -/
def blockPart (v : Int) : Int := sext 128 (wrap 128 (v / 2 ^ (64 * blockLimb v)))

theorem addBlock_succ (fuel : Nat) (a : Acc) (v : Int) : Acc.addBlock (fuel + 1) a v =
    if v = 0 then a
    else Acc.addBlock fuel (a.addPair (blockPart v) (blockLimb v)) (v - blockPart v * 2 ^ (64 * blockLimb v)) := by
  rw [addBlock]
  simp only [blockPart, blockLimb, Nat.cast_pow, Nat.cast_ofNat]

theorem blockLimb_le (v : Int) : blockLimb v ≤ 8 := Nat.min_le_left ..

theorem two_pow_blockLimb_dvd (v : Int) : (2 : Int) ^ (64 * blockLimb v) ∣ v := by
  refine (pow_dvd_pow 2 ?_).trans (two_pow_lowBit_dvd 640 v)
  have : blockLimb v ≤ lowBit 640 v / 64 := Nat.min_le_right ..
  omega

/-- An addition takes the 128 bits from its limb up out of the block sum. -/
theorem dvd_sub_blockPart (v : Int) : (2 : Int) ^ (64 * blockLimb v + 128) ∣ v - blockPart v * 2 ^ (64 * blockLimb v) := by
  have hpart : blockPart v ≡ v / 2 ^ (64 * blockLimb v) [ZMOD 2 ^ 128] := (sext_modEq ..).trans (wrap_modEq ..)
  have hdvd := mul_dvd_mul_right hpart.dvd (2 ^ (64 * blockLimb v))
  rwa [sub_mul, Int.ediv_mul_cancel (two_pow_blockLimb_dvd v), mul_comm, ← pow_add] at hdvd

/-- A block sum that is nothing modulo `2 ^ 640` adds nothing. -/
theorem blockPart_eq_zero (h : (2 : Int) ^ 640 ∣ v) : blockPart v = 0 := by
  have hle := blockLimb_le v
  have hdvd : (2 : Int) ^ 128 ∣ v / 2 ^ (64 * blockLimb v) := by
    rw [Int.dvd_ediv_iff_mul_dvd (two_pow_blockLimb_dvd v), ← pow_add]
    exact (pow_dvd_pow 2 (by omega)).trans h
  have hzero : (wrap 128 (v / 2 ^ (64 * blockLimb v)) : Int) ≡ (0 : Nat) [ZMOD 2 ^ 128] :=
    (wrap_modEq ..).trans (Int.modEq_zero_iff_dvd.mpr hdvd)
  exact (sext_congr hzero).trans rfl

/-- Each addition clears two more limbs, up from the lowest that is set. -/
theorem dvd_blockRest {n : Nat} (h : (2 : Int) ^ (640 - 128 * (n + 1)) ∣ v) :
    (2 : Int) ^ (640 - 128 * n) ∣ v - blockPart v * 2 ^ (64 * blockLimb v) := by
  by_cases hv : (2 : Int) ^ 640 ∣ v
  · rw [blockPart_eq_zero hv, zero_mul, sub_zero]
    exact (pow_dvd_pow 2 (Nat.sub_le ..)).trans hv
  · have hlow := le_lowBit h hv
    have hlimb : blockLimb v = min 8 (lowBit 640 v / 64) := rfl
    exact (pow_dvd_pow 2 (by omega)).trans (dvd_sub_blockPart v)

/-- `fuel` additions add a block sum whole where they reach from its lowest bit to the top of the limbs. -/
theorem total_addBlock {fuel : Nat} (h : (2 : Int) ^ (640 - 128 * fuel) ∣ v) :
    (Acc.addBlock fuel a v).total ≡ a.total + v [ZMOD 2 ^ 640] := by
  induction fuel generalizing a v with
  | zero => exact Int.modEq_iff_dvd.mpr (by rwa [addBlock, add_sub_cancel_left])
  | succ n ih =>
    rw [addBlock_succ]
    split
    case isTrue hv => rw [hv, add_zero]
    case isFalse =>
      obtain ⟨hlo, hhi⟩ := sext_bounds 128 (wrap 128 (v / 2 ^ (64 * blockLimb v)))
      refine (ih (dvd_blockRest h)).trans (((total_addPair a hlo hhi (blockLimb_le v)).add_right _).trans ?_)
      rw [← blockPart, add_assoc, add_sub_cancel]

theorem addBlock_spec (fuel : Nat) : (Acc.addBlock fuel a v).spec = a.spec := by
  induction fuel generalizing a v with
  | zero => rfl
  | succ n ih =>
    rw [addBlock_succ]
    split
    · rfl
    · rw [ih, addPair_spec]

theorem total_foldl_addBlock (a : Acc) (l : List Int) :
    (l.foldl (fun x v => x.addBlock 8 v) a).total ≡ a.total + l.sum [ZMOD 2 ^ 640] := by
  induction l generalizing a with
  | nil => rw [List.sum_nil, add_zero, List.foldl_nil]
  | cons v l ih =>
    rw [List.foldl_cons, List.sum_cons, ← add_assoc]
    exact (ih _).trans ((total_addBlock (one_dvd v)).add_right _)

theorem foldl_addBlock_spec (a : Acc) (l : List Int) : (l.foldl (fun x v => x.addBlock 8 v) a).spec = a.spec := by
  induction l generalizing a with
  | nil => rfl
  | cons v l ih => rw [List.foldl_cons, ih, addBlock_spec]

end Acc

/-- Settles O22: limbs and carries together hold the sum of the block sums, and a sum does not depend on their order.
No bound on the block sums is needed, since what lies above bit 639 falls away on both sides. -/
theorem basinSumsAreExact : Obligations.BasinSumsAreExact := by
  intro a l l' _ hperm
  have hsum := Acc.total_foldl_addBlock a l
  have hsum' := Acc.total_foldl_addBlock a l'
  rw [← hperm.sum_eq] at hsum'
  refine ⟨Acc.int_eq_of_total (hsum.trans (a.int_modEq.symm.add_right _)), ?_, ?_, Acc.foldl_addBlock_spec a l⟩
  · rw [Acc.int_eq_of_total hsum, Acc.int_eq_of_total hsum']
  · have hlimbs := ((Acc.folded_limbs_modEq _).trans (hsum.trans hsum'.symm)).trans (Acc.folded_limbs_modEq _).symm
    exact (Int.natCast_modEq_iff (n := 2 ^ 640)).mp (by exact_mod_cast hlimbs)

end Sys2Proof.Machine
end

section
/-! SUPPORT. One instruction of the running vector block, for `Obligations.VectorArithmeticCompletes` (O51) and
`Obligations.VectorMovesAndChannelsComplete` (O52): it completes in one issue cycle, or in those of R129, or goes no further. -/

namespace Sys2Proof.Machine

section VectorInstruction

variable {s u : State} {core op : Nat} {f : VFields} {k : Kernel} {it : Item} {b : VBlock} {act : State → VCtx → State × Bool}

/-! ### The end of an instruction (R129, R133, R138) -/

theorem State.runsVec_kernel (h : s.runsVec core op f k it b = true) : (s.core core).kernel = some k := by
  simp only [State.runsVec, Bool.and_eq_true, decide_eq_true_eq] at h
  exact h.1.1

/-- An instruction outside R129 that has its effect takes one issue cycle. -/
theorem State.vecStep_completes (h : s.runsVec core op f k it b = true) (hop : (op = 0x42 || op = 0x43) = false)
    (hact : act s ⟨core, k, it, b, f⟩ = (u, true)) : s.vecStep core op f act = u.onCore core (Core.vecRan 1 0) := by
  simp [State.vecStep_runs h, hact, vecCycles, hop]

/-- A transposed move that has its effect takes the cycles of R129, those past 4 of them added. -/
theorem State.vecStep_transposes (h : s.runsVec core op f k it b = true) (hop : (op = 0x42 || op = 0x43) = true)
    (hact : act s ⟨core, k, it, b, f⟩ = (u, true)) :
    s.vecStep core op f act =
      u.onCore core (Core.vecRan (transCycles (vbTs it.body)) (transCycles (vbTs it.body) - 4)) := by
  simp only [State.vecStep_runs h, hact, vecCycles, hop, if_true]

/-- An instruction that waits, or that stops its kernel, counts no cycle. -/
theorem State.vecStep_holds (h : s.runsVec core op f k it b = true) (hact : act s ⟨core, k, it, b, f⟩ = (u, false)) :
    s.vecStep core op f act = u := by
  simp [State.vecStep_runs h, hact]

theorem State.vecPure_runs (h : s.runsVec core op f k it b = true) (hop : (op = 0x42 || op = 0x43) = false) (g : VState → VState) :
    s.vecPure core op f g = (s.onCore core fun c => { c with v := g c.v }).onCore core (Core.vecRan 1 0) :=
  State.vecStep_completes h hop rfl

/-! ### Reduction channels (R135, R138) -/

section Channel

variable {x : VCtx} {ch : Nat} {g : Channel → Channel}

theorem State.channelOp_within (h : (g ((s.core x.core).v.chan ch)).count ≤ 2 ^ 40) :
    s.channelOp x ch g = (s.onCore x.core fun c => { c with v := c.v.setChan ch (g ((s.core x.core).v.chan ch)) }, true) :=
  if_neg (Nat.not_lt.mpr h)

theorem State.channelOp_beyond (h : 2 ^ 40 < (g ((s.core x.core).v.chan ch)).count) : s.channelOp x ch g = (s.redLimit x, false) :=
  if_pos h

end Channel

end VectorInstruction

/-- Settles O51: each of these instructions changes only the vector state, so one rule serves them all. -/
theorem vectorArithmeticCompletes : Obligations.VectorArithmeticCompletes := by
  intro s at_ core f k it b t ran
  and_intros
  all_goals exact fun h => congrArg Host.Outcome.next (State.vecPure_runs (s := t) h rfl _)

/-- Settles O52, an instruction at a time: where its conditions hold, its effect is the one of its rule, and it completes,
waits or stops its kernel. -/
theorem vectorMovesAndChannelsComplete : Obligations.VectorMovesAndChannelsComplete := by
  intro s at_ core f k it b t ran addr v n x ch
  refine ⟨?vperm, ?vrot, ?vbcast, ?rclr, ?rget, ?vld, ?vst, ?vldt, ?vstt, ?radd, ?rsq, ?rstx, ?rldx, ?vrng, ?vwait, ?vsig, ?vnop⟩
  case vperm | vrot | vbcast | rclr | rget =>
    exact fun h => congrArg Host.Outcome.next (State.vecPure_runs (s := t) h rfl _)
  case vld =>
    intro d u h hread
    obtain ⟨rfl, rfl⟩ := Prod.ext_iff.mp hread
    exact congrArg Host.Outcome.next (State.vecStep_completes (s := t) h rfl rfl)
  case vst | rstx | vrng | vsig | vnop =>
    exact fun h => congrArg Host.Outcome.next (State.vecStep_completes (s := t) h rfl rfl)
  case vldt =>
    intro rows u h hread
    refine congrArg Host.Outcome.next (State.vecStep_transposes (s := t) h rfl ?_)
    replace hread : t.scratchRows core ⟨VCtx.addr ⟨core, k, it, b, f⟩, vbTs it.body * 64, 64, 16⟩ (.core core k.guest) = (rows, u) := hread
    simp only [hread]
  case vstt =>
    exact fun h => congrArg Host.Outcome.next (State.vecStep_transposes (s := t) h rfl rfl)
  case radd =>
    exact fun h => ⟨fun hle => congrArg Host.Outcome.next (State.vecStep_completes (s := t) h rfl (State.channelOp_within hle)),
      fun hlt => congrArg Host.Outcome.next (State.vecStep_holds (s := t) h (State.channelOp_beyond hlt))⟩
  case rsq =>
    intro h d fl
    refine ⟨fun hle => congrArg Host.Outcome.next (State.vecStep_completes (s := t) h rfl ?within),
      fun hlt => congrArg Host.Outcome.next (State.vecStep_holds (s := t) h ?beyond)⟩
    case within =>
      have hsum := State.channelOp_within (s := t) (x := ⟨core, k, it, b, f⟩) (g := ((t.core core).v.sumElems f true).foldl Channel.add) hle
      simp only [hsum, if_true]
      rfl
    case beyond =>
      have hlimit := State.channelOp_beyond (s := t) (x := ⟨core, k, it, b, f⟩) (g := ((t.core core).v.sumElems f true).foldl Channel.add) hlt
      simp only [hlimit, Bool.false_eq_true, if_false, x]
  case rldx =>
    intro d u h hread e
    obtain ⟨rfl, rfl⟩ := Prod.ext_iff.mp hread
    exact ⟨fun hle => congrArg Host.Outcome.next (State.vecStep_completes (s := t) h rfl (State.channelOp_within hle)),
      fun hlt => congrArg Host.Outcome.next (State.vecStep_holds (s := t) h (State.channelOp_beyond hlt))⟩
  case vwait =>
    intro h cc
    refine ⟨fun hmet => congrArg Host.Outcome.next (State.vecStep_completes (s := t) h rfl (if_pos hmet)),
      fun hwait => congrArg Host.Outcome.next (State.vecStep_holds (s := t) h ?_)⟩
    refine (if_neg (Bool.eq_false_iff.mp hwait)).trans (congrArg (·, false) (State.onCore_congr ?_))
    rw [State.runsVec_kernel h, Option.map_some, Option.map_some]

end Sys2Proof.Machine
end

section
/-! SUPPORT. The symbol code: multiplication by α in its field, the check symbols, and what the decoder finds, for
`Obligations.SymbolDecoderRule` (O14) and `Obligations.SymbolCodeCorrects` (O18). -/

namespace Sys2Proof.Machine

/-! ### Multiplication by α (R164) -/

theorem gfTimesPow_eq_iterate (n x : Nat) : gfTimesPow n x = gfStep^[n] x := by
  induction n generalizing x with
  | zero => rfl
  | succ n ih => exact ih (gfStep x)

theorem gfStep_lt (x : Nat) : gfStep x < 256 := by
  unfold gfStep
  split <;> exact Nat.mod_lt _ (by decide)

theorem gfTimesPow_lt {n x : Nat} (hx : x < 256) : gfTimesPow n x < 256 := by
  induction n generalizing x with
  | zero => exact hx
  | succ n ih => exact ih (gfStep_lt x)

theorem gfStep_xor (x y : Nat) : gfStep (x ^^^ y) = gfStep x ^^^ gfStep y := by
  have hmod (a b : Nat) : (a ^^^ b) % 256 = a % 256 ^^^ b % 256 := Nat.xor_mod_two_pow (n := 8)
  cases hx : x.testBit 7 <;> cases hy : y.testBit 7 <;>
    simp [gfStep, hx, hy, Nat.shiftLeft_xor_distrib, hmod, Nat.xor_assoc, Nat.xor_comm, Nat.xor_left_comm]

theorem gfTimesPow_xor (n x y : Nat) : gfTimesPow n (x ^^^ y) = gfTimesPow n x ^^^ gfTimesPow n y := by
  induction n generalizing x y with
  | zero => rfl
  | succ n ih => simp only [gfTimesPow, gfStep_xor, ih]

/-- No power of α from α to α^9 fixes an element other than 0, and α takes none to 0: the order of α is 255. -/
theorem gfTimesPow_fixes_zero : ∀ n < 10, 0 < n → ∀ x < 256, gfTimesPow n x = x ∨ gfStep x = 0 → x = 0 := by decide +kernel

theorem gfTimesPow_inj {n x y : Nat} (hx : x < 256) (hy : y < 256) (h : gfTimesPow n x = gfTimesPow n y) : x = y := by
  induction n generalizing x y with
  | zero => exact h
  | succ n ih =>
    have hstep : gfStep (x ^^^ y) = 0 := by rw [gfStep_xor, ih (gfStep_lt x) (gfStep_lt y) h, Nat.xor_self]
    have hzero := gfTimesPow_fixes_zero 1 (by decide) (by decide) (x ^^^ y) (Nat.xor_lt_two_pow (n := 8) hx hy) (.inr hstep)
    exact Nat.xor_eq_zero_iff.mp hzero

/-- The ten multiples of a nonzero element differ: a single-symbol error has one place. -/
theorem gfTimesPow_injOn {x i j : Nat} (h0 : x ≠ 0) (hx : x < 256) (hi : i < 10) (hj : j < 10)
    (h : gfTimesPow i x = gfTimesPow j x) : i = j := by
  wlog hle : i ≤ j generalizing i j
  · exact (this hj hi h.symm (by omega)).symm
  obtain ⟨n, rfl⟩ := Nat.exists_eq_add_of_le hle
  by_contra hne
  have hfix : gfTimesPow n x = x := by
    refine gfTimesPow_inj (n := i) (gfTimesPow_lt hx) hx ?_
    rw [h, gfTimesPow_eq_iterate (i + n), Function.iterate_add_apply, gfTimesPow_eq_iterate i, gfTimesPow_eq_iterate n]
  exact h0 (gfTimesPow_fixes_zero n (by omega) (by omega) x hx (.inl hfix))

/-! ### The decoder (R165) -/

theorem decodeSyn_single {s0 j : Nat} (h0 : s0 ≠ 0) (hlt : s0 < 256) (hj : j < 10) :
    decodeSyn none s0 (gfTimesPow j s0) = .single j s0 := by
  have hplace : ((List.range 10).find? fun i => decide (gfTimesPow i s0 = gfTimesPow j s0)) = some j := by
    refine List.find?_range_eq_some.mpr ⟨by simp, by simpa using hj, fun i hi => ?_⟩
    have hne : gfTimesPow i s0 ≠ gfTimesPow j s0 := fun h => hi.ne (gfTimesPow_injOn h0 hlt (by omega) hj h)
    simpa using hne
  simp [decodeSyn, h0, hplace]

theorem decodeSyn_noPlace {s0 s1 : Nat} (h0 : s0 ≠ 0) (h : ∀ j < 10, gfTimesPow j s0 ≠ s1) : decodeSyn none s0 s1 = .bad := by
  have hnone : ((List.range 10).find? fun i => decide (gfTimesPow i s0 = s1)) = none := by simpa using h
  simp [decodeSyn, h0, hnone]

theorem decodeSyn_unbalanced {s1 : Nat} (h0 : s1 ≠ 0) (h : s1 ≠ 0x27) : decodeSyn none 0 s1 = .bad := by simp [decodeSyn, h0, h]

/-! ### The check symbols (R164) -/

theorem syndromes_append (l m : List (Nat × Nat)) :
    syndromes (l ++ m) = m.foldl (fun s e => (s.1 ^^^ e.2, s.2 ^^^ gfTimesPow e.1 e.2)) (syndromes l) := by
  simp [syndromes, List.foldl_append]

theorem syndromes_lt {l : List (Nat × Nat)} (h : ∀ e ∈ l, e.2 < 256) : (syndromes l).1 < 256 ∧ (syndromes l).2 < 256 := by
  induction l using List.reverseRecOn with
  | nil => decide
  | append_singleton l e ih =>
    obtain ⟨h0, h1⟩ := ih fun x hx => h x (by simp [hx])
    have he : e.2 < 256 := h e (by simp)
    rw [syndromes_append]
    exact ⟨Nat.xor_lt_two_pow (n := 8) h0 he, Nat.xor_lt_two_pow (n := 8) h1 (gfTimesPow_lt he)⟩

/-- The symbols that hold the data of a codeword, by position. -/
def dataSymbols (d : Nat) : List (Nat × Nat) := (List.range 8).map fun j => (j, (d >>> (8 * j)) % 256)

theorem dataSymbols_lt {d : Nat} : ∀ e ∈ dataSymbols d, e.2 < 256 := by
  simp only [dataSymbols, List.mem_map]
  rintro _ ⟨j, -, rfl⟩
  exact Nat.mod_lt _ (by decide)

/-- What one value at both check symbols adds to S1. -/
def checkTerm (x : Nat) : Nat := gfTimesPow 8 x ^^^ gfTimesPow 9 x

theorem checkTerm_lt {x : Nat} (hx : x < 256) : checkTerm x < 256 :=
  Nat.xor_lt_two_pow (n := 8) (gfTimesPow_lt hx) (gfTimesPow_lt hx)

theorem checkTerm_inj {x y : Nat} (hx : x < 256) (hy : y < 256) (h : checkTerm x = checkTerm y) : x = y := by
  have hzero : gfTimesPow 8 (x ^^^ y) = gfTimesPow 9 (x ^^^ y) := by
    rw [gfTimesPow_xor, gfTimesPow_xor]
    refine Nat.xor_eq_zero_iff.mp ?_
    rw [Nat.xor_assoc, Nat.xor_left_comm (gfTimesPow 8 y), ← Nat.xor_assoc]
    exact Nat.xor_eq_zero_iff.mpr h
  by_contra hne
  exact absurd (gfTimesPow_injOn (mt Nat.xor_eq_zero_iff.mp hne) (Nat.xor_lt_two_pow (n := 8) hx hy) (by decide) (by decide) hzero)
    (by decide)

/-- The equation for check symbol 8 has a solution, as its injective left side takes the finite field onto itself. -/
theorem exists_checkTerm_eq {t : Nat} (ht : t < 256) : ∃ x < 256, checkTerm x = t := by
  have hsurj : Set.SurjOn checkTerm (Finset.range 256) (Finset.range 256) :=
    Finset.surjOn_of_injOn_of_card_le checkTerm (fun x hx => by simpa using checkTerm_lt (by simpa using hx))
      (fun x hx y hy => checkTerm_inj (by simpa using hx) (by simpa using hy)) le_rfl
  obtain ⟨x, hx, rfl⟩ := hsurj (by simpa using ht)
  exact ⟨x, by simpa using hx, rfl⟩

theorem checkSymbols_eq (d : Nat) : ∃ x, checkSymbols d = (x, (syndromes (dataSymbols d)).1 ^^^ x) ∧
    checkTerm x = (syndromes (dataSymbols d)).2 ^^^ gfTimesPow 9 (syndromes (dataSymbols d)).1 := by
  obtain ⟨h0, h1⟩ := syndromes_lt (dataSymbols_lt (d := d))
  obtain ⟨y, hy, hterm⟩ := exists_checkTerm_eq (Nat.xor_lt_two_pow (n := 8) h1 (gfTimesPow_lt (n := 9) h0))
  have hsome : ((List.range 256).find? fun x =>
      checkTerm x = (syndromes (dataSymbols d)).2 ^^^ gfTimesPow 9 (syndromes (dataSymbols d)).1).isSome = true :=
    List.find?_isSome.mpr ⟨y, List.mem_range.mpr hy, decide_eq_true hterm⟩
  obtain ⟨x, hx⟩ := Option.isSome_iff_exists.mp hsome
  refine ⟨x, ?_, by simpa using List.find?_some hx⟩
  have hget := congrArg (Option.getD · 0) hx
  exact Prod.ext hget (congrArg ((syndromes (dataSymbols d)).1 ^^^ ·) hget)

/-- With the check symbols of R164 a codeword has zero syndromes. -/
theorem syndromes_codeword (d : Nat) : syndromes (codeword d) = (0, 0) := by
  obtain ⟨x, hsymbols, hterm⟩ := checkSymbols_eq d
  generalize hs : syndromes (dataSymbols d) = s at hsymbols hterm
  have hcode : syndromes (codeword d) = syndromes (dataSymbols d ++ [(8, x), (9, s.1 ^^^ x)]) := by
    rw [codeword, hsymbols]; rfl
  rw [hcode, syndromes_append, hs]
  simp only [List.foldl_cons, List.foldl_nil, gfTimesPow_xor, Prod.mk.injEq]
  refine ⟨by simp, ?_⟩
  calc s.2 ^^^ gfTimesPow 8 x ^^^ (gfTimesPow 9 s.1 ^^^ gfTimesPow 9 x)
      = (s.2 ^^^ gfTimesPow 9 s.1) ^^^ checkTerm x := by
        simp only [checkTerm, Nat.xor_assoc, Nat.xor_left_comm]
    _ = 0 := by rw [hterm, Nat.xor_self]

/-- Settles O18: the check symbols balance both syndromes, so those of a disturbed codeword are those of its error alone. -/
theorem symbolCodeCorrects : Obligations.SymbolCodeCorrects := by
  intro d _
  refine ⟨syndromes_codeword d, fun p e hp h0 he => ?_⟩
  have hsyn : syndromes (codeword d ++ [(p, e)]) = (e, gfTimesPow p e) := by
    simp [syndromes_append, syndromes_codeword]
  rw [hsyn]
  exact decodeSyn_single h0.ne' he hp

/-! ### A read of one word of scratch or Oasis (R144, R165) -/

/-- A word that does not decode as clean has a check symbol that deviates. -/
theorem Ram.oddWords_of_status {r : Ram} {w : Nat} (h : r.status w ≠ .clean) : r.oddWords (8 * w) 8 = [w] := by
  have hspan : r.oddWords (8 * w) 8 = ((r.chk.filter fun c => 2 * w ≤ c.1 && c.1 < 2 * w + 2).map fun c => c.1 / 2).dedup := by
    have hlo : 8 * w / 8 = w := by omega
    have hhi : (8 * w + 7) / 8 = w := by omega
    simp [Ram.oddWords, hlo, hhi]
  have hsame : ∀ k ∈ (r.chk.filter fun c => 2 * w ≤ c.1 && c.1 < 2 * w + 2).map fun c => c.1 / 2, k = w := by
    simp only [List.mem_map, List.mem_filter, Bool.and_eq_true, decide_eq_true_eq]
    rintro _ ⟨c, ⟨-, hlo, hhi⟩, rfl⟩
    omega
  have hsome : (r.chk.filter fun c => 2 * w ≤ c.1 && c.1 < 2 * w + 2).map (fun c => c.1 / 2) ≠ [] := by
    intro hnone
    have habsent : ∀ k, 2 * w ≤ k → k < 2 * w + 2 → r.chk.read k = 0 := fun k hlo hhi => tget_of_absent fun c hc e => by
      simp only [List.map_eq_nil_iff, List.filter_eq_nil_iff] at hnone
      exact hnone c hc (by simp [e, hlo, hhi])
    exact h (by simp [Ram.status, Ram.chkOf, habsent]; rfl)
  rw [hspan, List.eq_replicate_of_mem hsame]
  exact List.replicate_dedup (by simpa using hsome)

/-- A read of one word with a single error corrects the error where it lies in the data. -/
theorem Ram.readAt_single {r : Ram} {w j e : Nat} (h : r.status w = .single j e) : r.readAt (8 * w) 8 =
    ⟨if j < 8 then r.data.load (8 * w) 8 ^^^ (e <<< (8 * j)) else r.data.load (8 * w) 8, [w], []⟩ := by
  have hodd := Ram.oddWords_of_status (r := r) (w := w) (by simp [h])
  have hplace : 8 * w + j - 8 * w = j := by omega
  simp [Ram.readAt, hodd, h, hplace]

/-- Settles O14: the decoder looks for the one place at which S0 gives S1, and a read applies what it finds. -/
theorem symbolDecoderRule : Obligations.SymbolDecoderRule := by
  refine ⟨rfl, rfl, fun s0 s1 j h0 hlt hj hs1 => ?_, fun s0 s1 h0 _ _ hnone => decodeSyn_noPlace h0.ne' hnone,
    fun s1 h0 _ hmark => decodeSyn_unbalanced h0.ne' hmark, fun r w j e h _ => Ram.readAt_single h⟩
  subst hs1
  exact decodeSyn_single h0.ne' hlt hj

end Sys2Proof.Machine
end

section
/-! SUPPORT. A line of Erg read or written in its user's slot, for `Obligations.ErgLinesComplete` (O53). -/

namespace Sys2Proof.Machine

/-! ### The slot (R156, R158) -/

/-- A user's slot is taken and the request that it serves leaves the queue. -/
def State.served (s : State) (ch : Nat) (user : ErgUser) (write : Bool) (r : ErgReq) : State :=
  ((s.judgeShares ch).takeSlot ch user write).onChan ch fun c => { c with queue := c.queue.erase r }

section Lines

variable {s : State} {ch : Nat} {user : ErgUser} {r : ErgReq} {up : List Upset}

/-! ### Reads (R158, R165 to R171) -/

/-- The state in which a line is read: the scrub has gone on, where the line is its next one. -/
def State.readTaken (s : State) (ch : Nat) (user : ErgUser) (r : ErgReq) : State :=
  if r.dest = .scrub ∧ r.reread = false then (s.served ch user false r).scrubNext ch else s.served ch user false r

/-- What a line read at a frame and line number of a channel leads to, as its codewords decode and the array shows its data. -/
def State.lineShown (s : State) (ch : Nat) (r : ErgReq) (place : Nat × Nat) (rs : Nat) (codes : List CodeRead) (raw : Nat) :
    State :=
  match lineOf codes with
  | .clean => s.deliver ch r raw false false
  | .corrected p => (s.noteFix ch place.1 place.2 rs p).deliver ch r (fixLine raw codes) false true
  | .poison => (s.badLine ch place.1 place.2 r true).deliver ch r raw true false
  | .bad =>
    if r.reread then (s.badLine ch place.1 place.2 r false).deliver ch r raw true false
    else s.onChan ch fun c =>
      { c with rereads := satAdd 32 c.rereads 1, queue := { r with reread := true } :: c.queue }

section Shown

variable {place : Nat × Nat} {rs raw : Nat} {codes : List CodeRead}

theorem State.lineShown_clean (h : lineOf codes = .clean) : s.lineShown ch r place rs codes raw = s.deliver ch r raw false false := by
  simp only [State.lineShown, h]

theorem State.lineShown_corrected {p : Nat} (h : lineOf codes = .corrected p) : s.lineShown ch r place rs codes raw =
    (s.noteFix ch place.1 place.2 rs p).deliver ch r (fixLine raw codes) false true := by
  simp only [State.lineShown, h]

theorem State.lineShown_poison (h : lineOf codes = .poison) : s.lineShown ch r place rs codes raw =
    (s.badLine ch place.1 place.2 r true).deliver ch r raw true false := by
  simp only [State.lineShown, h]

theorem State.lineShown_badAgain (h : lineOf codes = .bad) (hagain : r.reread = true) : s.lineShown ch r place rs codes raw =
    (s.badLine ch place.1 place.2 r false).deliver ch r raw true false := by
  simp only [State.lineShown, h, hagain, if_true]

theorem State.lineShown_badFirst (h : lineOf codes = .bad) (hfirst : r.reread = false) : s.lineShown ch r place rs codes raw =
    s.onChan ch fun c => { c with rereads := satAdd 32 c.rereads 1, queue := { r with reread := true } :: c.queue } := by
  simp only [State.lineShown, h, hfirst, Bool.false_eq_true, if_false]

end Shown

theorem State.ergLineRead_serves (hmay : s.ergMay ch user false = true) (hnext : s.nextRead ch user = some r) :
    s.ergLineRead ch user up =
      let place := s.lineOfReq ch r
      let u := s.readTaken ch user r
      let off := place.2 % 32768 * 64
      let rs := u.erg.rankSub place.1 off
      let key := ergKey ch place.1 off
      u.lineShown ch r place rs (u.lineCodes key (u.markOf ch rs) up) (u.lineRaw key up) := by
  simp only [State.ergLineRead, hmay, hnext, State.readTaken, Bool.and_eq_true, Bool.not_eq_true', decide_eq_true_eq]
  rfl

/-! ### Writes (R158, R168, R171, R174) -/

/-- The line of a request stored at a place of the channel, with the marker where its data is bad. -/
def State.lineStored (s : State) (r : ErgReq) (a : Nat) : State :=
  s.onErg fun e => { e with ram := if r.poison then e.ram.writeBad a 64 r.data else e.ram.writeAt a 64 r.data }

/-- A line accepted for where its request sends it. -/
def State.lineAccepted (s : State) (ch : Nat) (r : ErgReq) : State :=
  match r.dest with
  | .scrub => s.lineStored r (ergKey ch (r.line / 32768) (r.line % 32768 * 64))
  | .copy sp =>
    (s.lineStored r (ergKey ch (s.erg.usable + sp) (r.line % 32768 * 64))).onChan ch fun c =>
      { c with retire := c.retire.map fun t => { t with line := t.line + 1 } }
  | .erg die _ => (s.ergWrite r.line 64 r.data r.poison).dmaLine die
  | .host mb _ => (s.ergWrite r.line 64 r.data r.poison).bgBytes mb 0x0303 64
  | _ => s.ergWrite r.line 64 r.data r.poison

theorem State.ergLineWrite_serves (hmay : s.ergMay ch user true = true)
    (hnext : (s.chan ch).queue.find? (fun r => r.user = user && r.write = true) = some r) :
    s.ergLineWrite ch user = (s.served ch user true r).lineAccepted ch r := by
  have hfirst : (s.chan ch).first user true = some r := hnext
  simp only [State.ergLineWrite, hmay, hfirst, State.lineAccepted]
  cases r.dest <;> rfl

theorem State.usable_judgeShares : (s.judgeShares ch).erg.usable = s.erg.usable := by
  simp only [State.judgeShares]
  split <;> rfl

theorem State.usable_takeSlot (write : Bool) : (s.takeSlot ch user write).erg.usable = s.erg.usable := by
  simp only [State.takeSlot]
  split <;> rfl

theorem State.usable_served (write : Bool) : (s.served ch user write r).erg.usable = s.erg.usable :=
  (State.usable_takeSlot write).trans State.usable_judgeShares

end Lines

/-- Settles O53: the slot is taken, and the line goes the way that its codewords and its request give it. -/
theorem ergLinesComplete : Obligations.ErgLinesComplete := by
  intro s at_ ch user up r t
  refine ⟨fun hmay hnext => ?read, fun hmay hnext => ?write⟩
  case read =>
    have hread : exec (.ergLineRead at_ ch user up) s = _ :=
      congrArg Host.Outcome.next (State.ergLineRead_serves (s := t) (up := up) hmay hnext)
    rw [hread]
    exact ⟨fun h => congrArg Host.Outcome.next (State.lineShown_clean h),
      fun p h => congrArg Host.Outcome.next (State.lineShown_corrected h),
      fun h => congrArg Host.Outcome.next (State.lineShown_poison h),
      fun h hagain => congrArg Host.Outcome.next (State.lineShown_badAgain h hagain),
      fun h hfirst => congrArg Host.Outcome.next (State.lineShown_badFirst h hfirst)⟩
  case write =>
    have hwrite : exec (.ergLineWrite at_ ch user) s = .next ((t.served ch user true r).lineAccepted ch r) :=
      congrArg Host.Outcome.next (State.ergLineWrite_serves (s := t) hmay hnext)
    rw [hwrite]
    refine ⟨fun hscrub => ?scrub, fun sp hcopy => ?copy, fun hscrub hcopy => ⟨fun die a herg => ?erg, fun mb a hhost => ?host,
      fun herg hhost => ?engine⟩⟩ <;> refine congrArg Host.Outcome.next ?_
    case scrub => simp only [State.lineAccepted, hscrub]; rfl
    case copy => simp only [State.lineAccepted, hcopy, State.usable_served]; rfl
    case erg => simp only [State.lineAccepted, herg]; rfl
    case host => simp only [State.lineAccepted, hhost]; rfl
    case engine =>
      unfold State.lineAccepted
      cases h : r.dest with
      | scrub => exact absurd h hscrub
      | copy sp => exact absurd h (hcopy sp)
      | erg die a => exact absurd h (herg die a)
      | host mb a => exact absurd h (hhost mb a)
      | oasis die a | scratch die core a | engine => rfl

end Sys2Proof.Machine
end

section
/-! SUPPORT. A block that takes a free slot of the pool, for `Obligations.ErgUpkeepCompletes` (O54): what the row does, where the
statement agrees with it, and a state at which the two differ. -/

namespace Sys2Proof.Machine

/-! ### An arriving block (R199) -/

section Pool

variable {s : State} {die d : Nat} {b : Buf} {j : Job}

theorem State.poolBlockArrival_owned (hjob : s.job = some j) (howner : ownerDie j.image (afxTensor b) = some d) :
    s.poolBlockArrival die b = s.poolArrive d b none := by
  simp only [State.poolBlockArrival, State.finalSum, hjob, howner]

/-- A block that no pool block is like takes the slot that is free once it is stored. -/
theorem State.poolArrive_fills (hjob : s.job = some j) (hplace : samePlace (s.die d).pool b = none)
    (hroom : (s.die d).pool.length < poolSlots j.image d) (entry : Option Nat) :
    s.poolArrive d b entry =
      ((s.storeSlot j.image d (s.die d).freeSlot b false).onDie d fun y =>
        { y with
          pool := y.pool ++ [b], poolAt := y.poolAt ++ [y.freeSlot]
          rbPeak := Nat.max y.rbPeak (y.pool.length + 1) }).noteFinal d b false false := by
  simp only [State.poolArrive, hjob, hplace]
  exact if_pos hroom

/-- A write of Oasis leaves the pool of every die, in a canonical set of dies. -/
theorem State.pool_oasisWrite (hwf : tabWf Die.reset s.dies = true) (a n v : Nat) (bad : Bool) (i : Nat) :
    ((s.oasisWrite a n v bad).die i).pool = (s.die i).pool ∧ ((s.oasisWrite a n v bad).die i).poolAt = (s.die i).poolAt := by
  unfold State.oasisWrite
  extract_lets u k
  split
  · exact ⟨rfl, rfl⟩
  · rw [State.onDie, State.die_putDie (s := u) hwf]
    split
    case isTrue hi => subst hi; exact ⟨rfl, rfl⟩
    case isFalse => exact ⟨rfl, rfl⟩

/-- The clause of O54 for a free slot holds wherever the set of dies is canonical. -/
theorem poolBlockArrival_fills_of_canonical (hwf : tabWf Die.reset s.dies = true) (at_ : Nat) (hjob : s.job = some j)
    (howner : ownerDie j.image (afxTensor b) = some d) (hplace : samePlace (s.die d).pool b = none)
    (hroom : (s.die d).pool.length < poolSlots j.image d) :
    exec (.poolBlockArrival at_ die b) s =
      .next ((((s.tick at_).storeSlot j.image d (s.die d).freeSlot b false).onDie d fun y =>
        { y with
          pool := y.pool ++ [b], poolAt := y.poolAt ++ [(s.die d).freeSlot]
          rbPeak := Nat.max y.rbPeak ((s.die d).pool.length + 1) }).noteFinal d b false false) := by
  refine congrArg Host.Outcome.next ((State.poolBlockArrival_owned (s := s.tick at_) hjob howner).trans
    ((State.poolArrive_fills (s := s.tick at_) hjob hplace hroom none).trans ?_))
  obtain ⟨hpool, hpoolAt⟩ := State.pool_oasisWrite (s := s.tick at_) hwf
    (slotAddr (poolPlaces j.image d) (s.die d).freeSlot) b.len b.val false d
  have hfree : (((s.tick at_).storeSlot j.image d (s.die d).freeSlot b false).die d).freeSlot = (s.die d).freeSlot := by
    rw [Die.freeSlot, State.storeSlot, hpoolAt]; rfl
  have hlength : (((s.tick at_).storeSlot j.image d (s.die d).freeSlot b false).die d).pool.length = (s.die d).pool.length := by
    rw [State.storeSlot, hpool]; rfl
  simp only [State.onDie, State.tick_die, hfree, hlength]

end Pool

/-! ### A set of dies that lists one twice -/

/-- An image whose inner pass on die 0 lists tensor 0, with a pool of one slot at the start of Oasis (R53, R54, R198, R216,
R360). -/
def poolImage : Buf := Buf.cat
  [packBuf 64 [(48, 0), (8, 4)],
   packBuf 16 [(32, 1), (32, 128), (32, 96), (32, 1)],
   packBuf 16 [(32, 8), (32, 224), (32, 68), (32, 1)],
   packBuf 16 [(32, 9), (32, 292), (32, 64), (32, 1)],
   packBuf 16 [(32, 13), (32, 356), (32, 32), (32, 1)],
   packBuf 64 [(128, 0), (21, 1)], packBuf 32 [(96, 0), (12, 0x80), (8, 0x10)],
   packBuf 64 [(52, 0), (12, 1)], Buf.zeros 4,
   Buf.zeros 64,
   packBuf 32 [(4, 1), (4, 0), (8, 1), (16, 0), (64, 0), (64, 2080)]]

/-- That image as a running job. -/
def poolJob : Job :=
  { image := poolImage, epoch := 0, hasEpoch := true, seed := 0, sfLimit := 4, phase := .running, fresh := false, step := 0, sn := 0
    xNext := 0, xPrev := 0, sfRun := 0, missThis := false, relayout := none, oldImage := none, drainStep := 0, stopMb := none }

/-- Die 0 listed twice: with a word of its slot due for write-back, and behind that with the slot taken. -/
def twiceListed : State :=
  { State.reset with
    job := some poolJob
    dies := [(0, { Die.reset with oasisWriteback := [0] }), (0, { Die.reset with pool := [Buf.zeros 2080], poolAt := [0] })] }

/-- The slots that die 0 has taken after a row. -/
def slotsTaken : Res → List Nat
  | .next u => (u.die 0).poolAt
  | _ => []

/-- The slots that the row takes: storing the block drops the write-back, the first listing then equals the default and goes, and
the second shows. -/
theorem slotsTaken_twiceListed : slotsTaken (exec (.poolBlockArrival 0 0 (Buf.zeros 2080)) twiceListed) = [0, 1] := by decide +kernel

/-- Refutes O54, in its clause for a block that takes a free slot: at `twiceListed` the statement appends the slot that was free
before the block was stored. No premise of the clause asks for a canonical set of dies, as the clause of the temperature does for
the channels; under that premise the clause holds (`poolBlockArrival_fills_of_canonical`). -/
theorem not_ergUpkeepCompletes : ¬ Obligations.ErgUpkeepCompletes := by
  intro h
  obtain ⟨-, -, -, -, -, -, -, -, -, -, -, -, hpool, -⟩ := h twiceListed 0
  obtain ⟨-, hfills⟩ := hpool 0 0 (Buf.zeros 2080) poolJob rfl (by decide +kernel)
  have hslots := congrArg slotsTaken (hfills rfl (by decide +kernel))
  rw [slotsTaken_twiceListed] at hslots
  exact absurd hslots (by decide +kernel)

end Sys2Proof.Machine
end

section
/-! SUPPORT. Sums of AFX blocks (R194) that stay within the element range, for `Obligations.AfxSumsInAnyOrder` (O23): `IsAfxSum`
says what the sum of a list of blocks holds, in terms that no order and no grouping changes, and a whole block holds no more. -/

namespace Sys2Proof.Machine

/-! ### Whole blocks (R191) -/

/-- One past the largest element of a format (R189). -/
def afxLim (w32 : Bool) : Nat := 2 ^ (afxF w32 + afxH w32)

/-- A number lies within the element width of a format (R189). -/
def afxHolds (w32 : Bool) (i : Int) : Prop := -(afxLim w32 : Int) ≤ i ∧ i < afxLim w32

/-- The identifying fields of R194, in a header. -/
def AfxHdr.ident (h : AfxHdr) : Nat × Nat × Nat × Nat × Nat × Bool × Int :=
  (h.tensor, h.row, h.col, h.sub, h.epoch, h.w32, h.anchor)

theorem afxId_eq_ident (b : Buf) : afxId b = (AfxHdr.of b).ident := rfl

theorem afx32_eq_of_afxId_eq {a b : Buf} (h : afxId a = afxId b) : afx32 a = afx32 b := by
  simp only [afxId, Prod.mk.injEq] at h
  obtain ⟨-, -, -, -, -, hfmt, -⟩ := h
  exact hfmt

/-- The header and the elements of a block are all that it holds. -/
theorem AfxHdr.block_reads {h : AfxHdr} {els : List Int} (hfits : h.fits = true) (hlen : els.length = 256)
    (hrange : ∀ i ∈ els, afxHolds h.w32 i) :
    AfxHdr.of (h.block els) = h ∧ afxElems (h.block els) = els := by
  obtain ⟨-, -, -, hafx⟩ := fieldsRoundTrip
  exact hafx h els hfits hlen hrange

theorem afxCount_lt (b : Buf) : afxCount b < 2 ^ 32 := Nat.mod_lt _ (Nat.two_pow_pos 32)

section Whole

variable {a b : Buf}

theorem afxWhole.fits (hb : afxWhole b) : (AfxHdr.of b).fits = true := by
  obtain ⟨h, els, hfits, -, -, rfl⟩ := hb
  rwa [AfxHdr.of_block hfits]

theorem afxWhole.eq_block (hb : afxWhole b) : (AfxHdr.of b).block (afxElems b) = b := by
  obtain ⟨h, els, hfits, hlen, hrange, rfl⟩ := hb
  obtain ⟨hhdr, hels⟩ := AfxHdr.block_reads hfits hlen hrange
  rw [hhdr, hels]

theorem afxElems_eq_iff {f : Nat → Int} : afxElems b = (List.range 256).map f ↔ ∀ i < 256, afxElem b i = f i := by
  simp only [afxElems, List.map_inj_left, List.mem_range]

/-- Whole blocks that agree in every field and element are the same bytes. -/
theorem afxWhole.ext (ha : afxWhole a) (hb : afxWhole b) (hhdr : AfxHdr.of a = AfxHdr.of b)
    (hels : ∀ i < 256, afxElem a i = afxElem b i) : a = b := by
  rw [← ha.eq_block, ← hb.eq_block, hhdr, afxElems_eq_iff.mpr hels, ← afxElems]

end Whole

/-! ### Two blocks added without overflow (R194) -/

/-- The header of the sum of two blocks in which no element saturates. -/
def AfxHdr.join (h g : AfxHdr) : AfxHdr :=
  { h with nf := h.nf || g.nf, ovf := h.ovf || g.ovf, count := satAdd 32 h.count g.count, step := Nat.max h.step g.step }

theorem AfxHdr.ident_join (h g : AfxHdr) : (h.join g).ident = h.ident := rfl

theorem AfxHdr.fits_join {h g : AfxHdr} (hh : h.fits = true) (hg : g.fits = true) : (h.join g).fits = true := by
  have hcount : satAdd 32 h.count g.count < 2 ^ 32 := Nat.lt_of_le_of_lt (Nat.min_le_right ..) (by norm_num)
  simp only [AfxHdr.fits, AfxHdr.join, Bool.and_eq_true, decide_eq_true_eq] at hh hg ⊢
  obtain ⟨hfields, hstep⟩ := hh
  obtain ⟨-, hstep'⟩ := hg
  have hmax : Nat.max h.step g.step < 2 ^ 64 := Nat.max_lt.mpr ⟨hstep, hstep'⟩
  simp only [hfields, hcount, hmax, and_self, decide_true]

theorem afxAdd_of_afxId_eq {a b : Buf} (h : afxId a = afxId b) : afxAdd a b = some (afxJoin a b) := if_neg (not_not.mpr h)

theorem afxSat_of_range {w32 : Bool} {i : Int} (h : afxHolds w32 i) : afxSat w32 i = (i, false) := by
  obtain ⟨hlo, hhi⟩ := h
  rw [afxSat]
  exact (if_neg (not_le.mpr hhi)).trans (if_neg (not_lt.mpr hlo))

section Join

variable {a b : Buf} (hrange : ∀ i < 256, afxHolds (afx32 a) (afxElem a i + afxElem b i))

include hrange

theorem afxJoin_of_range : afxJoin a b =
    ((AfxHdr.of a).join (AfxHdr.of b)).block ((List.range 256).map fun i => afxElem a i + afxElem b i) := by
  have hsat : ((afxElems a).zip (afxElems b)).map (fun p : Int × Int => afxSat (afx32 a) (p.1 + p.2)) =
      ((List.range 256).map fun i => afxElem a i + afxElem b i).map fun i => (i, false) := by
    rw [afxElems, afxElems, List.zip_map', List.map_map, List.map_map]
    exact List.map_congr_left fun i hi => afxSat_of_range (hrange i (List.mem_range.mp hi))
  generalize (List.range 256).map (fun i => afxElem a i + afxElem b i) = els at hsat
  have hnone : (els.map fun i => (i, false)).any (fun p : Int × Bool => p.2) = false := by simp
  have hvals : (els.map fun i => (i, false)).map (fun p : Int × Bool => p.1) = els := by simp [Function.comp_def]
  simp only [afxJoin, hsat, hnone, hvals, Bool.or_false]
  rfl

variable (ha : afxWhole a) (hb : afxWhole b)

include ha hb

theorem afxJoin_reads : AfxHdr.of (afxJoin a b) = (AfxHdr.of a).join (AfxHdr.of b) ∧
    (∀ i < 256, afxElem (afxJoin a b) i = afxElem a i + afxElem b i) ∧ afxWhole (afxJoin a b) := by
  have hfits := AfxHdr.fits_join ha.fits hb.fits
  have hels : ∀ v ∈ (List.range 256).map fun i => afxElem a i + afxElem b i, afxHolds (afx32 a) v :=
    List.forall_mem_map.mpr fun i hi => hrange i (List.mem_range.mp hi)
  have hlen : ((List.range 256).map fun i => afxElem a i + afxElem b i).length = 256 := by rw [List.length_map, List.length_range]
  rw [afxJoin_of_range hrange, ← afxElems_eq_iff]
  obtain ⟨hhdr, hread⟩ := AfxHdr.block_reads hfits hlen hels
  exact ⟨hhdr, hread, _, _, hfits, hlen, hels, rfl⟩

end Join

/-! ### Lists of blocks -/

/-- Blocks with the identifying fields of `a` whose elements sum in magnitude below the element range. -/
structure AfxSummable (a : Buf) (l : List Buf) : Prop where
  whole : ∀ x ∈ l, afxWhole x
  ident : ∀ x ∈ l, afxId x = afxId a
  bound : ∀ i < 256, (l.map fun x => (afxElem x i).natAbs).sum < afxLim (afx32 a)

/-- The sum of the blocks of a list with the identifying fields of `a`: each element exact, NF and OVF by OR, COUNT the
saturating sum, STEP the largest. -/
structure IsAfxSum (a : Buf) (l : List Buf) (r : Buf) : Prop where
  whole : afxWhole r
  ident : afxId r = afxId a
  elem : ∀ i < 256, afxElem r i = (l.map fun x => afxElem x i).sum
  nf : afxNf r = l.any afxNf
  ovf : afxOvf r = l.any afxOvf
  count : afxCount r = Nat.min (l.map afxCount).sum (2 ^ 32 - 1)
  step : afxStep r = (l.map afxStep).foldl Nat.max 0

section Sums

variable {a b x y r r' : Buf} {l m : List Buf}

theorem AfxSummable.perm (h : AfxSummable a l) (hperm : l.Perm m) : AfxSummable a m where
  whole x hx := h.whole x (hperm.mem_iff.mpr hx)
  ident x hx := h.ident x (hperm.mem_iff.mpr hx)
  bound i hi := (hperm.map fun x => (afxElem x i).natAbs).sum_eq ▸ h.bound i hi

theorem AfxSummable.left (h : AfxSummable a (l ++ m)) : AfxSummable a l where
  whole x hx := h.whole x (List.mem_append_left m hx)
  ident x hx := h.ident x (List.mem_append_left m hx)
  bound i hi := by
    have := h.bound i hi
    rw [List.map_append, List.sum_append] at this
    omega

theorem AfxSummable.right (h : AfxSummable a (l ++ m)) : AfxSummable a m := (h.perm List.perm_append_comm).left

theorem foldl_natMax_append (l m : List Nat) : (l ++ m).foldl Nat.max 0 = Nat.max (l.foldl Nat.max 0) (m.foldl Nat.max 0) := by
  rw [List.foldl_append, ← List.foldl_assoc (op := Nat.max)]
  exact congrArg (fun k => m.foldl Nat.max k) (Nat.max_zero _).symm

/-- Order does not show in what a sum holds. -/
theorem IsAfxSum.perm (h : IsAfxSum a l r) (hperm : l.Perm m) : IsAfxSum a m r where
  whole := h.whole
  ident := h.ident
  elem i hi := (h.elem i hi).trans (hperm.map _).sum_eq
  nf := h.nf.trans hperm.any_eq
  ovf := h.ovf.trans hperm.any_eq
  count := by rw [h.count, (hperm.map _).sum_eq]
  step := h.step.trans ((hperm.map _).foldl_eq 0)

/-- What a sum holds leaves no bit open. -/
theorem IsAfxSum.unique (h : IsAfxSum a l r) (h' : IsAfxSum a l r') : r = r' := by
  refine h.whole.ext h'.whole ?_ fun i hi => (h.elem i hi).trans (h'.elem i hi).symm
  have hident := h.ident.trans h'.ident.symm
  simp only [afxId, Prod.mk.injEq] at hident
  simp only [AfxHdr.of, hident, h.nf, h'.nf, h.ovf, h'.ovf, h.count, h'.count, h.step, h'.step]

theorem isAfxSum_singleton (h : AfxSummable a [b]) : IsAfxSum a [b] b where
  whole := h.whole b (List.mem_singleton_self b)
  ident := h.ident b (List.mem_singleton_self b)
  elem i _ := by simp
  nf := by simp
  ovf := by simp
  count := by
    have := afxCount_lt b
    rw [List.map_singleton, List.sum_singleton]
    exact (Nat.min_eq_left (Nat.le_pred_of_lt this)).symm
  step := by simp

/-- A saturated counter added to another saturates where the exact sum does. -/
theorem satAdd_min (w c d : Nat) : satAdd w (Nat.min c (2 ^ w - 1)) (Nat.min d (2 ^ w - 1)) = Nat.min (c + d) (2 ^ w - 1) := by
  unfold satAdd
  generalize 2 ^ w - 1 = top
  change min (min c top + min d top) top = min (c + d) top
  omega

theorem natAbs_sum_map_le {α : Type} (f : α → Int) (l : List α) : (l.map f).sum.natAbs ≤ (l.map fun x => (f x).natAbs).sum := by
  simpa [Function.comp_def] using List.le_sum_of_subadditive Int.natAbs rfl.le Int.natAbs_add_le (l.map f)

/-- The two sums of two groups of blocks add to the sum of all of them. -/
theorem IsAfxSum.add (hx : IsAfxSum a l x) (hy : IsAfxSum a m y) (h : AfxSummable a (l ++ m)) :
    ∃ r, afxAdd x y = some r ∧ IsAfxSum a (l ++ m) r := by
  have hexact (i : Nat) (hi : i < 256) : afxElem x i + afxElem y i = ((l ++ m).map fun x => afxElem x i).sum := by
    rw [hx.elem i hi, hy.elem i hi, List.map_append, List.sum_append]
  have hrange (i : Nat) (hi : i < 256) : afxHolds (afx32 x) (afxElem x i + afxElem y i) := by
    have := natAbs_sum_map_le (fun x => afxElem x i) (l ++ m)
    have := h.bound i hi
    rw [hexact i hi, afx32_eq_of_afxId_eq hx.ident, afxHolds]
    omega
  obtain ⟨hhdr, helem, hwhole⟩ := afxJoin_reads hrange hx.whole hy.whole
  have hident : afxId (afxJoin x y) = afxId x := by rw [afxId_eq_ident, hhdr, AfxHdr.ident_join, afxId_eq_ident x]
  have hnf : afxNf (afxJoin x y) = (afxNf x || afxNf y) := congrArg AfxHdr.nf hhdr
  have hovf : afxOvf (afxJoin x y) = (afxOvf x || afxOvf y) := congrArg AfxHdr.ovf hhdr
  have hcount : afxCount (afxJoin x y) = satAdd 32 (afxCount x) (afxCount y) := congrArg AfxHdr.count hhdr
  have hstep : afxStep (afxJoin x y) = Nat.max (afxStep x) (afxStep y) := congrArg AfxHdr.step hhdr
  refine ⟨_, afxAdd_of_afxId_eq (hx.ident.trans hy.ident.symm), hwhole, hident.trans hx.ident,
    fun i hi => (helem i hi).trans (hexact i hi), ?_, ?_, ?_, ?_⟩
  · rw [hnf, hx.nf, hy.nf, List.any_append]
  · rw [hovf, hx.ovf, hy.ovf, List.any_append]
  · rw [hcount, hx.count, hy.count, List.map_append, List.sum_append, satAdd_min]
  · rw [hstep, hx.step, hy.step, List.map_append, foldl_natMax_append]

/-- Blocks added one after another to the sum of the blocks before them. -/
theorem IsAfxSum.exists_afxSum (hx : IsAfxSum a l x) (h : AfxSummable a (l ++ m)) : ∃ r, afxSum x m = some r ∧ IsAfxSum a (l ++ m) r := by
  induction m generalizing l x with
  | nil => exact ⟨x, rfl, by rwa [List.append_nil]⟩
  | cons b m ih =>
    rw [List.append_cons] at h ⊢
    obtain ⟨y, hadd, hy⟩ := hx.add (isAfxSum_singleton h.left.right) h.left
    obtain ⟨r, hsum, hr⟩ := ih hy h
    exact ⟨r, by rw [afxSum, hadd, Option.bind_some, hsum], hr⟩

theorem AfxSummable.exists_afxSum (h : AfxSummable a (b :: l)) : ∃ r, afxSum b l = some r ∧ IsAfxSum a (b :: l) r :=
  (isAfxSum_singleton (AfxSummable.left (m := l) h)).exists_afxSum h

end Sums

/-- Settles O23: what a sum holds (`IsAfxSum`) speaks of the blocks without their order, and fixes the bytes. -/
theorem afxSumsInAnyOrder : Obligations.AfxSumsInAnyOrder := by
  refine ⟨fun a b l l' hwhole hident hbound hperm => ?_, fun a b l m hwhole hident hbound => ?_⟩
  · have hall : AfxSummable a (a :: l) := ⟨hwhole, List.forall_mem_cons.mpr ⟨rfl, hident⟩, hbound⟩
    obtain ⟨r, hsum, hr⟩ := hall.exists_afxSum
    obtain ⟨r', hsum', hr'⟩ := (hall.perm hperm).exists_afxSum
    obtain rfl := hr'.unique (hr.perm hperm)
    exact ⟨r', hsum, hsum', hr.whole, hr.ident, hr.elem, hr.count, hr.step⟩
  · have hall : AfxSummable a ((a :: l) ++ (b :: m)) := ⟨hwhole, List.forall_mem_cons.mpr ⟨rfl, hident⟩, hbound⟩
    obtain ⟨x, hsumx, hx⟩ := hall.left.exists_afxSum
    obtain ⟨y, hsumy, hy⟩ := hall.right.exists_afxSum
    obtain ⟨r, hadd, hr⟩ := hx.add hy hall
    obtain ⟨r', hsum, hr'⟩ := AfxSummable.exists_afxSum hall
    obtain rfl := hr'.unique hr
    exact ⟨x, y, r', hsumx, hsumy, hadd, hsum⟩

end Sys2Proof.Machine
end

section
/-! SUPPORT. What stochastic rounding answers in each of its cases, and how many draws reach a threshold, for
`Obligations.StochasticRoundingRule` (O19). -/

namespace Sys2Proof.Machine

/-! ### The three answers of stochastic rounding (R224) -/

section Round

variable {y r : Nat}

theorem testBit_sign_iff (hy : y < 2 ^ 32) : y.testBit 31 = true ↔ 2 ^ 31 ≤ y := by
  rw [Nat.testBit_eq_decide_div_mod_eq, decide_eq_true_eq]
  omega

/-- The sign of an FP32 code is the upper digit of its bits in base `2 ^ 31`. -/
theorem b2n_testBit_sign (hy : y < 2 ^ 32) : b2n (y.testBit 31) = y / 2 ^ 31 := by
  by_cases h : 2 ^ 31 ≤ y
  · rw [(testBit_sign_iff hy).mpr h, b2n, if_pos rfl]
    omega
  · rw [Bool.eq_false_iff.mpr (mt (testBit_sign_iff hy).mp h), b2n, if_neg Bool.false_ne_true]
    omega

theorem srRound_of_zero (hm : y % 2 ^ 31 = 0) : srRound y r = (y / 2 ^ 16, false) := by
  rw [srRound, if_pos hm, Nat.shiftRight_eq_div_pow]

theorem srRound_of_saturated (hy : y < 2 ^ 32) (hm : y % 2 ^ 31 ≠ 0) (hz : (y % 2 ^ 31 + r) / 2 ^ 23 % 256 = 255) :
    srRound y r = (if 2 ^ 31 ≤ y then 0xFF7F else 0x7F7F, true) := by
  have hexp : bits (y % 2 ^ 31 + r) 23 8 = 0xFF := by rwa [bits, Nat.shiftRight_eq_div_pow]
  simp only [srRound, if_neg hm, if_pos hexp, testBit_sign_iff hy]

theorem srRound_of_finite (hy : y < 2 ^ 32) (hm : y % 2 ^ 31 ≠ 0) (hz : (y % 2 ^ 31 + r) / 2 ^ 23 % 256 ≠ 255) :
    srRound y r = (y / 2 ^ 31 * 2 ^ 15 + (y % 2 ^ 31 + r) / 2 ^ 16 % 2 ^ 15, false) := by
  have hexp : ¬ bits (y % 2 ^ 31 + r) 23 8 = 0xFF := by rwa [bits, Nat.shiftRight_eq_div_pow]
  simp only [srRound, if_neg hm, if_neg hexp]
  rw [b2n_testBit_sign hy, setBits_eq, bits, Nat.shiftRight_eq_div_pow, Nat.shiftRight_eq_div_pow]
  congr 1
  omega

/-- A flushed code below infinity gives zero or a normal BF16: the rounded sum keeps an exponent field of at least 1. -/
theorem srRound_not_subnormal (hy : y < 2 ^ 32) (hr : r < 2 ^ 16) (hfin : y % 2 ^ 31 < 0x7F800000)
    (hflush : y % 2 ^ 31 = 0 ∨ 2 ^ 23 ≤ y % 2 ^ 31) : (srRound y r).1 % 2 ^ 15 = 0 ∨ 2 ^ 7 ≤ (srRound y r).1 % 2 ^ 15 := by
  by_cases hm : y % 2 ^ 31 = 0
  · left
    rw [srRound_of_zero hm]
    omega
  · right
    by_cases hz : (y % 2 ^ 31 + r) / 2 ^ 23 % 256 = 255
    · rw [srRound_of_saturated hy hm hz]
      split <;> decide
    · rw [srRound_of_finite hy hm hz]
      omega

/-- Up to the largest finite BF16 no draw saturates: the magnitude of the result is the sum with its low half cut off. -/
theorem srRound_magnitude (hy : y < 2 ^ 32) (hr : r < 2 ^ 16) (hlow : 2 ^ 23 ≤ y % 2 ^ 31) (hhigh : y % 2 ^ 31 ≤ 0x7F7F0000) :
    (srRound y r).1 % 2 ^ 15 = (y % 2 ^ 31 + r) / 2 ^ 16 := by
  rw [srRound_of_finite hy (by omega) (by omega)]
  omega

end Round

/-! ### Draws that reach a threshold -/

theorem countP_range_le (n c : Nat) : (List.range n).countP (fun r => c ≤ r) = n - c := by
  induction n with
  | zero => simp
  | succ n ih =>
    rw [List.range_succ, List.countP_append, ih]
    by_cases h : c ≤ n
    · simp [h]; omega
    · simp [h]; omega

theorem countP_range_lt (n c : Nat) : (List.range n).countP (fun r => r < c) = min n c := by
  have hall := List.length_eq_countP_add_countP (fun r => decide (c ≤ r)) (l := List.range n)
  simp only [decide_eq_true_eq, Nat.not_le, List.length_range, countP_range_le] at hall
  omega

/-- Settles O19: a draw rounds up exactly when it carries the low half of the code over, and such are `Y[15:0]` of them. -/
theorem stochasticRoundingRule : Obligations.StochasticRoundingRule := by
  refine ⟨fun y r hy hr => ⟨srRound_of_zero, srRound_of_saturated hy, srRound_of_finite hy, srRound_not_subnormal hy hr⟩,
    fun y hy hlow hhigh => ⟨?up, ?down⟩⟩
  case up =>
    have hup : ∀ r ∈ List.range 65536,
        decide ((srRound y r).1 % 2 ^ 15 = y % 2 ^ 31 / 2 ^ 16 + 1) = true ↔ decide (65536 - y % 2 ^ 16 ≤ r) = true := fun r hr => by
      rw [srRound_magnitude hy (List.mem_range.mp hr) hlow hhigh, decide_eq_true_eq, decide_eq_true_eq]
      have := List.mem_range.mp hr
      omega
    rw [List.countP_congr hup, countP_range_le]
    omega
  case down =>
    have hdown : ∀ r ∈ List.range 65536,
        decide ((srRound y r).1 % 2 ^ 15 = y % 2 ^ 31 / 2 ^ 16) = true ↔ decide (r < 65536 - y % 2 ^ 16) = true := fun r hr => by
      rw [srRound_magnitude hy (List.mem_range.mp hr) hlow hhigh, decide_eq_true_eq, decide_eq_true_eq]
      have := List.mem_range.mp hr
      omega
    rw [List.countP_congr hdown, countP_range_lt]
    exact min_eq_right (Nat.sub_le ..)

end Sys2Proof.Machine
end

section
/-! SUPPORT. The rows of the outer rounds where their guards hold, for `Obligations.OuterRoundsComplete` (O12). -/

namespace Sys2Proof.Machine

section Rounds

variable {s : State} {j : Job} {f : Nat}

/-! ### Encodes (R297, R299, R302) -/

/-- The Caravan chunks of a fragment encoded in the order of its plan, and the state that leaves (R299). -/
def State.encodeChunks (s : State) (b : Buf) (f r : Nat) : List Buf × State :=
  (chunkPlan b f).foldl (fun (a : List Buf × State) k =>
    let e := a.2.encodeChunk k (imgFragCfg b f).twoBit (imgSite b) r
    (a.1 ++ [e.1], e.2)) ([], s)

/-- An encode of round `r` completes once the slice, the Cistern and the copy of its snapshot let it. -/
theorem State.encodeComplete_ready {r : Nat} (hjob : s.job = some j) (henc : (s.frag f).encoding = some r)
    (hheld : (s.frag f).encHeld = false) (hslice : s.sliceRuns 2 = true)
    (hcopied : (∃ o, (s.frag f).out.find? (fun o => o.round = r) = some o ∧ o.snapStep = j.step) → s.snapCopied j f = true) :
    s.encodeComplete f =
      let b := j.image
      let v := ((s.noteFrag b f fun _ => .anchor).noteFrag b f fun y => .snapshot (r % y.snaps)).noteFrag b f fun _ => .residual
      if v.keepsCkpt = false then v
      else
        let c := v.encodeChunks b f r
        let u := c.2.onFrag f fun x =>
          let x := { x with residRound := r + 1, out := x.out.map fun (o : Round) => if o.round = r then { o with encoded := true } else o }
          { x with encoding := x.nextEncode }
        let w := u.onFrag f fun x =>
          { x with caravans := tset [] x.caravans (carKey r (imgSite b)) (c.1.zipIdx.map fun (q : Buf × Nat) => (q.2, q.1))
                   chunksOf := tset 0 x.chunksOf (carKey r (imgSite b)) c.1.length }
        if !imgNormEn b then u else if (w.frag f).sends then w.sendCaravan f r c.1 else w := by
  have hsnap : ((s.frag f).out.find? fun o => o.round = r).any (fun o => o.snapStep = j.step) = true → s.snapCopied j f = true := by
    simpa only [Option.any_eq_true, decide_eq_true_eq] using hcopied
  have hgo : ¬ ((s.frag f).encHeld || !s.sliceRuns 2 ||
      (((s.frag f).out.find? fun o => o.round = r).any (fun o => o.snapStep = j.step) && !s.snapCopied j f)) = true := by
    simp only [hheld, hslice, Bool.not_true, Bool.false_or, Bool.and_eq_true, Bool.not_eq_true', not_and, Bool.not_eq_false]
    exact hsnap
  unfold State.encodeComplete
  simp only [hjob, henc]
  rw [if_neg hgo]
  simp only [Bool.not_eq_true']
  rfl

/-! ### Sums and rounds that cannot be had (R310, R312) -/

theorem State.roundSum_ready {m : Buf} (hjob : s.job = some j) (hman : (s.frag f).manifest (s.frag f).closed = some m)
    (hstate : 2 ≤ (s.frag f).jstate) (hboot : (s.frag f).bootReady = false) (hsum : (s.frag f).sumReady = false)
    (hlists : manContribs m ≠ 0) (hnorm : imgNormEn j.image = true) (hheld : (s.frag f).allHeld m = true)
    (hslice : s.sliceRuns 3 = true) :
    s.roundSum f = if ((s.readChunks f).frag f).allHeld m then (s.readChunks f).writeSum j.image f m else s.readChunks f := by
  unfold State.roundSum
  simp only [hjob, hman]
  exact if_neg (by simp [Nat.lt_of_succ_le hstate, hboot, hsum, hlists, hnorm, hheld, hslice])

theorem State.unobtainable_due {m : Buf} (hjob : s.job = some j) (hman : (s.frag f).manifest (s.frag f).closed = some m)
    (hstate : 2 ≤ (s.frag f).jstate) (hsum : (s.frag f).sumReady = false) (hheld : (s.frag f).allHeld m = false)
    (hdue : (((s.frag f).out.find? fun o => o.round = (s.frag f).closed).map (·.snapStep)).getD
      ((imgFragCfg j.image f).nominal (s.frag f).closed) + 4 * (imgFragCfg j.image f).tauMax ≤ j.step) :
    s.unobtainable f = (s.raiseRound Ev.roundUnobtainable f (s.frag f).closed).enterBootstrap j.image f none := by
  unfold State.unobtainable
  simp only [hjob, hman]
  exact if_neg (by simp [Nat.lt_of_succ_le hstate, hsum, hheld, hdue])

/-! ### Pulls and shifts (R315, R318, R319) -/

theorem State.bootstrapDone_ready (hstate : (s.frag f).jstate = 1) (hdata : (s.frag f).bootData ≠ []) :
    s.bootstrapDone f = (s.onFrag f fun x => { x with jstate := 2, bootReady := true }).raiseRound Ev.bootstrapDone f
      (s.frag f).bootRound (s.frag f).donor :=
  if_neg (by simp [hstate, hdata])

theorem State.shiftComplete_ready (hshift : (s.frag f).shifting = true) (hslice : s.sliceRuns 4 = true) :
    s.shiftComplete f = s.onFrag f fun x => { x with shifting := false } :=
  if_neg (by simp [hshift, hslice])

/-! ### Slices with no job (R354) -/

/-- A slice with every class enabled opens what its port has staged and lets encodes go on. -/
theorem State.beginSlice_allClasses (s : State) (k tag end_ : Nat) :
    s.beginSlice k tag 63 end_ = (s.onFarPort k fun q => { q with slice := some (tag, 63, end_), staged := 0 }).encodeGate := rfl

theorem State.idleSlice_turn {p : Nat} (hjob : s.job = none) (hport : s.acx.idlePort = p) :
    s.idleSlice p =
      let u : State := { s with acx := { s.acx with ports := tmap FarPort.reset (fun q => { q with slice := none }) s.acx.ports } }
      (u.onFarPort p fun q => { q with slice := some (0, 63, s.now + 10000), staged := 0 }).encodeGate.onAcx
        fun a => { a with idlePort := (p + 1) % 4 } := by
  unfold State.idleSlice
  rw [if_neg (by simp [hjob, hport])]
  simp only [State.beginSlice_allClasses]
  rfl

end Rounds

/-- Settles O12: each row's guard holds, and its effect is read off its definition. -/
theorem outerRoundsComplete : Obligations.OuterRoundsComplete := by
  intro s at_ f t x
  refine ⟨fun j r hjob henc hheld hslice hcopied => ?encode,
    fun j m hjob hman hstate hboot hsum hlists hnorm hheld hslice => congrArg Host.Outcome.next
      (State.roundSum_ready (s := t) hjob hman hstate hboot hsum hlists hnorm hheld hslice),
    fun j m hjob hman hstate hsum hheld hdue => congrArg Host.Outcome.next
      (State.unobtainable_due (s := t) hjob hman hstate hsum hheld hdue),
    fun hstate hdata => congrArg Host.Outcome.next (State.bootstrapDone_ready (s := t) hstate hdata),
    fun hshift hslice => congrArg Host.Outcome.next (State.shiftComplete_ready (s := t) hshift hslice),
    fun p hjob hport => congrArg Host.Outcome.next (State.idleSlice_turn (s := t) hjob hport), ?pass⟩
  case encode =>
    refine (congrArg Host.Outcome.next (State.encodeComplete_ready (s := t) hjob henc hheld hslice hcopied)).trans ?_
    exact apply_ite Host.Outcome.next _ _ _
  case pass =>
    intro die j i step fin hjob hpass
    refine congrArg Host.Outcome.next (?_ : t.passComplete die = _)
    unfold State.passComplete
    rewrite [show t.job = some j from hjob, show (t.die die).pass = some (i, step, fin) from hpass]
    rfl

end Sys2Proof.Machine
end

section
/-! SUPPORT. What a flood record holds and what the combination of two holds, for `Obligations.FloodRecordsCombineInAnyOrder`
(O20): a record is its fields (`FloodRec`), and each field combines by an operation that commutes and associates. -/

namespace Sys2Proof.Machine

/-! ### Saturating sums (R9) -/

theorem satAdd_comm (w x y : Nat) : satAdd w x y = satAdd w y x := by rw [satAdd, satAdd, Nat.add_comm]

theorem satAdd_lt (w x y : Nat) : satAdd w x y < 2 ^ w :=
  Nat.lt_of_le_of_lt (Nat.min_le_right ..) (Nat.sub_lt (Nat.two_pow_pos w) Nat.one_pos)

theorem satAdd_assoc (w x y z : Nat) : satAdd w (satAdd w x y) z = satAdd w x (satAdd w y z) := by
  unfold satAdd
  generalize 2 ^ w - 1 = top
  change min (min (x + y) top + z) top = min (x + min (y + z) top) top
  omega

/-- The NORM_SAT bit of CAUSE where a sum of squared norms exceeds SQNORM (R235, R237). -/
def normSat (sq : Nat) : Nat := if 2 ^ 128 ≤ sq then 32 else 0

theorem normSat_lt (sq : Nat) : normSat sq < 2 ^ 16 := by unfold normSat; split <;> decide

/-- Two saturating sums in a row set NORM_SAT where the exact sum of the three does: a first sum that saturates has set it. -/
theorem normSat_satAdd (x y z : Nat) : normSat (x + y) ||| normSat (satAdd 128 x y + z) = normSat (x + y + z) := by
  by_cases hsat : 2 ^ 128 ≤ x + y
  · have htotal : normSat (x + y + z) = 32 := if_pos (Nat.le_add_right_of_le hsat)
    rw [htotal, normSat, if_pos hsat, normSat]
    split <;> rfl
  · have hexact : satAdd 128 x y = x + y := Nat.min_eq_left (Nat.le_pred_of_lt (Nat.lt_of_not_le hsat))
    rw [hexact, normSat, if_neg hsat, Nat.zero_or]

/-! ### Fields of one width -/

theorem packFields_eq_packBits (w : Nat) (l : List Nat) : packFields w l = packBits (l.map fun x => (w, x)) := by
  induction l with
  | nil => rfl
  | cons x l ih => rw [List.map_cons, packBits, ← ih, packFields, List.foldr_cons, ← packFields]

theorem packFields_lt (w : Nat) (l : List Nat) : packFields w l < 2 ^ (w * l.length) := by
  have := packBits_lt (l.map fun x => (w, x))
  simpa [packFields_eq_packBits, Function.comp_def, Nat.mul_comm] using this

theorem length_fields (w n v : Nat) : (fields w n v).length = n := by rw [fields, List.length_map, List.length_range]

theorem lt_of_mem_fields {w n v x : Nat} (h : x ∈ fields w n v) : x < 2 ^ w := by
  obtain ⟨i, -, rfl⟩ := List.mem_map.mp h
  exact Nat.mod_lt _ (Nat.two_pow_pos w)

theorem fields_packFields {w : Nat} {l : List Nat} (h : ∀ x ∈ l, x < 2 ^ w) : fields w l.length (packFields w l) = l := by
  refine List.ext_getElem (length_fields ..) fun i hi hi' => ?_
  have hread := bits_packBits_uniform (fun x => x) w l hi'
  simpa only [fields, List.getElem_map, List.getElem_range, packFields_eq_packBits, Nat.mod_eq_of_lt (h _ (List.getElem_mem hi'))]
    using hread

/-- Two lists of counts added, count by count (UF_SUM of R237). -/
def satSums (l m : List Nat) : List Nat := l.zipWith (satAdd 32) m

theorem satSums_comm (l m : List Nat) : satSums l m = satSums m l := List.zipWith_comm_of_comm (satAdd_comm 32)

theorem satSums_assoc (l m n : List Nat) : satSums (satSums l m) n = satSums l (satSums m n) := by
  refine List.ext_getElem (by simp [satSums, Nat.min_assoc]) fun i hi hi' => ?_
  simp only [satSums, List.getElem_zipWith, satAdd_assoc]

/-! ### A flood record as its fields (R237) -/

/-- The fields of a flood record: STEP and EPOCH as one number, the rest in the order of R237. -/
@[ext] structure FloodRec where
  key     : Nat
  cause   : Nat
  stretch : Nat
  sqnorm  : Nat
  nf      : Nat
  ovf     : Nat
  nonzero : Nat
  promo   : Nat
  uf      : List Nat

namespace FloodRec

/-- The fields of the bytes. -/
def of (b : Buf) : FloodRec :=
  ⟨b.fld 0 80, b.fld 80 16, b.fld 96 16, b.fld 128 128, b.fld 256 32, b.fld 288 32, b.fld 512 256, b.fld 768 256,
    fields 32 256 (b.fld 1024 8192)⟩

/-- The bytes of the fields. -/
def bytes (r : FloodRec) : Buf :=
  packBuf 1152 [(80, r.key), (16, r.cause), (16, r.stretch), (16, 0), (128, r.sqnorm), (32, r.nf), (32, r.ovf), (192, 0),
    (256, r.nonzero), (256, r.promo), (8192, packFields 32 r.uf)]

/-- Two records combined, each field as R237 states. -/
def join (r t : FloodRec) : FloodRec where
  key     := r.key
  cause   := r.cause ||| t.cause ||| normSat (r.sqnorm + t.sqnorm)
  stretch := Nat.max r.stretch t.stretch
  sqnorm  := satAdd 128 r.sqnorm t.sqnorm
  nf      := satAdd 32 r.nf t.nf
  ovf     := satAdd 32 r.ovf t.ovf
  nonzero := r.nonzero ||| t.nonzero
  promo   := r.promo ||| t.promo
  uf      := satSums r.uf t.uf

theorem key_of (b : Buf) : (of b).key = b.fld 0 80 := rfl

/-- Every field is within its width. -/
structure Fits (r : FloodRec) : Prop where
  key     : r.key < 2 ^ 80
  cause   : r.cause < 2 ^ 16
  stretch : r.stretch < 2 ^ 16
  sqnorm  : r.sqnorm < 2 ^ 128
  nf      : r.nf < 2 ^ 32
  ovf     : r.ovf < 2 ^ 32
  nonzero : r.nonzero < 2 ^ 256
  promo   : r.promo < 2 ^ 256
  length  : r.uf.length = 256
  uf      : ∀ x ∈ r.uf, x < 2 ^ 32

theorem fits_of (b : Buf) : (of b).Fits := by
  have hfld (lsb w : Nat) : b.fld lsb w < 2 ^ w := Nat.mod_lt _ (Nat.two_pow_pos w)
  exact ⟨hfld .., hfld .., hfld .., hfld .., hfld .., hfld .., hfld .., hfld .., length_fields .., fun x => lt_of_mem_fields⟩

theorem Fits.join {r t : FloodRec} (hr : r.Fits) (ht : t.Fits) : (r.join t).Fits where
  key     := hr.key
  cause   := Nat.or_lt_two_pow (Nat.or_lt_two_pow hr.cause ht.cause) (normSat_lt _)
  stretch := Nat.max_lt.mpr ⟨hr.stretch, ht.stretch⟩
  sqnorm  := satAdd_lt ..
  nf      := satAdd_lt ..
  ovf     := satAdd_lt ..
  nonzero := Nat.or_lt_two_pow hr.nonzero ht.nonzero
  promo   := Nat.or_lt_two_pow hr.promo ht.promo
  length  := by simp [FloodRec.join, satSums, hr.length, ht.length]
  uf      := fun x hx => by
    obtain ⟨i, hi, rfl⟩ := List.mem_iff_getElem.mp hx
    simp only [FloodRec.join, satSums, List.getElem_zipWith]
    exact satAdd_lt ..

/-- Fields within their widths read back from the bytes. -/
theorem of_bytes {r : FloodRec} (h : r.Fits) : of r.bytes = r := by
  have huf : fields 32 256 (bits (packFields 32 r.uf) 0 8192) = r.uf := by
    have hlt : packFields 32 r.uf < 2 ^ (32 * 256) := h.length ▸ packFields_lt 32 r.uf
    rw [bits_of_lt hlt, ← h.length, fields_packFields h.uf]
  simp [of, Buf.fld, bytes, packBuf_val, bits_packBits_head, bits_packBits_tail, huf, bits_of_lt h.key, bits_of_lt h.cause,
    bits_of_lt h.stretch, bits_of_lt h.sqnorm, bits_of_lt h.nf, bits_of_lt h.ovf, bits_of_lt h.nonzero, bits_of_lt h.promo]

theorem join_comm {r t : FloodRec} (hkey : r.key = t.key) : r.join t = t.join r := by
  ext1
  case key => exact hkey
  case cause => simp only [join, Nat.lor_comm r.cause, Nat.add_comm r.sqnorm]
  case stretch => exact Nat.max_comm ..
  case sqnorm | nf | ovf => exact satAdd_comm ..
  case nonzero | promo => exact Nat.lor_comm ..
  case uf => exact satSums_comm ..

theorem join_assoc (r t u : FloodRec) : (r.join t).join u = r.join (t.join u) := by
  ext1
  case key => rfl
  case cause =>
    have hleft := normSat_satAdd r.sqnorm t.sqnorm u.sqnorm
    have hright := normSat_satAdd t.sqnorm u.sqnorm r.sqnorm
    rw [Nat.add_comm (satAdd ..), Nat.add_comm (_ + _) r.sqnorm, ← Nat.add_assoc] at hright
    calc _ = r.cause ||| t.cause ||| u.cause ||| (normSat (r.sqnorm + t.sqnorm) ||| normSat (satAdd 128 r.sqnorm t.sqnorm + u.sqnorm)) := by
          simp only [join]; ac_rfl
      _ = r.cause ||| t.cause ||| u.cause ||| (normSat (t.sqnorm + u.sqnorm) ||| normSat (r.sqnorm + satAdd 128 t.sqnorm u.sqnorm)) := by
          rw [hleft, hright]
      _ = _ := by simp only [join]; ac_rfl
  case stretch => exact Nat.max_assoc ..
  case sqnorm | nf | ovf => exact satAdd_assoc ..
  case nonzero | promo => exact Nat.lor_assoc ..
  case uf => exact satSums_assoc ..

end FloodRec

/-! ### The combination of two records (R237, R241) -/

section Join

variable {a b : Buf}

theorem floodJoin_of_ne (h : a.fld 0 80 ≠ b.fld 0 80) : floodJoin a b = none := if_pos h

theorem floodJoin_of_eq (h : a.fld 0 80 = b.fld 0 80) :
    floodJoin a b = some ((FloodRec.of a).join (FloodRec.of b)).bytes := by
  rw [floodJoin, if_neg (not_not.mpr h), FloodRec.bytes, FloodRec.join, satSums, ← List.map_uncurry_zip_eq_zipWith]
  rfl

theorem FloodRec.of_bytes_join (a b : Buf) : of ((of a).join (of b)).bytes = (of a).join (of b) :=
  of_bytes ((fits_of a).join (fits_of b))

/-- A combined record keeps STEP and EPOCH. -/
theorem FloodRec.key_bytes_join (a b : Buf) : ((of a).join (of b)).bytes.fld 0 80 = a.fld 0 80 := by
  rw [← key_of, of_bytes_join, join, key_of]

end Join

/-- Settles O20: a combination is the join of the fields, which commutes and associates field by field. -/
theorem floodRecordsCombineInAnyOrder : Obligations.FloodRecordsCombineInAnyOrder := by
  refine ⟨fun a b => ?comm, fun a b => ⟨fun hnone heq => ?differ, floodJoin_of_ne⟩, fun a b c hab hbc => ?assoc⟩
  case comm =>
    by_cases h : a.fld 0 80 = b.fld 0 80
    · rw [floodJoin_of_eq h, floodJoin_of_eq h.symm, FloodRec.join_comm h]
    · rw [floodJoin_of_ne h, floodJoin_of_ne (Ne.symm h)]
  case differ => cases (floodJoin_of_eq heq).symm.trans hnone
  case assoc =>
    have hleft := (FloodRec.key_bytes_join a b).trans (hab.trans hbc)
    have hright := hab.trans (FloodRec.key_bytes_join b c).symm
    refine ⟨_, _, _, floodJoin_of_eq hab, floodJoin_of_eq hbc, floodJoin_of_eq hleft, ?_⟩
    rw [floodJoin_of_eq hright, FloodRec.of_bytes_join, FloodRec.of_bytes_join, FloodRec.join_assoc]

end Sys2Proof.Machine
end

section
/-! SUPPORT. Flits that arrive on a near port and blocks received over it, for `Obligations.FlitsReceivedComplete` (O55), and the
slots in which a port sends, for `Obligations.LinkSlotsComplete` (O56). -/

namespace Sys2Proof.Machine

/-! ### A port in UP -/

/-- The last of two writes of one index stands, in any set, where the first is not the default. -/
theorem tset_tset_of_ne {α : Type} [DecidableEq α] {d x : α} (hx : x ≠ d) (t : Tab α) (k : Nat) (y : α) :
    tset d (tset d t k x) k y = tset d t k y := by
  induction t with
  | nil => simp [tset, hx]
  | cons c t ih =>
    obtain ⟨i, v⟩ := c
    rcases lt_trichotomy k i with hk | rfl | hk
    · simp [tset, hk, hx]
    · simp [tset, hx]
    · simp [tset, hk.not_gt, hk.ne', ih]

section Port

variable {s : State} {p : Nat}

/-- A port in UP is not the default, so its write needs no canonical form. -/
theorem NearPort.ne_reset_of_up {m : NearPort} (h : m.state = .up) : m ≠ NearPort.reset := fun e =>
  absurd (h.symm.trans (congrArg NearPort.state e)) (by decide)

theorem State.port_putPort_of_up {m : NearPort} (h : m.state = .up) : (s.putPort p m).port p = m :=
  (tget_tset_of_ne (NearPort.ne_reset_of_up h) s.near p p).trans (if_pos rfl)

theorem State.putPort_putPort_of_up {m : NearPort} (h : m.state = .up) (y : NearPort) :
    (s.putPort p m).putPort p y = s.putPort p y := by
  simp only [State.putPort, tset_tset_of_ne (NearPort.ne_reset_of_up h)]

theorem State.onPort_congr {f g : NearPort → NearPort} (h : f (s.port p) = g (s.port p)) : s.onPort p f = s.onPort p g :=
  congrArg (s.putPort p) h

/-- Two changes of a port are one, where the first leaves it in UP. -/
theorem State.onPort_onPort_of_up {g : NearPort → NearPort} (h : (g (s.port p)).state = .up) (f : NearPort → NearPort) :
    (s.onPort p g).onPort p f = s.onPort p (f ∘ g) := by
  simp only [State.onPort, State.port_putPort_of_up h, State.putPort_putPort_of_up h, Function.comp]

end Port

/-! ### Codewords and lost flits (R264, R269) -/

section Arrival

variable {s : State} {p type : Nat} {f : Buf} {lanes : List Nat} {act : State → State}

theorem State.port_codewords (hup : (s.port p).state = .up) :
    (s.codewords p lanes).port p = { s.port p with
      fecUncorr := satAdd 32 (s.port p).fecUncorr lanes.length
      fecRun := lanes.foldl (fun t k => tset 0 t k (tget 0 (s.port p).fecRun k + 1)) [] } :=
  State.port_putPort_of_up hup

/-- The counts of a flit lost on a port: its own, and its codewords'. -/
theorem State.codewords_loseFlit (hup : (s.port p).state = .up) : (s.loseFlit p).codewords p lanes =
    s.onPort p fun n => { n with
      lost := satAdd 32 n.lost 1, fecUncorr := satAdd 32 n.fecUncorr lanes.length
      fecRun := lanes.foldl (fun t k => tset 0 t k (tget 0 n.fecRun k + 1)) [] } :=
  State.onPort_onPort_of_up hup _

theorem State.flitIn_good (hup : (s.port p).state = .up) (hgood : flitGood f = true) (htype : flitType f = type) :
    s.flitIn p type f act = act (s.codewords p []) := by
  simp [State.flitIn, hup, hgood, htype]

theorem State.flitIn_bad (hup : (s.port p).state = .up) (hbad : flitGood f = false) :
    s.flitIn p type f act = (s.loseFlit p).codewords p [] := by
  simp [State.flitIn, hup, hbad]

theorem State.flitLost_judged (hup : (s.port p).state = .up) (h : lanes ≠ [] ∨ flitGood f = false) :
    s.flitLost p lanes f =
      let u := (s.loseFlit p).codewords p lanes
      if (u.port p).fecBroken then u.linkDown p else u :=
  if_neg (by obtain h | h := h <;> simp [hup, h])

/-- No lane is in a run of uncorrectable codewords after a flit that had none (R264). -/
theorem NearPort.fecBroken_of_noRun {n : NearPort} (h : n.fecRun = []) : n.fecBroken = false := by
  simp [NearPort.fecBroken, h, tget]

/-- A flit lost for its CRC or its encoding takes no port from UP. -/
theorem State.flitLost_bad (hup : (s.port p).state = .up) (hbad : flitGood f = false) :
    s.flitLost p [] f = (s.loseFlit p).codewords p [] := by
  have hrun : (((s.loseFlit p).codewords p []).port p).fecRun = [] := by
    simp [State.codewords_loseFlit hup, State.port_putPort_of_up, hup]
  simp [State.flitLost_judged hup (Or.inr hbad), NearPort.fecBroken_of_noRun hrun]

/-! ### SCHED and SKIP flits (R273, R274, R291) -/

section Planned

variable {j : Job} {k : Nat} {x : Bind}

theorem State.boundNow_bound (hjob : s.job = some j) (hepoch : j.oldEpoch (flitEpoch f) = false)
    (hbound : (s.port p).bound s.jt f = some k) : s.boundNow p f = some k := by
  simp [State.boundNow, hjob, hepoch, hbound]

theorem State.boundNow_stray (hjob : s.job = some j) (h : j.oldEpoch (flitEpoch f) = true ∨ (s.port p).bound s.jt f = none) :
    s.boundNow p f = none := by
  obtain h | h := h <;> simp [State.boundNow, hjob, h]

theorem State.boundNow_noJob (hjob : s.job = none) : s.boundNow p f = none := by simp [State.boundNow, hjob]

/-- The codewords of a flit change no binding. -/
theorem State.boundNow_codewords (hup : (s.port p).state = .up) : (s.codewords p lanes).boundNow p f = s.boundNow p f := by
  simp only [State.boundNow, State.port_codewords hup]
  rfl

section Good

variable (hup : (s.port p).state = .up) (hgood : flitGood f = true)
include hup hgood

theorem State.schedRx_bound (htype : flitType f = 1) (hjob : s.job = some j) (hbound : s.boundNow p f = some k) :
    s.schedRx p f = (s.codewords p []).acceptFlit j p k f := by
  have hz : (s.codewords p []).job = some j := hjob
  simp only [State.schedRx, State.flitIn_good hup hgood htype, State.boundNow_codewords hup, hbound, hz]

theorem State.schedRx_stray (htype : flitType f = 1) (hbound : s.boundNow p f = none) :
    s.schedRx p f = (s.codewords p []).strayFlit p f := by
  simp only [State.schedRx, State.flitIn_good hup hgood htype, State.boundNow_codewords hup, hbound]

/-- A SKIP flit completes its block, once. -/
theorem State.skipRx_bound (htype : flitType f = 5) (hjob : s.job = some j) (hbound : s.boundNow p f = some k)
    (hbind : (s.port p).binds[k]? = some x) :
    s.skipRx p f =
      let z := s.codewords p []
      if x.done then z
      else
        let e := imgEntry j.image x.entry
        let u := z.bindDone p k
        let u := if x.step = j.step then u.putEnt x.entry .done else u
        if e.sigEn then u.signal e.sigSo x.step true else u := by
  have hz : (s.codewords p []).job = some j := hjob
  simp only [State.skipRx, State.flitIn_good hup hgood htype, State.boundNow_codewords hup, hbound, hz,
    State.port_codewords hup, hbind]

theorem State.skipRx_stray (htype : flitType f = 5) (hbound : s.boundNow p f = none) :
    s.skipRx p f = (s.codewords p []).strayFlit p f := by
  simp only [State.skipRx, State.flitIn_good hup hgood htype, State.boundNow_codewords hup, hbound]

end Good

end Planned

/-! ### OPEN flits (R281 to R283) -/

/-- A port has received a good OPEN flit: the credit that its peer used is gone. -/
def State.creditUsed (s : State) (p : Nat) (f : Buf) : State :=
  let lane := 2 * flitVc f + flitWrap f
  (s.codewords p []).onPort p fun n => { n with lent := tset 0 n.lent lane (tget 0 n.lent lane - 1) }

/-- The hop that an OPEN flit goes on to: none where it has arrived, and none with no job (log entry 86). -/
def State.openHop (s : State) (p : Nat) (f : Buf) : Option (Nat × Nat) :=
  match s.job with
  | some j => nextHop j.image f p (flitWrap f)
  | none => none

theorem State.openHop_of_job {j : Job} (h : s.job = some j) : s.openHop p f = nextHop j.image f p (flitWrap f) := by
  rw [State.openHop, h]

theorem State.openHop_eq_none (h : ∀ j, s.job = some j → nextHop j.image f p (flitWrap f) = none) : s.openHop p f = none := by
  unfold State.openHop
  split
  case h_1 j hjob => exact h j hjob
  case h_2 => rfl

theorem State.port_creditUsed (hup : (s.port p).state = .up) :
    (s.creditUsed p f).port p = { (s.codewords p []).port p with
      lent := tset 0 ((s.codewords p []).port p).lent (2 * flitVc f + flitWrap f)
        (tget 0 ((s.codewords p []).port p).lent (2 * flitVc f + flitWrap f) - 1) } := by
  have hz : ((s.codewords p []).port p).state = .up := by rw [State.port_codewords hup]; exact hup
  exact State.port_putPort_of_up hz

theorem State.openHeld_creditUsed (hup : (s.port p).state = .up) : ((s.creditUsed p f).port p).openHeld = (s.port p).openHeld := by
  rw [State.port_creditUsed hup, State.port_codewords hup]
  rfl

theorem State.rxMsgs_creditUsed (hup : (s.port p).state = .up) : ((s.creditUsed p f).port p).rxMsgs = (s.port p).rxMsgs := by
  rw [State.port_creditUsed hup, State.port_codewords hup]

/-- A good OPEN flit is discarded where the open buffer is full, goes on to its next hop, or is delivered. -/
theorem State.openFlitIn_good (hup : (s.port p).state = .up) (hgood : flitGood f = true) (htype : flitType f = 2) :
    s.openFlitIn p f =
      let u := s.creditUsed p f
      if 1024 ≤ (s.port p).openHeld then u
      else
        let lane := 2 * flitVc f + flitWrap f
        match s.openHop p f with
        | some (q, w) =>
          let out := 2 * flitVc f + w
          let g := sealFlit ⟨256, setBits f.val 6 1 w⟩
          (u.onPort p fun n => { n with rxHeld := tset 0 n.rxHeld lane (tget 0 n.rxHeld lane + 1) }).onPort q fun n =>
            ({ n with txq := tset [] n.txq out (tget [] n.txq out ++ [(8 * p + lane, g)]) } : NearPort).settle s.now
        | none => u.onPort p fun n => n.deliverOpen f := by
  rw [State.openFlitIn, State.flitIn_good hup hgood htype, ← State.openHeld_creditUsed hup]
  rfl

/-- The next flit of its message: it stays in the open buffer on VC 0 and VC 2. -/
theorem NearPort.deliverOpen_inOrder {n : NearPort} (h : flitIdx f = tget 0 n.rxMsgs (64 * flitVc f + flitMsg f)) :
    n.deliverOpen f =
      let lane := 2 * flitVc f + flitWrap f
      let m := { n with rxMsgs := tset 0 n.rxMsgs (64 * flitVc f + flitMsg f) (if flitLast f then 0 else flitIdx f + 1) }
      if flitVc f % 2 = 1 then m
      else { m with inbox := n.inbox ++ [(flitVc f, f)], rxHeld := tset 0 n.rxHeld lane (tget 0 n.rxHeld lane + 1) } := by
  simp only [NearPort.deliverOpen, if_pos h]
  exact if_neg (not_not.mpr h)

end Arrival

/-! ### Blocks received (R239, R270, R273, R279, R287, R290) -/

section Block

variable {s : State} {p block k : Nat} {x : Bind} {j : Job}

/-- The records of a stored block, placed where a re-layout moves its epoch (R290). -/
def State.placeMoved (s : State) (d : Blk) (data : Buf) : State :=
  match s.job.bind fun j => j.movesTo d.epoch with
  | some img => if d.rxOp = 0 then State.placeRecords img data (d.len / 96 + 1) 0 s else s
  | none => s

theorem State.placeMoved_of_ne {d : Blk} {data : Buf} (h : d.rxOp ≠ 0) : s.placeMoved d data = s := by
  unfold State.placeMoved
  split
  · exact if_neg h
  · rfl

section Complete

variable (hfind : (s.port p).binds.findIdx? (fun x => (Blk.ofBuf x.desc).block = block && x.got.length = x.total && !x.done) = some k)
  (hbind : (s.port p).binds[k]? = some x)
include hfind hbind

theorem State.blockComplete_bound :
    s.blockComplete p block =
      let d := Blk.ofBuf x.desc
      let u := s.bindDone p k
      let u := if d.rxOp = 3 then u.floodIn ⟨d.len, x.data⟩ else if d.space = 2 then u.floodResult ⟨d.len, x.data⟩ else u
      let w := u.placeMoved d ⟨d.len, x.data⟩
      if d.rxOp = 5 then
        let r := w.blkRead { d with addr := d.check } 0 32
        if r.1 ≠ x.data % 2 ^ 256 then r.2.fatal Ev.gatherVersion p [(24, block)] else r.2.completeEntry x.entry x.step
      else w.completeEntry x.entry x.step := by
  simp only [State.blockComplete, hfind, hbind]
  rfl

theorem State.blockComplete_flood (hop : (Blk.ofBuf x.desc).rxOp = 3) :
    s.blockComplete p block =
      ((s.bindDone p k).floodIn ⟨(Blk.ofBuf x.desc).len, x.data⟩).completeEntry x.entry x.step := by
  rw [State.blockComplete_bound hfind hbind]
  simp [hop, State.placeMoved_of_ne]

/-- A block that is no hop of the flood and no gather: the result of the flood, or data whose records may take new places. -/
theorem State.blockComplete_stored (hflood : (Blk.ofBuf x.desc).rxOp ≠ 3) (hgather : (Blk.ofBuf x.desc).rxOp ≠ 5) :
    s.blockComplete p block =
      let d := Blk.ofBuf x.desc
      let u := s.bindDone p k
      ((if d.space = 2 then u.floodResult ⟨d.len, x.data⟩ else u).placeMoved d ⟨d.len, x.data⟩).completeEntry x.entry x.step := by
  simp only [State.blockComplete_bound hfind hbind, if_neg hflood, if_neg hgather]

/-- A gather compares the version tag of its block with the stored one (R287). -/
theorem State.blockComplete_gather (hop : (Blk.ofBuf x.desc).rxOp = 5) :
    s.blockComplete p block =
      let d := Blk.ofBuf x.desc
      let u := s.bindDone p k
      let r := (if d.space = 2 then u.floodResult ⟨d.len, x.data⟩ else u).blkRead { d with addr := d.check } 0 32
      if r.1 = x.data % 2 ^ 256 then r.2.completeEntry x.entry x.step else r.2.fatal Ev.gatherVersion p [(24, block)] := by
  rw [State.blockComplete_bound hfind hbind]
  simp [hop, State.placeMoved_of_ne]

end Complete

section Ended

variable (hjob : s.job = some j)
  (hfind : (s.port p).binds.findIdx? (fun x => (Blk.ofBuf x.desc).block = block && x.got.length ≠ x.total && !x.done) = some k)
  (hbind : (s.port p).binds[k]? = some x) (hdue : (x.fin : Int) ≤ s.jtInt)
include hjob hfind hbind hdue

theorem State.holdEnd_flood (hflood : (Blk.ofBuf x.desc).rxOp = 3 ∨ (Blk.ofBuf x.desc).space = 2) :
    s.holdEnd p block =
      ((s.unbind p k).raise Ev.linkBlockIncomplete p [(24, block)] x.step).fatal Ev.floodFault p [(24, block)] := by
  simp only [State.holdEnd, hjob, hfind, hbind]
  exact (if_neg (not_lt.mpr hdue)).trans (if_pos (by simpa using hflood))

theorem State.holdEnd_misses (hop : (Blk.ofBuf x.desc).rxOp ≠ 3) (hspace : (Blk.ofBuf x.desc).space ≠ 2) :
    s.holdEnd p block =
      let u := s.unbind p k
      let w := if x.missing = [] then u else u.raise Ev.linkResendFault p [(24, block)] x.step
      (w.raise Ev.linkBlockIncomplete p [(24, block)] x.step).missEntry x.entry := by
  simp only [State.holdEnd, hjob, hfind, hbind]
  refine (if_neg (not_lt.mpr hdue)).trans ((if_neg (by simp [hop, hspace])).trans ?_)
  rw [ite_not]

end Ended

end Block

/-! ### Link slots and the open queue (R266, R268, R281, R284) -/

section Slots

variable {s : State} {p : Nat}

theorem State.linkFrame_starts (hup : (s.port p).state = .up) (hvalid : s.htValid = true) (hframe : s.htNow % 4096 = 0)
    (hnew : (s.port p).frames = 0 ∨ (s.port p).frameHt ≠ s.htNow) (fixed : Nat) :
    s.linkFrame p fixed = s.putPort p { s.port p with
      frames := (s.port p).frames + 1, frameHt := s.htNow, fecCorr := satAdd 32 (s.port p).fecCorr fixed } :=
  if_neg (by obtain h | h := hnew <;> simp [hup, hvalid, hframe, h])

theorem State.linkFrame_between (h : s.htNow % 4096 ≠ 0 ∨ (s.port p).frames ≠ 0 ∧ (s.port p).frameHt = s.htNow) (fixed : Nat) :
    s.linkFrame p fixed = s :=
  if_pos (by obtain h | ⟨hsome, hsame⟩ := h <;> simp [*])

theorem State.controlSlot_between (h : linkSlotAt (s.port p).width s.htNow = false) : s.controlSlot p = s :=
  if_pos (by simp [h])

theorem State.controlSlot_sends (hup : (s.port p).state = .up) (hslot : linkSlotAt (s.port p).width s.htNow = true)
    (hnew : (s.port p).ctlHt ≠ s.htNow + 1) :
    s.controlSlot p =
      let n := s.port p
      (s.emit (.flit p (mkFlit 3 false false 0 0 240 0
        (ctrlPayload ((List.range 8).map (s.toLend p)) n.nextAck.1 n.ackUpTo n.naks n.lanesOk) 0))).putPort p
        { n with
          lent := (List.range 8).foldl (fun l k => tset 0 l k (tget 0 l k + s.toLend p k)) n.lent
          ackBlock := n.nextAck.1, ackFidx := n.nextAck.2, acks := n.acks.tail, ctlHt := s.htNow + 1 } :=
  if_neg (by simp [hup, hslot, hnew])

theorem State.htNow_putPort (m : NearPort) : (s.putPort p m).htNow = s.htNow := rfl

section Queue

variable {v w from_ : Nat} {f : Buf} {rest : List (Nat × Buf)} {m : NearPort} (hsettle : (s.port p).settle s.now = m)
  (hqueue : tget [] m.txq (2 * v + w) = (from_, f) :: rest)
include hsettle hqueue

/-- A queued flit that may not go now stays queued. -/
theorem State.openSend_waits
    (hwait : m.state ≠ .up ∨ tget 0 m.credits (2 * v + w) = 0 ∨ (s.putPort p m).windowOpen p v = false ∨
      dataSlot m.width (slotFrom m.width s.htNow) = false ∨ slotFrom m.width s.htNow < m.openSlot) :
    s.openSend p v w = s.putPort p m := by
  unfold State.openSend
  simp only [hsettle, hqueue, State.htNow_putPort]
  exact if_pos (by simpa [or_assoc] using hwait)

/-- The oldest flit of a VC-lane goes out, and a forwarded one frees its place in the open buffer that it came from. -/
theorem State.openSend_sends (hup : m.state = .up) (hcredit : tget 0 m.credits (2 * v + w) ≠ 0)
    (hwindow : (s.putPort p m).windowOpen p v = true) (hslot : dataSlot m.width (slotFrom m.width s.htNow) = true)
    (hfree : m.openSlot ≤ slotFrom m.width s.htNow) :
    s.openSend p v w =
      let lane := 2 * v + w
      let slot := slotFrom m.width s.htNow
      let u := ((s.putPort p m).emit (.flit p (sealFlit f))).putPort p ((({ m with
        txq := tset [] m.txq lane rest, credits := tset 0 m.credits lane (tget 0 m.credits lane - 1), openSlot := slot + 1
        txGuest := if v = 1 then m.txGuest + 1 else m.txGuest } : NearPort).refill).settle s.now)
      if from_ < 64 then
        u.onPort (from_ / 8) fun x => { x with rxHeld := tset 0 x.rxHeld (from_ % 8) (tget 0 x.rxHeld (from_ % 8) - 1) }
      else u := by
  unfold State.openSend
  simp only [hsettle, hqueue, State.htNow_putPort]
  exact if_neg (by simpa [hup, hcredit, hwindow] using ⟨hslot, hfree⟩)

end Queue

end Slots

/-- Settles O55: a flit that arrives is judged once, and each row's effect follows from what its port and its binding hold. -/
theorem flitsReceivedComplete : Obligations.FlitsReceivedComplete := by
  intro s at_ p f t n
  refine ⟨fun hup hgood => ⟨?sched, ?schedStray, ?schedNoJob, ?skip, ?skipStray, ?skipNoJob, ?ctrl, ?open_⟩, ?bad, ?lost, ?complete,
    ?hold⟩
  case sched =>
    exact fun k j htype hjob hepoch hbound => congrArg Host.Outcome.next
      (State.schedRx_bound (s := t) hup hgood htype hjob (State.boundNow_bound hjob hepoch hbound))
  case schedStray =>
    exact fun j htype hjob h => congrArg Host.Outcome.next
      (State.schedRx_stray (s := t) hup hgood htype (State.boundNow_stray hjob h))
  case schedNoJob =>
    exact fun htype hjob => congrArg Host.Outcome.next (State.schedRx_stray (s := t) hup hgood htype (State.boundNow_noJob hjob))
  case skip =>
    intro k j x htype hjob hepoch hbound hbind
    have hskip := State.skipRx_bound (s := t) hup hgood htype hjob (State.boundNow_bound hjob hepoch hbound) hbind
    exact ⟨fun hdone => congrArg Host.Outcome.next (hskip.trans (if_pos hdone)),
      fun hopen => congrArg Host.Outcome.next (hskip.trans (if_neg (Bool.eq_false_iff.mp hopen)))⟩
  case skipStray =>
    exact fun j htype hjob h => congrArg Host.Outcome.next
      (State.skipRx_stray (s := t) hup hgood htype (State.boundNow_stray hjob h))
  case skipNoJob =>
    exact fun htype hjob => congrArg Host.Outcome.next (State.skipRx_stray (s := t) hup hgood htype (State.boundNow_noJob hjob))
  case ctrl => exact fun htype => congrArg Host.Outcome.next (State.flitIn_good (s := t) hup hgood htype)
  case open_ =>
    intro htype lane u
    have hopen := State.openFlitIn_good (s := t) hup hgood htype
    refine ⟨fun hfull => congrArg Host.Outcome.next (hopen.trans (if_pos hfull)), fun j q w hroom hjob hhop => ?forward,
      fun hroom hnone => ?arrive⟩
    case forward =>
      have hto : t.openHop p f = some (q, w) := (State.openHop_of_job hjob).trans hhop
      rw [hto] at hopen
      exact congrArg Host.Outcome.next (hopen.trans (if_neg (Nat.not_le.mpr hroom)))
    case arrive =>
      rw [State.openHop_eq_none (s := t) hnone] at hopen
      replace hopen := hopen.trans (if_neg (Nat.not_le.mpr hroom))
      refine ⟨fun _ => congrArg Host.Outcome.next hopen, fun hnext => congrArg Host.Outcome.next (hopen.trans ?_)⟩
      exact State.onPort_congr (NearPort.deliverOpen_inOrder (by rw [State.rxMsgs_creditUsed (s := t) hup]; exact hnext))
  case bad =>
    intro hup hbad c hc
    have hlost := State.codewords_loseFlit (s := t) (lanes := []) hup
    obtain rfl | rfl | rfl | rfl | rfl := hc
    iterate 4 exact congrArg Host.Outcome.next ((State.flitIn_bad (s := t) hup hbad).trans hlost)
    exact congrArg Host.Outcome.next ((State.flitLost_bad (s := t) hup hbad).trans hlost)
  case lost =>
    intro l hup hl
    have hlost := State.flitLost_judged (s := t) (f := f) hup (Or.inl hl)
    rw [State.codewords_loseFlit (s := t) hup] at hlost
    exact congrArg Host.Outcome.next hlost
  case complete =>
    intro block k x hfind hbind d z
    refine ⟨fun hop => congrArg Host.Outcome.next (State.blockComplete_flood (s := t) hfind hbind hop),
      fun hflood hgather => congrArg Host.Outcome.next (State.blockComplete_stored (s := t) hfind hbind hflood hgather),
      fun tag w hop hread => congrArg Host.Outcome.next ?_⟩
    obtain ⟨rfl, rfl⟩ := Prod.ext_iff.mp hread
    exact State.blockComplete_gather (s := t) hfind hbind hop
  case hold =>
    intro block k x j hjob hfind hbind hdue
    exact ⟨fun hflood => congrArg Host.Outcome.next (State.holdEnd_flood (s := t) hjob hfind hbind hdue hflood),
      fun hop hspace => congrArg Host.Outcome.next (State.holdEnd_misses (s := t) hjob hfind hbind hdue hop hspace)⟩

/-- Settles O56: each row finds its slot, its credits and its window as it asks, and otherwise leaves what it found. -/
theorem linkSlotsComplete : Obligations.LinkSlotsComplete := by
  intro s at_ p t n
  refine ⟨fun fixed hup hvalid hframe hnew =>
      congrArg Host.Outcome.next (State.linkFrame_starts (s := t) hup hvalid hframe hnew fixed),
    fun fixed _ h => congrArg Host.Outcome.next (State.linkFrame_between (s := t) h fixed),
    fun _ h => congrArg Host.Outcome.next (State.controlSlot_between (s := t) h),
    fun hup hslot hnew => congrArg Host.Outcome.next (State.controlSlot_sends (s := t) hup hslot hnew),
    fun v w from_ f rest hqueue =>
      ⟨fun hwait => congrArg Host.Outcome.next (State.openSend_waits (s := t) rfl hqueue hwait),
        fun hup hcredit hwindow hslot hfree => congrArg Host.Outcome.next
          (State.openSend_sends (s := t) rfl hqueue hup hcredit hwindow hslot hfree)⟩⟩

end Sys2Proof.Machine
end

section
/-! SUPPORT. The BULK datagram that completes the stream of a waiting JOB_RESTORE, for `Obligations.AcrixDatagramsComplete` (O9):
where the statement agrees with the row, and a state at which the two differ. -/

namespace Sys2Proof.Machine

/-! ### A BULK datagram (R355) -/

/-- The datagram's bytes in the stream of its session; one that names another stream starts anew. -/
def State.bulkAdded (u : State) (g : Got) : State := u.onSess g.k fun y =>
  let y := if (match y.inStream with | (n, _) :: _ => decide (n / 2 ^ 32 = g.h.round) | [] => true) then y
    else { y with inStream := [], inLast := none }
  { y with
    inStream := tset Buf.empty y.inStream (g.h.round * 2 ^ 32 + g.h.chunk) g.text
    inLast := if g.h.last then some (g.h.round * 2 ^ 32 + g.h.chunk) else y.inLast }

/-- The same, with a bootstrap pull that it completes (R319). -/
def State.bulkTaken (u : State) (g : Got) : State :=
  let w := u.bulkAdded g
  match (w.sess g.k).stream, w.job with
  | some st, some j => if (w.sess g.k).peer < 5 then w.pullArrived j.image g.k g.h.round st else w
  | _, _ => w

section Taken

variable {s u : State} {p r : Nat} {dg : Buf} {g : Got}

theorem State.bulkRx_fresh (hrx : s.rxDatagram p r dg (· = 8) = (some g, u)) (hfresh : g.fresh = true) :
    s.bulkRx p r dg = u.bulkTaken g := by
  simp only [State.bulkRx, hrx]
  exact if_neg (by simp [hfresh])

theorem State.pullArrived_pcie (s : State) (b : Buf) (k f : Nat) (st : Buf) : (s.pullArrived b k f st).pcie = s.pcie := by
  unfold State.pullArrived
  extract_lets u
  split
  case h_1 => rfl
  case h_2 => split <;> rfl

theorem State.bulkTaken_pcie (u : State) (g : Got) : (u.bulkTaken g).pcie = u.pcie := by
  unfold State.bulkTaken
  extract_lets w
  split
  · split
    · exact State.pullArrived_pcie ..
    · rfl
  · rfl

/-- A waiting JOB_RESTORE is read off the mailboxes. -/
theorem State.pullCmd_congr {s u : State} (h : s.pcie = u.pcie) (id : Nat) : s.pullCmd id = u.pullCmd id := by
  simp only [State.pullCmd, State.mbox, h]

/-- The clause of O9 for BULK holds wherever no JOB_RESTORE waits for records. -/
theorem bulkRx_of_noRestore {at_ : Nat} (hrx : (s.tick at_).rxDatagram p r dg (· = 8) = (some g, u)) (hfresh : g.fresh = true)
    (hnone : ∀ id, u.pullCmd id = none) : exec (.bulkRx at_ p r dg) s = .next (u.bulkTaken g) := by
  refine congrArg Host.Outcome.next (?_ : (s.tick at_).bulkIn p r dg = _)
  have hidle : ∀ id, (u.bulkTaken g).pullCmd id = none := fun id =>
    (State.pullCmd_congr (State.bulkTaken_pcie u g) id).trans (hnone id)
  simp only [State.bulkIn, State.bulkRx_fresh hrx hfresh, hidle, Option.isSome_none, Bool.and_false, List.find?_eq_none.mpr fun _ _ => Bool.false_ne_true]

end Taken

/-! ### A JOB_RESTORE that waits for records (R408) -/

/-- JOB_RESTORE with SOURCE 2 from bulk session 5. -/
def restoreEntry : Buf := packBuf 256 [(576, 0x0403), (2, 2), (30, 0), (16, 5)]

/-- A stopped job whose restore runs from mailbox 0 and has asked an OPEN session to storage endpoint 0 for its records. -/
def restoreWaits : State :=
  { State.reset with
    job := some { poolJob with phase := .stopped }
    acx := { Acrix.reset with
      sess := [(0, { Session.reset with used := true, localId := 5, state := .open_, bulk := true, peer := 8 })] }
    pcie := { Pcie.reset with
      running := some 0
      mboxes := [(0, { Mailbox.reset with
        state := .open_, cmds := [⟨restoreEntry, .running, 0, .empty, 0, 0, .empty, .empty⟩] })] } }

/-- The header of the only datagram of a stream. -/
def bulkHeader : AcxHdr :=
  { type := 8, retx := false, route := 0, last := true, echo := false, session := 5, epoch := 0, seq := 0, txCount := 0, ackBase := 0
    sack := 0, round := 0, frag := 0, site := 0, plen := 1, chunk := 0, tsVal := 0, tsEcr := 0 }

/-- That datagram, sealed under the session's key (R337); its one byte is no record. -/
def bulkDatagram : Buf :=
  bulkHeader.bytes.app (gcmSeal (keyOf Session.reset.keyRx) (acxNonce Session.reset.keyRx 0 0) bulkHeader.bytes ⟨1, 1⟩)

/-- Reception takes the datagram in and leaves the restore running. -/
theorem bulkDatagram_arrives : ∃ g u, (restoreWaits.tick 0).rxDatagram 0 0 bulkDatagram (· = 8) = (some g, u) ∧ g.fresh = true ∧
    u.pcie.running = some 0 := by
  have hfresh : ((restoreWaits.tick 0).rxDatagram 0 0 bulkDatagram (· = 8)).1.any (·.fresh) = true := by decide +kernel
  have hruns : ((restoreWaits.tick 0).rxDatagram 0 0 bulkDatagram (· = 8)).2.pcie.running = some 0 := by decide +kernel
  generalize (restoreWaits.tick 0).rxDatagram 0 0 bulkDatagram (· = 8) = a at hfresh hruns
  obtain ⟨g, hg, hnew⟩ := (Option.any_eq_true _ _).mp hfresh
  exact ⟨g, a.2, Prod.ext hg rfl, hnew, hruns⟩

/-- The mailbox whose command runs after a row, where the row goes on. -/
def commandRuns : Res → Option (Option Nat)
  | .next u => some u.pcie.running
  | _ => none

/-- The row completes the restore, and the management processor is free. -/
theorem commandRuns_bulkRx : commandRuns (exec (.bulkRx 0 0 0 bulkDatagram) restoreWaits) = some none := by decide +kernel

/-- Refutes O9, in its clause for BULK: at `restoreWaits` the datagram completes the stream, and the row goes on to restore from
it and completes the command (R408), where the statement ends with the stream. No premise of the clause says that no JOB_RESTORE
waits; under that premise the clause holds (`bulkRx_of_noRestore`). -/
theorem not_acrixDatagramsComplete : ¬ Obligations.AcrixDatagramsComplete := by
  intro h
  obtain ⟨g, u, hrx, hfresh, hwaits⟩ := bulkDatagram_arrives
  obtain ⟨-, -, -, -, -, -, -, -, hbulk, -⟩ := h restoreWaits 0 0 0 bulkDatagram g u
  have htaken : exec (.bulkRx 0 0 0 bulkDatagram) restoreWaits = .next (u.bulkTaken g) := hbulk hrx hfresh
  have hruns : some none = some (u.bulkTaken g).pcie.running := commandRuns_bulkRx.symm.trans (congrArg commandRuns htaken)
  rw [State.bulkTaken_pcie, hwaits] at hruns
  exact absurd hruns (by decide)

end Sys2Proof.Machine
end

section
/-! SUPPORT. Steps of the queue, for `Obligations.StepRunsFrontCommand` (O1) and `Obligations.EveryCommandGoesOn` (O2). -/

namespace Sys2Proof.Machine

/-- Settles O1: the queue's front is what a step executes. -/
theorem stepRunsFrontCommand : Obligations.StepRunsFrontCommand :=
  ⟨fun _ _ _ h => step_front h, fun _ h => step_empty h⟩

/-- Settles O2, an instruction at a time: the meaning of each row is a change of the state that always goes on. -/
theorem everyCommandGoesOn : Obligations.EveryCommandGoesOn := by
  intro c s
  cases c <;> exact ⟨_, rfl⟩

end Sys2Proof.Machine
end

section
/-! SUPPORT. Commands that a mailbox's turn, role or buffers turn away, for `Obligations.CommandsTurnedAway` (O16). -/

namespace Sys2Proof.Machine

/-! ### The turns away, in the order in which `command` tries them (R388, R389, R391, R431) -/

section Turns

variable {s : State} {op mb : Nat} {e : Buf} {b0 b1 : Option Buf} {allow : State → Call → Bool} {body : State → Call → State}

/-- What `posts` says of the mailbox. -/
theorem State.posts_iff : s.posts op mb e = true ↔ (∃ x, s.startable mb = some x ∧ x.entry = e) ∧ e.fld 0 16 = op ∧ s.turn mb = true ∧
    (s.rilsetiReady || (mb = 16 && op = 0x0903 && s.aon.phase = .recovery)) = true := by
  unfold State.posts
  cases s.startable mb <;> simp [and_assoc]

/-- A command that is posted begins; its role and its buffers are then looked at. -/
theorem State.command_posted (h : s.posts op mb e = true) : s.command op mb b0 b1 allow body =
    (if !allow (s.begun mb) ⟨mb, e, b0, b1⟩ then (s.begun mb).finish mb 4
     else if mb = 16 && needsBuffer e then (s.begun mb).finish mb 7
     else if Call.bufStatus ⟨mb, e, b0, b1⟩ ≠ 0 then (s.begun mb).finish mb (Call.bufStatus ⟨mb, e, b0, b1⟩)
     else body (if wakesHold.contains op then (s.begun mb).leaveHold else s.begun mb) ⟨mb, e, b0, b1⟩) := by
  obtain ⟨⟨x, hx, rfl⟩, hop, hturn, hready⟩ := State.posts_iff.mp h
  have hgo : ¬ (decide (x.entry.fld 0 16 ≠ op) || !s.turn mb ||
      !(s.rilsetiReady || (mb = 16 && op = 0x0903 && s.aon.phase = .recovery))) = true := by simp [hop, hturn, hready]
  simp only [State.command, hx]
  exact if_neg hgo

/-- A CMD frame carries no buffer, so a command that needs one ends with BUF_SHORT (R431). -/
theorem State.command_noBuffer (h : s.posts op mb e = true) (ha : allow (s.begun mb) ⟨mb, e, b0, b1⟩ = true) (hmb : mb = 16)
    (hneeds : needsBuffer e = true) : s.command op mb b0 b1 allow body = (s.begun mb).finish mb 7 := by
  rw [State.command_posted h, if_neg (by simp [ha]), if_pos (by simp [hmb, hneeds])]

/-- A bad buffer ends the command with the buffer's status (R391). -/
theorem State.command_badBuffer (h : s.posts op mb e = true) (ha : allow (s.begun mb) ⟨mb, e, b0, b1⟩ = true)
    (hchain : ¬ (mb = 16 ∧ needsBuffer e = true)) (hbad : Call.bufStatus ⟨mb, e, b0, b1⟩ ≠ 0) :
    s.command op mb b0 b1 allow body = (s.begun mb).finish mb (Call.bufStatus ⟨mb, e, b0, b1⟩) := by
  rw [State.command_posted h, if_neg (by simp [ha]), if_neg (by simpa using hchain), if_pos hbad]

/-- A command that no entry posts waits: it is not first, not in turn, or Rilseti is not ready (R388, R399, R432). -/
theorem State.command_waits (h : ∀ e, s.posts op mb e = false) : s.command op mb b0 b1 allow body = s := by
  unfold State.command
  split
  case h_1 => rfl
  case h_2 x hx =>
    refine if_pos ?_
    by_contra hgo
    have hposts : s.posts op mb x.entry = true := by
      simp only [Bool.not_eq_true, Bool.or_eq_false_iff, decide_eq_false_iff_not, not_not, Bool.not_eq_false'] at hgo
      obtain ⟨⟨hop, hturn⟩, hready⟩ := hgo
      exact State.posts_iff.mpr ⟨⟨x, hx, rfl⟩, hop, hturn, by simpa using hready⟩
    exact absurd hposts (by simp [h])

end Turns

/-- Each row of the reference runs its command under its own opcode and roles (R398, R403 to R418). -/
theorem exec_commandRow : ∀ row ∈ commandRows, ∃ body, ∀ (s : State) (at_ mb : Nat) (b0 b1 : Option Buf),
    exec (row.2.2 at_ mb b0 b1) s = .next ((s.tick at_).command row.1 mb b0 b1 row.2.1 body) := by
  simp only [commandRows, List.forall_mem_append, List.forall_mem_cons, List.not_mem_nil, false_implies, implies_true, and_true]
  and_intros <;> exact ⟨_, fun _ _ _ _ _ => rfl⟩

/-- Settles O16: every row is one call of `command`, which turns it away in one order for all. -/
theorem commandsTurnedAway : Obligations.CommandsTurnedAway := by
  intro row hrow s at_ mb e b0 b1 u c
  obtain ⟨body, hexec⟩ := exec_commandRow row hrow
  simp only [hexec]
  exact ⟨fun h ha => congrArg _ (State.command_denied h ha body),
    fun h ha hmb hneeds => congrArg _ (State.command_noBuffer h ha hmb hneeds),
    fun h ha hchain hbad => congrArg _ (State.command_badBuffer h ha hchain hbad),
    fun h => congrArg _ (State.command_waits h)⟩

end Sys2Proof.Machine
end

section
/-! SUPPORT. The mailbox registers that the host writes, for `Obligations.MailboxRegisterCommandsComplete` (O31) and
`Obligations.DoorbellsLoseNoCommand` (O15). -/

namespace Sys2Proof.Machine

section Registers

variable {s : State} {k tail : Nat}

/-! ### ENABLE (R385) -/

theorem State.openMb_opens (hclosed : (s.mbox k).state = .closed) (hready : s.rilsetiReady = true) (hcmd : (s.mbox k).cmdBase ≠ 0)
    (hcpl : (s.mbox k).cplBase ≠ 0) :
    s.openMb k = s.putMbox k { s.mbox k with
      enable := true, state := .open_, cmdTail := 0, cplHead := 0, cmdHead := 0, cplTail := 0, role := 0, roleJob := 0, actor := 0,
      actorKey := 0, nonce := none, cmds := [], busy := [] } :=
  congrArg (s.putMbox k) (if_pos (by simp [hclosed, hready, hcmd, hcpl]))

theorem State.openMb_notClosed (h : (s.mbox k).state ≠ .closed) : s.openMb k = s.putMbox k { s.mbox k with enable := true } :=
  congrArg (s.putMbox k) (if_neg (by simp [h]))

/-- A mailbox on its way to CLOSED: what has not started is aborted. -/
def Mailbox.closing (m : Mailbox) (ht : Nat) : Mailbox :=
  { m with
    enable := false, state := .closing
    cmds := m.cmds.map fun c => if c.phase = .waiting then { c with phase := .finished, status := 2, ht } else c }

theorem Mailbox.close_of_up {m : Mailbox} (h : m.state = .open_ ∨ m.state = .stopped) (ht : Nat) :
    m.close ht = (m.closing ht).settle := if_pos (by simpa using h)

theorem Mailbox.settle_waits {m : Mailbox} (h : m.cmds ≠ [] ∨ m.busy ≠ []) : m.settle = m := if_neg (by
  obtain h | h := h <;> simp [h])

theorem Mailbox.settle_shuts {m : Mailbox} (hstate : m.state = .closing) (hcmds : m.cmds = []) (hbusy : m.busy = []) :
    m.settle = m.shut := if_pos (by simp [hstate, hcmds, hbusy])

theorem State.closeMb_closing (h : (s.mbox k).state = .open_ ∨ (s.mbox k).state = .stopped)
    (hleft : (s.mbox k).cmds ≠ [] ∨ (s.mbox k).busy ≠ []) : s.closeMb k = s.putMbox k ((s.mbox k).closing s.htStamp) :=
  congrArg (s.putMbox k) ((Mailbox.close_of_up h _).trans (Mailbox.settle_waits (by simpa [Mailbox.closing] using hleft)))

theorem State.closeMb_shuts (h : (s.mbox k).state = .open_ ∨ (s.mbox k).state = .stopped) (hcmds : (s.mbox k).cmds = [])
    (hbusy : (s.mbox k).busy = []) : s.closeMb k = s.putMbox k ((s.mbox k).closing s.htStamp).shut :=
  congrArg (s.putMbox k) ((Mailbox.close_of_up h _).trans
    (Mailbox.settle_shuts rfl (by simp [Mailbox.closing, hcmds]) hbusy))

/-! ### Doorbells (R387, R440) -/

/-- A write of a doorbell comes sooner than 64 ns after the one before it. -/
def State.bellFast (s : State) (k : Nat) : Bool :=
  match (s.mbox k).dbAt with | some t => decide (s.now < t + 64) | none => false

/-- What the mailbox notes of the rate of its doorbells. -/
def Mailbox.rung (m : Mailbox) (now : Nat) (fast : Bool) : Mailbox :=
  { m with dbAt := some now, dbFast := if fast then some (m.dbFast.getD now) else none, dbStuck := m.dbStuck && fast }

/-- Posted commands, were CMD_TAIL this value. -/
def Mailbox.ahead (m : Mailbox) (tail : Nat) : Nat := (tail % 2 ^ 16 + 2 ^ 16 - m.cmdHead) % 2 ^ 16

/-- The state in which a doorbell acts: an over-fast one is counted. -/
def State.bellCounted (s : State) (k : Nat) : State :=
  if s.bellFast k then s.onAon fun a => { a with dbOver := satAdd 32 a.dbOver 1 } else s

theorem State.bellCounted_mbox (i : Nat) : (s.bellCounted k).mbox i = s.mbox i := by
  unfold State.bellCounted
  split <;> rfl

theorem State.bellCounted_now : (s.bellCounted k).now = s.now := by
  unfold State.bellCounted
  split <;> rfl

theorem State.doorbell_eq : s.doorbell k tail =
    (s.bellCounted k).onMbox k fun m =>
      let m := m.rung s.now (s.bellFast k)
      if m.state = .closed then m.setErr 0 s.nocNow
      else
        let m := { m with cmdTail := tail % 2 ^ 16 }
        if m.state = .open_ && 64 < m.posted then { m.setErr 1 s.nocNow with state := .stopped } else m := by
  have hnoc : (s.bellCounted k).nocNow = s.nocNow := congrArg nocCycle State.bellCounted_now
  rw [← State.bellCounted_now (s := s) (k := k), ← hnoc]
  rfl

/-- Within 64 of CMD_HEAD, the latest count is kept and nothing else of the mailbox changes. -/
theorem State.doorbell_kept (hopen : (s.mbox k).state = .open_) (hnear : (s.mbox k).ahead tail ≤ 64) :
    s.doorbell k tail =
      (s.bellCounted k).putMbox k { (s.mbox k).rung s.now (s.bellFast k) with cmdTail := tail % 2 ^ 16 } := by
  rw [State.doorbell_eq, State.onMbox, State.bellCounted_mbox]
  refine congrArg ((s.bellCounted k).putMbox k) ((if_neg ?_).trans (if_neg ?_))
  · simp [Mailbox.rung, hopen]
  · rw [Bool.and_eq_true, decide_eq_true_eq, not_and]
    exact fun _ => by rw [decide_eq_true_eq]; exact Nat.not_lt.mpr hnear

/-- More than 64 ahead of CMD_HEAD, DB_RANGE is set and the mailbox stops. -/
theorem State.doorbell_stops (hopen : (s.mbox k).state = .open_) (hfar : 64 < (s.mbox k).ahead tail) :
    s.doorbell k tail =
      (s.bellCounted k).putMbox k
        { (s.mbox k).rung s.now (s.bellFast k) with
          cmdTail := tail % 2 ^ 16, errs := (s.mbox k).errs ||| 2, errsAt := noteSet (s.mbox k).errsAt 0 2 s.nocNow
          state := .stopped } := by
  rw [State.doorbell_eq, State.onMbox, State.bellCounted_mbox]
  refine congrArg ((s.bellCounted k).putMbox k) ((if_neg ?_).trans (if_pos ?_))
  · simp [Mailbox.rung, hopen]
  · rw [Bool.and_eq_true, decide_eq_true_eq, decide_eq_true_eq]
    exact ⟨hopen, hfar⟩

/-- On a CLOSED mailbox a doorbell only sets DB_CLOSED. -/
theorem State.doorbell_closed (hclosed : (s.mbox k).state = .closed) :
    s.doorbell k tail =
      (s.bellCounted k).putMbox k
        { (s.mbox k).rung s.now (s.bellFast k) with errs := (s.mbox k).errs ||| 1, errsAt := noteSet (s.mbox k).errsAt 0 1 s.nocNow } := by
  rw [State.doorbell_eq, State.onMbox, State.bellCounted_mbox]
  exact congrArg ((s.bellCounted k).putMbox k) (if_pos hclosed)

theorem State.bellFast_of_slow (h : ∀ d, (s.mbox k).dbAt = some d → d + 64 ≤ s.now) : s.bellFast k = false := by
  unfold State.bellFast
  cases hd : (s.mbox k).dbAt with
  | none => rfl
  | some d => simpa using h d hd

theorem State.bellCounted_of_slow (h : s.bellFast k = false) : s.bellCounted k = s := if_neg (by simp [h])

theorem Mailbox.rung_slow (m : Mailbox) (now : Nat) : m.rung now false = { m with dbAt := some now, dbFast := none, dbStuck := false } := by
  simp [Mailbox.rung]

end Registers

/-! ### Runs of doorbells (R387) -/

/-- A mailbox that is not CLOSED is read back where it was put. -/
theorem State.mbox_putMbox_up {m : Mailbox} (h : m.state ≠ .closed) (s : State) (k : Nat) : (s.putMbox k m).mbox k = m :=
  (tget_tset_of_ne (fun e => h (congrArg Mailbox.state e)) s.pcie.mboxes k k).trans (if_pos rfl)

theorem State.exec_mbDoorbell {s : State} (h : s.barUp = true) (at_ k tail : Nat) :
    exec (.mbDoorbell at_ k tail) s = .next ((s.onAccess at_).doorbell k tail) :=
  congrArg Host.Outcome.next (State.host_of_barUp h at_ _)

theorem State.doorbell_barUp {s : State} (k tail : Nat) : (s.doorbell k tail).barUp = s.barUp := by
  rw [State.doorbell_eq, State.bellCounted]
  split <;> rfl

/-- A mailbox as a run of doorbells leaves it: OPEN, with its count, its errors and its commands as they were. -/
def Mailbox.ringsOn (m n : Mailbox) : Prop :=
  n.state = .open_ ∧ n.cmdHead = m.cmdHead ∧ n.errs = m.errs ∧ n.cmds = m.cmds

/-- One doorbell within 64 of CMD_HEAD. -/
theorem State.exec_mbDoorbell_near {s : State} {at_ k tail : Nat} (hup : s.barUp = true) (hopen : (s.mbox k).state = .open_)
    (hnear : (s.mbox k).ahead tail ≤ 64) :
    ∃ t, exec (.mbDoorbell at_ k tail) s = .next t ∧ t.barUp = true ∧ (s.mbox k).ringsOn (t.mbox k) ∧
      (t.mbox k).cmdTail = tail % 2 ^ 16 := by
  refine ⟨_, State.exec_mbDoorbell hup at_ k tail, (State.doorbell_barUp _ _).trans hup, ?_⟩
  rw [State.doorbell_kept (s := s.onAccess at_) hopen hnear, State.mbox_putMbox_up]
  · exact ⟨⟨hopen, rfl, rfl, rfl⟩, rfl⟩
  · exact hopen.trans_ne (by decide)

/-- A run of them: the last value counts. -/
theorem State.runAll_mbDoorbell {k : Nat} (l : List (Nat × Nat)) {s : State} (hup : s.barUp = true) (hopen : (s.mbox k).state = .open_)
    (hnear : ∀ x ∈ l, (s.mbox k).ahead x.2 ≤ 64) :
    ∃ t, runAll (l.map fun x => .mbDoorbell x.1 k x.2) s = .next t ∧ t.barUp = true ∧ (s.mbox k).ringsOn (t.mbox k) ∧
      (t.mbox k).cmdTail = (l.getLast?.map fun x => x.2 % 2 ^ 16).getD (s.mbox k).cmdTail := by
  induction l generalizing s with
  | nil => exact ⟨s, rfl, hup, ⟨hopen, rfl, rfl, rfl⟩, rfl⟩
  | cons x l ih =>
    obtain ⟨u, hu, hupU, ⟨hopenU, hheadU, herrsU, hcmdsU⟩, htailU⟩ :=
      State.exec_mbDoorbell_near (at_ := x.1) hup hopen (hnear x (by simp))
    have hnearU : ∀ y ∈ l, (u.mbox k).ahead y.2 ≤ 64 := fun y hy => by
      simpa only [Mailbox.ahead, hheadU] using hnear y (by simp [hy])
    obtain ⟨t, ht, hupT, ⟨hopenT, hheadT, herrsT, hcmdsT⟩, htailT⟩ := ih hupU hopenU hnearU
    refine ⟨t, ?_, hupT, ⟨hopenT, hheadT.trans hheadU, herrsT.trans herrsU, hcmdsT.trans hcmdsU⟩, ?_⟩
    · simpa only [List.map_cons, runAll, hu] using ht
    · rw [htailT, htailU, List.getLast?_cons]
      cases l.getLast? <;> rfl

/-- Settles O15: every doorbell within 64 leaves the mailbox open with its own value, and one further ahead stops it. -/
theorem doorbellsLoseNoCommand : Obligations.DoorbellsLoseNoCommand := by
  intro s mb l at_ tail hup hopen hne h ahead _ hnear hfar
  obtain ⟨t, hrun, hupT, ⟨hopenT, hheadT, herrsT, hcmdsT⟩, htailT⟩ := State.runAll_mbDoorbell l hup hopen hnear
  have hfarT : 64 < (t.mbox mb).ahead tail := by simpa only [Mailbox.ahead, hheadT] using hfar
  refine ⟨t, _, hrun, hopenT, ?_, hheadT, herrsT, hcmdsT, State.exec_mbDoorbell hupT at_ mb tail, ?_⟩
  · rw [htailT, List.getLastD_eq_getLast?, List.getLast?_eq_some_getLast hne]
    rfl
  · rw [State.doorbell_stops (s := t.onAccess at_) hopenT hfarT, State.mbox_putMbox_up (by simp)]
    exact ⟨rfl, congrArg (· ||| 2) herrsT, rfl⟩

/-- Settles O31: each access acts in the state it shows, and leaves its mailbox as the rule of its register says. -/
theorem mailboxRegisterCommandsComplete : Obligations.MailboxRegisterCommandsComplete := by
  intro s at_ mb hup h m
  have acts (f : State → State) : (s.tick at_).host f = f h := State.host_of_barUp hup at_ f
  refine ⟨fun hclosed hready hcmd hcpl => ?_, fun hopen => ?_, fun hopen hleft => ?_, fun hopen hcmds hbusy => ?_, fun head => ?_,
    fun tail hslow => ?_⟩
  · exact congrArg Host.Outcome.next ((acts _).trans (State.openMb_opens (s := h) hclosed hready hcmd hcpl))
  · exact congrArg Host.Outcome.next ((acts _).trans (State.openMb_notClosed (s := h) hopen))
  · exact congrArg Host.Outcome.next ((acts _).trans (State.closeMb_closing (s := h) hopen hleft))
  · exact congrArg Host.Outcome.next ((acts _).trans (State.closeMb_shuts (s := h) hopen hcmds hbusy))
  · exact congrArg Host.Outcome.next (acts _)
  · have hfast : h.bellFast mb = false := State.bellFast_of_slow (s := h) hslow
    have hsame : h.bellCounted mb = h := State.bellCounted_of_slow hfast
    refine ⟨fun hopen hnear => ?_, fun hopen hfar => ?_, fun hclosed => ?_⟩
    · have hkept := State.doorbell_kept (s := h) hopen hnear
      rw [hfast, hsame, Mailbox.rung_slow] at hkept
      exact congrArg Host.Outcome.next ((acts _).trans hkept)
    · have hstops := State.doorbell_stops (s := h) hopen hfar
      rw [hfast, hsame, Mailbox.rung_slow] at hstops
      exact congrArg Host.Outcome.next ((acts _).trans hstops)
    · have hset := State.doorbell_closed (s := h) (tail := tail) hclosed
      rw [hfast, hsame, Mailbox.rung_slow] at hset
      exact congrArg Host.Outcome.next ((acts _).trans hset)

end Sys2Proof.Machine
end

section
/-! SUPPORT. What an event leaves of the PCIe unit, and what the loss of the host leaves of the device, for
`Obligations.HostGoneClosesMailboxes` (O34) and the resets. -/

namespace Sys2Proof.Machine

/-! ### Events (R394) -/

/-- `q` differs from `p` in the event ring's state and in the pending bits only. -/
def Pcie.SameButEvents (p q : Pcie) : Prop :=
  ∃ evSeq evTail evLost evLoss pba evIrqAt evIrqDue, q = { p with evSeq, evTail, evLost, evLoss, pba, evIrqAt, evIrqDue }

theorem State.sendMsix_pcie (s : State) (v : Nat) : s.pcie.SameButEvents (s.sendMsix v).pcie := by
  unfold State.sendMsix
  split
  · exact ⟨_, _, _, _, _, _, _, rfl⟩
  · exact ⟨_, _, _, _, _, _, _, rfl⟩

theorem State.evInterrupt_pcie (s : State) : s.pcie.SameButEvents s.evInterrupt.pcie := by
  unfold State.evInterrupt
  split
  · exact ⟨_, _, _, _, _, _, _, rfl⟩
  · split
    · obtain ⟨_, _, _, _, _, _, _, h⟩ := s.sendMsix_pcie s.pcie.evVector
      rw [State.onPcie, h]
      exact ⟨_, _, _, _, _, _, _, rfl⟩
    · exact ⟨_, _, _, _, _, _, _, rfl⟩

theorem State.raise_pcie (s : State) (e : Ev) (u : Nat) (l : List (Nat × Nat)) (n : Nat) (g : Bool) :
    s.pcie.SameButEvents (s.raise e u l n g).pcie := by
  unfold State.raise
  dsimp only
  split
  · exact ⟨_, _, _, _, _, _, _, rfl⟩
  · split
    · exact ⟨_, _, _, _, _, _, _, rfl⟩
    · obtain ⟨_, _, _, _, _, _, _, h⟩ := State.evInterrupt_pcie _
      rw [h]
      exact ⟨_, _, _, _, _, _, _, rfl⟩

section
variable (s : State) (e : Ev) (u : Nat) (l : List (Nat × Nat)) (n : Nat) (g : Bool)

@[simp] theorem State.raise_mboxes : (s.raise e u l n g).pcie.mboxes = s.pcie.mboxes := by
  obtain ⟨_, _, _, _, _, _, _, h⟩ := s.raise_pcie e u l n g
  rw [h]

@[simp] theorem State.raise_bg : (s.raise e u l n g).pcie.bg = s.pcie.bg := by
  obtain ⟨_, _, _, _, _, _, _, h⟩ := s.raise_pcie e u l n g
  rw [h]

@[simp] theorem State.raise_running : (s.raise e u l n g).pcie.running = s.pcie.running := by
  obtain ⟨_, _, _, _, _, _, _, h⟩ := s.raise_pcie e u l n g
  rw [h]

@[simp] theorem State.raise_masks : (s.raise e u l n g).pcie.masks = s.pcie.masks := by
  obtain ⟨_, _, _, _, _, _, _, h⟩ := s.raise_pcie e u l n g
  rw [h]

@[simp] theorem State.raise_linkUp : (s.raise e u l n g).pcie.linkUp = s.pcie.linkUp := by
  obtain ⟨_, _, _, _, _, _, _, h⟩ := s.raise_pcie e u l n g
  rw [h]

@[simp] theorem State.raise_mbox (k : Nat) : (s.raise e u l n g).mbox k = s.mbox k :=
  congrArg (tget Mailbox.reset · k) (s.raise_mboxes e u l n g)

end

/-! ### A host mailbox closed (R380) -/

/-- A mailbox as the loss of the host leaves it. -/
def Mailbox.gone (m : Mailbox) : Mailbox := { m.shut with enable := false }

/-- One mailbox closed, with no command that waits for its answer. -/
def State.closeGone (s : State) (k : Nat) : State := (s.forgetWaiter k).onMbox k Mailbox.gone

/-- `t` differs from `s` in the mailboxes, and in who waits for an answer of the job, of a checkpoint, of a session and of the
guest. -/
def State.SameButWaiters (s t : State) : Prop :=
  ∃ job com acx guest mboxes, t = { s with job, com, acx, guest, pcie := { s.pcie with mboxes } } ∧
    job.map Job.phase = s.job.map Job.phase

theorem State.SameButWaiters.trans {s t u : State} (h : s.SameButWaiters t) (h' : t.SameButWaiters u) : s.SameButWaiters u := by
  obtain ⟨_, _, _, _, _, rfl, hjob⟩ := h
  obtain ⟨_, _, _, _, _, rfl, hjob'⟩ := h'
  exact ⟨_, _, _, _, _, rfl, hjob'.trans hjob⟩

theorem State.closeGone_same (s : State) (k : Nat) : s.SameButWaiters (s.closeGone k) :=
  ⟨_, _, _, _, _, rfl, Option.map_map _ _ s.job⟩

theorem State.closeGone_mbox {s : State} (h : tabWf Mailbox.reset s.pcie.mboxes = true) (k i : Nat) :
    (s.closeGone k).mbox i = if i = k then (s.mbox k).gone else s.mbox i := State.mbox_putMbox (s := s.forgetWaiter k) h k i _

theorem State.closeGone_wf {s : State} (h : tabWf Mailbox.reset s.pcie.mboxes = true) (k : Nat) :
    tabWf Mailbox.reset (s.closeGone k).pcie.mboxes = true := State.putMbox_wf (s := s.forgetWaiter k) h k _

theorem State.foldl_closeGone_same (l : List Nat) (s : State) : s.SameButWaiters (l.foldl State.closeGone s) := by
  induction l generalizing s with
  | nil => exact ⟨_, _, _, _, _, rfl, rfl⟩
  | cons k l ih => exact (s.closeGone_same k).trans (ih _)

theorem State.foldl_closeGone_wf (l : List Nat) {s : State} (h : tabWf Mailbox.reset s.pcie.mboxes = true) :
    tabWf Mailbox.reset (l.foldl State.closeGone s).pcie.mboxes = true := by
  induction l generalizing s with
  | nil => exact h
  | cons k l ih => exact ih (State.closeGone_wf h k)

theorem State.foldl_closeGone_mbox (l : List Nat) {s : State} (h : tabWf Mailbox.reset s.pcie.mboxes = true) (i : Nat) :
    (l.foldl State.closeGone s).mbox i = if i ∈ l then (s.mbox i).gone else s.mbox i := by
  induction l generalizing s with
  | nil => simp
  | cons k l ih =>
    rw [List.foldl_cons, ih (State.closeGone_wf h k), State.closeGone_mbox h]
    by_cases hk : i = k
    · subst hk
      simp [Mailbox.gone, Mailbox.shut]
    · simp [hk]

/-! ### Every host mailbox closed (R380, R400) -/

/-- The host mailboxes closed one after the other, with their background commands stopped. -/
def State.hostMbsGone (s : State) : State := (List.range 16).foldl State.closeGone s.stopBackground

/-- The PCIe unit with the event ring disabled and no command of a host mailbox running. -/
def Pcie.hostGone (p : Pcie) : Pcie :=
  { p with
    evEnable := false, evIrqDue := false
    running := match p.running with | some k => if k < 16 then none else some k | none => none }

theorem State.hostGone_eq (s : State) : s.hostGone = s.hostMbsGone.onPcie Pcie.hostGone := rfl

/-- Stopping the background commands of the host changes queues of Erg, the loopback of the chain and the list of them. -/
theorem State.stopBackground_eq (s : State) : ∃ chans chainLoop, s.stopBackground =
    { s with erg := { s.erg with chans }, aon := { s.aon with chainLoop }, pcie := { s.pcie with bg := s.pcie.bg.filter fun b => !decide (b.2.1 < 16) } } := by
  unfold State.stopBackground
  dsimp only
  split
  · exact ⟨_, _, rfl⟩
  · exact ⟨_, s.aon.chainLoop, rfl⟩

/-- `t` differs from `s` in the PCIe unit, in who waits for an answer, and in what background commands of the host held. -/
def State.SameButHost (s t : State) : Prop :=
  ∃ job com acx guest chans chainLoop pcie,
    t = { s with job, com, acx, guest, erg := { s.erg with chans }, aon := { s.aon with chainLoop }, pcie } ∧
    job.map Job.phase = s.job.map Job.phase

theorem State.hostGone_same (s : State) : s.SameButHost s.hostGone := by
  obtain ⟨chans, chainLoop, hstop⟩ := s.stopBackground_eq
  obtain ⟨job, com, acx, guest, mboxes, hfold, hjob⟩ := State.foldl_closeGone_same (List.range 16) s.stopBackground
  rw [hstop] at hjob
  refine ⟨job, com, acx, guest, chans, chainLoop, s.hostMbsGone.pcie.hostGone, ?_, hjob⟩
  rw [State.hostGone_eq, State.hostMbsGone, hfold, hstop]
  rfl

theorem State.hostGone_evEnable (s : State) : s.hostGone.pcie.evEnable = false := by
  rw [State.hostGone_eq]
  generalize s.hostMbsGone = u
  rfl

theorem State.hostGone_running (s : State) {k : Nat} (hk : k < 16) : s.hostGone.pcie.running ≠ some k := by
  rw [State.hostGone_eq]
  generalize s.hostMbsGone = u
  simp only [State.onPcie, Pcie.hostGone]
  split
  · split
    · simp
    · simp; omega
  · simp

theorem State.hostGone_bg (s : State) : ∀ b ∈ s.hostGone.pcie.bg, 16 ≤ b.2.1 := by
  obtain ⟨_, _, hstop⟩ := s.stopBackground_eq
  obtain ⟨_, _, _, _, _, hfold, -⟩ := State.foldl_closeGone_same (List.range 16) s.stopBackground
  rw [State.hostGone_eq, State.hostMbsGone, hfold, hstop]
  intro b hb
  have := (List.mem_filter.mp hb).2
  simpa using this

section
variable {s : State} (h : tabWf Mailbox.reset s.pcie.mboxes = true)
include h

theorem State.stopBackground_wf : tabWf Mailbox.reset s.stopBackground.pcie.mboxes = true := by
  obtain ⟨_, _, hstop⟩ := s.stopBackground_eq
  rw [hstop]
  exact h

theorem State.hostMbsGone_wf : tabWf Mailbox.reset s.hostMbsGone.pcie.mboxes = true :=
  State.foldl_closeGone_wf _ (State.stopBackground_wf h)

theorem State.hostMbsGone_mbox (k : Nat) : s.hostMbsGone.mbox k = if k < 16 then (s.mbox k).gone else s.mbox k := by
  obtain ⟨_, _, hstop⟩ := s.stopBackground_eq
  have hfold := State.foldl_closeGone_mbox (List.range 16) (State.stopBackground_wf h) k
  have hmb : s.stopBackground.mbox k = s.mbox k := by rw [hstop]; rfl
  simp only [List.mem_range, hmb] at hfold
  exact hfold

theorem State.hostGone_mbox (k : Nat) : s.hostGone.mbox k = if k < 16 then (s.mbox k).gone else s.mbox k := by
  rw [State.hostGone_eq, ← State.hostMbsGone_mbox h]
  generalize s.hostMbsGone = u
  rfl

/-- After a Function Level Reset the chain mailbox is as it was, and no other is listed. -/
theorem State.flr_mbox (k : Nat) : s.flr.mbox k = if k = 16 then s.mbox 16 else Mailbox.reset := by
  have hflr : s.flr.mbox k = tget Mailbox.reset (s.hostMbsGone.pcie.mboxes.filter fun m => m.1 = 16) k := by
    rw [State.flr, State.hostGone_eq]
    generalize s.hostMbsGone = u
    rfl
  rw [hflr]
  by_cases hk : k = 16
  · subst hk
    rw [tget_filter_of_kept (State.hostMbsGone_wf h) fun _ => by simp]
    exact State.hostMbsGone_mbox h 16
  · rw [if_neg hk]
    refine tget_of_absent fun c hc => ?_
    have hchain : c.1 = 16 := by simpa using (List.mem_filter.mp hc).2
    omega

end

/-- Settles O34: each of the four closes the host mailboxes, and changes nothing else of the device but who waits for their answers. -/
theorem hostGoneClosesMailboxes : Obligations.HostGoneClosesMailboxes := by
  intro s at_ hwf gone
  have hmb (k : Nat) : (s.tick at_).hostGone.mbox k = if k < 16 then (s.mbox k).gone else s.mbox k :=
    State.hostGone_mbox (s := s.tick at_) hwf k
  have hflr (k : Nat) : (s.tick at_).flr.mbox k = if k = 16 then s.mbox 16 else Mailbox.reset :=
    State.flr_mbox (s := s.tick at_) hwf k
  obtain ⟨job, com, acx, guest, chans, chainLoop, pcie, hrest, hjob⟩ := (s.tick at_).hostGone_same
  have hjob' : job.isSome = s.job.isSome := by simpa using congrArg Option.isSome hjob
  have hevents := (s.tick at_).hostGone_evEnable
  have hrun (k : Nat) (hk : k < 16) := (s.tick at_).hostGone_running hk
  have hbg := (s.tick at_).hostGone_bg
  rw [hrest] at hevents hrun hbg
  have hbase (k : Nat) (hk : k < 16) : ((s.tick at_).hostGone.mbox k).cmdBase = (s.mbox k).cmdBase := by
    rw [hmb, if_pos hk]
    rfl
  have hgone : gone (s.tick at_).hostGone := by
    refine ⟨fun k hk => ?_, ?_⟩
    · rw [hmb, if_pos hk]
      exact ⟨rfl, rfl, rfl, rfl, rfl, rfl⟩
    · rw [hmb, hrest]
      exact ⟨hevents, hrun, hbg, rfl, rfl, rfl, rfl, rfl, rfl, rfl, rfl, rfl, rfl, rfl, hjob'⟩
  have hlink (u : State) (h : gone u) : gone (u.onPcie fun p => { p with linkUp := false }) := h
  refine ⟨⟨_, rfl, ⟨fun k hk => ?_, ?_⟩, ?_⟩, ⟨_, rfl, hgone, hbase⟩, ⟨_, rfl, hgone, hbase⟩, ⟨_, rfl, hlink _ hgone, rfl⟩⟩
  · rw [hflr, if_neg (by omega)]
    exact ⟨rfl, rfl, rfl, rfl, rfl, rfl⟩
  · rw [hflr, State.flr, hrest]
    exact ⟨hevents, hrun, hbg, rfl, rfl, rfl, rfl, rfl, rfl, rfl, rfl, rfl, rfl, rfl, hjob'⟩
  · rw [State.flr, hrest] at hflr ⊢
    refine ⟨rfl, rfl, rfl, rfl, rfl, rfl, rfl, rfl, fun k hk => ?_⟩
    rw [hflr, if_neg (by omega)]
    exact ⟨rfl, rfl, rfl⟩

end Sys2Proof.Machine
end

section
/-! SUPPORT. What a reset leaves, for `Obligations.ColdResetLeaves` (O35) and `Obligations.WarmAndHostResetLeave` (O36). -/

namespace Sys2Proof.Machine

/-! ### On the way into a reset (R422, R432, R442, R510) -/

/-- `t` differs from `s` in what every reset first ends: HOLD, HOT_N, the staging area, with what the device has driven and
reported of it. -/
def State.SameButReadied (s t : State) : Prop :=
  ∃ power hotN stage stageLen stageGot pcie out,
    t = { s with aon := { s.aon with power, hotN, stage, stageLen, stageGot }, pcie, out } ∧ s.pcie.SameButEvents pcie

theorem Pcie.SameButEvents.refl (p : Pcie) : p.SameButEvents p := ⟨_, _, _, _, _, _, _, rfl⟩

theorem Pcie.SameButEvents.trans {p q r : Pcie} (h : p.SameButEvents q) (h' : q.SameButEvents r) : p.SameButEvents r := by
  obtain ⟨_, _, _, _, _, _, _, rfl⟩ := h
  obtain ⟨_, _, _, _, _, _, _, rfl⟩ := h'
  exact ⟨_, _, _, _, _, _, _, rfl⟩

namespace State.SameButReadied

variable {s t u : State}

theorem refl (s : State) : s.SameButReadied s := ⟨_, _, _, _, _, _, _, rfl, .refl _⟩

theorem trans (h : s.SameButReadied t) (h' : t.SameButReadied u) : s.SameButReadied u := by
  obtain ⟨_, _, _, _, _, _, _, rfl, hp⟩ := h
  obtain ⟨_, _, _, _, _, _, _, rfl, hp'⟩ := h'
  exact ⟨_, _, _, _, _, _, _, rfl, hp.trans hp'⟩

theorem startRails (s : State) : s.SameButReadied s.startRails := by
  unfold State.startRails
  split
  · exact ⟨_, _, _, _, _, _, _, rfl, .refl _⟩
  · exact refl s

theorem leaveHold (s : State) : s.SameButReadied s.leaveHold := by
  unfold State.leaveHold
  split
  · have hp := (s.onAon fun a => { a with power := .run }).raise_pcie Ev.powerRun 0 [] 0 false
    obtain ⟨_, _, h⟩ := (s.onAon fun a => { a with power := .run }).raise_eq Ev.powerRun 0 [] 0 false
    rw [h] at hp ⊢
    exact ⟨_, _, _, _, _, _, _, rfl, hp⟩
  · exact refl s

theorem resetCommon (s : State) : s.SameButReadied s.resetCommon := by
  obtain ⟨_, _, _, _, _, _, _, h, hp⟩ := leaveHold s
  rw [State.resetCommon, h]
  exact ⟨_, _, _, _, _, _, _, rfl, hp⟩

theorem driveHot (s : State) (low : Bool) : s.SameButReadied (s.driveHot low) := by
  unfold State.driveHot
  split
  · exact refl s
  · exact ⟨_, _, _, _, _, _, _, rfl, .refl _⟩

end State.SameButReadied

/-- The state that a cold or warm reset clears. -/
def State.readied (s : State) : State := s.startRails.resetCommon.driveHot false

theorem State.readied_same (s : State) : s.SameButReadied s.readied :=
  ((SameButReadied.startRails s).trans (.resetCommon _)).trans (.driveHot ..)

/-! ### Cold resets (R422 to R425) -/

/-- The AON domain in the stretch of a cold reset from source `k` that began at `now`. -/
def Aon.coldStretch (a : Aon) (k now : Nat) : Aon :=
  { a.cold with
    phase := .inReset .cold (now + stretchNs) false, resetCause := 1 <<< k, causeAt := noteSet a.causeAt 0 (1 <<< k) (nocCycle now)
    resetAt := now, optsDone := false, wakeCause := 0 }

/-- A cold reset with no stretch running. -/
theorem State.intoReset_cold {s : State} (h : s.aon.phase.stretch = none) (k : Nat) :
    ∃ out, s.intoReset k .cold false false = { s.coldClear with out, aon := s.aon.coldStretch k s.now } := by
  obtain ⟨power, hotN, stage, stageLen, stageGot, pcie, out, hready, -⟩ := s.readied_same
  refine ⟨out, ?_⟩
  have hinto : s.intoReset k .cold false false =
      s.readied.coldClear.onAon fun a =>
        { a with phase := .inReset .cold (s.now + stretchNs) false, resetCause := 1 <<< k
                 causeAt := noteSet a.causeAt 0 (1 <<< k) s.readied.nocNow, resetAt := s.readied.now, optsDone := false, wakeCause := 0 } := by
    unfold State.intoReset
    rw [h]
    rfl
  rw [hinto, hready]
  rfl

theorem BootPhase.stretch_of_out {p : BootPhase} (h : p = .up ∨ p = .recovery) : p.stretch = none := by
  obtain rfl | rfl := h <;> rfl

theorem State.reset_of_out {s : State} (h : s.aon.phase = .up ∨ s.aon.phase = .recovery) {cls : ResetClass} (hcls : cls ≠ .host)
    (k : Nat) (full ofRestart : Bool) : s.reset_ k cls full ofRestart = s.intoReset k cls full ofRestart := by
  unfold State.reset_
  obtain hp | hp := h
  · rw [hp]
    exact if_neg hcls
  · rw [hp]
    exact if_neg hcls

theorem State.reset_of_off {s : State} (h : s.aon.phase = .powerOff) (hrails : s.aon.railsOrder ≠ 0) (k : Nat) :
    s.reset_ k .cold false false = s.intoReset k .cold false false := by
  unfold State.reset_
  rw [h]
  exact if_pos (by simp [hrails])

/-- A cold reset of a device out of reset. -/
theorem State.reset_cold {s : State} (h : s.aon.phase = .up ∨ s.aon.phase = .recovery) (k : Nat) :
    ∃ out, s.reset_ k .cold false false = { s.coldClear with out, aon := s.aon.coldStretch k s.now } := by
  rw [State.reset_of_out h (by decide)]
  exact State.intoReset_cold (BootPhase.stretch_of_out h) k

/-- A cold reset of a device in DOZE or OFF, or at power-on. -/
theorem State.reset_cold_off {s : State} (h : s.aon.phase = .powerOff) (hrails : s.aon.railsOrder ≠ 0) (k : Nat) :
    ∃ out, s.reset_ k .cold false false = { s.coldClear with out, aon := s.aon.coldStretch k s.now } := by
  rw [State.reset_of_off h hrails]
  exact State.intoReset_cold (by rw [h]; rfl) k

/-- RST_N driven low, or low already. -/
theorem State.driveRst_eq (s : State) : ∃ out, s.driveRst = { s with aon := { s.aon with rstDrive := true }, out } := by
  unfold State.driveRst
  split
  · rename_i h
    exact ⟨s.out, by rw [← h]⟩
  · exact ⟨_, rfl⟩

theorem State.setTemp_eq (s : State) (k : Nat) (x : Int) :
    ∃ dies temps9, s.setTemp k x = { s with dies, aon := { s.aon with temps9 } } := by
  unfold State.setTemp
  split
  · exact ⟨_, _, rfl⟩
  · exact ⟨_, _, rfl⟩

/-! ### Frames that the device acts on (R433) -/

/-- A broadcast is also passed on. -/
def State.heard (s : State) (f : Buf) : State := if frBcast f then s.forward f else s

theorem State.heard_eq (s : State) (f : Buf) : ∃ out, s.heard f = { s with out } := by
  unfold State.heard State.forward State.passFrame
  split
  · split
    · exact ⟨s.out, rfl⟩
    · exact ⟨_, rfl⟩
  · exact ⟨s.out, rfl⟩

theorem State.chainRx_acts {s : State} {f : Buf} {type : Nat} {acts : State → Bool} {act : State → State} (hruns : s.chainRuns = true)
    (hloop : s.aon.chainLoop = false) (hok : frOk f = true) (htype : frType f = type) (hopts : s.aon.optsDone = true)
    (hmine : s.frForMe f = true) (hacts : acts (s.heard f) = true) : s.chainRx f type acts act = act (s.heard f) := by
  unfold State.chainRx
  rw [if_neg (by simp [hruns]), if_neg (by simp [hloop]), if_neg (by simp [hok]), if_neg (by simp [htype]),
    if_neg (by simp [hmine, State.chainActs, hopts])]
  exact if_pos hacts

/-! ### Each source -/

/-! ### Warm resets (R423) -/

/-- The AON domain in the stretch of a warm reset from source `k` that began at `now`. -/
def Aon.warmStretch (a : Aon) (k now : Nat) (full : Bool) : Aon :=
  { a.warm with
    phase := .inReset .warm (now + stretchNs) full, resetCause := a.resetCause ||| (1 <<< k)
    causeAt := noteSet a.causeAt 0 (1 <<< k) (nocCycle now), resetAt := now, optsDone := false }

/-- A warm reset of a device out of reset: what it clears, of the state made ready. -/
theorem State.reset_warm {s : State} (h : s.aon.phase = .up ∨ s.aon.phase = .recovery) (k : Nat) (full : Bool) :
    ∃ t, s.SameButReadied t ∧
      s.reset_ k .warm full false = { t.warmClear full false with aon := t.aon.warmStretch k s.now full } := by
  refine ⟨s.readied, s.readied_same, ?_⟩
  obtain ⟨power, hotN, stage, stageLen, stageGot, pcie, out, hready, -⟩ := s.readied_same
  have hinto : s.intoReset k .warm full false =
      (s.readied.warmClear full false).onAon fun a =>
        { a with phase := .inReset .warm (s.now + stretchNs) full, resetCause := s.aon.resetCause ||| (1 <<< k)
                 causeAt := noteSet a.causeAt 0 (1 <<< k) s.readied.nocNow, resetAt := s.readied.now, optsDone := false } := by
    unfold State.intoReset
    rw [BootPhase.stretch_of_out h]
    rfl
  rw [State.reset_of_out h (by decide), hinto, hready]
  rfl

/-- Settles O35: each source enters the stretch of a cold reset of the state in which it acts, and that clears the device. -/
theorem coldResetLeaves : Obligations.ColdResetLeaves := by
  intro s at_ t cleared out_
  refine ⟨fun low high hout hrails hlow => ?rst, fun die temp hout htemp => ?trip, fun f hout hruns hloop hok htype hopts hdoze hmine => ?frame,
    fun hoff hrails => ?power, fun i m hoff hrails hdoze hdue hm hne => ?doze⟩
  case rst =>
    obtain ⟨o, hcold⟩ := State.reset_cold (s := t) hout 1
    have hpulse : t.rstPulse low high = (t.reset_ 1 .cold).driveRst.onAon fun a => { a with rstLow := !high } :=
      (if_neg hrails).trans (if_neg (by omega))
    refine ⟨_, congrArg Host.Outcome.next hpulse, ?_⟩
    obtain ⟨o', hdrive⟩ := (t.reset_ 1 .cold).driveRst_eq
    rw [hdrive, hcold]
    and_intros <;> rfl
  case trip =>
    obtain ⟨dies, temps9, hset⟩ := t.setTemp_eq die temp
    have hphase : (t.setTemp die temp).aon.phase = s.aon.phase := by rw [hset]; rfl
    obtain ⟨o, hcold⟩ := State.reset_cold (s := t.setTemp die temp) (by rwa [hphase]) 7
    have htrip : t.trip die temp = ((t.setTemp die temp).reset_ 7 .cold).onAon fun a => { a with tripHeld := true } := by
      unfold State.trip
      refine if_neg ?_
      obtain h | h := hout <;> simp [hphase, h, htemp]
    refine ⟨_, congrArg Host.Outcome.next htrip, ?_⟩
    rw [hcold, hset]
    and_intros <;> rfl
  case frame =>
    obtain ⟨o, hheard⟩ := t.heard_eq f
    have hphase : (t.heard f).aon.phase = s.aon.phase := by rw [hheard]; rfl
    obtain ⟨o', hcold⟩ := State.reset_cold (s := t.heard f) (by rwa [hphase]) 3
    have hpower : s.aon.power ≠ .off := by
      intro h
      simp [State.chainRuns, h] at hruns
    have hframe : t.coldFrame f = (t.heard f).reset_ 3 .cold := by
      unfold State.coldFrame
      rw [if_neg (by simp [t, hpower])]
      exact State.chainRx_acts (s := t) hruns hloop hok htype hopts hmine rfl
    refine ⟨_, congrArg Host.Outcome.next hframe, ?_⟩
    rw [hcold, hheard]
    and_intros <;> rfl
  case power =>
    obtain ⟨o, hcold⟩ := State.reset_cold_off (s := t.onAon fun a => { a with railsOrder := 1 }) hoff one_ne_zero 0
    have hon : t.powerOn true = ((t.onAon fun a => { a with railsOrder := 1 }).reset_ 0 .cold).driveRst :=
      (if_neg (by simp)).trans (if_neg (by simp [t, hrails]))
    refine ⟨_, congrArg Host.Outcome.next hon, ?_⟩
    obtain ⟨o', hdrive⟩ := ((t.onAon fun a => { a with railsOrder := 1 }).reset_ 0 .cold).driveRst_eq
    rw [hdrive, hcold]
    and_intros <;> rfl
  case doze =>
    obtain ⟨o, hcold⟩ := State.reset_cold_off (s := t) hoff hrails 8
    have hsample : t.dozeSample i = (t.reset_ 8 .cold).onAon fun a =>
        { a with wakeCause := m, causeAt := noteSet a.causeAt 16 m t.nocNow } := by
      unfold State.dozeSample
      subst hm
      have hpower : t.aon.power = .doze := hdoze
      have hdue' : ¬ t.now < t.aon.dozeAt + t.aon.dozePeriod * oneMs := Nat.not_lt.mpr hdue
      exact (if_neg (by simp only [hpower, hdue']; decide)).trans (if_pos hne)
    refine ⟨_, congrArg Host.Outcome.next hsample, ?_⟩
    rw [hcold]
    and_intros <;> rfl

theorem State.hostReset_mbox (s : State) (bit_ k : Nat) : (s.hostReset bit_).mbox k = s.resetCommon.flr.mbox k := by
  unfold State.hostReset
  generalize s.resetCommon.flr = u
  rfl

/-- Settles O36: a warm reset clears the state made ready, and a host reset is a Function Level Reset of it. -/
theorem warmAndHostResetLeave : Obligations.WarmAndHostResetLeave := by
  intro s at_ t warmed
  have hwarm (u : State) (k : Nat) (full : Bool) (hu : ∃ out, u = { t with out }) (h : s.aon.phase = .up ∨ s.aon.phase = .recovery) :
      warmed (u.reset_ k .warm full) full (1 <<< k) := by
    obtain ⟨out, rfl⟩ := hu
    obtain ⟨v, ⟨power, hotN, stage, stageLen, stageGot, pcie, out', hv, hp⟩, hreset⟩ :=
      State.reset_warm (s := { t with out }) h k full
    obtain ⟨_, _, _, _, _, _, _, rfl⟩ := hp
    rw [hreset, hv]
    refine ⟨rfl, rfl, ?_, ?_, ?_⟩
    · exact Option.map_map _ _ s.job
    · intro j hj
      obtain ⟨j', -, rfl⟩ := Option.map_eq_some_iff.mp hj
      rfl
    · refine ⟨rfl, rfl, rfl, rfl, rfl, rfl, rfl, rfl, rfl, rfl, rfl, rfl, rfl, ?_, ?_, rfl, rfl⟩
      · cases full <;> rfl
      · rintro rfl
        exact ⟨rfl, rfl⟩
  refine ⟨fun h => ?watchdog, fun f h hruns hloop hok htype hopts hdoze hmine => ?frame, fun low hup hwf hlow => ?host,
    fun low high hlow hphase hrails => ?glitch⟩
  case watchdog =>
    have hbite : t.watchdogBites = t.reset_ 6 .warm := by
      have hphase : t.aon.phase = s.aon.phase := rfl
      unfold State.watchdogBites
      obtain h | h := h
      · rw [hphase, h]
      · rw [hphase, h]
    exact ⟨_, congrArg Host.Outcome.next hbite, hwarm t 6 false ⟨t.out, rfl⟩ h⟩
  case frame =>
    obtain ⟨out, hheard⟩ := t.heard_eq f
    have hdoze' : (t.heard f).dozing = false := by
      rw [hheard]
      exact decide_eq_false hdoze
    have hframe : t.warmFrame f = (t.heard f).reset_ 4 .warm ((frPayload f).flag 0) :=
      (State.chainRx_acts (s := t) hruns hloop hok htype hopts hmine rfl).trans (if_neg (by simp [hdoze']))
    exact ⟨_, congrArg Host.Outcome.next hframe, hwarm _ 4 _ ⟨out, hheard⟩ h⟩
  case host =>
    obtain ⟨power, hotN, stage, stageLen, stageGot, pcie, out, hready, hp⟩ := State.SameButReadied.resetCommon t
    obtain ⟨_, _, _, _, _, _, _, rfl⟩ := hp
    have hreset : t.perstPulse low = t.hostReset 4 := by
      have hphase : t.aon.phase = .up := hup
      unfold State.perstPulse State.reset_
      rw [hphase]
      exact (if_neg (by decide)).trans ((if_neg (by omega)).trans (if_pos rfl))
    have hmb (k : Nat) := State.flr_mbox (s := t.resetCommon) (by rw [hready]; exact hwf) k
    have hevents := t.resetCommon.hostGone_evEnable
    obtain ⟨job, com, acx, guest, chans, chainLoop, pcie, hrest, hjob⟩ := t.resetCommon.hostGone_same
    have hjob' : job.isSome = t.job.isSome := by
      rw [hready] at hjob
      simpa using congrArg Option.isSome hjob
    refine ⟨_, congrArg Host.Outcome.next hreset, ?_⟩
    refine ⟨fun k hk => ?_, ?_⟩
    · rw [State.hostReset_mbox, hmb, if_neg hk.ne]
      exact ⟨rfl, rfl, rfl⟩
    · rw [hrest] at hevents
      rw [State.hostReset, State.flr, hrest, hready]
      exact ⟨hevents, rfl, rfl, hup, rfl, rfl, rfl, rfl, rfl, rfl, hjob', rfl⟩
  case glitch =>
    exact ⟨congrArg Host.Outcome.next ((if_neg hphase).trans (if_pos hlow)),
      congrArg Host.Outcome.next ((if_neg hrails).trans (if_pos hlow))⟩

end Sys2Proof.Machine
end

section
/-! SUPPORT. From power good to RILSETI_READY, for `Obligations.BootSequenceCompletes` (O37). -/

namespace Sys2Proof.Machine

/-! ### The ledger (R474) -/

/-- A ledger with a place left takes the entry. -/
theorem State.appendLedger_adds {s : State} (h : s.isl.ledger.length < ledgerPlaces) (setting role : Nat) (actor value : Buf)
    (counter opcode : Nat) : ∃ e nearFull pcie out, s.appendLedger setting role actor value counter opcode =
      { s with isl := { s.isl with ledger := s.isl.ledger ++ [e], nearFull }, pcie, out } := by
  unfold State.appendLedger
  rw [if_neg (Nat.not_le.mpr h)]
  dsimp only
  obtain ⟨p, o, hraise⟩ := (s.onIsl fun x => { x with ledger := x.ledger ++ [s.ledgerEntry setting role actor value counter] }).raise_eq
    Ev.ledgerAppended opcode [(32, s.isl.ledger.length), (16, setting)] 0 false
  rw [hraise]
  split
  · obtain ⟨p', o', hraise'⟩ := State.raise_eq _ Ev.ledgerNearFull opcode [] 0 false
    exact ⟨_, _, _, _, hraise'⟩
  · exact ⟨_, _, _, _, rfl⟩

theorem State.deviceLedger_adds {s : State} (h : s.isl.ledger.length < ledgerPlaces) (setting counter : Nat) :
    ∃ e nearFull pcie out freeCtr, s.deviceLedger setting counter =
      { s with freeCtr, isl := { s.isl with ledger := s.isl.ledger ++ [e], nearFull }, pcie, out } := by
  obtain ⟨e, nearFull, pcie, out, happend⟩ := State.appendLedger_adds (s := (s.free 256).2) h setting 0 (Buf.zeros 32)
    (Buf.ofLe 32 (s.free 256).1) counter 0
  exact ⟨e, nearFull, pcie, out, _, happend⟩

/-! ### The boot ROM (R470) -/

/-- The island with its identity just made. -/
def State.identified (s : State) : State := s.onIsl fun x => { x with hasId := true, idOk := true, idModulus := Config.identityModulus }

/-- At a first power-up the identity is made and recorded (R463). -/
theorem State.identity_first {s : State} (hid : s.isl.hasId = false) (hlife : s.isl.lifecycle ≠ 2)
    (hplaces : s.isl.ledger.length < ledgerPlaces) (pufOk : Bool) :
    ∃ e nearFull pcie out freeCtr, s.identity pufOk =
      { s with
        freeCtr, pcie, out
        isl := { s.isl with hasId := true, idOk := true, idModulus := Config.identityModulus, ledger := s.isl.ledger ++ [e], nearFull } } := by
  obtain ⟨e, nearFull, pcie, out, freeCtr, hledger⟩ := State.deviceLedger_adds (s := s.identified) hplaces 1 0
  have hident : s.identity pufOk = (s.identified.deviceLedger 1).raise Ev.identityCreated := if_pos (by simp [hid, hlife])
  obtain ⟨pcie', out', hraise⟩ := (s.identified.deviceLedger 1).raise_eq Ev.identityCreated 0 [] 0 false
  rw [hident, hraise, hledger]
  exact ⟨e, nearFull, pcie', out', freeCtr, rfl⟩

theorem State.slotOk_absent {s : State} (ha : s.isl.slotA.present = false) (hb : s.isl.slotB.present = false) (b : Bool) :
    s.slotOk b = false := by
  cases b
  · simp [State.slotOk, Island.slot, ha]
  · simp [State.slotOk, Island.slot, hb]

/-- With both slots empty no image is started (R470). -/
theorem State.bootSlots_empty {s : State} (ha : s.isl.slotA.present = false) (hb : s.isl.slotB.present = false) (cold : Bool) :
    ∃ pcie out, s.bootSlots cold = { s with isl := { s.isl with fwRunning := .empty }, pcie, out } := by
  unfold State.bootSlots
  dsimp only
  generalize (if cold && s.isl.pendingFw then !s.isl.lastB else s.isl.lastB) = first
  rw [if_neg (by simp [State.slotOk_absent ha hb]), if_neg (by simp [State.slotOk_absent (s := s.raise Ev.fwFallback), ha, hb])]
  obtain ⟨pcie, out, hraise⟩ := s.raise_eq Ev.fwFallback 0 [] 0 false
  obtain ⟨pcie', out', hraise'⟩ := State.raise_eq ((s.raise Ev.fwFallback).onIsl fun x => { x with fwRunning := .empty }) Ev.fwRecovery 0 [] 0 false
  rw [hraise', hraise]
  exact ⟨pcie', out', rfl⟩

/-- A first power-up with both slots empty makes the identity, records it, and starts no image. -/
theorem State.bootRom_first {s : State} (hid : s.isl.hasId = false) (hlife : s.isl.lifecycle ≠ 2) (ha : s.isl.slotA.present = false)
    (hb : s.isl.slotB.present = false) (hplaces : s.isl.ledger.length < ledgerPlaces) (pufOk : Bool) :
    ∃ e nearFull pcie out freeCtr, s.bootRom true false pufOk =
      { s with
        freeCtr, pcie, out
        isl := { s.isl with hasId := true, idOk := true, idModulus := Config.identityModulus, ledger := s.isl.ledger ++ [e], nearFull
                            fwRunning := .empty } } := by
  obtain ⟨e, nearFull, pcie, out, freeCtr, hident⟩ :=
    State.identity_first (s := s.onIsl fun x => { x with fwRunning := .empty }) hid hlife hplaces pufOk
  have hrom : s.bootRom true false pufOk =
      let u := (s.onIsl fun x => { x with fwRunning := .empty }).identity pufOk
      if u.isl.idOk then u.bootSlots true else u := rfl
  rw [hident] at hrom
  obtain ⟨pcie', out', hslots⟩ := State.bootSlots_empty (s := { s with
    freeCtr, pcie, out
    isl := { s.isl with hasId := true, idOk := true, idModulus := Config.identityModulus, ledger := s.isl.ledger ++ [e], nearFull
                        fwRunning := .empty } }) ha hb true
  exact ⟨e, nearFull, pcie', out', freeCtr, hrom.trans hslots⟩

/-! ### Release from reset (R425, R427) -/

/-- RST_N is no longer driven. -/
def State.undriveRst (s : State) : State :=
  if s.aon.rstDrive then (s.onAon fun a => { a with rstDrive := false }).emit (.drive 0 true) else s

theorem State.undriveRst_eq (s : State) : ∃ out, s.undriveRst = { s with aon := { s.aon with rstDrive := false }, out } := by
  unfold State.undriveRst
  split
  · exact ⟨_, rfl⟩
  · rename_i h
    exact ⟨s.out, by rw [← eq_false_of_ne_true h]⟩

/-- The state in which the option-loading phase begins, with the straps sampled. -/
def State.sampled (s : State) (cls : ResetClass) (boot timeRoot chainHead : Bool) : State :=
  (s.undriveRst.onAon fun a =>
    { a with phase := .loading s.undriveRst.now cls, tripHeld := false, rstLow := false, releasedAt := s.undriveRst.now, optsDone := false
             straps := b2n boot + 2 * b2n timeRoot + 4 * b2n chainHead }).onHt fun h => { h with root := timeRoot }

theorem State.sampled_eq (s : State) (cls : ResetClass) (boot timeRoot chainHead : Bool) :
    ∃ out, s.sampled cls boot timeRoot chainHead =
      { s with
        out, ht := { s.ht with root := timeRoot }
        aon := { s.aon with
          phase := .loading s.now cls, tripHeld := false, rstLow := false, releasedAt := s.now, optsDone := false, rstDrive := false
          straps := b2n boot + 2 * b2n timeRoot + 4 * b2n chainHead } } := by
  obtain ⟨out, h⟩ := s.undriveRst_eq
  rw [State.sampled, h]
  exact ⟨out, rfl⟩

theorem State.release_samples {s : State} {cls : ResetClass} {e : Nat} {f : Bool} (hphase : s.aon.phase = .inReset cls e f)
    (hpast : e ≤ s.now) (hrails : s.aon.railsOrder = 7) (htrip : s.aon.tripHeld = false) (boot timeRoot chainHead pufOk : Bool) :
    s.release true boot timeRoot chainHead pufOk = (s.sampled cls boot timeRoot chainHead).bootRom (cls = .cold) boot pufOk := by
  unfold State.release
  rw [hphase]
  exact (if_neg (by simp [hrails, htrip, hpast])).trans (if_neg (by simp))

/-! ### Option loading (R428, R436, R510) -/

theorem State.driveHot_eq (s : State) (low : Bool) : ∃ out, s.driveHot low = { s with aon := { s.aon with hotN := low }, out } := by
  unfold State.driveHot
  split
  · rename_i h
    exact ⟨s.out, by rw [← h]⟩
  · exact ⟨_, rfl⟩

/-- A port with a signal goes to QUIET. -/
def NearPort.roused (p : NearPort) : NearPort := if p.signal && p.state = LinkState.down then { p with state := .quiet } else p

/-- The state at the end of the option-loading phase, HOT_N aside. -/
def State.optioned (s : State) (cls : ResetClass) : State :=
  { s with
    near := tmap NearPort.reset NearPort.roused s.near, erg := { s.erg with training := !s.erg.ready }, pcie := { s.pcie with linkUp := true }
    aon := { s.aon with
      phase := if s.isl.fwRunning.len = 0 then .recovery else .booting cls, optsDone := true
      chainAddr := if s.aon.straps.testBit 2 then 1 else s.aon.chainAddr, headWalk := s.aon.straps.testBit 2 } }

theorem State.optionsLoaded_eq {s : State} {n : Nat} {cls : ResetClass} (h : s.aon.phase = .loading n cls) :
    s.optionsLoaded = (s.optioned cls).driveHot (s.temps.any fun x => 105 ≤ x) := by
  unfold State.optionsLoaded
  rw [h]
  rfl

/-! ### Boundary scan (R497) -/

theorem mem_tmap {α : Type} [DecidableEq α] {d : α} {f : α → α} {t : Tab α} {x : Nat × α} (h : x ∈ tmap d f t) :
    ∃ y ∈ t, x = (y.1, f y.2) := by
  obtain ⟨y, hy, hx⟩ := List.mem_map.mp (List.mem_filter.mp h).1
  exact ⟨y, hy, hx.symm⟩

section
variable {s : State} (h : tabWf Mailbox.reset s.pcie.mboxes = true)
include h

theorem State.finishWaiting_wf (mb status : Nat) (resp : Buf) : tabWf Mailbox.reset (s.finishWaiting mb status resp).pcie.mboxes = true :=
  State.putMbox_wf h mb _

theorem State.dropGuest_wf : tabWf Mailbox.reset s.dropGuest.pcie.mboxes = true := by
  unfold State.dropGuest
  dsimp only
  split
  · exact State.finishWaiting_wf (s := { s with guest := none }) h ..
  · exact h

theorem State.stopJob_wf : tabWf Mailbox.reset s.stopJob.pcie.mboxes = true := by
  unfold State.stopJob
  split
  · exact h
  · rename_i j _
    extract_lets t u v
    have hv : tabWf Mailbox.reset v.pcie.mboxes = true := by
      rw [State.raise_mboxes]
      exact State.dropGuest_wf h
    split
    · exact hv
    · exact State.finishWaiting_wf hv ..

end

/-- A stopped job is stopped, with no JOB_STOP that waits. -/
theorem State.stopJob_job (s : State) : s.stopJob.job = s.job.map fun j => { j with phase := .stopped, stopMb := none } := by
  unfold State.stopJob
  split
  · rename_i h
    rw [h]
    rfl
  · rename_i j h
    rw [h]
    dsimp only
    split
    · exact State.raise_job ..
    · exact State.raise_job ..

/-- A job is armed that has not stopped. -/
def State.jobUp (s : State) : Bool := match s.job with | some j => decide (j.phase ≠ JobPhase.stopped) | none => false

/-- The job stopped by a boundary-scan instruction. -/
def State.scanStopped (s : State) : State := (if s.jobUp then s.stopJob else s).onSite fun x => x.warm false

/-- A port whose pins boundary scan has taken. -/
def NearPort.scanned (p : NearPort) : NearPort := { p.halt with state := .down, width := 0 }

/-- The pins taken: mailboxes closed, ports and routes down. -/
def State.scanTaken (s : State) : State :=
  let u := (s.raise Ev.bscanTakeover).hostGone
  (({ u with near := tmap NearPort.reset NearPort.scanned u.near } : State).onAcx
    fun a => { a with ports := tmap FarPort.reset (fun p =>
      { p with routeA := { p.routeA with linkUp := false }, routeB := { p.routeB with linkUp := false } }) a.ports }).onAon fun a =>
    { a with phase := .taken, bscan := true, optsDone := false }

theorem State.scanTaken_near (s : State) :
    s.scanTaken.near = tmap NearPort.reset NearPort.scanned (s.raise Ev.bscanTakeover).hostGone.near := rfl

theorem State.scanStopped_stops {s : State} (h : tabWf Mailbox.reset s.pcie.mboxes = true) :
    tabWf Mailbox.reset s.scanStopped.pcie.mboxes = true ∧ ∀ j, s.scanStopped.job = some j → j.phase = .stopped := by
  unfold State.scanStopped
  split
  · refine ⟨State.stopJob_wf h, fun j hj => ?_⟩
    have hjob : s.stopJob.job = some j := hj
    rw [State.stopJob_job] at hjob
    obtain ⟨_, -, rfl⟩ := Option.map_eq_some_iff.mp hjob
    rfl
  · rename_i hnot
    refine ⟨h, fun j hj => ?_⟩
    have hjob : s.job = some j := hj
    simpa [State.jobUp, hjob] using hnot

theorem State.scanTaken_mbox {s : State} (h : tabWf Mailbox.reset s.pcie.mboxes = true) (k : Nat) :
    s.scanTaken.mbox k = if k < 16 then (s.mbox k).gone else s.mbox k := by
  have hgone := State.hostGone_mbox (s := s.raise Ev.bscanTakeover) (by rwa [State.raise_mboxes]) k
  rw [State.raise_mbox] at hgone
  rw [← hgone]
  unfold State.scanTaken
  generalize (s.raise Ev.bscanTakeover).hostGone = u
  rfl

theorem State.scanTaken_job (s : State) : s.scanTaken.job.map Job.phase = s.job.map Job.phase := by
  obtain ⟨_, _, _, _, _, _, _, hrest, hjob⟩ := (s.raise Ev.bscanTakeover).hostGone_same
  rw [State.raise_job] at hjob
  rw [State.scanTaken, hrest]
  exact hjob

/-! ### Each step of the sequence -/

/-- Settles O37: each event acts in the phase that it ends, and leaves the phase that comes next. -/
theorem bootSequenceCompletes : Obligations.BootSequenceCompletes := by
  intro s at_ t
  refine ⟨fun o cls e f hphase hlo hhi hrails => ?rail, fun cls e f timeRoot chainHead pufOk hphase hpast hrails htrip => ?release,
    fun n cls hphase => ?options, fun cls hphase hstop => ?ready, fun i hpins hscan hphase hwf => ?scan, fun i hpins => ?keeps, rfl⟩
  case rail =>
    refine congrArg Host.Outcome.next (if_neg ?_)
    simp [hphase, BootPhase.stretch, hrails]
    omega
  case release =>
    intro loading
    have hrelease (boot : Bool) := State.release_samples (s := t) hphase hpast hrails htrip boot timeRoot chainHead pufOk
    refine ⟨⟨_, congrArg Host.Outcome.next (hrelease true), ?_⟩, fun hcold hid hlife ha hb hplaces =>
      ⟨_, congrArg Host.Outcome.next (hrelease false), ?_⟩⟩
    · obtain ⟨out, hsampled⟩ := t.sampled_eq cls true timeRoot chainHead
      rw [hsampled]
      exact ⟨⟨rfl, rfl, rfl, rfl, rfl⟩, rfl⟩
    · subst hcold
      obtain ⟨out, hsampled⟩ := t.sampled_eq .cold false timeRoot chainHead
      rw [hsampled]
      obtain ⟨entry, nearFull, pcie, out', freeCtr, hrom⟩ := State.bootRom_first (s := { t with
        out, ht := { t.ht with root := timeRoot }
        aon := { t.aon with
          phase := .loading t.now .cold, tripHeld := false, rstLow := false, releasedAt := t.now, optsDone := false, rstDrive := false
          straps := b2n false + 2 * b2n timeRoot + 4 * b2n chainHead } }) hid hlife ha hb hplaces pufOk
      refine hrom ▸ ⟨⟨rfl, rfl, rfl, rfl, rfl⟩, rfl, rfl, rfl, ?_⟩
      simp [t]
  case options =>
    have hloaded := State.optionsLoaded_eq (s := t) hphase
    obtain ⟨out, hhot⟩ := (t.optioned cls).driveHot_eq (t.temps.any fun x => 105 ≤ x)
    refine ⟨_, congrArg Host.Outcome.next (hloaded.trans hhot), rfl, rfl, rfl, rfl, rfl, rfl, ?_, rfl⟩
    refine congrArg (tmap NearPort.reset · s.near) (funext fun p => ?_)
    simp [NearPort.roused]
  case ready =>
    refine congrArg Host.Outcome.next ?_
    unfold State.booted
    rw [show t.aon.phase = .booting cls from hphase]
    exact if_neg (ne_true_of_eq_false hstop)
  case scan =>
    obtain ⟨hwfU, hjobU⟩ := State.scanStopped_stops (s := t) hwf
    have htakes : t.bscan i = t.scanStopped.scanTaken := by
      unfold State.bscan
      exact if_neg (by simp [hpins, t, hscan, hphase])
    refine ⟨_, congrArg Host.Outcome.next htakes, rfl, rfl, fun k hk => ?_, fun p hp => ?_, fun j hj => ?_⟩
    · rw [State.scanTaken_mbox hwfU, if_pos hk]
      exact ⟨rfl, rfl⟩
    · rw [State.scanTaken_near] at hp
      obtain ⟨y, -, rfl⟩ := mem_tmap hp
      exact ⟨rfl, rfl⟩
    · have hjobT : t.scanStopped.job.map Job.phase = some j.phase := by rw [← State.scanTaken_job, hj]; rfl
      obtain ⟨j', hj', hphase'⟩ := Option.map_eq_some_iff.mp hjobT
      exact hphase'.symm.trans (hjobU j' hj')
  case keeps =>
    exact congrArg Host.Outcome.next (if_pos (by simp [hpins]))

end Sys2Proof.Machine
end

section
/-! SUPPORT. Power, rails, droop and die temperatures, for `Obligations.PowerEventsComplete` (O39). -/

namespace Sys2Proof.Machine

/-! ### The entry of DOZE (R446) -/

/-- `t` differs from `s` in the PCIe unit, in what the device has driven, and in the chain's commands that wait for a completion. -/
def State.SameButCompletion (s t : State) : Prop := ∃ cmdSeqs pcie out, t = { s with aon := { s.aon with cmdSeqs }, pcie, out }

theorem State.finishWaiting_same (s : State) (mb status : Nat) (resp : Buf) : s.SameButCompletion (s.finishWaiting mb status resp) :=
  ⟨_, _, _, rfl⟩

theorem State.SameButCompletion.trans {s t u : State} (h : s.SameButCompletion t) (h' : t.SameButCompletion u) : s.SameButCompletion u := by
  obtain ⟨_, _, _, rfl⟩ := h
  obtain ⟨_, _, _, rfl⟩ := h'
  exact ⟨_, _, _, rfl⟩

theorem State.chainComplete_same (s : State) : s.SameButCompletion s.chainComplete := by
  unfold State.chainComplete
  split
  · exact ⟨_, _, _, rfl⟩
  · exact ⟨_, _, _, rfl⟩

theorem State.complete_same (s : State) (k : Nat) : s.SameButCompletion (s.complete k) := by
  unfold State.complete
  dsimp only
  split
  · exact ⟨_, _, _, rfl⟩
  · split
    · exact ⟨_, _, _, rfl⟩
    · split
      · split
        · obtain ⟨_, _, h⟩ := State.sendMsix_eq _ ((s.mbox k).vectorX ^^^ k)
          rw [h]
          exact ⟨_, _, _, rfl⟩
        · exact ⟨_, _, _, rfl⟩
      · split
        · exact ⟨_, _, _, rfl⟩
        · exact ⟨_, _, _, rfl⟩

/-- The state in which DOZE takes the rails down: the completion written, the host gone. -/
def State.dozeReady (s : State) (mb : Nat) : State :=
  let u := s.finishWaiting mb 0 (refuserResp 0)
  (if mb = 16 then u.chainComplete else u.complete mb).hostGone

theorem State.enterDoze_eq (s : State) (mb : Nat) :
    s.enterDoze mb = ((s.dozeReady mb).railsDown .doze).onAon fun a => { a with dozeAt := (s.dozeReady mb).now, dozeFirst := true } := rfl

/-- What DOZE keeps of the state that it finds. -/
theorem State.dozeReady_keeps (s : State) (mb : Nat) :
    (s.dozeReady mb).now = s.now ∧ (s.dozeReady mb).aon.chainAddr = s.aon.chainAddr ∧ (s.dozeReady mb).isl = s.isl := by
  have hdone : s.SameButCompletion (if mb = 16 then (s.finishWaiting mb 0 (refuserResp 0)).chainComplete
      else (s.finishWaiting mb 0 (refuserResp 0)).complete mb) := by
    split
    · exact (s.finishWaiting_same ..).trans (State.chainComplete_same _)
    · exact (s.finishWaiting_same ..).trans (State.complete_same _ mb)
  obtain ⟨cmdSeqs, pcie, out, hdone⟩ := hdone
  obtain ⟨_, _, _, _, _, _, _, hgone, -⟩ := State.hostGone_same { s with aon := { s.aon with cmdSeqs }, pcie, out }
  rw [State.dozeReady, hdone, hgone]
  exact ⟨rfl, rfl, rfl⟩

theorem State.enterDoze_leaves (s : State) (mb : Nat) :
    (s.enterDoze mb).aon.power = .doze ∧ (s.enterDoze mb).aon.phase = .powerOff ∧ (s.enterDoze mb).aon.dozeAt = s.now ∧
      (s.enterDoze mb).aon.dozeFirst = true ∧ (s.enterDoze mb).job = none ∧ (s.enterDoze mb).cores = [] ∧
      (s.enterDoze mb).aon.chainAddr = s.aon.chainAddr ∧ (s.enterDoze mb).isl.ledger = s.isl.ledger := by
  obtain ⟨hnow, haddr, hisl⟩ := s.dozeReady_keeps mb
  rw [State.enterDoze_eq]
  generalize s.dozeReady mb = u at *
  exact ⟨rfl, rfl, hnow, rfl, rfl, rfl, haddr, (congrArg Island.ledger hisl :)⟩

/-! ### Entries, samples and alerts (R444, R447, R453) -/

section
variable {s : State}

theorem State.powerEntry_holds {mb d : Nat} (h : s.aon.entering = some (1, mb, d))
    (hnone : (s.onAon fun a => { a with entering := none }).refusers 1 (if (s.mbox mb).cmds.isEmpty then 0 else 1) = 0) :
    s.powerEntry = (((s.onAon fun a => { a with entering := none, power := .hold }).raise Ev.powerHold).finishWaiting mb 0 (refuserResp 0)) := by
  unfold State.powerEntry
  rw [h]
  exact (if_neg (not_not.mpr hnone)).trans (if_pos rfl)

theorem State.powerEntry_dozes {mb d : Nat} (h : s.aon.entering = some (2, mb, d))
    (hnone : (s.onAon fun a => { a with entering := none }).refusers 2 (if (s.mbox mb).cmds.isEmpty then 0 else 1) = 0) :
    s.powerEntry = (s.onAon fun a => { a with entering := none }).enterDoze mb := by
  unfold State.powerEntry
  rw [h]
  exact (if_neg (not_not.mpr hnone)).trans (if_neg (by decide))

/-- The rails of the configured regulators in a poll, with their STATUS_WORDs. -/
def State.polled (s : State) (l : List (Nat × Nat)) : List (Nat × Nat) :=
  l.filterMap fun (x : Nat × Nat) => (s.isl.regulator x.1).map fun r => (r, x.2)

/-- An alert taken up. -/
def State.alerted (s : State) : State :=
  s.onAon fun a => { a with alertAt := some s.now, alertSince := some s.now, alertAside := false }

theorem State.pmAlert_fault {l : List (Nat × Nat)} (hphase : s.aon.phase ≠ .powerOff) (haside : s.aon.alertAside = false)
    (hdue : s.due s.aon.alertAt oneMs = true) {x : Nat × Nat} (hx : (s.polled l).find? (fun y => statusFault y.2) = some x) :
    s.pmAlert l = (s.alerted.onAon fun a => { a with railRec := some x }).railsDown .off := by
  have hacts : s.pmAlert l = match (s.polled l).find? fun y => statusFault y.2 with
      | some x => (s.alerted.onAon fun a => { a with railRec := some x }).railsDown .off
      | none => _ := (if_neg hphase).trans (if_neg (by simp [haside, hdue]))
  rw [hacts, hx]

theorem State.pmAlert_warns {l : List (Nat × Nat)} (hphase : s.aon.phase ≠ .powerOff) (haside : s.aon.alertAside = false)
    (hdue : s.due s.aon.alertAt oneMs = true) (hx : (s.polled l).find? (fun y => statusFault y.2) = none) :
    s.pmAlert l =
      ((s.polled l).filter fun x => x.2 ≠ 0).foldl (fun v x => v.raise Ev.railWarning x.1 [(8, x.1), (16, x.2)]) s.alerted := by
  have hacts : s.pmAlert l = match (s.polled l).find? fun y => statusFault y.2 with
      | some x => _
      | none => ((s.polled l).filter fun x => x.2 ≠ 0).foldl (fun v x => v.raise Ev.railWarning x.1 [(8, x.1), (16, x.2)]) s.alerted :=
    (if_neg hphase).trans (if_neg (by simp [haside, hdue]))
  rw [hacts, hx]

theorem State.alertStuck_long {d : Nat} (hsince : s.aon.alertSince = some d) (haside : s.aon.alertAside = false)
    (hlong : d + 100 * oneMs < s.now) : s.alertStuck =
      (s.onAon fun a => { a with alertAside := true, alertSince := none, alertAt := some s.now }).raise Ev.railAlertStuck := by
  unfold State.alertStuck
  rw [hsince]
  exact if_neg (by simp [haside, hlong])

theorem State.dozeSample_remembers {i : DozeInputs} (hpower : s.aon.power = .doze) (hdue : s.aon.dozeAt + s.aon.dozePeriod * oneMs ≤ s.now)
    (hmatch : s.aon.dozeMatch i = 0) : s.dozeSample i = s.onAon fun a =>
      { a with dozeAt := s.now, dozeFirst := false, dozeChain := false, dozeFar := i.farSignal &&& a.dozeMask ≠ 0
               dozeTemp := i.dieTemps.any fun x => a.dozeHi < x || x < a.dozeLo } := by
  unfold State.dozeSample
  exact (if_neg (by simp [hpower, Nat.not_lt.mpr hdue])).trans (if_neg (not_not.mpr hmatch))

/-- A poll is kept, and its energy shared where a step runs (R454). -/
theorem State.powerSample_eq (s : State) (mw : Nat) : s.powerSample mw =
    let u := s.onAon fun a => { a with samples := (a.samples ++ [mw]).drop (a.samples.length + 1 - 10) }
    match s.job with
    | some j => if j.phase = .running ∨ j.phase = .stopping then
        let x := j.shares s.jt
        u.onAon fun a => { a with
          curEnergy := a.curEnergy + mw * x.1, curExt := a.curExt + mw * x.2.1
          stepEnergy := a.stepEnergy + mw * x.2.2.1, extEnergy := a.extEnergy + mw * x.2.2.2 } else u
    | none => u := by
  unfold State.powerSample
  dsimp only
  cases hjob : s.job with
  | none => simp [State.onAon, hjob]
  | some j =>
    have hjob' (f : Aon → Aon) : (s.onAon f).job = some j := hjob
    rw [hjob']
    dsimp only
    by_cases hrun : j.phase = .running ∨ j.phase = .stopping
    · rw [if_neg (by simpa [or_iff_not_imp_left] using hrun), if_pos hrun]
      rfl
    · rw [if_pos (by simpa [not_or] using hrun), if_neg hrun]

/-! ### Droop and temperatures (R455, R510) -/

/-- Gating begins on a die that has run ungated for 8 cycles, or was never gated. -/
theorem State.droop_gates {k : Nat} (hgate : (s.die k).gateOn = false)
    (hgap : (s.die k).gateEnd = 0 ∨ 8 ≤ coreCycle s.now - coreCycle (s.die k).gateEnd) :
    s.droop k = s.putDie k { s.die k with gateOn := true, gateStart := s.now } := by
  refine if_neg ?_
  obtain hzero | hgap := hgap
  · simp [hgate, hzero]
  · have hlong : ¬ coresBetween (s.die k).gateEnd s.now < 8 := Nat.not_lt.mpr hgap
    simp only [hgate, hlong]
    simp

/-- A die at the end of a gated run. -/
def Die.ungated (d : Die) (now : Nat) : Die :=
  { d with gateOn := false, gateEnd := Nat.min now (d.gateStart + 5), gated := d.gated + Nat.min 8 (coreCycle now - coreCycle d.gateStart) }

theorem State.droopEnd_quiet {k : Nat} (hgate : (s.die k).gateOn = true) (hdue : s.due (s.die k).droopEvAt oneS = false) :
    s.droopEnd k = s.putDie k ((s.die k).ungated s.now) := (if_neg (by simp [hgate])).trans (if_neg (by simp [hdue]))

theorem State.droopEnd_raises {k : Nat} (hgate : (s.die k).gateOn = true) (hdue : s.due (s.die k).droopEvAt oneS = true) :
    s.droopEnd k =
      (s.putDie k { (s.die k).ungated s.now with gatedRep := ((s.die k).ungated s.now).gated, droopEvAt := some s.now }).raise
        Ev.powerDroop k [(3, k), (16, Nat.min (((s.die k).ungated s.now).gated - (s.die k).gatedRep) 65535)] :=
  (if_neg (by simp [hgate])).trans (if_pos hdue)

/-- What DIE_TEMPERATURE_CHANGE does with HOT_N once the options are loaded. -/
theorem State.tempChange_loaded {k : Nat} {x : Int} (h : s.aon.optsDone = true) : s.tempChange k x =
    let u := s.setTemp k x
    if u.temps.any fun t => 105 ≤ t then u.driveHot true else if u.temps.all fun t => t < 100 then u.driveHot false else u := by
  obtain ⟨dies, temps9, hset⟩ := s.setTemp_eq k x
  exact if_neg (by rw [hset]; simp [h])

theorem State.tempChange_loading {k : Nat} {x : Int} (h : s.aon.optsDone = false) : s.tempChange k x = s.setTemp k x := by
  obtain ⟨dies, temps9, hset⟩ := s.setTemp_eq k x
  exact if_pos (by rw [hset]; simp [h])

end

/-- Settles O39: each event in the conditions in which it acts. -/
theorem powerEventsComplete : Obligations.PowerEventsComplete := by
  intro s at_ t
  refine ⟨fun mb d u hentering hu hnone => ?hold, fun mb d u hentering hu hnone => ?doze, fun i hpower hdue hmatch => ?sample,
    fun l found u hphase haside hdue hfound hu => ?alert, fun d hsince haside hlong => ?stuck, fun mw => ?power,
    fun die mv hrails hdue => ?avs, fun die hgate hgap => ?droop, fun die d n hd hgate hn => ?recover, fun die temp => ?temp⟩
  case hold =>
    subst hu
    exact congrArg Host.Outcome.next (State.powerEntry_holds (s := t) hentering hnone)
  case doze =>
    subst hu
    exact ⟨_, congrArg Host.Outcome.next (State.powerEntry_dozes (s := t) hentering hnone), State.enterDoze_leaves ..⟩
  case sample => exact congrArg Host.Outcome.next (State.dozeSample_remembers (s := t) hpower hdue hmatch)
  case alert =>
    subst hfound hu
    have hdue' : t.due t.aon.alertAt oneMs = true := State.due_of_passed hdue
    exact ⟨fun x hx => congrArg Host.Outcome.next (State.pmAlert_fault (s := t) hphase haside hdue' hx),
      fun hx => congrArg Host.Outcome.next (State.pmAlert_warns (s := t) hphase haside hdue' hx)⟩
  case stuck => exact congrArg Host.Outcome.next (State.alertStuck_long (s := t) hsince haside hlong)
  case power => exact congrArg Host.Outcome.next (State.powerSample_eq t mw)
  case avs =>
    have hdue' : t.due (t.die die).avsAt (10 * oneMs) = true := State.due_of_passed hdue
    have hrails' : t.aon.railsOrder = 7 := hrails
    exact congrArg Host.Outcome.next (if_neg (by rw [hrails', hdue']; decide))
  case droop => exact congrArg Host.Outcome.next (State.droop_gates (s := t) hgate hgap)
  case recover =>
    intro e
    subst hd hn
    refine ⟨fun r hr hsoon => congrArg Host.Outcome.next (State.droopEnd_quiet (s := t) hgate ?_), fun hpast =>
      congrArg Host.Outcome.next (State.droopEnd_raises (s := t) hgate (State.due_of_passed hpast))⟩
    have hlast : (t.die die).droopEvAt = some r := hr
    rw [hlast]
    exact decide_eq_false (Nat.not_le.mpr hsoon)
  case temp =>
    intro u
    refine ⟨fun hopts ⟨x, hx, hhot⟩ => congrArg Host.Outcome.next ?_, fun hopts hcool => congrArg Host.Outcome.next ?_,
      fun hopts => congrArg Host.Outcome.next (State.tempChange_loading (s := t) hopts)⟩
    · rw [State.tempChange_loaded (s := t) hopts]
      exact if_pos (List.any_eq_true.mpr ⟨x, hx, decide_eq_true hhot⟩)
    · rw [State.tempChange_loaded (s := t) hopts]
      refine (if_neg ?_).trans (if_pos (List.all_eq_true.mpr fun x hx => decide_eq_true (hcool x hx)))
      rw [Bool.not_eq_true, List.any_eq_false]
      intro x hx
      have := hcool x hx
      simp
      omega

end Sys2Proof.Machine
end

section
/-! SUPPORT. AES-256-GCM opens what it seals, for `Obligations.SealedDatagramsOpen` (O21). -/

namespace Sys2Proof.Machine

/-! ### The tag is a block (R337) -/

theorem ghashMul_lt {n x v z : Nat} (hv : v < 2 ^ 128) (hz : z < 2 ^ 128) : ghashMul n x v z < 2 ^ 128 := by
  induction n generalizing v z with
  | zero => exact hz
  | succ n ih =>
    have hhalf : v >>> 1 < 2 ^ 128 := Nat.shiftRight_le v 1 |>.trans_lt hv
    refine ih ?_ ?_
    · split
      · exact Nat.xor_lt_two_pow hhalf (by decide)
      · exact hhalf
    · split
      · exact Nat.xor_lt_two_pow hz hv
      · exact hz

theorem ghash_lt {h : Nat} (hh : h < 2 ^ 128) (blocks : List Nat) : ghash h blocks < 2 ^ 128 := by
  have hfold (l : List Nat) (y : Nat) (hy : y < 2 ^ 128) : l.foldl (fun y b => ghashMul 128 (y ^^^ b) h 0) y < 2 ^ 128 := by
    induction l generalizing y with
    | nil => exact hy
    | cons b l ih => exact ih _ (ghashMul_lt hh (by decide))
  exact hfold blocks 0 (by decide)

theorem gcmTag_lt (keys : List Nat) (iv : Nat) (aad ct : Buf) : gcmTag keys iv aad ct < 256 ^ 16 :=
  Nat.xor_lt_two_pow (n := 128) (ghash_lt (revBytes_lt 16 _) _) (revBytes_lt 16 _)

/-! ### One byte string after another -/

theorem pow_256 (n : Nat) : 256 ^ n = 2 ^ (8 * n) := (pow_mul 2 8 n).symm

/-- The first part of two, read back. -/
theorem Buf.slice_app (a b : Buf) : (a.app b).slice 0 a.len = ⟨a.len, a.val % 256 ^ a.len⟩ := by
  simp [Buf.slice, Buf.le, Buf.app, bits, pow_256, Nat.shiftLeft_eq]

/-- The second part of two, read back. -/
theorem Buf.be_app_ofBe (a : Buf) {n v : Nat} (h : v < 256 ^ n) : (a.app (Buf.ofBe n v)).be a.len n = v := by
  have hlow : a.val % 2 ^ (8 * a.len) / 2 ^ (8 * a.len) = 0 := Nat.div_eq_of_lt (Nat.mod_lt _ (by positivity))
  have hrev := revBytes_lt n v
  rw [pow_256] at hrev
  rw [Buf.be, Buf.le, Buf.app, bits, pow_256, Nat.shiftLeft_eq, Nat.shiftRight_eq_div_pow, Nat.add_mul_div_right _ _ (by positivity),
    hlow, Nat.zero_add, Buf.ofBe, Nat.mod_eq_of_lt hrev, revBytes_revBytes h]

/-! ### The key stream (R337) -/

/-- The key stream applied twice leaves the bytes. -/
theorem gcmCtr_gcmCtr (keys : List Nat) (iv : Nat) (b : Buf) : gcmCtr keys iv (gcmCtr keys iv b) = ⟨b.len, b.val % 256 ^ b.len⟩ := by
  simp only [gcmCtr, pow_256, Nat.xor_mod_two_pow, Nat.mod_mod, Nat.xor_assoc, Nat.xor_self, Nat.xor_zero]

theorem gcmCtr_mod (keys : List Nat) (iv : Nat) (b : Buf) :
    (⟨(gcmCtr keys iv b).len, (gcmCtr keys iv b).val % 256 ^ (gcmCtr keys iv b).len⟩ : Buf) = gcmCtr keys iv b := by
  simp only [gcmCtr, Nat.mod_mod]

/-- Settles O21: the ciphertext and the tag are read back from the sealed message, and the key stream undoes itself. -/
theorem sealedDatagramsOpen : Obligations.SealedDatagramsOpen := by
  intro key iv aad pt
  have hlen : (gcmSeal key iv aad pt).len - 16 = (gcmCtr (aesKeys key) iv pt).len := Nat.add_sub_cancel ..
  have hct : (gcmSeal key iv aad pt).slice 0 (gcmCtr (aesKeys key) iv pt).len = gcmCtr (aesKeys key) iv pt :=
    (Buf.slice_app ..).trans (gcmCtr_mod ..)
  have htag : (gcmSeal key iv aad pt).be (gcmCtr (aesKeys key) iv pt).len 16 = _ := Buf.be_app_ofBe _ (gcmTag_lt ..)
  have hlong : ¬ (gcmSeal key iv aad pt).len < 16 := Nat.not_lt.mpr (Nat.le_add_left 16 _)
  unfold gcmOpen
  rw [if_neg hlong]
  dsimp only
  rw [hlen, hct, htag, if_pos rfl, gcmCtr_gcmCtr]

end Sys2Proof.Machine
end

section
/-! SUPPORT. What an arm sets and nothing after it touches, for `Obligations.ArmedJobState` (O30). -/

namespace Sys2Proof.Machine

/-! ### Indexed sets by their entries -/

section Entries
variable {α : Type} {d : α}

/-- An index reads an entry of the set, or the default. -/
theorem tget_mem_or (t : Tab α) (k : Nat) : tget d t k = d ∨ ∃ e ∈ t, tget d t k = e.2 := by
  induction t with
  | nil => exact .inl rfl
  | cons c t ih =>
    obtain ⟨i, v⟩ := c
    by_cases hk : k = i
    · exact .inr ⟨(i, v), by simp, by simp [tget, hk]⟩
    · by_cases hlt : k < i
      · exact .inl (by simp [tget, hk, hlt])
      · obtain h | ⟨e, he, h⟩ := ih
        · exact .inl (by simpa [tget, hk, hlt] using h)
        · exact .inr ⟨e, by simp [he], by simpa [tget, hk, hlt] using h⟩

/-- What a set holds after a write is the value written or was held before. -/
theorem mem_tset [DecidableEq α] {t : Tab α} {k : Nat} {x : α} {e : Nat × α} (h : e ∈ tset d t k x) : e.2 = x ∨ e ∈ t := by
  induction t with
  | nil =>
    unfold tset at h
    split at h
    · exact absurd h (by simp)
    · exact .inl (congrArg Prod.snd (List.mem_singleton.mp h))
  | cons c t ih =>
    obtain ⟨i, v⟩ := c
    unfold tset at h
    split_ifs at h
    · exact .inr h
    · obtain rfl | h := List.mem_cons.mp h
      · exact .inl rfl
      · exact .inr h
    · exact .inr (List.mem_cons_of_mem _ h)
    · obtain rfl | h := List.mem_cons.mp h
      · exact .inl rfl
      · exact .inr (List.mem_cons_of_mem _ h)
    · obtain rfl | h := List.mem_cons.mp h
      · exact .inr List.mem_cons_self
      · exact (ih h).imp id (List.mem_cons_of_mem _)

end Entries

/-! ### Idle cores -/

/-- A core that runs nothing, with its count of busy cycles at its start. -/
def Core.idle (c : Core) : Prop := c.busy = 0 ∧ c.kernel = none

/-- Every listed core is idle. -/
def State.allIdle (s : State) : Prop := ∀ e ∈ s.cores, e.2.idle

theorem Core.reset_idle : Core.reset.idle := ⟨rfl, rfl⟩

theorem State.allIdle.core {s : State} (h : s.allIdle) (k : Nat) : (s.core k).idle := by
  obtain hd | ⟨e, he, hv⟩ := tget_mem_or (d := Core.reset) s.cores k
  · rw [State.core, hd]
    exact Core.reset_idle
  · rw [State.core, hv]
    exact h e he

/-! ### What keeps the job, the controller and idle cores -/

/-- `t` has the job, the stale count, the miss records and the controller of `s`, and idle cores where `s` has. -/
def State.KeepsRun (s t : State) : Prop :=
  t.job = s.job ∧ t.soStale = s.soStale ∧ t.miss = s.miss ∧ t.com = s.com ∧ (s.allIdle → t.allIdle)

namespace State.KeepsRun

variable {s t u : State}

theorem refl (s : State) : s.KeepsRun s := ⟨rfl, rfl, rfl, rfl, id⟩

theorem trans (h : s.KeepsRun t) (h' : t.KeepsRun u) : s.KeepsRun u := by
  obtain ⟨hjob, hstale, hmiss, hcom, hidle⟩ := h
  obtain ⟨hjob', hstale', hmiss', hcom', hidle'⟩ := h'
  exact ⟨hjob'.trans hjob, hstale'.trans hstale, hmiss'.trans hmiss, hcom'.trans hcom, hidle' ∘ hidle⟩

/-- One operation for each element of a list. -/
theorem foldl {α : Type} {f : State → α → State} (hf : ∀ (s : State) (a : α), s.KeepsRun (f s a)) (l : List α) (s : State) :
    s.KeepsRun (l.foldl f s) := by
  induction l generalizing s with
  | nil => exact refl s
  | cons a l ih => exact (hf s a).trans (ih _)

theorem ite {p : Prop} [Decidable p] (ht : s.KeepsRun t) (hu : s.KeepsRun u) : s.KeepsRun (if p then t else u) := by
  split
  · exact ht
  · exact hu

theorem raise (s : State) (e : Ev) (unit : Nat) (items : List (Nat × Nat)) (step : Nat) (guest : Bool) :
    s.KeepsRun (s.raise e unit items step guest) := by
  obtain ⟨p, o, h⟩ := s.raise_eq e unit items step guest
  rw [h]
  exact refl s

theorem onPcie (s : State) (f : Pcie → Pcie) : s.KeepsRun (s.onPcie f) := ⟨rfl, rfl, rfl, rfl, id⟩

theorem onIsl (s : State) (f : Island → Island) : s.KeepsRun (s.onIsl f) := ⟨rfl, rfl, rfl, rfl, id⟩

theorem measure (s : State) (kind detail : Nat) (digest : Buf) : s.KeepsRun (s.measure kind detail digest) := onIsl ..

theorem scratchWrite (s : State) (core a n v : Nat) (bad : Bool) : s.KeepsRun (s.scratchWrite core a n v bad) := by
  unfold State.scratchWrite
  refine ite (refl s) ⟨rfl, rfl, rfl, rfl, fun hidle e he => ?_⟩
  obtain hput | hmem := mem_tset he
  · rw [hput]
    exact hidle.core core
  · exact hidle e hmem

theorem oasisWrite (s : State) (a n v : Nat) (bad : Bool) : s.KeepsRun (s.oasisWrite a n v bad) := ite (refl _) (refl _)

theorem ergWrite (s : State) (ela n v : Nat) (bad : Bool) : s.KeepsRun (s.ergWrite ela n v bad) := by
  refine foldl (fun s p => ?_) _ _
  dsimp only
  split
  · exact refl s
  · exact refl s

theorem initRegion (s : State) (b : Buf) (r : Region) : s.KeepsRun (s.initRegion b r) := by
  unfold State.initRegion
  split
  · exact refl s
  · split
    · exact ergWrite ..
    · exact oasisWrite ..
    · exact scratchWrite ..

theorem putApply (s : State) (b : Buf) (f round mode : Nat) (ready : Bool) (step : Nat) :
    s.KeepsRun (s.putApply b f round mode ready step) := by
  refine foldl (fun s p => ?_) _ _
  exact oasisWrite ..

theorem enterBootstrap (s : State) (b : Buf) (f : Nat) (donor : Option Nat) : s.KeepsRun (s.enterBootstrap b f donor) :=
  (putApply s b f 0 0 false 0).trans (refl _)

theorem armFrags (s : State) (b : Buf) (join : Option (Option Nat)) : s.KeepsRun (s.armFrags b join) := by
  refine trans (t := s.onAcx fun a => { a with frags := [] }) (refl s) (foldl (fun s f => ?_) _ _)
  have hput := putApply (s.putFrag f { Fragment.reset with jstate := 3, active := imgSites b }) b f 0 0 false 0
  cases join with
  | none => exact hput
  | some d => exact hput.trans (enterBootstrap ..)

theorem storeCopy (s : State) (b params : Buf) : s.KeepsRun (s.storeCopy b params) := by
  unfold State.storeCopy
  split
  · exact refl s
  · exact ergWrite ..

theorem sendNeighbourNotices (s : State) : s.KeepsRun s.sendNeighbourNotices := by
  unfold State.sendNeighbourNotices
  split
  · exact refl s
  · refine foldl (fun s p => ?_) _ _
    exact refl s

theorem sendHello (s : State) (k type session : Nat) (payload : Buf) : s.KeepsRun (s.sendHello k type session payload) := by
  refine foldl (fun s r => ?_) _ _
  exact ite (refl s) (refl s)

theorem initSession (s : State) (peer port : Nat) (bulk : Bool) (mb : Option Nat) : s.KeepsRun (s.initSession peer port bulk mb).1 := by
  unfold State.initSession
  split
  · exact refl s
  · split
    · exact refl s
    · extract_lets keep
      split
      rename_i id s1 h1
      split
      rename_i n s2 h2
      extract_lets head body pay x s3
      have hid : s.KeepsRun s.pickSessId.2 := refl s
      have hn : s1.KeepsRun s1.random.2 := refl s1
      rw [h1] at hid
      rw [h2] at hn
      have hweir : s2.KeepsRun s3 := refl s2
      exact (hid.trans hn).trans (hweir.trans (sendHello ..))

theorem callPartners (s : State) (b : Buf) : s.KeepsRun (s.callPartners b) := by
  refine foldl (fun s k => ?_) _ _
  split
  · exact ite (initSession ..) (refl s)
  · exact initSession ..

end State.KeepsRun

/-! ### The arm (R363) -/

/-- The job of an arm (R363). -/
def Job.ofArm (b : Buf) (epoch : Option Int) (seed sfl : Nat) : Job :=
  { image := b, epoch := epoch.getD 0, hasEpoch := epoch.isSome, seed, sfLimit := sfl, phase := .armed, fresh := true, step := 0,
    sn := 0, xNext := 0, xPrev := 0, sfRun := 0, missThis := false, relayout := none, oldImage := none, drainStep := 0, stopMb := none }

/-- The state in which an arm copies the initial data: everything stopped and set to its start. -/
def State.armStart (s : State) (b : Buf) (epoch : Option Int) (seed sfl : Nat) : State :=
  { s.halt.loadKernels b false with
    scratch := ⟨[], []⟩
    job := some (.ofArm b epoch seed sfl), cores := tmap Core.reset Core.armed (s.halt.loadKernels b false).cores
    dies := tmap Die.reset Die.armed (s.halt.loadKernels b false).dies
    sos := [], soStart := -1, soStale := 0, miss := [], spills := [], spillOff := 0, com := Commit.armed b
    near := tmap NearPort.reset (fun n => { n with notice := none }) (s.halt.loadKernels b false).near }

theorem State.armStart_idle (s : State) (b : Buf) (epoch : Option Int) (seed sfl : Nat) : (s.armStart b epoch seed sfl).allIdle := by
  intro e he
  obtain ⟨y, -, rfl⟩ := mem_tmap (d := Core.reset) (f := Core.armed) he
  exact ⟨rfl, rfl⟩

/-- After its start an arm touches nothing that it has set there. -/
theorem State.armJob_keeps (s : State) (b : Buf) (epoch : Option Int) (seed sfl : Nat) (join : Option (Option Nat)) :
    (s.armStart b epoch seed sfl).KeepsRun (s.armJob b epoch seed sfl join) := by
  unfold State.armJob
  extract_lets j s0 s1 s2 s3 s4 s5 s6
  have h2 : s1.KeepsRun s2 := .foldl (fun s r => .initRegion s b r) _ _
  have h3 : s2.KeepsRun s3 := .onPcie ..
  have h4 : s3.KeepsRun s4 := (KeepsRun.armFrags s3 b join).trans (.storeCopy ..)
  have h5 : s4.KeepsRun s5 := .measure ..
  have h6 : s5.KeepsRun s6 := .ite (.sendNeighbourNotices _) (.refl _)
  exact ((h2.trans h3).trans (h4.trans h5)).trans (h6.trans ((KeepsRun.callPartners s6 b).trans (.raise ..)))

/-- Settles O30: what the arm sets at its start, kept to its end. -/
theorem armedJobState : Obligations.ArmedJobState := by
  intro s b epoch seed sfl join t
  obtain ⟨hjob, hstale, hmiss, hcom, hidle⟩ := s.armJob_keeps b (some epoch) seed sfl join
  have hcores := hidle (s.armStart_idle b (some epoch) seed sfl)
  refine ⟨⟨_, hjob, rfl, rfl, rfl, rfl, rfl, rfl, rfl, rfl, rfl⟩, s.so_armJob b (some epoch) seed sfl join, hstale, fun k => ?_,
    congrArg Commit.hist hcom, hcores.core⟩
  rw [State.missRec, hmiss]
  rfl

end Sys2Proof.Machine
end

section
/-! SUPPORT. Commands fetched and completions written, for `Obligations.FetchAndCompletionComplete` (O33). -/

namespace Sys2Proof.Machine

/-- A canonical set with an index set to what it reads is the same set. -/
theorem tset_tget {α : Type} [DecidableEq α] {d : α} {lo : Nat} {t : Tab α} (h : tabFrom d lo t = true) (k : Nat) :
    tset d t k (tget d t k) = t := by
  induction t generalizing lo with
  | nil => simp [tset, tget]
  | cons c t ih =>
    obtain ⟨i, v⟩ := c
    simp only [tabFrom, Bool.and_eq_true, decide_eq_true_eq] at h
    obtain ⟨⟨-, hv⟩, ht⟩ := h
    rcases lt_trichotomy k i with hk | rfl | hk
    · simp [tset, tget, hk, hk.ne]
    · simp [tset, tget, hv]
    · simp [tset, tget, hk.ne', hk.not_gt, ih ht]

section
variable {s : State} {k : Nat}

/-! ### Fetches (R388, R391, R397) -/

theorem State.fetch_ready (hk : k < 16) (hopen : (s.mbox k).state = .open_) (hposted : (s.mbox k).posted ≠ 0)
    (hfree : (s.mbox k).unread < 64) (entry : Option Buf) : s.fetch k entry =
      match entry with
      | none => s.onMbox k fun m => { m.setErr 2 s.nocNow with state := .stopped }
      | some e =>
        s.onMbox k fun m =>
          if 64 ≤ m.cmds.length then
            { m with cmdHead := (m.cmdHead + 1) % 2 ^ 16, busy := m.busy ++ [⟨e, .finished, 1, .empty, 0, s.htStamp, .empty, .empty⟩] }
          else { m with cmdHead := (m.cmdHead + 1) % 2 ^ 16, cmds := m.cmds ++ [Cmd.fetched (e.slice 0 256) s.htStamp] } :=
  if_neg (by simp [hk, hopen, hposted, Mailbox.slotFree, hfree])

/-- An entry that can be read, with room for its command. -/
theorem State.fetch_takes (hk : k < 16) (hopen : (s.mbox k).state = .open_) (hposted : (s.mbox k).posted ≠ 0)
    (hfree : (s.mbox k).unread < 64) (hroom : (s.mbox k).cmds.length < 64) (e : Buf) : s.fetch k (some e) =
      s.putMbox k { s.mbox k with
        cmdHead := ((s.mbox k).cmdHead + 1) % 2 ^ 16, cmds := (s.mbox k).cmds ++ [Cmd.fetched (e.slice 0 256) s.htStamp] } :=
  (State.fetch_ready hk hopen hposted hfree (some e)).trans (congrArg (s.putMbox k) (if_neg (Nat.not_le.mpr hroom)))

/-- A read of the entry that failed stops the mailbox. -/
theorem State.fetch_fails (hk : k < 16) (hopen : (s.mbox k).state = .open_) (hposted : (s.mbox k).posted ≠ 0)
    (hfree : (s.mbox k).unread < 64) : s.fetch k none = s.putMbox k { (s.mbox k).setErr 2 s.nocNow with state := .stopped } :=
  State.fetch_ready hk hopen hposted hfree none

/-! ### Completions (R388, R392) -/

/-- The release of a held kernel changes cores only. -/
theorem State.releaseAcc_eq (s : State) (mb : Nat) : ∃ cores, s.releaseAcc mb = { s with cores } := by
  unfold State.releaseAcc
  split
  · exact ⟨_, rfl⟩
  · exact ⟨s.cores, rfl⟩

theorem State.releaseAcc_mbox (s : State) (mb k : Nat) : (s.releaseAcc mb).mbox k = s.mbox k := by
  obtain ⟨_, h⟩ := s.releaseAcc_eq mb
  rw [h]
  rfl

theorem Mailbox.nextDone_first {m : Mailbox} {c : Cmd} {l : List Cmd} (hbusy : m.busy = []) (hcmds : m.cmds = c :: l)
    (hdone : c.phase = .finished) : m.nextDone = some (c, { m with cmds := l }) := by
  unfold Mailbox.nextDone
  rw [hbusy, hcmds]
  exact if_pos hdone

/-- A mailbox that is not CLOSING is settled. -/
theorem Mailbox.settle_of_up {m : Mailbox} (h : m.state = .open_) : m.settle = m := if_neg (by simp [h])

/-- Settling an OPEN mailbox changes nothing. -/
theorem State.settle_open (hwf : tabWf Mailbox.reset s.pcie.mboxes = true) (hopen : (s.mbox k).state = .open_) :
    (s.onMbox k fun m => m.settle) = s := by
  have hsame : tset Mailbox.reset s.pcie.mboxes k (s.mbox k).settle = s.pcie.mboxes := by
    rw [Mailbox.settle_of_up hopen]
    exact tset_tget hwf k
  rw [State.onMbox, State.putMbox, hsame]

theorem State.sendMsix_mboxes (s : State) (v : Nat) : (s.sendMsix v).pcie.mboxes = s.pcie.mboxes := by
  obtain ⟨_, _, _, _, _, _, _, h⟩ := s.sendMsix_pcie v
  rw [h]

/-- The state with the completion of `c` written at its slot, and the commands `l` left. -/
def State.answered (s : State) (k : Nat) (c : Cmd) (l : List Cmd) : State :=
  (s.emit (.hostWrite ((s.mbox k).cplBase + 256 * ((s.mbox k).cplTail % 64)) (c.completion (s.mbox k).cplTail))).putMbox k
    { s.mbox k with cmds := l, cplTail := ((s.mbox k).cplTail + 1) % 2 ^ 16 }

section
variable {c : Cmd} {l : List Cmd} (hopen : (s.mbox k).state = .open_) (hbusy : (s.mbox k).busy = []) (hcmds : (s.mbox k).cmds = c :: l)
  (hdone : c.phase = .finished)
include hopen hbusy hcmds hdone

/-- The completion of the first command at its slot, with its MSI-X message. -/
theorem State.complete_writes (hfree : (s.mbox k).unread < 64) (hwf : tabWf Mailbox.reset s.pcie.mboxes = true) :
    s.complete k =
      if c.entry.flag 32 = true ∧ (s.mbox k).irqEn = true then (s.answered k c l).sendMsix ((s.mbox k).vectorX ^^^ k)
      else s.answered k c l := by
  have hwfW : tabWf Mailbox.reset (s.answered k c l).pcie.mboxes = true := State.putMbox_wf (s := s.emit _) hwf k _
  have hmbW : (s.answered k c l).mbox k = { s.mbox k with cmds := l, cplTail := ((s.mbox k).cplTail + 1) % 2 ^ 16 } :=
    (State.mbox_putMbox (s := s.emit _) hwf k k _).trans (if_pos rfl)
  have hopenW : ((s.answered k c l).mbox k).state = .open_ := by rw [hmbW]; exact hopen
  unfold State.complete
  rw [if_neg (by simp [hopen]), Mailbox.nextDone_first hbusy hcmds hdone]
  dsimp only
  rw [if_pos (show (s.mbox k).slotFree = true from decide_eq_true hfree)]
  by_cases hirq : c.entry.flag 32 = true ∧ (s.mbox k).irqEn = true
  · rw [if_pos (by simpa using hirq), if_pos hirq]
    refine State.settle_open ?_ ?_
    · rw [State.sendMsix_mboxes]
      exact hwfW
    · rw [State.mbox, State.sendMsix_mboxes]
      exact hopenW
  · rw [if_neg (by simpa using hirq), if_neg hirq]
    exact State.settle_open hwfW hopenW

/-- With no slot free CPL_STALL is set. -/
theorem State.complete_stalls (hfull : 64 ≤ (s.mbox k).unread) : s.complete k = s.putMbox k ((s.mbox k).setErr 3 s.nocNow) := by
  unfold State.complete
  rw [if_neg (by simp [hopen]), Mailbox.nextDone_first hbusy hcmds hdone]
  exact (if_neg (by simp [Mailbox.slotFree, hfull])).trans (if_neg (by simp [hopen]))

end

end

/-- Settles O33: an entry posted is taken or refused, and the completion of the first command that has ended is written or stalls. -/
theorem fetchAndCompletionComplete : Obligations.FetchAndCompletionComplete := by
  intro s at_ mb t m
  have hcompletion (hmb : mb < 16) : t.completion mb = (t.releaseAcc mb).complete mb := if_neg hmb.ne
  have hmbox : (t.releaseAcc mb).mbox mb = m := State.releaseAcc_mbox ..
  refine ⟨fun e hmb hopen hposted hfree hroom => ?takes, fun hmb hopen hposted hfree => ?fails,
    fun c l hmb hopen hbusy hcmds hdone hfree hwf => ?writes, fun c l hmb hopen hbusy hcmds hdone hfull => ?stalls⟩
  case takes =>
    exact congrArg Host.Outcome.next (State.fetch_takes (s := t) hmb hopen hposted hfree hroom e)
  case fails =>
    exact congrArg Host.Outcome.next (State.fetch_fails (s := t) hmb hopen hposted hfree)
  case writes =>
    obtain ⟨cores, hrel⟩ := t.releaseAcc_eq mb
    have hwrites := State.complete_writes (s := t.releaseAcc mb) (k := mb) (c := c) (l := l) (by rwa [hmbox]) (by rwa [hmbox])
      (by rwa [hmbox]) hdone (by rwa [hmbox]) (by rw [hrel]; exact hwf)
    rw [State.answered, hmbox] at hwrites
    exact congrArg Host.Outcome.next ((hcompletion hmb).trans hwrites)
  case stalls =>
    obtain ⟨cores, hrel⟩ := t.releaseAcc_eq mb
    have hstalls := State.complete_stalls (s := t.releaseAcc mb) (k := mb) (c := c) (l := l) (by rwa [hmbox]) (by rwa [hmbox])
      (by rwa [hmbox]) hdone (by rwa [hmbox])
    rw [hmbox] at hstalls
    refine congrArg Host.Outcome.next ((hcompletion hmb).trans (hstalls.trans ?_))
    rw [hrel]
    rfl

end Sys2Proof.Machine
end

section
/-! SUPPORT. Frames and timers of the management chain, for `Obligations.ChainFramesComplete` (O38). -/

namespace Sys2Proof.Machine

section
variable {s : State} {f : Buf}

/-! ### Frames passed on (R431, R433) -/

/-- A frame with HOPS + 1 and this payload. -/
def passedFrame (f payload : Buf) : Buf := frSeal (((f.slice 0 16).put 8 2 (f.le 8 2 + 1)).app payload)

theorem State.passFrame_sends (hhead : s.ownHead = false) (hhops : frHops f < 4095) (payload : Buf) :
    s.passFrame f payload = s.emit (.chain (passedFrame f payload)) := if_neg (by simp [hhead]; omega)

theorem State.passing_forwards (hruns : s.chainRuns = true) (hloop : s.aon.chainLoop = false) (hok : frOk f = true) (hlo : 1 ≤ frType f)
    (hhi : frType f ≤ 10) (hother : s.frForMe f = false) : s.passing f = s.forward f := by
  unfold State.passing
  rw [if_neg (by simp [hruns]), if_neg (by simp [hloop]), if_neg (by simp [hok]), if_neg (by simp; omega)]
  exact if_pos (by simp [hother])

theorem State.frMine.not_bcast (h : s.frMine f = true) : frBcast f = false := by
  simp only [State.frMine, Bool.and_eq_true, Bool.not_eq_true'] at h
  exact h.1.1

theorem State.heard_mine (h : s.frMine f = true) : s.heard f = s := if_neg (by simp [State.frMine.not_bcast h])

theorem State.dozing_heard (h : s.aon.power ≠ .doze) : (s.heard f).dozing = false := by
  obtain ⟨_, hheard⟩ := s.heard_eq f
  rw [hheard]
  exact decide_eq_false h

/-! ### The address walk (R428, R434) -/

/-- An address taken changes the address, and what is reported of it. -/
theorem State.takeAddr_ownHead (s : State) (a : Nat) : (s.takeAddr a).ownHead = s.ownHead := by
  unfold State.takeAddr
  dsimp only
  split
  · simp [State.ownHead, State.onAon]
  · split
    · simp [State.ownHead, State.onAon]
    · rfl

section
variable (hruns : s.chainRuns = true) (hloop : s.aon.chainLoop = false) (hok : frOk f = true) (htype : frType f = 1)
include hruns hloop hok htype

theorem State.enum_takes (hopts : s.aon.optsDone = true) (hdoze : s.aon.power ≠ .doze) (hhead : s.ownHead = false)
    (hhops : frHops f < 4095) (hlo : 1 ≤ (frPayload f).fld 0 16) (hhi : (frPayload f).fld 0 16 ≤ 4095) : s.enum f =
      (s.takeAddr ((frPayload f).fld 0 16)).emit (.chain (passedFrame f
        (enumPayload ((frPayload f).fld 0 16 + 1) ((frPayload f).flag 16) ((frPayload f).flag 17)))) := by
  have hpass := State.passFrame_sends (s := s.takeAddr ((frPayload f).fld 0 16)) (f := f) ((s.takeAddr_ownHead _).trans hhead) hhops
  rw [← hpass]
  unfold State.enum
  rw [if_neg (by simp [hruns]), if_neg (by simp [hloop]), if_neg (by simp [hok]), if_neg (by simp [htype]), if_neg (by simp [hhead]),
    if_neg (by simp [State.dozing, hdoze]), if_neg (by simp [State.chainActs, hopts]), if_neg (by omega)]
  exact if_neg (by omega)

theorem State.enum_returns (hhead : s.ownHead = true) (h16 : (frPayload f).flag 16 = false) (h17 : (frPayload f).flag 17 = false) :
    s.enum f = s.onAon fun a => { a with headWalk := false } := by
  unfold State.enum
  rw [if_neg (by simp [hruns]), if_neg (by simp [hloop]), if_neg (by simp [hok]), if_neg (by simp [htype]), if_pos hhead, h16, h17]
  simp only [Bool.or_false, Bool.and_false]

end

/-! ### The chain mailbox (R388, R431) -/

/-- No CMD frame waits. -/
def State.noneHeld (s : State) : State := s.onAon fun a => { a with cmdsHeld := [] }

theorem State.noneHeld_of_none (h : s.aon.cmdsHeld = []) : s.noneHeld = s := by
  have hsame : ({ s.aon with cmdsHeld := [] } : Aon) = s.aon := by rw [← h]
  rw [State.noneHeld, State.onAon, hsame]

/-- With no CMD frame that waits, there is nothing to fetch but the frame that has come. -/
theorem State.fetchChain_none (h : s.aon.cmdsHeld = []) : s.fetchChain = s.noneHeld := by
  rw [State.fetchChain, h]
  rfl

theorem State.cmdFrame_fetches (hruns : s.chainRuns = true) (hloop : s.aon.chainLoop = false) (hok : frOk f = true)
    (htype : frType f = 5) (hopts : s.aon.optsDone = true) (hdoze : s.aon.power ≠ .doze) (hmine : s.frMine f = true)
    (hlen : frLen f = 256) (hup : s.aon.phase = .up) (hheld : s.aon.cmdsHeld = []) : s.cmdFrame f = s.noneHeld.fetchFrame f := by
  have hme : s.frForMe f = true := by simp [State.frForMe, hmine]
  refine (State.chainRx_acts hruns hloop hok htype hopts hme rfl).trans ?_
  rw [State.heard_mine hmine]
  rw [if_neg (by simp [State.dozing, hdoze]), if_neg (by simp [hlen]), if_neg (by simp [hup]), if_pos (by simp [State.rilsetiReady, hup]),
    State.fetchChain_none hheld]

theorem State.chainComplete_answers {c : Cmd} {l : List Cmd} {seq : Nat} {q : List Nat} (hbusy : (s.mbox 16).busy = [])
    (hcmds : (s.mbox 16).cmds = c :: l) (hdone : c.phase = .finished) (hseqs : s.aon.cmdSeqs = seq :: q) : s.chainComplete =
      ((s.putMbox 16 { s.mbox 16 with cmds := l, cplTail := ((s.mbox 16).cplTail + 1) % 2 ^ 16 }).onAon fun a =>
        { a with cmdSeqs := q }).emit (.chain (chainFrame 0 s.aon.chainAddr 6 false seq (c.completion (s.mbox 16).cplTail))) := by
  unfold State.chainComplete
  rw [Mailbox.nextDone_first hbusy hcmds hdone, hseqs]

theorem State.attnStuck_long {d : Nat} (hfast : s.aon.attnFast = some d) (haside : s.aon.attnAside = false)
    (hlong : d + 100 * oneMs ≤ s.now) : s.attnStuck =
      (s.onAon fun a => { a with attnAside := true, attnFast := none, attnStuck := satAdd 16 a.attnStuck 1 }).raise
        Ev.chainAttnStuck 0x10 := by
  unfold State.attnStuck
  rw [hfast]
  exact if_neg (by simp [haside, Nat.not_lt.mpr hlong])

/-! ### Frames that the device acts on -/

section
variable (hruns : s.chainRuns = true) (hloop : s.aon.chainLoop = false) (hok : frOk f = true)
include hruns hloop hok

/-- An ATTN that is neither coalesced nor set aside. -/
theorem State.attnFrame_fetches (htype : frType f = 4) (hopts : s.aon.optsDone = true) (hdoze : s.aon.power ≠ .doze)
    (hme : s.frForMe f = true) (hup : s.aon.phase = .up) (haside : s.aon.attnAside = false)
    (hdue : ∀ d, s.aon.attnAt = some d → d + 10 * oneUs ≤ s.now) : s.attnFrame f =
      ((s.heard f).onAon fun a => { a with attnAt := some s.now, attnFast := none, attnAside := false }).fetchChain := by
  obtain ⟨out, hheard⟩ := s.heard_eq f
  have hdue' : s.due s.aon.attnAt (10 * oneUs) = true := State.due_of_passed hdue
  refine (State.chainRx_acts hruns hloop hok htype hopts hme (by rw [hheard]; simp [hup])).trans ?_
  rw [if_neg (by simp [State.dozing_heard hdoze]), hheard]
  exact (if_neg (by simp [haside])).trans ((if_neg (by simp [show ({ s with out } : State).due s.aon.attnAt (10 * oneUs) = true from hdue'])).trans
    (if_pos (by simp [State.rilsetiReady, State.onAon, hup])))

theorem State.dozeCfgFrame_sets (htype : frType f = 9) (hopts : s.aon.optsDone = true) (hme : s.frForMe f = true)
    (hup : s.aon.phase = .up) (hlegal : dozeOk (frPayload f) = true) : s.dozeCfgFrame f = (s.heard f).setDoze (frPayload f) := by
  obtain ⟨out, hheard⟩ := s.heard_eq f
  exact (State.chainRx_acts hruns hloop hok htype hopts hme (by rw [hheard]; simp [hup])).trans (if_pos hlegal)

/-- Bytes of an image that fit it. -/
theorem State.fwdataFrame_stages (htype : frType f = 10) (hopts : s.aon.optsDone = true) (hdoze : s.aon.power ≠ .doze)
    (hme : s.frForMe f = true) (hlen : 8 < frLen f) (hmax : (frPayload f).fld 32 32 ≤ 0x1000000)
    (hfits : (frPayload f).fld 0 32 + (frLen f - 8) ≤ (frPayload f).fld 32 32) : s.fwdataFrame f =
      ((if s.aon.stageLen = (frPayload f).fld 32 32 then s.heard f else (s.heard f).clearStage).onAon fun a => { a with
        stageLen := (frPayload f).fld 32 32
        stage := a.stage.store ((frPayload f).fld 0 32) (frLen f - 8) (((frPayload f).drop 8).le 0 (frLen f - 8))
        stageGot := addRange a.stageGot ((frPayload f).fld 0 32) ((frPayload f).fld 0 32 + (frLen f - 8)) }) := by
  obtain ⟨out, hheard⟩ := s.heard_eq f
  refine (State.chainRx_acts hruns hloop hok htype hopts hme rfl).trans ?_
  rw [if_neg (by simp [State.dozing_heard hdoze])]
  refine (if_neg ?_).trans ?_
  · simp only [Bool.or_eq_true, decide_eq_true_eq, not_or]
    omega
  · rw [hheard]

end

end

/-- Settles O38: each frame that passes its checks acts on the state in which it has been heard. -/
theorem chainFramesComplete : Obligations.ChainFramesComplete := by
  intro s at_ f t good pass p
  refine ⟨fun next ⟨hruns, hloop, hok, htype, hopts, hdoze⟩ hhead hhops hnext hlo hhi => ?enum,
    fun ⟨hruns, hloop, hok, htype, hopts, hdoze⟩ hhead h16 h17 => ?home, fun hhead hwalk hdue => ?walk,
    fun hruns hloop hok hlo hhi hother hhead hhops => ?forward,
    fun ⟨hruns, hloop, hok, htype, hopts, hdoze⟩ hmine hlen hup hheld hroom => ?cmd,
    fun ⟨hruns, hloop, hok, htype, hopts, hdoze⟩ hmine hlen hup hheld hfull => ?busy,
    fun c l seq q hbusy hcmds hdone hseqs => ?answer,
    fun ⟨hruns, hloop, hok, htype, hopts, hdoze⟩ hme hup haside hdue => ?attn, fun d hfast haside hlong => ?stuck,
    fun ⟨hruns, hloop, hok, htype, hopts, hdoze⟩ hme => ?telem, fun ⟨hruns, hloop, hok, htype, hopts, hdoze⟩ hme hup hlegal => ?doze,
    fun off total n ⟨hruns, hloop, hok, htype, hopts, hdoze⟩ hme hoff htotal hn hlen hmax hfits => ?data⟩
  case enum =>
    subst hnext
    exact congrArg Host.Outcome.next (State.enum_takes (s := t) hruns hloop hok htype hopts hdoze hhead hhops hlo hhi)
  case home => exact congrArg Host.Outcome.next (State.enum_returns (s := t) hruns hloop hok htype hhead h16 h17)
  case walk =>
    have hdue' : t.due t.aon.walkAt (25 * oneMs) = true := State.due_of_passed hdue
    have hhead' : t.ownHead = true := hhead
    have hwalk' : t.aon.headWalk = true := hwalk
    exact congrArg Host.Outcome.next (if_pos (by rw [hhead', hwalk', hdue']; rfl))
  case forward =>
    exact congrArg Host.Outcome.next
      ((State.passing_forwards (s := t) hruns hloop hok hlo hhi hother).trans (State.passFrame_sends (s := t) hhead hhops _))
  case cmd =>
    have hfetch := State.cmdFrame_fetches (s := t) hruns hloop hok htype hopts hdoze hmine hlen hup hheld
    exact congrArg Host.Outcome.next (hfetch.trans (if_neg (Nat.not_le.mpr hroom)))
  case busy =>
    have hfetch := State.cmdFrame_fetches (s := t) hruns hloop hok htype hopts hdoze hmine hlen hup hheld
    rw [State.noneHeld_of_none (s := t) hheld] at hfetch
    exact congrArg Host.Outcome.next (hfetch.trans (if_pos hfull))
  case answer =>
    obtain ⟨cores, hrel⟩ := t.releaseAcc_eq 16
    have hmb : (t.releaseAcc 16).mbox 16 = s.mbox 16 := t.releaseAcc_mbox 16 16
    have hanswers := State.chainComplete_answers (s := t.releaseAcc 16) (c := c) (l := l) (seq := seq) (q := q) (by rwa [hmb]) (by rwa [hmb])
      hdone (by rw [hrel]; exact hseqs)
    rw [hmb] at hanswers
    have hcompletion : t.completion 16 = (t.releaseAcc 16).chainComplete := rfl
    refine congrArg Host.Outcome.next (hcompletion.trans (hanswers.trans ?_))
    rw [hrel]
    rfl
  case attn =>
    exact congrArg Host.Outcome.next (State.attnFrame_fetches (s := t) hruns hloop hok htype hopts hdoze hme hup haside hdue)
  case stuck => exact congrArg Host.Outcome.next (State.attnStuck_long (s := t) hfast haside hlong)
  case telem =>
    refine congrArg Host.Outcome.next ((State.chainRx_acts (s := t) hruns hloop hok htype hopts hme rfl).trans ?_)
    obtain ⟨out, hheard⟩ := t.heard_eq f
    rw [show p = { t with out } from hheard, hheard]
    rfl
  case doze =>
    exact congrArg Host.Outcome.next (State.dozeCfgFrame_sets (s := t) hruns hloop hok htype hopts hme hup hlegal)
  case data =>
    subst hoff htotal hn
    exact congrArg Host.Outcome.next (State.fwdataFrame_stages (s := t) hruns hloop hok htype hopts hdoze hme hlen hmax hfits)

end Sys2Proof.Machine
end

section
/-! SUPPORT. Queries that answer in RESPONSE, for `Obligations.ResponseQueriesComplete` (O3). -/

namespace Sys2Proof.Machine

theorem State.commitStatus_answers {s : State} {c : Call} (h : s.job.isSome = true) : s.commitStatus c = s.finish c.mb 0 s.com.record := by
  obtain ⟨j, hj⟩ := Option.isSome_iff_exists.mp h
  exact if_neg (by simp [hj])

theorem State.guestStatus_none {s : State} {c : Call} (h : s.guest = none) : s.guestStatus c = s.finish c.mb 0 (Buf.zeros 16) := by
  unfold State.guestStatus
  rw [h]

theorem State.guestStatus_some {s : State} {c : Call} {g : Guest} (h : s.guest = some g) : s.guestStatus c = s.finish c.mb 0
    (packBuf 16 [(1, 1), (6, (s.cores.foldl (fun a x => a ||| x.2.gflags.bits) 0) % 64), (57, 0), (64, g.done)]) := by
  unfold State.guestStatus
  rw [h]

/-- Settles O3: each query runs its body, which answers at once. -/
theorem responseQueriesComplete : Obligations.ResponseQueriesComplete := by
  intro s at_ mb e b0 b1 t offers
  have runs {op : Nat} {allow : State → Call → Bool} {body : State → Call → State} {u : State} (ho : offers op allow)
      (hw : wakesHold.contains op = false) (h : body t ⟨mb, e, b0, b1⟩ = u) :
      Host.Outcome.next ((s.tick at_).command op mb b0 b1 allow body) = (.next u : Res) :=
    congrArg Host.Outcome.next ((State.command_runs ho hw body).trans h)
  exact ⟨fun ho => runs ho rfl rfl, fun ho => runs ho rfl rfl, fun ho => runs ho rfl rfl,
    fun ho hjob => runs ho rfl (State.commitStatus_answers (s := t) hjob), fun ho hguest => runs ho rfl (State.guestStatus_none (s := t) hguest),
    fun g ho hguest => runs ho rfl (State.guestStatus_some (s := t) hguest), fun ho => runs ho rfl rfl, fun ho => runs ho rfl rfl⟩

end Sys2Proof.Machine
end

section
/-! SUPPORT. The job's commands, for `Obligations.JobCommandsComplete` (O25). -/

namespace Sys2Proof.Machine

/-! ### Commands that leave HOLD (R445) -/

section LeaveHold
variable (s : State)

@[simp] theorem State.leaveHold_job : s.leaveHold.job = s.job := by
  obtain ⟨_, _, _, _, _, _, _, h, -⟩ := State.SameButReadied.leaveHold s
  rw [h]

@[simp] theorem State.leaveHold_com : s.leaveHold.com = s.com := by
  obtain ⟨_, _, _, _, _, _, _, h, -⟩ := State.SameButReadied.leaveHold s
  rw [h]

@[simp] theorem State.leaveHold_erg : s.leaveHold.erg = s.erg := by
  obtain ⟨_, _, _, _, _, _, _, h, -⟩ := State.SameButReadied.leaveHold s
  rw [h]

@[simp] theorem State.leaveHold_isl : s.leaveHold.isl = s.isl := by
  obtain ⟨_, _, _, _, _, _, _, h, -⟩ := State.SameButReadied.leaveHold s
  rw [h]

@[simp] theorem State.leaveHold_acx : s.leaveHold.acx = s.acx := by
  obtain ⟨_, _, _, _, _, _, _, h, -⟩ := State.SameButReadied.leaveHold s
  rw [h]

@[simp] theorem State.leaveHold_bg : s.leaveHold.pcie.bg = s.pcie.bg := by
  obtain ⟨_, _, _, _, _, _, _, h, _, _, _, _, _, _, _, hp⟩ := State.SameButReadied.leaveHold s
  rw [h, hp]

end LeaveHold

/-- An offered command that needs a unit that HOLD stops runs its body once HOLD is left. -/
theorem State.command_wakes {s : State} {op mb : Nat} {e : Buf} {b0 b1 : Option Buf} {allow : State → Call → Bool}
    (h : s.offers op mb e b0 b1 allow = true) (hw : wakesHold.contains op = true) (body : State → Call → State) :
    s.command op mb b0 b1 allow body = body (s.begun mb).leaveHold ⟨mb, e, b0, b1⟩ := by
  rw [State.command_offered h body, hw]
  rfl

section Bodies
variable {s : State} {c : Call}

/-! ### The arm and the stop (R363, R406, R407) -/

theorem State.jobArm_arms (hjob : s.job = none) (hlen : 64 ≤ c.buf0.data.len)
    (hwhole : signedLen (imgLen c.buf0.data) ≤ c.buf0.data.len) (hsfl : c.par 192 8 ≤ 64)
    (hgood : s.imageGood c.buf0.data (imgLen c.buf0.data) (mainSigner c.buf0.data) = true)
    (hfit : armFailure s (c.buf0.data.slice 0 (imgLen c.buf0.data)) (some (sext 64 (c.par 0 64))) = none) : s.jobArm c =
      ((s.armJob (c.buf0.data.slice 0 (imgLen c.buf0.data)) (some (sext 64 (c.par 0 64))) (c.par 64 128)
        (if c.par 192 8 = 0 then 4 else c.par 192 8) (joinOf (c.par 200 1 = 1) (c.par 201 3))).onSite fun x =>
          { x with copy := some (c.buf0.data, c.par 64 128, if c.par 192 8 = 0 then 4 else c.par 192 8) }).finish c.mb 0
        (armResp (c.buf0.data.slice 0 (imgLen c.buf0.data)) none) := by
  unfold State.jobArm
  dsimp only
  rw [if_neg (by simp [hjob]), if_neg (by simp; omega), if_neg (by omega), if_neg (by simp [hgood]), hfit]

/-- What JOB_STOP does in each phase of the job. -/
theorem State.jobStop_eq {j : Job} (hjob : s.job = some j) : s.jobStop c = match j.phase with
    | .stopped => s.finish c.mb 0
    | .restarting => (s.onJob fun j => { j with stopMb := some c.mb }).onSite fun x => { x with stopReq := true }
    | .armed => (s.onJob fun j => { j with stopMb := some c.mb }).stopJob
    | .running => s.onJob fun j => { j with phase := .stopping, stopMb := some c.mb }
    | .stopping => s.onJob fun j => { j with phase := .stopping, stopMb := some c.mb } := by
  unfold State.jobStop
  rw [hjob]
  dsimp only
  cases j.phase <;> rfl

/-! ### Checkpoints (R409) -/

/-- A step that is not past. -/
theorem ckptStep_coming {j : Job} {step : Nat} (h : step = 0 ∨ j.step < step) :
    ¬ (decide (step ≠ 0) && (decide (step < j.step) || decide (step = j.step) && !j.fresh)) = true := by
  simp only [Bool.and_eq_true, Bool.or_eq_true, decide_eq_true_eq, Bool.not_eq_true']
  omega

theorem State.jobCheckpoint_local {j : Job} (hjob : s.job = some j) (hlocal : c.par 64 1 = 0) (h1 : s.com.ckptLocal = none)
    (h2 : s.com.ckptWait = none) (h3 : s.com.ckptWriting = none) (h4 : s.com.ckptTail = none)
    (hstep : c.par 0 64 = 0 ∨ j.step < c.par 0 64) :
    s.jobCheckpoint c = s.onCom fun x => { x with ckptLocal := some (c.par 0 64, some c.mb) } := by
  unfold State.jobCheckpoint
  rw [hjob]
  dsimp only
  rw [if_neg (by simp [hlocal, h1, h2, h3, h4]), if_neg (ckptStep_coming hstep), if_neg (by simp [hlocal]), if_neg (by simp [hlocal])]

theorem State.jobCheckpoint_exports {j : Job} {k : Nat} (hjob : s.job = some j) (hexport : c.par 64 1 = 1) (h1 : s.com.ckptExport = none)
    (h2 : s.com.exports = []) (hstep : c.par 0 64 = 0 ∨ j.step < c.par 0 64) (hk : k ∈ s.places) (hid : (s.sess k).localId = c.par 80 16)
    (hbulk : (s.sess k).bulk = true) (hopen : (s.sess k).state = .open_) :
    s.jobCheckpoint c = s.onCom fun x => { x with ckptExport := some (c.par 0 64, c.par 80 16, c.par 96 32, some c.mb) } := by
  have hsess : (s.places.any fun k => (s.sess k).localId = c.par 80 16 && (s.sess k).bulk && (s.sess k).state = .open_) = true :=
    List.any_eq_true.mpr ⟨k, hk, by simp [hid, hbulk, hopen]⟩
  unfold State.jobCheckpoint
  rw [hjob]
  dsimp only
  rw [if_neg (by simp [hexport, h1, h2]), if_neg (ckptStep_coming hstep), hsess, if_neg (by simp), if_pos (by simp [hexport])]

/-! ### The second image (R289) -/

theorem State.relayout_pends {j : Job} {img : Buf} (himg : img = c.buf0.data.slice 0 (imgLen c.buf0.data)) (hjob : s.job = some j)
    (hnew : j.relayout = none) (hold : j.oldImage = none) (hlen : 64 ≤ c.buf0.data.len)
    (hwhole : signedLen (imgLen c.buf0.data) ≤ c.buf0.data.len) (hstep : j.step < c.par 0 64)
    (hgood : s.imageGood c.buf0.data (imgLen c.buf0.data) (mainSigner c.buf0.data) = true) (hformat : checkFormat img false = [])
    (hchecks : State.relayout.relayoutChecks s img = []) (hid : imgJobId img = imgJobId j.image) (hcw : imgCw img = imgCw j.image)
    (hsize : ∀ a < 4, imgSize img a = imgSize j.image a) (hepoch : imgEpoch img = imgEpoch j.image + 1)
    (hshards : ∀ x ∈ imgShards img, x.epoch = imgEpoch img) :
    s.relayout c = (s.onJob fun j => { j with relayout := some (c.par 0 64, img) }).finish c.mb 0 := by
  subst himg
  unfold State.relayout
  rw [hjob]
  dsimp only
  have hcoming : ¬ c.par 0 64 ≤ if (j.fresh && decide (j.phase = .armed)) = true then j.step - 1 else j.step := by
    split <;> omega
  have hsizes : ((List.range 4).all fun a => decide (imgSize (c.buf0.data.slice 0 (imgLen c.buf0.data)) a = imgSize j.image a)) = true := by
    simpa using hsize
  have hepochs : ((imgShards (c.buf0.data.slice 0 (imgLen c.buf0.data))).all fun t =>
      decide (t.epoch = imgEpoch (c.buf0.data.slice 0 (imgLen c.buf0.data)))) = true := by simpa using hshards
  rw [if_neg (by simp [hnew, hold]), if_neg (by simp; omega), if_neg hcoming, if_neg (by simp [hgood]), hformat, hchecks, hsizes, hepochs]
  simp [hid, hcw, hepoch, need]

/-! ### Restores (R408) -/

section Restore
variable {j : Job} (hjob : s.job = some j) (hphase : j.phase = .stopped ∨ j.phase = .armed ∧ j.fresh = true)
  (hckpt : s.com.ckptPending = false) (hbg : s.inBackground 0x0403 = false)
include hjob hphase hckpt hbg

theorem State.jobRestore_ready : s.jobRestore c =
    match c.par 64 2 with
    | 0 =>
      match s.newestHalf j.image with
      | none => s.finish c.mb 0x0134
      | some h =>
        let r := s.restoreFrom c.entry c.buf1.data (s.halfRecs j.image h)
        r.2.finish c.mb r.1 (if r.1 = 0 then r.2.restoreResp else .empty)
    | 1 => s.toBackground c
    | 2 =>
      match s.places.find? fun k => (s.sess k).localId = c.par 96 16 && (s.sess k).bulk && (s.sess k).state = .open_ with
      | none => s.finish c.mb 0x0165
      | some k =>
        ((s.onMbox c.mb fun m => m.onFirst .running fun x => { x with in1 := c.buf1.data }).onSess k fun x =>
          { x with inStream := [], inLast := none }).offer k [newDatagram 8 (c.par 128 32) 0 0 true .empty]
    | _ => s.finish c.mb 5 := by
  unfold State.jobRestore
  rw [hjob]
  have hready : ¬ (!(decide (j.phase = .stopped) || decide (j.phase = .armed) && j.fresh)) = true := by
    obtain h | ⟨h, hf⟩ := hphase
    · simp [h]
    · simp [h, hf]
  exact (if_neg hready).trans (if_neg (by simp [hckpt, hbg]))

end Restore

end Bodies

/-- Settles O25: each command runs its body, which passes every check of it; one that needs a unit that HOLD stops leaves HOLD first. -/
theorem jobCommandsComplete : Obligations.JobCommandsComplete := by
  intro s at_ mb e b0 b1 c t offers u raw img sfl
  have runs {op : Nat} {allow : State → Call → Bool} {body : State → Call → State} {v : State} (ho : offers op allow)
      (hw : wakesHold.contains op = false) (h : body t c = v) :
      Host.Outcome.next ((s.tick at_).command op mb b0 b1 allow body) = (.next v : Res) :=
    congrArg Host.Outcome.next ((State.command_runs ho hw body).trans h)
  have wakes {op : Nat} {allow : State → Call → Bool} {body : State → Call → State} {v : State} (ho : offers op allow)
      (hw : wakesHold.contains op = true) (h : body u c = v) :
      Host.Outcome.next ((s.tick at_).command op mb b0 b1 allow body) = (.next v : Res) :=
    congrArg Host.Outcome.next ((State.command_wakes ho hw body).trans h)
  have hu : u.job = s.job := State.leaveHold_job t
  refine ⟨fun ho hjob hlen hwhole hsfl hgood hfit => wakes ho rfl (State.jobArm_arms (hu.trans hjob) hlen hwhole hsfl hgood hfit),
    fun j ho hjob => runs ho rfl (State.jobStop_eq (s := t) hjob),
    fun j ho hjob hlocal h1 h2 h3 h4 hstep => runs ho rfl (State.jobCheckpoint_local (s := t) hjob hlocal h1 h2 h3 h4 hstep),
    fun j k ho hjob hexport h1 h2 hstep hk hid hbulk hopen =>
      runs ho rfl (State.jobCheckpoint_exports (s := t) hjob hexport h1 h2 hstep hk hid hbulk hopen),
    fun j ho hjob hnew hold hlen hwhole hstep hgood hformat hchecks hid hcw hsize hepoch hshards =>
      runs ho rfl (State.relayout_pends (s := t) rfl hjob hnew hold hlen hwhole hstep hgood hformat hchecks hid hcw hsize hepoch hshards),
    fun j ho hjob hphase hckpt hbg => ?restore⟩
  case restore =>
    have hckptU : u.com.ckptPending = false := by rw [State.leaveHold_com]; exact hckpt
    have hbgU : u.inBackground 0x0403 = false := by rw [State.inBackground, State.leaveHold_bg]; exact hbg
    have hready := State.jobRestore_ready (c := c) (hu.trans hjob) hphase hckptU hbgU
    refine ⟨fun hsrc => wakes ho rfl (hready.trans ?_), fun h hsrc hhalf => wakes ho rfl (hready.trans ?_),
      fun k hsrc hfind => wakes ho rfl (hready.trans ?_)⟩
    · rw [hsrc]
      rfl
    · rw [hsrc]
      dsimp only
      rw [hhalf]
      rfl
    · rw [hsrc]
      dsimp only
      rw [hfind]
      rfl

end Sys2Proof.Machine
end

section
/-! SUPPORT. Memory and test commands, for `Obligations.MemoryAndTestCommandsComplete` (O28), and the transport's commands, for
`Obligations.TransportCommandsComplete` (O29). -/

namespace Sys2Proof.Machine

theorem State.leaveHold_inBackground (s : State) (op : Nat) : s.leaveHold.inBackground op = s.inBackground op := by
  rw [State.inBackground, State.leaveHold_bg]
  rfl

theorem State.leaveHold_portInUse (s : State) (port : Nat) : s.leaveHold.portInUse port = s.portInUse port := by
  obtain ⟨_, _, _, _, _, _, _, h, -⟩ := State.SameButReadied.leaveHold s
  rw [h]
  rfl

section Bodies
variable {s : State} {c : Call}

/-! ### Erg lines (R404, R405) -/

theorem State.ergRangeStatus_legal {ela len : Nat} (hready : s.erg.ready = true) (hlen : len ≠ 0) (hela : ela % 64 = 0)
    (hlines : len % 64 = 0) (hend : ela + len ≤ s.erg.bytes) : s.ergRangeStatus ela len = 0 := by
  unfold State.ergRangeStatus
  rw [if_neg (by simp [hready]), if_neg hlen, if_neg (by simp [hela, hlines, hend])]

theorem State.ergReadCmd_starts (hlegal : s.ergRangeStatus (c.par 0 43) (c.par 64 32) = 0) (hbg : s.inBackground 0x0302 = false)
    (hsize : c.par 64 32 ≤ c.buf0.size) : s.ergReadCmd c = (s.ergLines c false).toBackground c := by
  unfold State.ergReadCmd
  rw [hlegal]
  exact (if_neg (by decide)).trans ((if_neg (by simp [hbg])).trans (if_neg (Nat.not_lt.mpr hsize)))

theorem State.ergWriteCmd_starts (hlegal : s.ergRangeStatus (c.par 0 43) (c.par 64 32) = 0)
    (hplan : s.inPlan (c.par 0 43) (c.par 64 32) = false) (hbg : s.inBackground 0x0303 = false)
    (hsize : c.par 64 32 ≤ c.buf0.data.len) : s.ergWriteCmd c = (s.ergLines c true).toBackground c := by
  unfold State.ergWriteCmd
  rw [hlegal]
  exact (if_neg (by decide)).trans ((if_neg (by simp [hplan])).trans ((if_neg (by simp [hbg])).trans (if_neg (Nat.not_lt.mpr hsize))))

/-! ### Self tests (R419, R496, R498) -/

theorem State.loopbackCmd_starts (hok : loopbackOk c = true) (hjob : s.job = none) (hbusy : s.loopBusy (c.par 0 8) = false)
    (hbg : s.inBackground 0x0B01 = false) : s.loopbackCmd c =
      (if c.par 0 8 = 0x50 then s.onAon fun a => { a with chainLoop := true } else s).toBackground c := by
  unfold State.loopbackCmd
  rw [if_neg (by simp [hok]), if_neg (by simp [hjob, hbusy]), if_neg (by simp [hbg])]

theorem State.mbistCmd_starts (hjob : s.job = none) (hbg : s.inBackground 0x0B02 = false) : s.mbistCmd c =
    (s.toBackground c).onMbox c.mb fun m => m.onFirst .background fun x =>
      if x.entry.fld 0 16 = 0x0B02 then { x with in0 := c.b0.getD .empty } else x := by
  unfold State.mbistCmd
  rw [if_neg (by simp [hjob]), if_neg (by simp [hbg])]

/-! ### Partners, budgets and sessions (R330, R335, R352, R355, R411, R412) -/

/-- The partner that ACX_PARTNER names. -/
def Call.partner (c : Call) : Partner :=
  { used := true, port := c.par 4 2, quota := c.par 32 32, rate := c.par 64 32, burst := c.par 96 16
    retryMax := if c.par 112 6 = 0 then 16 else c.par 112 6, timeoutS := if c.par 128 16 = 0 then 30 else c.par 128 16
    keyDigest := (Buf.ofLe 32 (c.par 192 256)).be 0 32, addrA := c.par 448 128, addrB := c.par 576 128, budgets := [] }

/-- The state with that partner at place `k`, and the Cistern where one is named. -/
def State.withPartner (s : State) (c : Call) (k : Nat) : State :=
  if c.par 704 43 = 0 then s.putPartner k c.partner
  else (s.putPartner k c.partner).onAcx fun x => { x with cistEla := c.par 704 43, cistLen := c.par 768 8 * 2 ^ 30 }

theorem State.acxPartner_stores {k : Nat} (hk : k = (if c.par 3 1 = 1 then 8 else 0) + c.par 0 3) (hok : partnerOk c = true)
    (hport : s.portInUse (c.par 4 2) = false) (hspent : s.ledgerSpent = false) (hcist : c.par 704 43 = 0 ∨ s.job = none)
    (hquota : ((s.withPartner c k).acx.partners.map fun x => x.2.quota).sum ≤ (s.withPartner c k).cistSlots) : s.acxPartner c =
      let z := if c.par 3 1 = 1 then s.withPartner c k else (List.range 4).foldl (fun z f => z.onFarPort f fun q =>
        { q with partner := if f = c.par 4 2 then c.par 0 3 else if q.partner = c.par 0 3 then 7 else q.partner }) (s.withPartner c k)
      (z.commandLedger c.mb 0x0004 0x0602 c.params .empty).finish c.mb 0 := by
  subst hk
  have hidle : ¬ (decide (c.par 704 43 ≠ 0) && s.job.isSome) = true := by
    obtain h | h := hcist <;> simp [h]
  unfold State.acxPartner
  dsimp only
  rw [if_neg (by simp [hok]), if_neg (by simp [hport]), if_neg hidle]
  exact (if_neg (Nat.not_lt.mpr hquota)).trans (if_neg (by simp [hspent]))

theorem State.weirBudget_queues {n : Nat} {l : List Buf} {z : State} (hn : n = c.par 0 4) (hlo : 1 ≤ n) (hhi : n ≤ 8)
    (hlen : 32 * n ≤ c.buf0.data.len) (hl : l = c.buf0.data.recs 32 n) (hok : l.all s.budgetOk = true)
    (hfuture : ∀ r ∈ l, s.htNow < r.fld 128 64) (hz : z = l.foldl State.queueBudget s) (hpartners : ∀ p ∈ z.acx.partners, p.2.budgets.length ≤ 8)
    (hsess : ∀ x ∈ z.acx.sess, x.2.budgets.length ≤ 8) : s.weirBudget c = z.finish c.mb 0 := by
  subst hn hl hz
  have hpast : ¬ ((c.buf0.data.recs 32 (c.par 0 4)).any fun r => decide (r.fld 128 64 ≤ s.htNow)) = true := by
    simpa using hfuture
  have hfull : ¬ ((((c.buf0.data.recs 32 (c.par 0 4)).foldl State.queueBudget s).acx.partners.any fun p => decide (8 < p.2.budgets.length)) ||
      ((c.buf0.data.recs 32 (c.par 0 4)).foldl State.queueBudget s).acx.sess.any fun x => decide (8 < x.2.budgets.length)) = true := by
    rw [Bool.or_eq_true, not_or]
    exact ⟨by simpa using fun i p h => hpartners (i, p) h, by simpa using fun i x h => hsess (i, x) h⟩
  unfold State.weirBudget
  exact (if_neg (by simp; omega)).trans ((if_neg (by omega)).trans ((if_neg (by simp [hok])).trans ((if_neg hpast).trans (if_neg hfull))))

theorem State.bulkOpen_starts {z : State} {k : Nat} (hused : (s.partner (8 + c.par 0 3)).used = true) (hid : s.hasIdentity = true)
    (hinit : s.initSession (8 + c.par 0 3) (c.par 4 2) true (some c.mb) = (z, some k)) : s.bulkOpen c = z := by
  unfold State.bulkOpen
  dsimp only
  rw [if_neg (by simp [hused, hid]), hinit]

theorem State.sessionClose_closes {k : Nat} (hfind : (s.places.find? fun k =>
      (s.sess k).used && (s.sess k).localId = c.par 0 16 && (s.sess k).state ≠ SessState.closed) = some k) :
    s.sessionClose c = ((s.sendClose k (c.par 32 32)).closeSess k false).finish c.mb 0 := by
  unfold State.sessionClose
  rw [hfind]

end Bodies

/-- Settles O28: each command leaves HOLD and runs its body, which passes every check of it. -/
theorem memoryAndTestCommandsComplete : Obligations.MemoryAndTestCommandsComplete := by
  intro s at_ mb e b0 b1 c t offers u ela len legal
  have wakes {op : Nat} {allow : State → Call → Bool} {body : State → Call → State} {v : State} (ho : offers op allow)
      (hw : wakesHold.contains op = true) (h : body u c = v) :
      Host.Outcome.next ((s.tick at_).command op mb b0 b1 allow body) = (.next v : Res) :=
    congrArg Host.Outcome.next ((State.command_wakes ho hw body).trans h)
  have hjobU : u.job = s.job := State.leaveHold_job t
  have hbgU (op : Nat) : u.inBackground op = s.inBackground op := State.leaveHold_inBackground t op
  have hergU : u.erg = s.erg := State.leaveHold_erg t
  have hlegalU (h : legal) : u.ergRangeStatus ela len = 0 := by
    obtain ⟨hready, hlen, hela, hlines, hend⟩ := h
    exact State.ergRangeStatus_legal (by rwa [hergU]) hlen hela hlines (by rwa [hergU])
  refine ⟨fun ho hlegal hbg hsize => wakes ho rfl (State.ergReadCmd_starts (hlegalU hlegal) ((hbgU _).trans hbg) hsize),
    fun ho hlegal hplan hbg hsize => wakes ho rfl (State.ergWriteCmd_starts (hlegalU hlegal) ?_ ((hbgU _).trans hbg) hsize),
    fun ho hok hjob hbusy hbg => wakes ho rfl (State.loopbackCmd_starts hok (hjobU.trans hjob) ?_ ((hbgU _).trans hbg)),
    fun ho hjob hbg => wakes ho rfl (State.mbistCmd_starts (hjobU.trans hjob) ((hbgU _).trans hbg))⟩
  · have hplanU : u.inPlan ela len = s.inPlan ela len := by
      unfold State.inPlan
      rw [hjobU]
    exact hplanU.trans hplan
  · have hbusyU : u.loopBusy (c.par 0 8) = s.loopBusy (c.par 0 8) := by
      unfold State.loopBusy
      rw [hbgU, hbgU, State.leaveHold_portInUse]
      rfl
    exact hbusyU.trans hbusy

/-- Settles O29: each command runs its body, which passes every check of it. -/
theorem transportCommandsComplete : Obligations.TransportCommandsComplete := by
  intro s at_ mb e b0 b1 c t offers
  have runs {op : Nat} {allow : State → Call → Bool} {body : State → Call → State} {v : State} (ho : offers op allow)
      (hw : wakesHold.contains op = false) (h : body t c = v) :
      Host.Outcome.next ((s.tick at_).command op mb b0 b1 allow body) = (.next v : Res) :=
    congrArg Host.Outcome.next ((State.command_runs ho hw body).trans h)
  refine ⟨fun k p a ho hok hport hspent hcist hk hp ha hquota => ?partner, fun n l z ho hn hlo hhi hlen hl hok hfuture hz hpartners hsess =>
    runs ho rfl (State.weirBudget_queues (s := t) hn hlo hhi hlen hl hok hfuture hz hpartners hsess), fun z k ho hused hid hinit => ?bulk,
    fun k ho hfind => runs ho rfl (State.sessionClose_closes (s := t) hfind)⟩
  case partner =>
    subst hp ha
    exact runs ho rfl (State.acxPartner_stores (s := t) hk hok hport hspent hcist hquota)
  case bulk =>
    have husedU : (t.leaveHold.partner (8 + c.par 0 3)).used = true := by
      rw [State.partner, State.leaveHold_acx]
      exact hused
    exact congrArg Host.Outcome.next ((State.command_wakes ho rfl _).trans (State.bulkOpen_starts husedU hid hinit))

end Sys2Proof.Machine
end

section
/-! SUPPORT. The end of a background command, for `Obligations.BackgroundCommandsEnd` (O46). -/

namespace Sys2Proof.Machine

section
variable {s : State} {op mb n : Nat} {x : Cmd}

/-- What the end of the work of command `x` of mailbox `mb` does, by its opcode. -/
def State.bgWork (s : State) (op mb n : Nat) (x : Cmd) (res : BgResult) : State :=
  match op with
  | 0x0302 => if n < x.entry.fld 576 32 then s else s.endBackground mb op x.status .empty n
  | 0x0303 => if n < x.entry.fld 576 32 then s else s.endBackground mb op 0 .empty 0
  | 0x0403 =>
    (s.restoreDone x).2.endBackground mb op (s.restoreDone x).1 (if (s.restoreDone x).1 = 0 then (s.restoreDone x).2.restoreResp else .empty) 0
  | 0x0903 => (s.fwStored mb x).2.endBackground mb op (s.fwStored mb x).1 .empty 0
  | 0x0B01 => (s.loopDone x res).2.2.endBackground mb op (s.loopDone x res).1 (s.loopDone x res).2.1 0
  | 0x0B02 => (s.mbistDone x res).2.2.endBackground mb op (s.mbistDone x res).1 (s.mbistDone x res).2.1
      (if (s.mbistDone x res).1 = 0 then 8 * res.rows else 0)
  | _ => s

theorem State.bgCommandComplete_works (hbg : s.pcie.bg.find? (fun b => b.1 = op) = some (op, mb, n))
    (hfind : (s.mbox mb).cmds.find? (fun x => x.phase = .background && x.entry.fld 0 16 = op) = some x) (res : BgResult) :
    s.bgCommandComplete op res = s.bgWork op mb n x res := by
  unfold State.bgCommandComplete
  rw [hbg]
  dsimp only
  rw [hfind]
  rfl

/-- A command whose mailbox is gone leaves its place. -/
theorem State.bgCommandComplete_gone (hbg : s.pcie.bg.find? (fun b => b.1 = op) = some (op, mb, n))
    (hfind : (s.mbox mb).cmds.find? (fun x => x.phase = .background && x.entry.fld 0 16 = op) = none) (res : BgResult) :
    s.bgCommandComplete op res = s.onPcie fun p => { p with bg := p.bg.filter fun b => b.1 ≠ op } := by
  unfold State.bgCommandComplete
  rw [hbg]
  dsimp only
  rw [hfind]

/-! ### Self tests (R419, R496, R498) -/

/-- The effect of a loopback on the lines that it tests and on the chain. -/
def State.looped (s : State) (i : Nat) (res : BgResult) : State :=
  let u := if 0x30 ≤ i ∧ i < 0x50
    then s.loopLines ((res.data.recs 8 (res.data.len / 8)).filter fun e => elaChannel (e.fld 0 43) + 0x30 = i) else s
  if i = 0x50 then u.onAon fun a => { a with chainLoop := false } else u

theorem State.loopDone_ran {res : BgResult} (h : ¬ (x.entry.fld 512 8 < 8 ∧ res.rows ≠ 0)) : s.loopDone x res =
    (0, packBuf 16 [(64, res.bytes), (64, res.errors)],
      if res.errors = 0 then (s.looped (x.entry.fld 512 8) res).raise Ev.loopbackDone (x.entry.fld 512 8)
      else (s.looped (x.entry.fld 512 8) res).raise Ev.loopbackErrors (x.entry.fld 512 8) [(32, Nat.min res.errors (2 ^ 32 - 1))]) := by
  unfold State.loopDone State.looped
  dsimp only
  rw [if_neg (by simpa using h)]
  simp only [Bool.and_eq_true, decide_eq_true_eq]

theorem State.loopDone_refused {res : BgResult} (hi : x.entry.fld 512 8 < 8) (hrows : res.rows ≠ 0) :
    s.loopDone x res = (0x012B, .empty, s) := by
  have hcannot : (decide (x.entry.fld 512 8 < 8) && decide (res.rows ≠ 0)) = true := by simp [hi, hrows]
  exact if_pos hcannot

theorem State.mbistDone_clean {res : BgResult} (hrows : res.rows = 0) : s.mbistDone x res =
    (0, packBuf 4 [(32, 0)], ((s.zeroDies (x.entry.fld 512 10)).raise Ev.mbistDone (x.entry.fld 512 10)).writeHost
      (hostBuf (x.entry.slice 16 16) (some x.in0)).2.exts (res.data.slice 0 0)) := by
  unfold State.mbistDone
  dsimp only
  have hroom (n : Nat) : ¬ n < (res.data.slice 0 0).len := Nat.not_lt_zero n
  rw [hrows, if_pos rfl, Nat.mul_zero, if_neg (hroom _)]

theorem State.mbistDone_rows {res : BgResult} (hrows : res.rows ≠ 0) : s.mbistDone x res =
    (let u := (s.zeroDies (x.entry.fld 512 10)).raise Ev.mbistFail (x.entry.fld 512 10) [(16, Nat.min res.rows (2 ^ 16 - 1))]
     if (hostBuf (x.entry.slice 16 16) (some x.in0)).2.size < (res.data.slice 0 (8 * res.rows)).len then (7, .empty, u)
     else (0, packBuf 4 [(32, res.rows)],
       u.writeHost (hostBuf (x.entry.slice 16 16) (some x.in0)).2.exts (res.data.slice 0 (8 * res.rows)))) := by
  unfold State.mbistDone
  dsimp only
  rw [if_neg hrows]

end

/-- Settles O46: the work of each opcode ends its command as the rule of that opcode says. -/
theorem backgroundCommandsEnd : Obligations.BackgroundCommandsEnd := by
  intro s at_ op mb n res x t hbg
  refine ⟨fun hnone => congrArg Host.Outcome.next (State.bgCommandComplete_gone (s := t) hbg hnone res), fun hfind => ?_⟩
  intro ends i mask
  have hworks : exec (.bgCommandComplete at_ op res) s = .next (t.bgWork op mb n x res) :=
    congrArg Host.Outcome.next (State.bgCommandComplete_works (s := t) hbg hfind res)
  rw [hworks]
  refine ⟨fun hop hlast => ?ergRead, fun hop hlast => ?ergWrite, fun st u hop hdone => ?restore, fun st u hop hdone => ?firmware,
    fun hop hran => ?loopback, fun hop hi hrows => ?refused, fun hop hrows => ?clean, fun hop hrows => ?rows⟩ <;> subst hop <;>
    refine congrArg Host.Outcome.next ?_
  case ergRead => exact if_neg (Nat.not_lt.mpr hlast)
  case ergWrite => exact if_neg (Nat.not_lt.mpr hlast)
  case restore =>
    simp only [State.bgWork, hdone]
    rfl
  case firmware =>
    simp only [State.bgWork, hdone]
    rfl
  case loopback =>
    simp only [State.bgWork, State.loopDone_ran hran]
    rfl
  case refused =>
    simp only [State.bgWork, State.loopDone_refused hi hrows]
    rfl
  case clean =>
    simp only [State.bgWork, State.mbistDone_clean hrows, hrows, Nat.mul_zero, ite_self]
    rfl
  case rows =>
    simp only [State.bgWork, State.mbistDone_rows hrows]
    split
    · rfl
    · rfl

end Sys2Proof.Machine
end

section
/-! SUPPORT. Security and debug commands, for `Obligations.SecurityCommandsComplete` (O27). -/

namespace Sys2Proof.Machine

/-! ### The mailbox of a command that has begun -/

theorem Mailbox.onFirst_go_ne_nil {p : CmdPhase} {f : Cmd → Cmd} {l : List Cmd} (h : l ≠ []) : Mailbox.onFirst.go p f l ≠ [] := by
  cases l with
  | nil => exact absurd rfl h
  | cons c l =>
    unfold Mailbox.onFirst.go
    split
    · simp
    · simp

theorem State.startable_cmds {s : State} {k : Nat} {x : Cmd} (h : s.startable k = some x) : (s.mbox k).cmds ≠ [] := by
  intro hnil
  simp [State.startable, Mailbox.head, hnil] at h

/-- A mailbox whose command begins changes in the phase of that command only. -/
theorem State.begun_mbox {s : State} {op mb : Nat} {e : Buf} {b0 b1 : Option Buf} {allow : State → Call → Bool}
    (h : s.offers op mb e b0 b1 allow = true) :
    (s.begun mb).mbox mb = (s.mbox mb).onFirst .waiting fun y => { y with phase := .running } := by
  have hposts : s.posts op mb e = true := by
    simp only [State.offers, Bool.and_eq_true] at h
    exact h.1.1.1
  obtain ⟨⟨x, hx, -⟩, -⟩ := State.posts_iff.mp hposts
  have hlisted : ((s.mbox mb).onFirst .waiting fun y => { y with phase := .running }) ≠ Mailbox.reset := fun hreset =>
    Mailbox.onFirst_go_ne_nil (State.startable_cmds hx) (congrArg Mailbox.cmds hreset)
  exact (tget_tset_of_ne hlisted s.pcie.mboxes mb mb).trans (if_pos rfl)

section Bodies
variable {s : State} {c : Call}

/-! ### Roles and quotes (R403, R466, R478) -/

theorem State.roleBind_binds (hfree : (s.mbox c.mb).role = 0) (hlo : 1 ≤ c.par 0 3) (hhi : c.par 0 3 ≤ 4)
    (hjob : c.par 0 3 = 4 ∨ c.par 64 64 = 0) (hlen : 1216 ≤ c.buf0.data.len)
    (hgood : (s.onMbox c.mb fun m => { m with nonce := none }).proofGood (s.mbox c.mb).nonce (c.par 0 3) (c.par 64 64)
      (c.buf0.data.slice 0 1216) = true) : s.roleBind c =
      ((s.onMbox c.mb fun m => { m with nonce := none }).onMbox c.mb fun m =>
        { m with
          role := c.par 0 3, roleJob := c.par 64 64
          actor := (sha256Buf (Buf.ofBe 384 (certModulus ((c.buf0.data.slice 0 1216).slice 0 832)))).val
          actorKey := certModulus ((c.buf0.data.slice 0 1216).slice 0 832) }).finish c.mb 0 := by
  have hparams : ¬ (decide (c.par 0 3 = 0) || decide (4 < c.par 0 3) || decide (c.par 0 3 ≠ 4) && decide (c.par 64 64 ≠ 0)) = true := by
    simp only [Bool.or_eq_true, Bool.and_eq_true, decide_eq_true_eq]
    omega
  exact (if_neg (not_not.mpr hfree)).trans ((if_neg hparams).trans ((if_neg (Nat.not_lt.mpr hlen)).trans (if_pos hgood)))

theorem State.attestQuote_answers (hid : s.hasIdentity = true) (hfits : (s.quote (c.par 0 256)).len ≤ c.buf0.size) : s.attestQuote c =
    (s.writeHost c.buf0.exts (s.quote (c.par 0 256))).finish c.mb 0 .empty (s.quote (c.par 0 256)).len :=
  (if_neg (by simp [hid])).trans (State.answerBuf_fits hfits _)

/-! ### Firmware (R432, R469) -/

/-- A firmware update gone to the background. -/
def State.fwUpdating (s : State) (mb : Nat) (img : Buf) : State :=
  (s.onMbox mb fun m => m.onFirst .running fun x => { x with phase := .background, in0 := img, in1 := .empty }).onPcie fun p =>
    { p with running := none, bg := p.bg ++ [(0x0903, mb, 0)] }

theorem State.fwUpdate_ofBuffer (hhost : c.mb ≠ 16) (hbg : s.inBackground 0x0903 = false) (hlen : 64 ≤ c.buf0.data.len)
    (hwhole : signedLen (fwLen c.buf0.data) ≤ c.buf0.data.len) : s.fwUpdate c = s.fwUpdating c.mb c.buf0.data := by
  unfold State.fwUpdate
  dsimp only
  rw [if_neg hhost, if_neg hhost, if_neg (by simp [hbg]), if_neg (by simp [hlen, hwhole])]
  rfl

theorem State.fwUpdate_ofStage {img : Buf} (himg : img = s.stagedImage.getD .empty) (hchain : c.mb = 16)
    (hbg : s.inBackground 0x0903 = false) (hlen : 64 ≤ img.len) (hwhole : signedLen (fwLen img) ≤ img.len) :
    s.fwUpdate c = s.clearStage.fwUpdating c.mb img := by
  subst himg
  have hbg' : s.clearStage.inBackground 0x0903 = false := hbg
  unfold State.fwUpdate
  dsimp only
  rw [if_pos hchain, if_pos hchain, if_neg (by simp [hbg']), if_neg (by simp [hlen, hwhole])]
  rfl

/-! ### Ownership (R467, R471) -/

/-- The key under which an ownership record must verify. -/
def State.transferKey (s : State) (mb : Nat) : Nat :=
  if s.isl.lifecycle = 0 ∧ (s.mbox mb).role = 1 then (s.mbox mb).actorKey else s.isl.ownerKey

section Transfer
variable {r : Buf} (hr : r = c.buf0.data) (hlife : s.isl.lifecycle ≠ 2) (hlen : 928 ≤ r.len) (hmagic : r.fld 0 32 = 0x58544C4F)
  (hzero : r.fld 48 464 = 0) (hdevice : r.be 64 32 = s.ownKeyDigest) (hmap : ∀ j < 16, r.fld (3840 + 32 * j) 32 < 2 ^ 14)
  (hkey : s.transferKey c.mb ≠ 0) (hsig : pssVerify (s.transferKey c.mb) (sha256 (r.slice 0 544)) (r.be 544 384) = true)
  (hspent : s.ledgerSpent = false)
include hr hlife hlen hmagic hzero hdevice hmap hkey hsig hspent

/-- A record that verifies, whose number is the next or 0 with the key unchanged, is taken. -/
theorem State.ownerTransfer_takes (hsame : r.fld 32 16 = 0 → r.be 96 384 = s.isl.ownerKey)
    (hroom : r.fld 32 16 ≠ 0 → s.isl.transfers < 16) (hnext : r.fld 32 16 ≠ 0 → r.fld 32 16 = s.isl.transfers + 1) : s.ownerTransfer c =
      let used := s.isl.transfers + (if r.fld 32 16 = 0 then 0 else 1)
      let u := (s.onIsl fun x => { x with ownerKey := r.be 96 384, transfers := used, regmap := r.fld 3840 512 }).commandLedger c.mb
        0x0020 0x0904 c.params r used
      (if r.fld 32 16 = 0 then u else u.counterLow 0x0020 used 16 0x0904).finish c.mb 0 := by
  subst hr
  have hentries : ((List.range 16).all fun j => decide (c.buf0.data.fld (3840 + 32 * j) 32 >>> 14 = 0)) = true := by
    simp only [List.all_eq_true, List.mem_range, decide_eq_true_eq]
    intro j hj
    rw [Nat.shiftRight_eq_div_pow]
    exact Nat.div_eq_of_lt (hmap j hj)
  have hkeyEq : (if (decide (s.isl.lifecycle = 0) && decide ((s.mbox c.mb).role = 1)) = true then (s.mbox c.mb).actorKey else s.isl.ownerKey) =
      s.transferKey c.mb := by
    simp only [Bool.and_eq_true, decide_eq_true_eq]
    rfl
  unfold State.ownerTransfer
  dsimp only
  rw [hkeyEq, hentries, if_neg hlife, if_neg (Nat.not_lt.mpr hlen), if_neg (by simp [hmagic, hzero, hdevice, hkey, hsig]),
    if_neg (by simpa using hsame), if_neg (by simpa using hroom), if_neg (by simpa using hnext), if_neg (by simp [hspent])]

end Transfer

/-! ### Lifecycle and debug (R472, R473) -/

theorem State.lifecycleAdvance_owns (htarget : c.par 0 2 = 1) (hlife : s.isl.lifecycle = 0) (hkey : s.isl.ownerKey ≠ 0)
    (hspent : s.ledgerSpent = false) : s.lifecycleAdvance c =
      ((s.onIsl fun x => { x with lifecycle := 1 }).commandLedger c.mb 0x0021 0x0905 c.params .empty 1).finish c.mb 0 := by
  unfold State.lifecycleAdvance
  dsimp only
  rw [htarget, if_neg (by decide), if_neg (by simp [hlife, hkey]), if_neg (by simp), if_neg (by simp [hspent]), if_neg (by decide)]

theorem State.lifecycleAdvance_ends (htarget : c.par 0 2 = 2) (hlife : s.isl.lifecycle = 1) (hjob : s.job = none)
    (hspent : s.ledgerSpent = false) : s.lifecycleAdvance c =
      ((((s.onIsl fun x => { x with lifecycle := 2 }).commandLedger c.mb 0x0021 0x0905 c.params .empty 2).onIsl fun x =>
        { x with hasId := false, idOk := false, ownerKey := 0 }).raise Ev.lifecycleChanged 0x0905).finish c.mb 0 := by
  unfold State.lifecycleAdvance
  dsimp only
  rw [htarget, if_neg (by decide), if_neg (by simp [hlife]), if_neg (by simp [hjob]), if_neg (by simp [hspent]), if_pos rfl]

theorem State.debugEnter_enters {g : Buf} (hg : g = c.buf0.data) (hlen : 448 ≤ g.len) (hroom : s.isl.grants < 32)
    (hmagic : g.fld 0 32 = 0x47444C4F) (hnext : g.fld 32 16 = s.isl.grants + 1) (hzero : g.fld 48 16 = 0)
    (htime : s.grantInTime (g.fld 64 64) = true) (hdevice : g.be 16 32 = s.ownKeyDigest) (hrest : g.fld 384 128 = 0)
    (hsig : pssVerify (s.mbox c.mb).actorKey (sha256 (g.slice 0 64)) (g.be 64 384) = true) (hspent : s.ledgerSpent = false) :
    s.debugEnter c =
      ((((s.onIsl fun x => { x with grants := s.isl.grants + 1, debug := true }).commandLedger c.mb 0x0030 0x0A01 c.params g
        (s.isl.grants + 1)).counterLow 0x0030 (s.isl.grants + 1) 32 0x0A01).raise Ev.debugEntered 0x0A01).finish c.mb 0 := by
  subst hg
  unfold State.debugEnter
  exact (if_neg (Nat.not_lt.mpr hlen)).trans ((if_neg (Nat.not_le.mpr hroom)).trans
    ((if_neg (by simp [hmagic, hnext, hzero, htime, hdevice, hrest, hsig])).trans (if_neg (by simp [hspent]))))

theorem State.debugExit_exits (hdebug : s.isl.debug = true) : s.debugExit c =
    ((s.onIsl fun x => { x with debug := false }).raise Ev.debugExited 0x0A03).finish c.mb 0 := if_neg (by simp [hdebug])

/-- The state in which ACC_READ reads its accumulators. -/
def State.accNoted (s : State) (c : Call) : State :=
  (s.settleTile (c.par 0 7) (c.par 7 1)).noteBasin (c.par 0 7) (c.par 7 1) (fun i => c.par 8 14 ≤ i && i < c.par 8 14 + c.par 22 14) .maint

theorem State.accRead_answers {data : Buf} (hdebug : s.isl.debug = true) (hsome : 1 ≤ c.par 22 14) (hend : c.par 8 14 + c.par 22 14 ≤ 9216)
    (hdata : data = (Buf.cat ((List.range (c.par 22 14)).map fun i =>
      (tget Acc.reset (((s.accNoted c).core (c.par 0 7)).tile (c.par 7 1)).acc (c.par 8 14 + i)).raw)).app
        (((s.accNoted c).core (c.par 0 7)).tile (c.par 7 1)).record) (hfits : data.len ≤ c.buf0.size) : s.accRead c =
      (((s.accNoted c).onCore (c.par 0 7) fun x => { x with accHold := if x.kernel.isSome then some c.mb else x.accHold }).writeHost
        c.buf0.exts data).finish c.mb 0 .empty data.len := by
  subst hdata
  have hrange : ¬ (decide (c.par 22 14 = 0) || decide (9216 < c.par 22 14) || decide (9216 < c.par 8 14 + c.par 22 14)) = true := by
    simp only [Bool.or_eq_true, decide_eq_true_eq]
    omega
  exact (if_neg (by simp [hdebug])).trans ((if_neg hrange).trans (State.answerBuf_fits hfits _))

end Bodies

/-- Settles O27: each command runs its body, which passes every check of it. -/
theorem securityCommandsComplete : Obligations.SecurityCommandsComplete := by
  intro s at_ mb e b0 b1 c t offers
  have runs {op : Nat} {allow : State → Call → Bool} {body : State → Call → State} {v : State} (ho : offers op allow)
      (hw : wakesHold.contains op = false) (h : body t c = v) :
      Host.Outcome.next ((s.tick at_).command op mb b0 b1 allow body) = (.next v : Res) :=
    congrArg Host.Outcome.next ((State.command_runs ho hw body).trans h)
  have hmbox {op : Nat} {allow : State → Call → Bool} (ho : offers op allow) :
      t.mbox mb = (s.mbox mb).onFirst .waiting fun y => { y with phase := .running } := State.begun_mbox ho
  have hactor {op : Nat} {allow : State → Call → Bool} (ho : offers op allow) : (t.mbox mb).actorKey = (s.mbox mb).actorKey := by
    rw [hmbox ho]
    rfl
  have hkeyOf {op : Nat} {allow : State → Call → Bool} (ho : offers op allow) :
      t.transferKey mb = if s.isl.lifecycle = 0 ∧ (s.mbox mb).role = 1 then (s.mbox mb).actorKey else s.isl.ownerKey := by
    rw [State.transferKey, hmbox ho]
    rfl
  refine ⟨fun ho => runs ho rfl rfl, fun ho hfree hlo hhi hjob hlen hgood => ?bind,
    fun ho hid hfits => runs ho rfl (State.attestQuote_answers hid hfits),
    fun ho hhost hbg hlen hwhole => runs ho rfl (State.fwUpdate_ofBuffer (s := t) (c := c) hhost hbg hlen hwhole),
    fun img w ho hchain himg hw hbg hlen hwhole => ?staged,
    fun r key seq hr hseq hkey ho hlife hlen hmagic hzero hdevice hmap hkey0 hsig hnext hroom hspent => ?transfer,
    fun r key hr hkey ho hlife hlen hmagic hzero hdevice hmap hkey0 hsig hseq hsame hspent => ?map,
    fun ho htarget hlife hkey hspent => runs ho rfl (State.lifecycleAdvance_owns (s := t) htarget hlife hkey hspent),
    fun ho htarget hlife hjob hspent => runs ho rfl (State.lifecycleAdvance_ends (s := t) htarget hlife hjob hspent),
    fun g hg ho hlen hroom hmagic hnext hzero htime hdevice hrest hsig hspent => ?debug,
    fun ho hdebug => runs ho rfl (State.debugExit_exits (s := t) hdebug), fun w tile data ho hdebug hsome hend hw htile hdata hfits => ?acc⟩
  case bind =>
    have hfree' : (t.mbox mb).role = 0 := (congrArg Mailbox.role (hmbox ho)).trans hfree
    exact runs ho rfl (State.roleBind_binds (s := t) (c := c) hfree' hlo hhi hjob hlen hgood)
  case staged =>
    subst hw
    exact runs ho rfl (State.fwUpdate_ofStage (s := t) himg hchain hbg hlen hwhole)
  case transfer =>
    subst hseq hkey
    rw [← hkeyOf ho] at hkey0 hsig
    refine runs ho rfl ((State.ownerTransfer_takes (s := t) hr hlife hlen hmagic hzero hdevice hmap hkey0 hsig hspent (by omega)
      (fun _ => hroom) (fun _ => hnext)).trans ?_)
    dsimp only
    rw [if_neg (by omega), if_neg (by omega), hnext]
    rfl
  case map =>
    subst hkey
    rw [← hkeyOf ho] at hkey0 hsig
    refine runs ho rfl ((State.ownerTransfer_takes (s := t) hr hlife hlen hmagic hzero hdevice hmap hkey0 hsig hspent (fun _ => hsame)
      (fun h => absurd hseq h) (fun h => absurd hseq h)).trans ?_)
    dsimp only
    rw [if_pos hseq, if_pos hseq, hsame]
    rfl
  case debug =>
    rw [← hactor ho] at hsig
    exact runs ho rfl (State.debugEnter_enters (s := t) hg hlen hroom hmagic hnext hzero htime hdevice hrest hsig hspent)
  case acc =>
    subst hw htile
    have hdebug' : t.leaveHold.isl.debug = true := by rw [State.leaveHold_isl]; exact hdebug
    exact congrArg Host.Outcome.next ((State.command_wakes ho rfl _).trans (State.accRead_answers hdebug' hsome hend hdata hfits))

end Sys2Proof.Machine
end

section
/-! SUPPORT. The site job restart, for `Obligations.SiteRestartComplete` (O6), and replica repair, for
`Obligations.ReplicasCompareAndRepair` (O7). -/

namespace Sys2Proof.Machine

/-! ### Notices (R486) -/

section Notices
variable {s : State} {j : Job}

/-- Messages sent change ports only. -/
theorem State.foldl_sendMessage_eq (l : List Nat) (v : Nat) (cw : Nat → Nat) (b : Buf) (s : State) :
    ∃ near, l.foldl (fun s p => s.sendMessage p v (cw p) b) s = { s with near } := by
  induction l generalizing s with
  | nil => exact ⟨s.near, rfl⟩
  | cons p l ih =>
    obtain ⟨near, h⟩ := ih (s.sendMessage p v (cw p) b)
    exact ⟨near, h⟩

theorem State.sendNotice_eq (s : State) (b : Buf) (exceptPort : Option Nat) : ∃ near, s.sendNotice b exceptPort = { s with near } := by
  unfold State.sendNotice
  split
  · exact ⟨s.near, rfl⟩
  · exact State.foldl_sendMessage_eq ..

theorem State.sendNeighbourNotices_eq (s : State) : ∃ near, s.sendNeighbourNotices = { s with near } := by
  unfold State.sendNeighbourNotices
  split
  · exact ⟨s.near, rfl⟩
  · exact State.foldl_sendMessage_eq ..

/-- A notice passed on changes ports, and which notices have been seen. -/
theorem State.passNotice_eq (s : State) (p : Nat) (b : Buf) : ∃ near seen, s.passNotice p b = { s with near, site := { s.site with seen } } := by
  unfold State.passNotice
  dsimp only
  split
  · exact ⟨s.near, s.site.seen, rfl⟩
  · obtain ⟨near, h⟩ := State.sendNotice_eq (s.onSite fun x => { x with seen := (ntKind b, ntCw b) :: x.seen }) (b.slice 0 64) (some p)
    exact ⟨near, _, h⟩

theorem State.noticeMine_iff (hjob : s.job = some j) {b : Buf} {kind : Nat} :
    s.noticeMine b kind = true ↔ ntKind b = kind ∧ ntJob b = imgJobId j.image := by
  unfold State.noticeMine
  rw [hjob]
  simp

theorem State.unlessStopped_goes (h : s.site.stopReq = false) (f : State → State) : s.unlessStopped f = f s := if_neg (by simp [h])

theorem State.unlessStopped_stops (h : s.site.stopReq = true) (f : State → State) :
    s.unlessStopped f = (s.onSite fun x => { x with phase := .idle, stopReq := false }).stopJob := if_pos h

/-! ### The steps of a restart (R487, R488) -/

theorem State.restartReset_due {since : Nat} (hphase : s.site.phase = .fault since) (hdue : since + 100000 ≤ s.now) : s.restartReset =
    s.unlessStopped fun s => (s.onSite fun x => { x with phase := .warm s.now }).reset_ 5 .warm false true := by
  unfold State.restartReset
  rw [hphase]
  exact if_neg (Nat.not_lt.mpr hdue)

section Rearm
variable {since seed sfl : Nat} {raw : Buf} (hphase : s.site.phase = .warm since) (hcopy : s.site.copy = some (raw, seed, sfl))
  (hready : s.rilsetiReady = true) (hlocked : s.ht.state = .locked) (hstop : s.site.stopReq = false)
include hphase hcopy hready hlocked hstop

/-- A stored copy that no longer passes fails the restart. -/
theorem State.rearm_fails (hbad : s.imageGood raw (imgLen raw) (mainSigner raw) = false ∨ (armFailure s (raw.slice 0 (imgLen raw)) none).isSome = true) :
    s.rearm = s.failRestart Ev.restartFailed := by
  unfold State.rearm
  rw [hphase, hcopy]
  refine (if_neg (by simp [hready, hlocked])).trans ((State.unlessStopped_goes hstop _).trans (if_pos ?_))
  simpa using hbad

/-- The job re-armed from the stored copy with no epoch. -/
def State.rearmed (s : State) (b : Buf) (seed sfl : Nat) : State :=
  (s.armJob b none seed sfl (rejoin b)).onJob fun j => { j with phase := .restarting }

theorem State.rearm_arms (hgood : s.imageGood raw (imgLen raw) (mainSigner raw) = true)
    (hfit : armFailure s (raw.slice 0 (imgLen raw)) none = none) : s.rearm =
      let b := raw.slice 0 (imgLen raw)
      let u := s.rearmed b seed sfl
      let h := u.newestHalf b
      let new := (h.bind fun x => u.halfStep b x).getD noStep
      let old := (h.bind fun x => u.halfStep b (1 - x)).getD noStep
      let u := u.onSite fun x =>
        { x with
          phase := .ckpt u.now, ckpts := (imgCw b, new, old) :: x.ckpts.filter fun c => c.1 ≠ imgCw b
          seen := (2, imgCw b) :: x.seen }
      (u.sendNotice (siteNotice 2 0 (imgCw b) (imgJobId b) u.site.htx new old 0 0) none).chooseStep := by
  unfold State.rearm
  rw [hphase, hcopy]
  exact (if_neg (by simp [hready, hlocked])).trans ((State.unlessStopped_goes hstop _).trans (if_neg (by simp [hgood, hfit])))

end Rearm

/-- A RESTART of another job, or of another kind, does nothing but leave its port. -/
theorem State.restartNotice_other {p : Nat} {b : Buf} (hjob : s.job = some j) (h : ntKind b ≠ 1 ∨ ntJob b ≠ imgJobId j.image) :
    s.restartNotice p b = s.takeMessage p 2 := by
  refine if_pos ?_
  rw [Bool.not_eq_true', Bool.eq_false_iff]
  intro hmine
  obtain ⟨hkind, hown⟩ := (State.noticeMine_iff (s := s.takeMessage p 2) hjob).mp hmine
  exact h.elim (· hkind) (· hown)

theorem State.restartNotice_mine {p : Nat} {b : Buf} (hjob : s.job = some j) (hkind : ntKind b = 1) (hmine : ntJob b = imgJobId j.image) :
    s.restartNotice p b = ((s.takeMessage p 2).restart (ntHtx b)).passNotice p b :=
  if_neg (by simp [(State.noticeMine_iff (s := s.takeMessage p 2) hjob).mpr ⟨hkind, hmine⟩])

/-- The state in which a notice of the own job has been taken and passed on. -/
def State.noticed (s : State) (p : Nat) (b : Buf) : State := (s.takeMessage p 2).passNotice p b

theorem State.noticed_eq (s : State) (p : Nat) (b : Buf) : ∃ near seen, s.noticed p b = { s with near, site := { s.site with seen } } := by
  obtain ⟨near, seen, h⟩ := (s.takeMessage p 2).passNotice_eq p b
  exact ⟨near, seen, h⟩

/-- A CKPT held for the first time. -/
theorem State.ckptNotice_holds {p : Nat} {b : Buf} (hjob : s.job = some j) (hkind : ntKind b = 2) (hmine : ntJob b = imgJobId j.image)
    (hphase : s.site.phase ≠ .idle) (hnew : ∀ c ∈ s.site.ckpts, c.1 ≠ ntCw b) (hstop : s.site.stopReq = false) : s.ckptNotice p b =
      ((s.noticed p b).onSite fun x => { x with ckpts := x.ckpts ++ [(ntCw b, ntStep b, ntStepOld b)] }).chooseStep := by
  have hmine' : (s.takeMessage p 2).noticeMine b 2 = true := (State.noticeMine_iff (s := s.takeMessage p 2) hjob).mpr ⟨hkind, hmine⟩
  have hheld : ¬ (decide (s.site.phase = .idle) || s.site.ckpts.any fun c => decide (c.1 = ntCw b)) = true := by
    simpa [hphase] using fun x y h => hnew (ntCw b, x, y) h rfl
  obtain ⟨near, seen, hnoticed⟩ := s.noticed_eq p b
  have hgoes := State.unlessStopped_goes (s := (s.noticed p b).onSite fun x => { x with ckpts := x.ckpts ++ [(ntCw b, ntStep b, ntStepOld b)] })
    (by rw [hnoticed]; exact hstop) State.chooseStep
  rw [← hgoes]
  have hheld' : ¬ (decide ((s.noticed p b).site.phase = .idle) || (s.noticed p b).site.ckpts.any fun c => decide (c.1 = ntCw b)) = true := by
    simpa only [hnoticed] using hheld
  exact (if_neg (by simp [hmine'])).trans (if_neg hheld')

/-- A READY held for the first time. -/
theorem State.readyNotice_holds {p : Nat} {b : Buf} (hjob : s.job = some j) (hkind : ntKind b = 3) (hmine : ntJob b = imgJobId j.image)
    (hphase : s.site.phase ≠ .idle) (hnew : ∀ r ∈ s.site.readies, r.1 ≠ ntCw b) (hstop : s.site.stopReq = false) : s.readyNotice p b =
      ((s.noticed p b).onSite fun x => { x with readies := x.readies ++ [(ntCw b, ntHtx b)] }).resumeAll := by
  have hmine' : (s.takeMessage p 2).noticeMine b 3 = true := (State.noticeMine_iff (s := s.takeMessage p 2) hjob).mpr ⟨hkind, hmine⟩
  have hheld : ¬ (decide (s.site.phase = .idle) || s.site.readies.any fun r => decide (r.1 = ntCw b)) = true := by
    simpa [hphase] using fun x h => hnew (ntCw b, x) h rfl
  obtain ⟨near, seen, hnoticed⟩ := s.noticed_eq p b
  have hgoes := State.unlessStopped_goes (s := (s.noticed p b).onSite fun x => { x with readies := x.readies ++ [(ntCw b, ntHtx b)] })
    (by rw [hnoticed]; exact hstop) State.resumeAll
  rw [← hgoes]
  have hheld' : ¬ (decide ((s.noticed p b).site.phase = .idle) || (s.noticed p b).site.readies.any fun r => decide (r.1 = ntCw b)) = true := by
    simpa only [hnoticed] using hheld
  exact (if_neg (by simp [hmine'])).trans (if_neg hheld')

/-! ### The load of the chosen half (R487, R488) -/

/-- The half that holds the chosen step. -/
def State.chosenHalf (s : State) (b : Buf) : Nat := if s.halfStep b 0 = some s.site.step then 0 else 1

section Load
variable {since : Nat} (hjob : s.job = some j) (hphase : s.site.phase = .loading since) (hstop : s.site.stopReq = false)
include hjob hphase hstop

theorem State.loadDone_absent (hnone : s.halfRecs j.image (s.chosenHalf j.image) = none) : s.loadDone = s.failRestart Ev.restartFailed := by
  unfold State.loadDone
  rw [hjob, hphase]
  refine (State.unlessStopped_goes hstop _).trans ?_
  unfold State.chosenHalf at hnone
  dsimp only
  rw [hnone]

theorem State.loadDone_bad {l : List Rec} (hrecs : s.halfRecs j.image (s.chosenHalf j.image) = some l)
    (hbad : recsStep l ≠ some s.site.step ∨ (importStatus j.image l).isSome = true) : s.loadDone = s.failRestart Ev.restartFailed := by
  unfold State.loadDone
  rw [hjob, hphase]
  refine (State.unlessStopped_goes hstop _).trans ?_
  unfold State.chosenHalf at hrecs
  dsimp only
  rw [hrecs]
  exact if_pos (by simpa using hbad)

theorem State.loadDone_installs {l : List Rec} (hrecs : s.halfRecs j.image (s.chosenHalf j.image) = some l)
    (hstep : recsStep l = some s.site.step) (hgood : importStatus j.image l = none) : s.loadDone =
      let u := (s.restoreRecs j l none (rejoin j.image)).onJob fun j => { j with phase := .restarting }
      let u := u.onSite fun x =>
        { x with
          phase := .ready u.now, ownReady := u.htNow, readies := (imgCw j.image, u.htNow) :: x.readies.filter fun r => r.1 ≠ imgCw j.image
          seen := (3, imgCw j.image) :: x.seen }
      (u.sendNotice (siteNotice 3 0 (imgCw j.image) (imgJobId j.image) u.htNow 0 0 0 0) none).resumeAll := by
  unfold State.loadDone
  rw [hjob, hphase]
  refine (State.unlessStopped_goes hstop _).trans ?_
  unfold State.chosenHalf at hrecs
  dsimp only
  rw [hrecs]
  exact if_neg (by simp [hstep, hgood])

end Load

/-! ### The step from which the job runs on (R487) -/

/-- With every READY held and H not too near, the job is armed at its step with E set, and the restart is over. -/
theorem State.resumeAll_resumes {since h : Nat} (hjob : s.job = some j) (hphase : s.site.phase = .ready since)
    (hall : s.site.readies.length = siteSize j.image) (hh : resumeAt (s.site.readies.foldl (fun a x => Nat.max a x.2) 0) = h)
    (hfar : s.site.ownReady + 10000000 ≤ h) :
    s.resumeAll.job = some { j with phase := .armed, fresh := true, hasEpoch := true, epoch := (h : Int) - j.sn } ∧
      s.resumeAll.site.phase = .idle := by
  unfold State.resumeAll
  rw [hjob, hphase]
  dsimp only
  have hfar' : ¬ h < s.site.ownReady + 10 * oneMs := Nat.not_lt.mpr hfar
  rw [hh, if_neg (by omega), if_neg hfar', State.raise_job, State.raise_site]
  obtain ⟨near, hsend⟩ := State.sendNeighbourNotices_eq _
  rw [hsend]
  exact ⟨congrArg (Option.map _) hjob, rfl⟩

theorem resumeAt_eq (m : Nat) : resumeAt m = 3900 * ((m + 100000000 + 3899) / 3900) := by
  unfold resumeAt ceilDiv
  omega

theorem State.restartTimeout_expires (h : s.restartExpired = true) : s.restartTimeout = s.failRestart Ev.restartFailed := if_pos h

theorem State.restartExpired_of {since : Nat} (h : s.site.phase = .warm since ∧ s.ht.state ≠ .locked ∧ since + 5000000000 ≤ s.now ∨
    s.site.phase = .ckpt since ∧ since + 6000000000 ≤ s.now ∨ s.site.phase = .ready since ∧ since + 60000000000 ≤ s.now) :
    s.restartExpired = true := by
  unfold State.restartExpired
  obtain ⟨hphase, hlocked, hpast⟩ | ⟨hphase, hpast⟩ | ⟨hphase, hpast⟩ := h
  · simp [hphase, hlocked, oneS, hpast]
  · simp [hphase, oneS, hpast]
  · simp [hphase, oneS, hpast]

end Notices

/-- Settles O6: each notice and each timer of the restart in the step in which it acts. -/
theorem siteRestartComplete : Obligations.SiteRestartComplete := by
  intro s at_ j t failed pass hjob
  refine ⟨fun p b => ⟨fun hother => ?other, fun hkind hmine => ?restart⟩, fun since hphase hdue => ?reset,
    fun since raw seed sfl hphase hcopy hready hlocked hstop => ?rearm, fun p b hkind hmine hphase hnew hstop => ?ckpt,
    fun since hphase hstop => ?load, fun p b hkind hmine hphase hnew hstop => ?ready, fun hexpired => ?expired⟩
  case other => exact congrArg Host.Outcome.next (State.restartNotice_other (s := t) hjob hother)
  case restart => exact congrArg Host.Outcome.next (State.restartNotice_mine (s := t) hjob hkind hmine)
  case reset =>
    have hreset := State.restartReset_due (s := t) hphase hdue
    exact ⟨fun hstop => congrArg Host.Outcome.next (hreset.trans (State.unlessStopped_goes (s := t) hstop _)),
      fun hstop => congrArg Host.Outcome.next (hreset.trans (State.unlessStopped_stops (s := t) hstop _))⟩
  case rearm =>
    exact ⟨fun hbad => congrArg Host.Outcome.next (State.rearm_fails (s := t) hphase hcopy hready hlocked hstop hbad),
      fun hgood hfit => congrArg Host.Outcome.next (State.rearm_arms (s := t) hphase hcopy hready hlocked hstop hgood hfit)⟩
  case ckpt => exact congrArg Host.Outcome.next (State.ckptNotice_holds (s := t) hjob hkind hmine hphase hnew hstop)
  case load =>
    exact ⟨fun hnone => congrArg Host.Outcome.next (State.loadDone_absent (s := t) hjob hphase hstop hnone),
      fun l hrecs hbad => congrArg Host.Outcome.next (State.loadDone_bad (s := t) hjob hphase hstop hrecs hbad),
      fun l hrecs hstep hgood => congrArg Host.Outcome.next (State.loadDone_installs (s := t) hjob hphase hstop hrecs hstep hgood)⟩
  case ready =>
    intro u
    have hready : exec (.ready at_ p b) s = .next u.resumeAll :=
      congrArg Host.Outcome.next (State.readyNotice_holds (s := t) hjob hkind hmine hphase hnew hstop)
    refine ⟨hready, fun since hphase' hall => ?_⟩
    intro h hfar
    obtain ⟨near, seen, hnoticed⟩ := t.noticed_eq p b
    have hu : u = (t.noticed p b).onSite fun x => { x with readies := x.readies ++ [(ntCw b, ntHtx b)] } := rfl
    rw [hnoticed] at hu
    have hown : u.site.ownReady = s.site.ownReady := by rw [hu]; rfl
    obtain ⟨hjobW, hphaseW⟩ := State.resumeAll_resumes (s := u) (since := since) (j := j) (by rw [hu]; exact hjob) (by rw [hu]; exact hphase')
      hall (resumeAt_eq _) (by rw [hown]; exact hfar)
    exact ⟨_, _, hready, hjobW, rfl, rfl, rfl, rfl, rfl, hphaseW⟩
  case expired =>
    refine congrArg Host.Outcome.next (State.restartTimeout_expires ?_)
    obtain ⟨since, h⟩ | ⟨since, h⟩ | ⟨since, h⟩ := hexpired
    · exact State.restartExpired_of (s := t) (.inl h)
    · exact State.restartExpired_of (s := t) (.inr (.inl h))
    · exact State.restartExpired_of (s := t) (.inr (.inr h))

/-! ### Replica comparison and repair (R493 to R495) -/

section Replicas
variable {s : State} {j : Job} (hjob : s.job = some j) {p : Nat}
include hjob

/-- A DIGEST of another device, held for the first time. -/
theorem State.digestNotice_holds {b : Buf} (hkind : ntKind b = 4) (hmine : ntJob b = imgJobId j.image) (hother : ntCw b ≠ imgCw j.image)
    (hfresh : j.step ≤ ntStep b + 2) (hnew : ∀ d ∈ s.site.digests, ¬ (d.1 = ntCw b ∧ d.2.1 = ntStep b)) : s.digestNotice p b =
      (((s.takeMessage p 2).alongD (b.slice 0 64) (some p)).onSite fun x =>
        { x with digests := x.digests ++ [(ntCw b, ntStep b, ntEpoch b, ntDigest b, ntDesc b)] }).compareReplicas (ntStep b) := by
  have hjobT : (s.takeMessage p 2).job = some j := hjob
  have hmine' : (s.takeMessage p 2).noticeMine b 4 = true := (State.noticeMine_iff hjobT).mpr ⟨hkind, hmine⟩
  have hheld : ((s.takeMessage p 2).site.digests.any fun d => d.1 = ntCw b && d.2.1 = ntStep b) = false :=
    List.any_eq_false.mpr fun d hd => by simpa using hnew d hd
  unfold State.digestNotice
  dsimp only
  rw [hjobT]
  exact if_neg (by simp only [hmine', hother, hheld]; simpa using hfresh)

section Asks
variable {m : RepairMsg} (hasks : repairAsks m = true)
include hasks

theorem State.repairMsg_answers {r : RepairMsg} (hcw : repairCw m = imgCw j.image) (hr : (s.takeMessage p 2).repairAnswer j m = some r) :
    s.repairMsg p m = (s.takeMessage p 2).emit (.repair p r) := by
  have hjobT : (s.takeMessage p 2).job = some j := hjob
  unfold State.repairMsg
  dsimp only
  rw [hjobT]
  dsimp only
  rw [if_pos hasks, if_pos hcw, hr]

theorem State.repairMsg_passes_request (hcw : repairCw m ≠ imgCw j.image) :
    s.repairMsg p m = (s.takeMessage p 2).emit (.repair (p ^^^ 1) m) := by
  have hjobT : (s.takeMessage p 2).job = some j := hjob
  unfold State.repairMsg
  dsimp only
  rw [hjobT]
  dsimp only
  rw [if_pos hasks, if_neg hcw]

end Asks

section Replies
variable {m : RepairMsg} (hasks : repairAsks m = false)
include hasks

theorem State.repairMsg_passes_reply (hsource : s.site.source ≠ some (repairCw m)) :
    s.repairMsg p m = (s.takeMessage p 2).emit (.repair (p ^^^ 1) m) := by
  have hjobT : (s.takeMessage p 2).job = some j := hjob
  have hsourceT : (s.takeMessage p 2).site.source ≠ some (repairCw m) := hsource
  unfold State.repairMsg
  dsimp only
  rw [hjobT]
  dsimp only
  rw [if_neg (by simp [hasks]), if_neg hsourceT]

/-- What a reply adds to what the repair has pulled: its leaf. -/
def repairPulls (l : List (Nat × Nat × Nat × Buf)) : RepairMsg → List (Nat × Nat × Nat × Buf)
  | .leaf _ t c i d => l ++ [(t, c, i, d)]
  | _ => l

/-- A reply from the source is used; the repair is complete once no reply is awaited. -/
theorem State.repairMsg_uses (hsource : s.site.source = some (repairCw m)) : s.repairMsg p m =
    let t := s.takeMessage p 2
    let next := t.repairNext j m
    let asks := s.site.asks + next.length - 1
    ({ t with out := t.out ++ next.map fun r => Out.repair (dPort j.image) r } : State).onSite fun x =>
      { x with pulled := repairPulls x.pulled m, asks, source := if asks = 0 then none else x.source } := by
  have hjobT : (s.takeMessage p 2).job = some j := hjob
  have hsourceT : (s.takeMessage p 2).site.source = some (repairCw m) := hsource
  conv_lhs =>
    unfold State.repairMsg
    dsimp only
    rw [hjobT]
    dsimp only
    rw [if_neg (by simp [hasks]), if_pos hsourceT]
  by_cases hdone : s.site.asks + ((s.takeMessage p 2).repairNext j m).length - 1 = 0
  · refine (if_pos hdone).trans ?_
    simp only [if_pos hdone]
    cases m <;> rfl
  · refine (if_neg hdone).trans ?_
    simp only [if_neg hdone]
    cases m <;> rfl

end Replies
end Replicas

/-- Settles O7: a digest held, a request answered or passed on, and a reply used or passed on. -/
theorem replicasCompareAndRepair : Obligations.ReplicasCompareAndRepair := by
  intro s at_ p j t hjob
  refine ⟨fun b hkind hmine hother hfresh hnew => ?digest, fun m r hasks hcw hr => ?answer, fun m hasks hcw => ?request,
    fun m hasks hsource => ?reply, fun m hasks hsource => ?used⟩
  case digest => exact congrArg Host.Outcome.next (State.digestNotice_holds (s := t) hjob hkind hmine hother hfresh hnew)
  case answer => exact congrArg Host.Outcome.next (State.repairMsg_answers (s := t) hjob hasks hcw hr)
  case request => exact congrArg Host.Outcome.next (State.repairMsg_passes_request (s := t) hjob hasks hcw)
  case reply => exact congrArg Host.Outcome.next (State.repairMsg_passes_reply (s := t) hjob hasks hsource)
  case used =>
    refine (congrArg Host.Outcome.next (State.repairMsg_uses (s := t) hjob hasks hsource)).trans ?_
    cases m <;> rfl

end Sys2Proof.Machine
end

section
/-! SUPPORT. The opening of sessions, frames that are no datagrams, links and budgets, for
`Obligations.SessionsOpenAndFramesAnswer` (O10). -/

namespace Sys2Proof.Machine

/-! ### INIT and ACCEPT (R335, R356) -/

section Hello
variable {s : State} {p : Nat} {b : Buf}

theorem State.initRx_rejects (h : s.initGood p b = false) : s.initRx p b = s.rejectHello p := if_pos (by simp [h])

/-- The half-open session of a site gone, as a new INIT of that site leaves it. -/
def State.halfOpenGone (s : State) (p site : Nat) : State :=
  match s.places.find? fun k => (s.sess k).peer = site && (s.sess k).state = .opening && !(s.sess k).initiator with
  | some k => s.putSess k { Session.reset with outStream := (s.sess k).outStream, used := true, peer := site, port := p }
  | none => s

/-- The responding session that a good INIT makes, with its keys. -/
def State.responder (w : State) (p : Nat) (b : Buf) (k : Nat) : Session :=
  let id := w.pickSessId
  let kk := id.2.random
  let nr := kk.2.random
  let u := nr.2.random.2
  ({ Session.reset with
      used := true, localId := id.1, peerId := b.be 0 2, state := .opening, peer := b.byte 10, port := p, nonceI := b.be 15 32
      nonceR := nr.1, openSince := u.now, outStream := (w.sess k).outStream, replacing := w.openPlace (b.byte 10) } : Session).derive
    kk.1 u.now u.htNow

/-- The state in which the responding session stands, with its Weir. -/
def State.responded (w : State) (p : Nat) (b : Buf) (k : Nat) : State :=
  (w.pickSessId.2.random.2.random.2.random.2.putSess k (w.responder p b k)).startWeir k

/-- The signed part of the ACCEPT. -/
def State.acceptBody (w : State) (p : Nat) (b : Buf) (k : Nat) : Buf :=
  let id := w.pickSessId
  let kk := id.2.random
  let nr := kk.2.random
  let u := w.responded p b k
  Buf.cat [helloHead id.1 u.imageId u.ownSite u.cw nr.1, u.identityChain,
    Buf.ofBe 384 (rsaPublic (certModulus (b.slice helloLen 832)) (oaepEncode kk.1 nr.2.random.1))]

section Init
variable (h : s.initGood p b = true)
include h

/-- A good INIT: without a place it is rejected, else it is answered. -/
theorem State.initRx_of_good : s.initRx p b =
    let w := s.halfOpenGone p (b.byte 10)
    match w.newPlace (b.byte 10) false with
    | none => w.rejectHello p
    | some k =>
      let body := w.acceptBody p b k
      (w.responded p b k).sendHello k 0xB (b.be 0 2) (body.app (identitySig (sha256 ((sha256Buf b).app body)))) :=
  if_neg (by simp [h])

theorem State.initRx_full (hfull : (s.halfOpenGone p (b.byte 10)).newPlace (b.byte 10) false = none) :
    s.initRx p b = (s.halfOpenGone p (b.byte 10)).rejectHello p := by
  rw [State.initRx_of_good h]
  dsimp only
  rw [hfull]

theorem State.initRx_answers {k : Nat} (hplace : (s.halfOpenGone p (b.byte 10)).newPlace (b.byte 10) false = some k) : s.initRx p b =
    let w := s.halfOpenGone p (b.byte 10)
    let body := w.acceptBody p b k
    (w.responded p b k).sendHello k 0xB (b.be 0 2) (body.app (identitySig (sha256 ((sha256Buf b).app body)))) := by
  rw [State.initRx_of_good h]
  dsimp only
  rw [hplace]

end Init

theorem State.acceptRx_unanswered (h : s.places.find? (fun k => (s.sess k).port = p && s.acceptGood k b) = none) :
    s.acceptRx p b = s.rejectHello p := by
  unfold State.acceptRx
  rw [h]

theorem State.acceptRx_undecrypted (h : Config.identityDecrypt (b.be (helloLen + 1664) 384) = none) : s.acceptRx p b = s.rejectHello p := by
  unfold State.acceptRx
  split
  · rfl
  · rw [h]

theorem State.acceptRx_opens {k kk : Nat} (hplace : s.places.find? (fun k => (s.sess k).port = p && s.acceptGood k b) = some k)
    (h : Config.identityDecrypt (b.be (helloLen + 1664) 384) = some kk) : s.acceptRx p b =
    ((s.onSess k fun x => ({ x with peerId := b.be 0 2, nonceR := b.be 15 32 } : Session).derive (kk % 2 ^ 256) s.now s.htNow).opened
      k).sendHeartbeats k := by
  unfold State.acceptRx
  rw [hplace]
  dsimp only
  rw [h]

end Hello

/-! ### Frames that are no datagrams, and links (R328, R349) -/

section Frames
variable {s : State} {p r : Nat} {b : Buf}

theorem State.foreignFrame_bad (h : goodFrame b = none) :
    s.foreignFrame p r b = s.onFarPort p fun x => { x with fcsErrors := satAdd 32 x.fcsErrors 1 } := by
  unfold State.foreignFrame
  rw [h]

theorem State.foreignFrame_foreign {f : Buf} (h : goodFrame b = some f) (hforeign : isForeign ((s.farPort p).route r) f = true) :
    s.foreignFrame p r b = s.onFarPort p fun x => { x with foreign := satAdd 32 x.foreign 1 } := by
  unfold State.foreignFrame
  rw [h]
  exact if_pos hforeign

theorem State.solicitation_answers {f : Buf} (hup : ((s.farPort p).route r).linkUp = true) (h : goodFrame b = some f) (hlen : f.len ≠ 0)
    (hfor : forRoute ((s.farPort p).route r) f = true) (hicmp : f.byte (ipOff f + 6) = 58) (hask : f.byte (ipOff f + 40) = 135)
    (hown : f.be (ipOff f + 48) 16 = ((s.farPort p).route r).ip6) :
    s.solicitation p r b = s.emit (.frame p r (advert ((s.farPort p).route r) f)) := by
  unfold State.solicitation
  rw [h]
  exact if_pos (by simp [hup, hlen, hfor, hicmp, hask, hown])

end Frames

/-! ### Budgets that take force (R352) -/

section Budgets
variable {s : State} {target : Nat} {c : Nat × Nat × Nat}

theorem State.weirEffective_partner (hpeer : target < 5) (hdue : (s.partner target).budgets.find?
      (fun b => b.1 ≤ s.htNow && (s.partner target).budgets.all fun c => b.1 ≤ c.1) = some c) : s.weirEffective target =
      let q := s.partner target
      let u := s.putPartner target { q with budgets := q.budgets.erase c, rate := c.2.1, burst := c.2.2 }
      let ks := u.places.filter fun k => (u.sess k).peer = target && !(u.sess k).bulk
      let u := ks.foldl (fun u k => u.onSess k fun x => x.setWeir u.now c.2.1 c.2.2) u
      match ks with
      | k :: _ => u.raiseSess Ev.acxBudgetChanged k
      | [] => u.raise Ev.acxBudgetChanged q.port [(16, 0), (3, target)] := by
  have hgoes : s.weirEffective target = _ := if_pos hpeer
  rw [hgoes]
  dsimp only
  rw [hdue] <;> rfl

theorem State.weirEffective_bulk {k : Nat} (hbulk : 5 ≤ target)
    (hplace : s.places.find? (fun k => (s.sess k).localId = target - 0x100 && (s.sess k).bulk) = some k)
    (hdue : (s.sess k).budgets.find? (fun b => b.1 ≤ s.htNow && (s.sess k).budgets.all fun c => b.1 ≤ c.1) = some c) :
    s.weirEffective target = (s.onSess k fun x =>
      ({ x with budgets := x.budgets.erase c } : Session).setWeir s.now c.2.1 c.2.2).raiseSess Ev.acxBudgetChanged k := by
  have hgoes : s.weirEffective target = _ := if_neg (Nat.not_lt.mpr hbulk)
  rw [hgoes, hplace]
  dsimp only
  rw [hdue]

end Budgets

/-- Settles O10: each arrival, and each budget that takes force, by its own lemma. -/
theorem sessionsOpenAndFramesAnswer : Obligations.SessionsOpenAndFramesAnswer := by
  intro s at_ p r b t rejected site
  refine ⟨fun hbad => ?badInit, fun hgood => ?init, fun hnone => ?noSession, fun hnone => ?undecrypted, fun k kk hplace hkk => ?accept,
    fun hbad => ?badFcs, fun f hf hforeign => ?foreign, fun hup f hf hlen hfor hicmp hask hown => ?solicitation, fun hpins => ?linkUp,
    fun target c hpeer hdue => ?partner, fun target k c hbulk hplace hdue => ?bulk⟩
  case badInit => exact congrArg Host.Outcome.next (State.initRx_rejects (s := t) hbad)
  case init =>
    intro w
    refine ⟨fun hfull => congrArg Host.Outcome.next (State.initRx_full (s := t) hgood hfull),
      fun k id kk nr seed u hplace hid hkk hnr hseed => ?_⟩
    obtain ⟨rfl, rfl⟩ := Prod.mk.inj hseed
    subst hid hkk hnr
    exact congrArg Host.Outcome.next (State.initRx_answers (s := t) hgood hplace)
  case noSession => exact congrArg Host.Outcome.next (State.acceptRx_unanswered (s := t) hnone)
  case undecrypted => exact congrArg Host.Outcome.next (State.acceptRx_undecrypted (s := t) hnone)
  case accept => exact congrArg Host.Outcome.next (State.acceptRx_opens (s := t) hplace hkk)
  case badFcs => exact congrArg Host.Outcome.next (State.foreignFrame_bad (s := t) hbad)
  case foreign => exact congrArg Host.Outcome.next (State.foreignFrame_foreign (s := t) hf hforeign)
  case solicitation => exact congrArg Host.Outcome.next (State.solicitation_answers (s := t) hup hf hlen hfor hicmp hask hown)
  case linkUp => exact congrArg Host.Outcome.next (if_pos (c := t.pinsLive = true) hpins)
  case partner => exact congrArg Host.Outcome.next (State.weirEffective_partner (s := t) hpeer hdue)
  case bulk => exact congrArg Host.Outcome.next (State.weirEffective_bulk (s := t) hbulk hplace hdue)

end Sys2Proof.Machine
end

section
/-! SUPPORT. Session timers, transmission, route failure and key epochs, for `Obligations.SessionTimersComplete` (O11). -/

namespace Sys2Proof.Machine

section SessionTimers
variable {s : State} {k : Nat}

/-! ### INIT, ACK and HEARTBEAT timers (R333, R335, R348) -/

section InitRetry
variable (hstate : (s.sess k).state = .opening) (hown : (s.sess k).initiator = true) (hdue : (s.sess k).initAt + (s.sess k).initGap ≤ s.now)
include hstate hown hdue

/-- INIT is sent again unless a BULK_OPEN has waited too long. -/
theorem State.initRetry_of_due : s.initRetry k =
    if (s.sess k).waitMb.isSome && (s.sess k).openSince + 30 * oneS ≤ s.now then s.closeSess k true
    else (s.onSess k fun x => { x with initAt := s.now, initGap := Nat.min (2 * x.initGap) (30 * oneS) }).sendHello k 0xA 0 (s.sess k).initPay :=
  if_neg (by simpa [hstate, hown] using hdue)

theorem State.initRetry_gives_up (hwait : (s.sess k).waitMb.isSome = true) (hlate : (s.sess k).openSince + 30000000000 ≤ s.now) :
    s.initRetry k = s.closeSess k true :=
  (State.initRetry_of_due hstate hown hdue).trans (if_pos ((Bool.and_eq_true ..).mpr ⟨hwait, decide_eq_true hlate⟩))

theorem State.initRetry_again (hgoes : (s.sess k).waitMb = none ∨ s.now < (s.sess k).openSince + 30000000000) : s.initRetry k =
    (s.onSess k fun x => { x with initAt := s.now, initGap := Nat.min (2 * x.initGap) 30000000000 }).sendHello k 0xA 0 (s.sess k).initPay := by
  refine (State.initRetry_of_due hstate hown hdue).trans (if_neg ?_)
  obtain hnone | hearly := hgoes
  · simp [hnone]
  · rw [decide_eq_false (Nat.not_le.mpr hearly : ¬ (s.sess k).openSince + 30 * oneS ≤ s.now)]
    simp

end InitRetry

theorem State.ackTimer_reports (hstate : (s.sess k).state = .open_) (hsome : (s.sess k).unrep ≠ 0)
    (hdue : (s.sess k).ackAt + 100000 ≤ s.now ∨ 64 ≤ (s.sess k).unrep) : s.ackTimer k =
      let x := s.sess k
      let runs := runsOf (x.gotAbove.filter fun q => x.ackFrom ≤ q)
      let out := runs.take 1023
      let next := match (runs.drop 1023).head? with | some r => r.1 | none => 0
      let pay := Buf.cat (((Buf.ofBe 2 out.length).app (Buf.zeros 6)) :: out.map fun r => (Buf.ofBe 6 r.1).app (Buf.ofBe 2 r.2))
      let u := x.inUse.foldl (fun u r => u.sendLoose k r 6 pay) s
      u.onSess k fun y => { y with unrep := 0, ackAt := u.now, ackFrom := next } := by
  refine if_neg ?_
  have hdue' : ¬ (s.now < (s.sess k).ackAt + 100 * oneUs ∧ (s.sess k).unrep < 64) := by
    unfold oneUs
    omega
  simpa [hstate, hsome] using hdue'

theorem State.heartbeatTimer_sends (hstate : (s.sess k).state = .open_ ∨ (s.sess k).state = .held) (hdue : (s.sess k).hbAt + 500000 ≤ s.now) :
    s.heartbeatTimer k = s.sendHeartbeats k := if_pos (by simpa [oneUs, hdue] using hstate)

/-! ### Timeouts and transmission (R345, R347, R351) -/

section Rto
variable {seq : Nat} {d : Datagram} (hd : (s.sess k).flight.find? (fun d => d.seq = seq && !d.lost) = some d)
include hd

theorem State.rtoExpiry_early (hearly : s.now < d.sentAt + Nat.min (d.rtoNs * 2 ^ d.timeouts) 2000000000) : s.rtoExpiry k seq = s := by
  unfold State.rtoExpiry
  rw [hd]
  exact if_pos hearly

theorem State.rtoExpiry_lost (hlate : d.sentAt + Nat.min (d.rtoNs * 2 ^ d.timeouts) 2000000000 ≤ s.now) : s.rtoExpiry k seq =
    (s.onSess k fun x => { x with flight := x.flight.map fun d =>
      if d.seq = seq then { d with lost := true, timeouts := d.timeouts + 1 } else d }).lossCheck k := by
  unfold State.rtoExpiry
  rw [hd]
  exact if_neg (Nat.not_lt.mpr hlate)

end Rto

section Transmit
variable {u : State} {d : Datagram} {isNew : Bool} {r : Nat} (hu : u = s.onSess k fun x => x.fill s.now)
  (hopen : (u.sess k).state = .open_) (hnext : (u.sess k).next u.cistFull = some (d, isNew)) (hepoch : (u.sess k).txEpoch < 0xFFF0)
  (hseq : (if isNew then (u.sess k).nextSeq else d.seq) < 2 ^ 48 - 1)
  (hroute : (u.sess k).pickRoute (if isNew then (u.sess k).lastRoute else d.route) = some r)
include hu hopen hnext hepoch hseq hroute

/-- The datagram that is next, with a route and an epoch to leave on, leaves where the bucket holds its cost. -/
theorem State.transmit_of_next : s.transmit k =
    let y := u.sess k
    let cost := 8000 * lineBytes ((u.farPort y.port).route r) d.payload.len
    let seq := if isNew then y.nextSeq else d.seq
    let d' : Datagram := { d with seq, txCount := d.txCount + 1, route := r, sentAt := u.now, rtoNs := (y.route r).rto, lost := false }
    if y.tokens < cost then u
    else
      (u.onSess k fun x =>
        let x := { x with tokens := x.tokens - cost }
        if isNew then
          ({ x with queue := x.queue.erase d, flight := x.flight ++ [d'], nextSeq := x.nextSeq + 1, lastRoute := r } : Session).refill u.now
        else
          { x with flight := x.flight.map (fun z => if z.seq = seq then d' else z), resends := satAdd 32 x.resends 1 }).sendSealed
        k r d.type seq d.txCount d.round d.frag d.chunk d.last d.payload := by
  unfold State.transmit
  rw [← hu]
  dsimp only
  rw [if_neg (by simp [hopen]), hnext]
  dsimp only
  rw [if_neg (by simpa [Nat.not_le.mpr hepoch] using hseq), hroute]

end Transmit

/-! ### Routes, sessions and keys (R338, R339, R349, R350) -/

/-- A route that fails is settled; with both failed the session is HELD. -/
theorem State.routeFail_fails {route : Nat} {lost : Bool} (hstate : (s.sess k).state = .open_ ∨ (s.sess k).state = .held)
    (hup : ((s.sess k).route route).failed = false) (hdue : lost = true ∨ ((s.sess k).route route).lastRx + 1500000 ≤ s.now) :
    s.routeFail k route lost =
      let x := s.sess k
      let u := if lost then s.onFarPort x.port fun p => p.onRoute route fun r => { r with linkUp := false } else s
      let u := u.onSess k fun x => x.onRoute route fun r => { r with failed := true, rxOk := false, hbRun := 0, hasRtt := false, cands := [] }
      let u := (u.onFarPort x.port fun p => { p with failovers := satAdd 16 p.failovers 1 }).settleRoute k route
      let y := u.sess k
      if y.state = .open_ && y.ra.failed && y.rb.failed
        then (u.onSess k fun x => { x with state := .held, heldAt := u.now }).raiseSess Ev.acxPortDown k
        else u.lossCheck k := by
  unfold State.routeFail
  dsimp only
  rw [if_neg (by simpa only [Bool.not_eq_true', Bool.not_eq_false, Bool.or_eq_true, decide_eq_true_eq] using hstate)]
  refine if_neg ?_
  cases lost with
  | true => simp [hup]
  | false => simpa [hup, oneUs] using hdue

theorem State.sessionTimeout_closes (hstate : (s.sess k).state = .held)
    (hdue : (s.sess k).heldAt + (s.partner (s.sess k).peer).timeoutS * 1000000000 ≤ s.now) : s.sessionTimeout k = s.closeSess k true :=
  if_pos ((Bool.and_eq_true ..).mpr ⟨decide_eq_true hstate, decide_eq_true hdue⟩)

section Ratchet
variable (hstate : (s.sess k).state = .open_ ∨ (s.sess k).state = .held)
  (hdue : 2 ^ 32 ≤ (s.sess k).epochSent ∨ (s.sess k).epochAt + 600000000000 ≤ s.htNow)
include hstate hdue

theorem State.keyRatchet_of_due : s.keyRatchet k = if 0xFFF0 ≤ (s.sess k).txEpoch + 1 then s.reopen k else s.ratchetSess k := by
  have hdue' : (s.sess k).ratchetDue s.htNow = true := by
    unfold Session.ratchetDue
    rw [Bool.or_eq_true, decide_eq_true_eq, decide_eq_true_eq]
    exact hdue
  refine if_neg ?_
  simpa only [hdue', Bool.not_true, Bool.or_false, Bool.not_eq_true', Bool.not_eq_false, Bool.or_eq_true, decide_eq_true_eq] using hstate

end Ratchet

theorem State.keyHoldExpiry_erases {key till : Nat} (hold : (s.sess k).keyRxOld = some (key, till)) (hdue : till ≤ s.now) :
    s.keyHoldExpiry k = s.onSess k fun x => { x with keyRxOld := none } := by
  unfold State.keyHoldExpiry State.onSess
  dsimp only
  rw [hold]
  dsimp only
  rw [if_pos hdue]

end SessionTimers

/-- Settles O11: each timer at its time, and a transmission, by its own lemma. -/
theorem sessionTimersComplete : Obligations.SessionTimersComplete := by
  intro s at_ k t x
  refine ⟨fun hstate hown hdue => ?init, fun hstate hsome hdue => ?ack, fun hstate hdue => ?heartbeat, fun seq d hd => ?rto, ?transmit,
    fun route lost hstate hup hdue => ?routeFail, fun hstate hdue => ?timeout, fun hstate hdue => ?ratchet, fun key till hold hdue => ?keyHold⟩
  case init =>
    exact ⟨fun hwait hlate => congrArg Host.Outcome.next (State.initRetry_gives_up (s := t) hstate hown hdue hwait hlate),
      fun hgoes => congrArg Host.Outcome.next (State.initRetry_again (s := t) hstate hown hdue hgoes)⟩
  case ack => exact congrArg Host.Outcome.next (State.ackTimer_reports (s := t) hstate hsome hdue)
  case heartbeat => exact congrArg Host.Outcome.next (State.heartbeatTimer_sends (s := t) hstate hdue)
  case rto =>
    exact ⟨fun hearly => congrArg Host.Outcome.next (State.rtoExpiry_early (s := t) hd hearly),
      fun hlate => congrArg Host.Outcome.next (State.rtoExpiry_lost (s := t) hd hlate)⟩
  case transmit =>
    intro u y hopen d isNew r hnext hepoch seq hseq hroute cost
    have hsent := State.transmit_of_next (s := t) (u := u) rfl hopen hnext hepoch hseq hroute
    exact ⟨fun hpoor => congrArg Host.Outcome.next (hsent.trans (if_pos hpoor)),
      fun hrich => congrArg Host.Outcome.next (hsent.trans (if_neg (Nat.not_lt.mpr hrich)))⟩
  case routeFail => exact congrArg Host.Outcome.next (State.routeFail_fails (s := t) hstate hup hdue)
  case timeout => exact congrArg Host.Outcome.next (State.sessionTimeout_closes (s := t) hstate hdue)
  case ratchet =>
    have hratchet := State.keyRatchet_of_due (s := t) hstate hdue
    exact ⟨fun hmore => congrArg Host.Outcome.next (hratchet.trans (if_neg (Nat.not_le.mpr hmore))),
      fun hlast => congrArg Host.Outcome.next (hratchet.trans (if_pos hlast))⟩
  case keyHold => exact congrArg Host.Outcome.next (State.keyHoldExpiry_erases (s := t) hold hdue)

end Sys2Proof.Machine
end
